-- ==== Sys2Proof/Word.lean ====
section
/-! DEFINITION. The word types of the SE-880 and the two table types that hold its sparse state. -/

namespace Sys2Proof

/-- A byte of a descriptor, a record, a frame or a memory. -/
abbrev Byte := BitVec 8
/-- A 16-bit field (a cause code, a cluster id). -/
abbrev W16 := BitVec 16
/-- A 32-bit register, token value or waymark. -/
abbrev W32 := BitVec 32
/-- A 64-bit register, counter or object reference. -/
abbrev W64 := BitVec 64
/-- A partition id, 0 to 31 (R302). -/
abbrev PartId := Fin 32

/-- A table of values by number, of which only some are written out; a number that is not listed holds the
table's default, which its reader supplies. -/
abbrev Tbl (α : Type) := List (Nat × α)

end Sys2Proof
end

