-- ==== Sys2Proof/Kinds.lean ====
section
/-! DEFINITION. The types of the operands that the commands of Sys2Proof/Syntax.lean carry. -/

namespace Sys2Proof

/-- How an access of the device to host memory ends (R360, R377): it succeeds, its translation is refused, or it
ends with an unsuccessful completion, poisoned data or a completion timeout. -/
inductive HostAccess where
  | ok
  | refusedTranslation
  | failedCompletion
  deriving DecidableEq, Repr

/-- The engine units of a context (R8, R9): CMP, MOV, SEQ, CDC[0..3] and NET[0..1]. -/
inductive EngineUnit where
  | cmp
  | mov
  | seq
  | cdc (u : Fin 4)
  | net (u : Fin 2)
  deriving DecidableEq, Repr

/-- What COMMAND_START is asked to start: the startable head of an engine unit's queues, the oldest command that the
control core holds because no queue exists for it (R40), or the next command of a tile group that participant `k`
of the SHARED call `call` runs (R150). -/
inductive StartSlot where
  | queue (u : EngineUnit)
  | held
  | participant (call k : Nat)
  deriving DecidableEq, Repr

/-- The part of a cluster a command occupies (R84): the full array, or its left or right half. -/
inductive HalfSel where
  | full
  | left
  | right
  deriving DecidableEq, Repr

/-- What failed in an array (R96): operand parity, stationary parity, or the drain's row tag. -/
inductive ArrayKind where
  | operandParity
  | stationaryParity
  | drainTag
  deriving DecidableEq, Repr

/-- What failed in Wick (R134): a stage at a lane, or a Lantern bank at a unit and slot. -/
inductive WickKind where
  | stage (lane : Byte)
  | bank (bank : Bool) (unit slot : Byte)
  deriving DecidableEq, Repr

/-- A place whose lines patrol scrub reads (R261): an HBM or LPDDR channel, a cluster's SRAM, a tile's Hamper. -/
inductive PatrolUnit where
  | hbm (c : Fin 256)
  | lpddr (c : Fin 64)
  | sram (cluster bank : Nat)
  | hamper (tile : Fin 20) (bank : Nat)
  deriving DecidableEq, Repr

/-- What a read of a line finds (R257 to R259): nothing wrong, a corrected error, an uncorrectable line. -/
inductive EccFinding where
  | clean
  | corrected
  | uncorrectable
  deriving DecidableEq, Repr

/-- What the error correction finds in a line that a command reads (R257 to R259): the home's code (Table 7.1), the
line's number in that memory (its physical address divided by 64), and the finding. -/
structure EccHit where
  home : BitVec 2
  line : Nat
  finding : EccFinding
  deriving DecidableEq, Repr

/-- A memory channel: HBM 0 to 255 or LPDDR 0 to 63 (R236, R237). -/
inductive ChannelId where
  | hbm (c : Fin 256)
  | lpddr (c : Fin 64)
  deriving DecidableEq, Repr

/-- The transports that carry SPDM (R327, R372): the PF's DOE mailbox, a VF's DOE mailbox, the sideband. -/
inductive Transport where
  | pfDoe
  | vfDoe (p : PartId)
  | sideband
  deriving DecidableEq, Repr

/-- One entry of a REG_WRITE (Table 10.2): PF BAR0 offset, width in bytes, the three bytes 5 to 7, the value. -/
structure RegEntry where
  offset : W32
  width : Byte
  pad : BitVec 24
  value : W64
  deriving DecidableEq, Repr

/-- What a frame on the wire turned out to be when the port checked it (R382, R385 step 1). -/
inductive FrameCheck where
  | good
  | badFcs
  | fecUncorrectable
  deriving DecidableEq, Repr

/-- The link states of an Ethernet port (Table 12.10). -/
inductive NetLink where
  | down
  | training
  | up
  deriving DecidableEq, Repr

/-- What ends a host port's state (R461, last row of Table 15.6). -/
inductive PortReset where
  | perst
  | hotReset
  | secondaryBus
  | linkDisable
  deriving DecidableEq, Repr

/-- The conditions of Table 15.3 other than shutdown. -/
inductive ThermalCond where
  | junctionThrottle
  | junctionCritical
  | hbmWarm (stack : Fin 8)
  | coolantTempHigh
  | coolantTempLow
  | coolantFlow
  deriving DecidableEq, Repr

/-- What the boot ROM finds in one firmware image (R344). -/
inductive ImageCheck where
  | pass
  | badSignature
  | rollback
  deriving DecidableEq, Repr

/-- How a start-up ends (Table 15.4): every domain, channel and self-test good, or the first that is not. -/
inductive StartupResult where
  | ok
  | domainFailed (domain : Nat)
  | channelFailed (c : ChannelId)
  | cryptoFailed (die : Fin 4)
  deriving DecidableEq, Repr

/-- What the sensors and the input stage measured over one governor period (R444, R449, R453). -/
structure PowerSample where
  milliVolt : W16
  tenMilliAmp : W16
  avgWatt : W16
  peakWatt : W16
  inlet : W16
  outlet : W16
  hottest : W16
  hotDomain : BitVec 7
  /-- the lowest input voltage within the period, in mV -/
  lowest : W16 := milliVolt
  deriving DecidableEq, Repr

/-- What the header and the signature of an image say beside its SVN and the digest of its body (R343). -/
structure ImageHead where
  magicOk : Bool := true
  version : W32 := 0
  /-- the body's length as the header gives it; none: as it is -/
  bodyLen : Option Nat := none
  /-- signed under the key of maker slot 0x01; otherwise of 0x00 -/
  slot1 : Bool := false
  deriving DecidableEq, Repr

/-- What the host's configuration software sets at the host port (R355 to R357, R360, R376): VF Enable's NumVFs, the bases of the BARs, the enable and
function mask of MSI-X at the PF and at the VFs; and the link replays since the link was last reported. -/
structure HostConfig where
  numVfs : Fin 33 := 32
  pfBar0 : W64 := 0
  vfBar0 : W64 := 0
  vfBar2 : W64 := 0
  pfMsixOn : Bool := true
  pfMsixMask : Bool := false
  vfMsixOn : Bool := true
  vfMsixMask : Bool := false
  replays : Nat := 0
  deriving DecidableEq, Repr

/-- How the scrubs of an FLR end (Table 11.4 steps 5 and 6): quads and Hamper granules that fail their verify; and whether the host then enables the
VF's MSI-X again. -/
structure FlrEnd where
  badQuads : List Nat := []
  badGranules : List (Nat × Nat) := []
  msixOn : Bool := true
  deriving DecidableEq, Repr

/-- What an IDE selective stream is associated with (R373): the PF or the VF of a partition, and ranges of its BARs as base and limit. -/
structure IdeAssoc where
  pf : Bool := false
  ranges : List (W64 × W64) := []
  deriving DecidableEq, Repr

/-- The mirror shape of a twin (R412), which its module reports in its keepalives. -/
structure TwinShape where
  quads : Nat
  hamper : List Nat
  lpddrGib : Nat
  hbmGib : Nat
  seqCap : Nat
  streamCap : Nat
  objCap : Nat
  listCap : Nat
  stageMib : Nat
  sameStepping : Bool
  deriving DecidableEq, Repr

/-- The twin's state as the peer's keepalives give it when the peer returns (R404, R411). -/
inductive TwinReport where
  | standby
  | promoted
  | other
  deriving DecidableEq, Repr

/-- What the peer module shows of itself in a key exchange (R399): the digest of its identity key, and whether its signature verifies. -/
structure PeerKey where
  digest : BitVec 256
  sigOk : Bool
  deriving DecidableEq, Repr

/-- A flit as the Ecior receiver takes it (Table 13.1), with what its CRC and tag checks found (R402). -/
structure Flit where
  kind : Byte
  seq : W16
  ack : W16
  payload : List Byte
  crcOk : Bool
  tagOk : Bool
  deriving DecidableEq, Repr

/-- One entry or page of a delta (Table 13.2), as side B stages it. -/
inductive DeltaItem where
  | seqEntry (index : Nat) (image : List Byte)
  | streamEntry (index : Nat) (image : List Byte)
  | objEntry (index : Nat) (image : List Byte)
  | seqPage (image : List Byte)
  | page (handle : Nat) (offset : Nat) (poison : W64) (bytes : List Byte)
  deriving DecidableEq, Repr

/-- Who reads a register: a session, the host through PF BAR0, or a tenant through its VF (R330, R498). -/
inductive RegPort where
  | session (sid : Nat)
  | pfMmio
  | vfMmio (p : PartId)
  deriving DecidableEq, Repr

/-- The requests whose messages are large enough to come in chunks (R327): those that carry a key, a signature, an image or entries. -/
inductive LargeRequest where
  | finish (sid : Nat) (sigOk : Bool)
  | claim (key : List Byte) (wellFormed : Bool) (sid : Option Nat := none)
  | credInstall (sid : Nat) (slot : Byte) (key : List Byte) (wellFormed : Bool)
  | fwStage (sid : Nat) (first last : Bool) (piece : List Byte) (svn : BitVec 6) (digest : BitVec 256) (check : ImageCheck)
    (head : ImageHead := {})
  | regWrite (sid : Nat) (entries : List RegEntry)
  deriving DecidableEq, Repr

end Sys2Proof
end

