-- ==== Sys2Proof/Syntax.lean ====
section
/-!
DEFINITION. The commands of the SE-880: one constructor per row of spec/opcode_table.json, in the table's order.

Conventions of the operands (log entry 16): `p` is a partition; `id` is the number the model gave a command when
its descriptor was fetched (or when the device generated it); `sid` is the number of an open SPDM session.
`ecc` is what the error correction finds in the lines a command reads; left out, it finds nothing in them.
An operand that is not the sender's to choose (how a host access ends, whether a signature verifies, what a
sensor reads) is what the outside of the block supplies.
-/

namespace Sys2Proof

/-- The commands of the block. -/
inductive Instr where
  /-- DESCRIPTOR_FETCH (R17): the control core of `p` takes up to `count + 1` descriptors from the ring whose turn it is. -/
  | descriptorFetch (p : PartId) (count : Fin 8) (io : HostAccess) (ecc : List EccHit := [])
  /-- DOORBELL (R15): the tenant writes `value` to DOORBELL[n]. -/
  | doorbell (p : PartId) (n : Fin 16) (value : W32)
  /-- RING_START (R504): START in RUN_CTRL of RING[n]. -/
  | ringStart (p : PartId) (n : Fin 16)
  /-- RING_STOP (R19): STOP in RUN_CTRL of RING[n]. -/
  | ringStop (p : PartId) (n : Fin 16)
  /-- COMMAND_START (R10). -/
  | commandStart (p : PartId) (slot : StartSlot) (ecc : List EccHit := [])
  /-- COMMAND_TERMINAL (R44); `io` is how the write of its completion record in host memory ends. -/
  | commandTerminal (p : PartId) (id : Nat) (io : HostAccess) (ecc : List EccHit := [])
  /-- FENCE (R36). -/
  | fence (p : PartId) (id : Nat)
  /-- WAIT (R38). -/
  | wait (p : PartId) (id : Nat)
  /-- SIGNAL (R34). -/
  | signal (p : PartId) (id : Nat)
  /-- SNUFF (R43): the control core fetches the SNUFF that stands next in the ring whose turn it is. -/
  | snuff (p : PartId) (io : HostAccess) (ecc : List EccHit := [])
  /-- LIST_LOAD (R54 steps 1 to 3). -/
  | listLoad (p : PartId) (id : Nat) (ecc : List EccHit := [])
  /-- LIST_GENERATION_SWITCH (R54 step 4). -/
  | listGenerationSwitch (p : PartId) (id : Nat)
  /-- CONTEXT_ENABLE (R62): a write of CTX_CTRL[c] with enable 1. -/
  | contextEnable (p : PartId) (c : Fin 16) (pin : Bool) (priority : BitVec 3)
  /-- CONTEXT_DISABLE (R62): a write of CTX_CTRL[c] with enable 0. -/
  | contextDisable (p : PartId) (c : Fin 16) (pin : Bool) (priority : BitVec 3)
  /-- BATCH_STEP_BOUNDARY (R59, R60). -/
  | batchStepBoundary (p : PartId)
  /-- CONTEXT_SAVE (R62). -/
  | contextSave (p : PartId) (c : Fin 16)
  /-- CONTEXT_RESTORE (R62). -/
  | contextRestore (p : PartId) (c : Fin 16)
  /-- GEMM_TILE (R84). -/
  | gemmTile (p : PartId) (id : Nat) (ecc : List EccHit)
  /-- REDUCE_INTO (R91). -/
  | reduceInto (p : PartId) (id : Nat) (ecc : List EccHit)
  /-- ARRAY_FAULT (R95) on a physical cluster. -/
  | arrayFault (cluster : Nat) (half : HalfSel) (kind : ArrayKind) (row column : Byte) (beats : W32) (rowsWritten : W16)
  /-- ARRAY_TIMEOUT (R94) on a physical cluster. -/
  | arrayTimeout (cluster : Nat) (half : HalfSel) (beats : W32) (rowsWritten : W16)
  /-- SELF_CHECK (R95 steps 4 to 6): the self-check of one half ends. -/
  | selfCheck (cluster : Nat) (half : HalfSel) (pass : Bool)
  /-- WICK_OP (R116). -/
  | wickOp (p : PartId) (id : Nat) (ecc : List EccHit)
  /-- NORM_RMS (R129). -/
  | normRms (p : PartId) (id : Nat) (ecc : List EccHit)
  /-- WICK_FAULT (R134) on a physical cluster. -/
  | wickFault (cluster : Nat) (half : HalfSel) (kind : WickKind) (beats : W32) (rowsWritten : W16)
  /-- LANTERN_LOAD (R127 steps 1 and 2). -/
  | lanternLoad (p : PartId) (id : Nat)
  /-- LANTERN_LOAD_WRITE (R127 steps 3 to 5). -/
  | lanternLoadWrite (p : PartId) (id : Nat) (ecc : List EccHit := [])
  /-- LANTERN_SWITCH (R128). -/
  | lanternSwitch (p : PartId) (id : Nat)
  /-- LIST_CALL (R142). -/
  | listCall (p : PartId) (id : Nat) (ecc : List EccHit := [])
  /-- PARTICIPANT_TAKE_INDEX (R150): participant `k` of the SHARED call `id`. -/
  | participantTakeIndex (p : PartId) (id k : Nat) (ecc : List EccHit := [])
  /-- TILE_WATCH_EXPIRY (R151): participant `k` of the SHARED call `id`. -/
  | tileWatchExpiry (p : PartId) (id k : Nat)
  /-- CONV_TILE (R156). -/
  | convTile (p : PartId) (id : Nat) (ecc : List EccHit)
  /-- ATTN_TILE (R162). -/
  | attnTile (p : PartId) (id : Nat) (ecc : List EccHit)
  /-- SCAN_CHUNK (R220). -/
  | scanChunk (p : PartId) (id : Nat) (ecc : List EccHit)
  /-- SEQ_ADD (R201). -/
  | seqAdd (p : PartId) (id : Nat) (ecc : List EccHit := [])
  /-- SEQ_FORK (R199). -/
  | seqFork (p : PartId) (id : Nat) (ecc : List EccHit := [])
  /-- SEQ_END (R202). -/
  | seqEnd (p : PartId) (id : Nat) (ecc : List EccHit := [])
  /-- STEP (R190). -/
  | step (p : PartId) (id : Nat) (ecc : List EccHit := [])
  /-- STEP_COMMIT (R195). -/
  | stepCommit (p : PartId) (id : Nat) (ecc : List EccHit := [])
  /-- STEP_PHASE_FAIL (R196). -/
  | stepPhaseFail (p : PartId) (id : Nat) (ecc : List EccHit := [])
  /-- PREFIX_LOOKUP (R181). -/
  | prefixLookup (p : PartId) (id : Nat) (ecc : List EccHit := [])
  /-- PAGE_PIN (R186). -/
  | pagePin (p : PartId) (id : Nat) (ecc : List EccHit := [])
  /-- SEQ_PAGE_START (R203). -/
  | seqPageStart (p : PartId)
  /-- SEQ_PAGE_STOP (R203). -/
  | seqPageStop (p : PartId)
  /-- STREAM_CHUNK_OPEN (R219). -/
  | streamChunkOpen (p : PartId) (id : Nat) (ecc : List EccHit := [])
  /-- STREAM_CHUNK_UPDATE (R219). -/
  | streamChunkUpdate (p : PartId) (id : Nat) (ecc : List EccHit := [])
  /-- STREAM_CHUNK_RESET (R219). -/
  | streamChunkReset (p : PartId) (id : Nat) (ecc : List EccHit := [])
  /-- STREAM_CHUNK_CLEAR (R219). -/
  | streamChunkClear (p : PartId) (id : Nat) (ecc : List EccHit := [])
  /-- STREAM_CHUNK_CLOSE (R219). -/
  | streamChunkClose (p : PartId) (id : Nat) (ecc : List EccHit := [])
  /-- AUTOMATIC_SWAP_IN (R215): the pending automatic swap-in of object `handle` starts. -/
  | automaticSwapIn (p : PartId) (handle : Nat)
  /-- OBJ_CMD_DEFINE (R239): a write of OBJ_CMD with go and op DEFINE. -/
  | objCmdDefine (p : PartId) (handle : BitVec 20) (home : BitVec 2) (mirror : Bool)
  /-- OBJ_CMD_RELEASE (R239). -/
  | objCmdRelease (p : PartId) (handle : BitVec 20)
  /-- OBJ_CMD_MARK (R239). -/
  | objCmdMark (p : PartId) (handle : BitVec 20) (mirror : Bool)
  /-- MOVE (R242 steps 1 to 3). -/
  | move (p : PartId) (id : Nat)
  /-- PREFETCH (R246). -/
  | prefetch (p : PartId) (id : Nat)
  /-- SWAP_OUT (R214). -/
  | swapOut (p : PartId) (id : Nat)
  /-- SWAP_IN (R247). -/
  | swapIn (p : PartId) (id : Nat)
  /-- MOVE_COMMIT (R242 steps 4 to 6) of the move with number `id`. -/
  | moveCommit (p : PartId) (id : Nat) (ecc : List EccHit)
  /-- FILL (R248). -/
  | fill (p : PartId) (id : Nat) (ecc : List EccHit := [])
  /-- SCRUB (R248); `bad` are the lines of the range that do not read back as zero. -/
  | scrub (p : PartId) (id : Nat) (bad : List Nat)
  /-- PATROL_SCRUB (R261). -/
  | patrolScrub (u : PatrolUnit) (finding : EccFinding)
  /-- CHANNEL_FAIL (R262). -/
  | channelFail (c : ChannelId)
  /-- RET_PAGE (R263): a write of RET_PAGE in session `sid`; `flashOk`: both flash devices took the list. -/
  | retPage (sid : Nat) (value : W64) (flashOk : Bool)
  /-- SESSION_OPEN (R295). -/
  | sessionOpen (p : PartId) (id : Nat)
  /-- DECODE_UNIT (R280). -/
  | decodeUnit (p : PartId) (id : Nat) (ecc : List EccHit := [])
  /-- ENCODE_FRAME (R284). -/
  | encodeFrame (p : PartId) (id : Nat) (ecc : List EccHit := [])
  /-- SESSION_CLOSE (R276). -/
  | sessionClose (p : PartId) (id : Nat)
  /-- BATCH_SUSPEND (R289) on CDC[u]. -/
  | batchSuspend (u : Fin 4)
  /-- BATCH_RESUME (R289) on CDC[u]. -/
  | batchResume (u : Fin 4)
  /-- UNIT_WORK_BOUND (R291) of the DECODE_UNIT `id`. -/
  | unitWorkBound (p : PartId) (id : Nat)
  /-- CDC_FAULT (R300) on CDC[u]. -/
  | cdcFault (u : Fin 4)
  /-- PART_CREATE (R306) in session `sid`. -/
  | partCreate (sid : Nat) (p : PartId)
  /-- PART_COMMIT (R307). -/
  | partCommit (sid : Nat) (p : PartId)
  /-- PART_ABANDON (R306). -/
  | partAbandon (sid : Nat) (p : PartId)
  /-- PART_START (R306). -/
  | partStart (sid : Nat) (p : PartId)
  /-- PART_STOP (R308). -/
  | partStop (sid : Nat) (p : PartId)
  /-- PART_FORCE (R306). -/
  | partForce (sid : Nat) (p : PartId)
  /-- PART_TEARDOWN (R316). -/
  | partTeardown (sid : Nat) (p : PartId)
  /-- DRAIN_COMPLETE (R308). -/
  | drainComplete (p : PartId)
  /-- DRAIN_TIMEOUT (R306). -/
  | drainTimeout (p : PartId)
  /-- TEARDOWN_COMPLETE (R316); the quads and (tile, granules) whose lines failed the verify. -/
  | teardownComplete (p : PartId) (badQuads : List Nat) (badGranules : List (Nat × Nat))
  /-- SNAPSHOT (R318) in session `sid`. -/
  | snapshot (sid : Nat) (p : PartId)
  /-- REGULATOR_REFILL (R312): a period boundary of bucket `bucket` of regulator `r` of partition `p`. -/
  | regulatorRefill (p : PartId) (r : Fin 5) (bucket : Fin 4)
  /-- GET_VERSION (R327). -/
  | getVersion (t : Transport)
  /-- GET_CAPABILITIES (R327); `version`: the version of the request's header. -/
  | getCapabilities (t : Transport) (version : Byte := 0x13)
  /-- NEGOTIATE_ALGORITHMS (R327); `offered`: the request offers every algorithm the device supports. -/
  | negotiateAlgorithms (t : Transport) (offered : Bool)
  /-- GET_DIGESTS (R341). -/
  | getDigests (t : Transport)
  /-- GET_CERTIFICATE (R341): `length` bytes of slot `slot` from `offset`. -/
  | getCertificate (t : Transport) (slot : Byte) (offset length : W16)
  /-- CHALLENGE (R341). -/
  | challenge (t : Transport) (nonce : List Byte)
  /-- GET_MEASUREMENTS (R342): one index, or all of them. -/
  | getMeasurements (t : Transport) (index : Option Byte) (nonce : List Byte)
  /-- KEY_EXCHANGE (R328) naming credential `cred`; `heartbeat` is the heartbeat period it negotiates. -/
  | keyExchange (t : Transport) (cred : Byte) (heartbeat : Byte)
  /-- FINISH (R328) of the handshake `sid`; `sigOk`: the requester's signature verifies under the slot's key. -/
  | finish (sid : Nat) (sigOk : Bool)
  /-- HEARTBEAT (R329). -/
  | heartbeat (sid : Nat)
  /-- KEY_UPDATE (R327). -/
  | keyUpdate (sid : Nat)
  /-- END_SESSION (R329). -/
  | endSession (sid : Nat)
  /-- CHUNK_SEND (R327): one chunk of a large request; `request`: the large request that the chunks make, told with the last one. -/
  | chunkSend (t : Transport) (handle : Byte) (seqNo : W16) (last : Bool) (chunk : List Byte) (request : Option LargeRequest := none)
  /-- CHUNK_GET (R327): one chunk of a large response. -/
  | chunkGet (t : Transport) (handle : Byte) (seqNo : W16)
  /-- HEARTBEAT_TIMEOUT (R329). -/
  | heartbeatTimeout (sid : Nat)
  /-- REG_WRITE (R333). -/
  | regWrite (sid : Nat) (entries : List RegEntry)
  /-- REG_READ (R332). -/
  | regRead (sid : Nat) (offsets : List W32)
  /-- CLAIM (R324) by the board manager over the sideband. -/
  | claim (key : List Byte) (wellFormed : Bool) (sid : Option Nat := none)
  /-- RELEASE (R325): in session `sid`, or over the sideband outside any session (`none`). -/
  | release (sid : Option Nat)
  /-- CRED_INSTALL (R326). -/
  | credInstall (sid : Nat) (slot : Byte) (key : List Byte) (wellFormed : Bool)
  /-- CRED_REMOVE (R332). -/
  | credRemove (sid : Nat) (slot : Byte)
  /-- FW_STAGE (R345): a piece of an image; the last piece carries the verdict of the image's check. -/
  | fwStage (sid : Nat) (first last : Bool) (piece : List Byte) (svn : BitVec 6) (digest : BitVec 256) (check : ImageCheck) (head : ImageHead := {})
  /-- FW_ACTIVATE (R346). -/
  | fwActivate (sid : Nat)
  /-- SVN_COMMIT (R346). -/
  | svnCommit (sid : Nat)
  /-- CONSENT (R349). -/
  | consent (sid : Nat)
  /-- DEBUG_UNLOCK (R350) with the nonce it carries. -/
  | debugUnlock (sid : Nat) (nonce : BitVec 256)
  /-- PAIR_BIND (R399). -/
  | pairBind (sid : Nat) (digest : BitVec 256)
  /-- GET_TDISP_VERSION (R347), in session `sid`, for the interface of partition `p`. -/
  | getTdispVersion (sid : Nat) (p : PartId)
  /-- GET_TDISP_CAPABILITIES (R347). -/
  | getTdispCapabilities (sid : Nat) (p : PartId)
  /-- LOCK_INTERFACE_REQUEST (R347). -/
  | lockInterfaceRequest (sid : Nat) (p : PartId)
  /-- GET_DEVICE_INTERFACE_REPORT (R347). -/
  | getDeviceInterfaceReport (sid : Nat) (p : PartId)
  /-- GET_DEVICE_INTERFACE_STATE (R347). -/
  | getDeviceInterfaceState (sid : Nat) (p : PartId)
  /-- START_INTERFACE_REQUEST (R347). -/
  | startInterfaceRequest (sid : Nat) (p : PartId)
  /-- STOP_INTERFACE_REQUEST (R347). -/
  | stopInterfaceRequest (sid : Nat) (p : PartId)
  /-- ATS_INVALIDATION (R358): the 4 KiB host pages whose translations of VF `p + 1` are removed. -/
  | atsInvalidation (p : PartId) (pages : List W64)
  /-- APERTURE_READ (R363): `len` bytes at VF BAR2 offset `off`. -/
  | apertureRead (p : PartId) (off : BitVec 34) (len : Nat) (finding : EccFinding)
  /-- APERTURE_WRITE (R363): the bytes of a write at VF BAR2 offset `off`; `poisoned`: it arrived as a poisoned TLP. -/
  | apertureWrite (p : PartId) (off : BitVec 34) (bytes : List Byte) (poisoned : Bool) (finding : EccFinding := .clean)
  /-- HOST_READ_TIMEOUT (R361) of the ring read of RING[n]. -/
  | hostReadTimeout (p : PartId) (n : Fin 16)
  /-- VF_FLR (R374). -/
  | vfFlr (p : PartId)
  /-- FLR_STEP3_TIMEOUT (R375). -/
  | flrStep3Timeout (p : PartId)
  /-- FLR_DONE (R374 steps 4 to 8). -/
  | flrDone (p : PartId) (scrubs : FlrEnd := {})
  /-- VF_ENABLE_CLEAR (R355). -/
  | vfEnableClear (again : Option HostConfig := none)
  /-- HST_HDM_GIB (R367): a write in session `sid`. -/
  | hstHdmGib (sid : Nat) (value : W32)
  /-- HST_HDM_ATTR (R370): a write of HST_HDM_ATTR[k] in session `sid`. -/
  | hstHdmAttr (sid : Nat) (k : Fin 128) (value : W32)
  /-- HDM_DECODER_COMMIT (R367); `bi`: back-invalidate is enabled at the host port. -/
  | hdmDecoderCommit (bi : Bool) (base : W64 := 0)
  /-- HDM_ACCESS (R368): a host read (`none`) of, or write to, one line of the exposed range, at byte offset `off`
  within the line range. -/
  | hdmAccess (line : Nat) (off : Fin 64) (write : Option (List Byte)) (cached : Bool) (finding : EccFinding)
  /-- IDE_FAULT (R373): on the link stream (`none`) or a selective stream. -/
  | ideFault (stream : Option (Fin 32))
  /-- LINK_TRAINED (R354): lanes, rate code and flit code of Table 11.7. -/
  | linkTrained (width : BitVec 5) (rate : BitVec 4) (flit : BitVec 2) (config : HostConfig := {})
  /-- LINK_DOWN (R377). -/
  | linkDown
  /-- HOST_PORT_RESET (R461). -/
  | hostPortReset (kind : PortReset)
  /-- SEND (R387). -/
  | send (p : PartId) (id : Nat) (ecc : List EccHit := [])
  /-- RECV_POST (R388). -/
  | recvPost (p : PartId) (id : Nat)
  /-- RTP_BIND (R392). -/
  | rtpBind (p : PartId) (id : Nat) (ecc : List EccHit := [])
  /-- RTP_UNBIND (R392). -/
  | rtpUnbind (p : PartId) (id : Nat)
  /-- FRAME_RECEIVE (R385): a frame on NET[n], from destination MAC to the byte before the FCS. -/
  | frameReceive (n : Fin 2) (frame : List Byte) (check : FrameCheck) (ecc : List EccHit := [])
  /-- RECV_IDLE (R388). -/
  | recvIdle (p : PartId) (id : Nat)
  /-- VPORT_ENABLE (R383): a write of VP_CTRL of VPORT[v] with enable 1, in session `sid`. -/
  | vportEnable (sid : Nat) (p : PartId) (v : Fin 64) (value : W32)
  /-- VPORT_DISABLE (R384): a write of VP_CTRL with enable 0. -/
  | vportDisable (sid : Nat) (p : PartId) (v : Fin 64) (value : W32)
  /-- NET_LINK_CHANGE (R397). -/
  | netLinkChange (n : Fin 2) (link : NetLink)
  /-- NET_FAULT (R397). -/
  | netFault (n : Fin 2)
  /-- FLIT_RECEIVE (R402). -/
  | flitReceive (f : Flit)
  /-- NAK (R402): a received NAK names the sequence number the peer expects. -/
  | nak (seq : W16)
  /-- KEYX (R399): the exchange at link-up; the peer's side bit, its identity digest, whether its signature verifies. -/
  | keyx (peerSideB : Bool) (digest : BitVec 256) (sigOk : Bool)
  /-- KEEPALIVE (R404). -/
  | keepalive
  /-- KEEPALIVE_MISS (R404). -/
  | keepaliveMiss
  /-- PAIR_LINK_FAIL (R403). -/
  | pairLinkFail
  /-- PEER_BACK (R411): the peer answers again, with the state of each primary's twin. -/
  | peerBack (p : PartId) (twin : TwinReport)
  /-- MIRROR_ENABLE (R411): a write of ECI_MIR_CTRL[p] with enable 1, in session `sid`. -/
  | mirrorEnable (sid : Nat) (p : PartId) (value : W32)
  /-- SYNC (R411), in session `sid`, with the shape the peer reports for the twin. -/
  | sync (sid : Nat) (p : PartId) (twin : TwinShape)
  /-- PROMOTE (R413). -/
  | promote (sid : Nat) (p : PartId)
  /-- SOLO (R411). -/
  | solo (sid : Nat) (p : PartId)
  /-- UNBIND (R411). -/
  | unbind (sid : Nat) (p : PartId)
  /-- DELTA_END (R409): side B has received a delta for twin `p`, whole; `digestOk`: END's count and hash agree. -/
  | deltaEnd (p : PartId) (waymark : W32) (full : Bool) (bytes : Nat) (items : List DeltaItem) (digestOk : Bool)
  /-- DELTA_ACK (R409): the ACK of the delta with this waymark reaches side A. -/
  | deltaAck (p : PartId) (waymark : W32)
  /-- REFUSE (R411): a REFUSE reaches side A. -/
  | refuse (p : PartId) (cause : W16)
  /-- PWR_EN_RISE (R456); `j1`: the J1 input is in its window. -/
  | pwrEnRise (j1 : Bool)
  /-- POWER_GOOD (R456): the strap pins as sampled; `storeOk`: the credential store passes its MAC. -/
  | powerGood (straps : BitVec 9) (storeOk : Bool)
  /-- IMAGE_VERIFIED (R344): what the boot ROM finds in the active image and in the other one. -/
  | imageVerified (active other : ImageCheck)
  /-- HOST_PUSH_IMAGE (R344): the pushed image's header and check. -/
  | hostPushImage (svn : BitVec 6) (digest : BitVec 256) (check : ImageCheck) (flash : ImageCheck) (other : ImageCheck := flash)
  /-- STARTUP (R457): how it ends, the quads whose test fails, and the withheld Hamper granules. -/
  | startup (result : StartupResult) (badHalves : List (Nat × HalfSel)) (badGranules : List (Nat × Nat))
  /-- PWR_EN_FALL (R456). -/
  | pwrEnFall
  /-- J1_WINDOW_EXIT (R430). -/
  | j1WindowExit
  /-- RESET_N (R461): RESET_N has been low for at least 10 µs. -/
  | resetN
  /-- ENTDAA (R439): the address the board manager assigns to this module when it wins the arbitration. -/
  | entdaa (addr : BitVec 7)
  /-- RSTDAA (R439). -/
  | rstdaa
  /-- SETDASA (R437): to static address `static`, the dynamic address. -/
  | setdasa (static addr : BitVec 7)
  /-- SETNEWDA (R435): to the current dynamic address, the new one. -/
  | setnewda (current addr : BitVec 7)
  /-- ENEC (R436): the IBI and Hot-Join enable bits. -/
  | enec (ibi hotJoin : Bool)
  /-- DISEC (R439). -/
  | disec (ibi hotJoin : Bool)
  /-- GETPID (R438). -/
  | getpid
  /-- GETBCR (R435). -/
  | getbcr
  /-- GETDCR (R435). -/
  | getdcr
  /-- GETSTATUS (R440). -/
  | getstatus
  /-- GETMRL (R435). -/
  | getmrl
  /-- GETMWL (R435). -/
  | getmwl
  /-- SETMRL (R435). -/
  | setmrl (len : W16)
  /-- SETMWL (R435). -/
  | setmwl (len : W16)
  /-- MCTP_CONTROL (R441): the bus owner sets the endpoint id, or asks for it (`none`). -/
  | mctpControl (eid : Option Byte)
  /-- STATUS_GET (R441). -/
  | statusGet
  /-- ALERT_GET (R441). -/
  | alertGet
  /-- GOVERNOR_PERIOD (R449). -/
  | governorPeriod (sample : PowerSample)
  /-- POWER_FAST_LIMIT (R450): the input power or the J1 current that the input stage sees. -/
  | powerFastLimit (watt : W16) (tenMilliAmp : W16)
  /-- THERMAL_CONDITION (R454): a condition begins to hold, or clears. -/
  | thermalCondition (cond : ThermalCond) (holds : Bool)
  /-- THERMAL_SHUTDOWN (R455). -/
  | thermalShutdown
  /-- CONVERTER_FAULT (R468). -/
  | converterFault (domain : Fin 116)
  /-- PWR_ST_REQ (R462): a write with go in session `sid`. -/
  | pwrStReq (sid : Nat) (quad : BitVec 7) (force : Bool)
  /-- SELFTEST_DONE (R464): the failing halves (physical clusters) and the SRAM lines that could not be repaired. -/
  | selftestDone (quad : Nat) (badHalves : List (Nat × HalfSel)) (badLines : List (Nat × Nat))
  /-- CALIBRATION_SLICE (R465): `drift`: the slice finds drift beyond its range. -/
  | calibrationSlice (c : ChannelId) (drift : Bool)
  /-- RETRAIN (R466): the channel has seen no demand access for 4,096 clocks; `ok`: the retrain succeeds. -/
  | retrain (c : ChannelId) (ok : Bool)
  /-- RETRAIN_FORCED (R466). -/
  | retrainForced (c : ChannelId) (ok : Bool)
  /-- PARTITION_STALL (R484). -/
  | partitionStall (p : PartId)
  /-- EVT_START (R485). -/
  | evtStart (p : PartId)
  /-- EVT_STOP (R478). -/
  | evtStop (p : PartId)
  /-- EVT_HEAD (R477): a write of EVT_HEAD of a partition, or of PEV_HEAD (`none`) in session `sid`. -/
  | evtHead (p : Option PartId) (sid : Nat) (value : W32) (io : HostAccess)
  /-- PEV_ENABLE (R486): a write of PEV_CFG in session `sid`. -/
  | pevEnable (sid : Nat) (value : W32)
  /-- LOCK (R495): a write of LOCK of the PF page at `page` in session `sid`. -/
  | lock (sid : Nat) (page : W32) (locked : Bool)
  /-- REGISTER_READ_CLEAR (R498): a read of a register, which clears an RC register; an MMIO read takes `width` bytes. -/
  | registerReadClear (port : RegPort) (offset : W32) (width : Byte)
  /-- REGISTER_WRITE (R6): an MMIO write through PF BAR0 or a VF's BAR0. -/
  | registerWrite (port : RegPort) (offset : W32) (width : Byte) (value : W64)
  /-- CRYPTO_FAULT (R270). -/
  | cryptoFault (die : Fin 4)
  /-- J1_BACK_IN_WINDOW (R430). -/
  | j1BackInWindow
  /-- RESET_N_RISE (R461). -/
  | resetNRise
  /-- PERST_N_RISE (R460). -/
  | perstNRise
  /-- KEY_RENEWAL (R399); `peer`: what the peer shows in the exchange, where it is not the bound key. -/
  | keyRenewal (peer : Option PeerKey := none)
  /-- IDE_KM (R373): an IDE_KM message in session `sid` installs the keys of the link stream (`none`) or a selective stream. -/
  | ideKm (sid : Nat) (stream : Option (Fin 32)) (p : PartId) (assoc : IdeAssoc := {})
  /-- DOE_DISCOVERY (R372). -/
  | doeDiscovery (p : Option PartId) (index : Byte)
  /-- RETRAIN_WAIT (R466): the channel's temperature has changed by 15 K since its last training. -/
  | retrainWait (c : ChannelId)
  deriving DecidableEq, Repr

end Sys2Proof
end

