-- ==== Sys2Proof/Decode.lean ====
section
/-!
DEFINITION. The decoder of the opcode table's words. spec/opcode_table.json gives no row any bits: a command of this
block comes as a register access, a message or an event, not as a word. So no word spells a command.
-/

namespace Sys2Proof

/-- The command that a word of the opcode table spells: none, since the table gives no row bits. -/
def decodeTableWord (_nbits _w : Nat) : Option Instr := none

end Sys2Proof
end

