-- ==== Sys2Proof/Config.lean ====
section
/-!
DEFINITION. What the spec leaves open, as constants without a body, and the figures that every device has.

An opaque constant here is a FREE VALUE: nothing can be proved of it, so a statement holds whatever it is.
Where its first argument is called `u`, it is the use number `State.free` gave it (log entry 6): each use of such a
constant is a value of its own.
-/

namespace Sys2Proof.Config

/-- A byte the spec does not state: what remains of a partly done write, a stale value (log entry 6). -/
opaque freeByte : (u i : Nat) → Byte
/-- A number the spec does not state, smaller than `bound` where its reader takes it modulo `bound` (log entry 6). -/
opaque freeNat : (u : Nat) → Nat
/-- A choice the spec leaves to the device (log entry 6). -/
opaque freeBool : (u i : Nat) → Bool

/-- The order in which an accumulation of R79, R91, R115 or R83 adds its terms: `key u i` is the sort key of term `i`
(log entry 7). -/
opaque sumKey : (u i : Nat) → Nat
/-- Where an accumulation starts a partial sum of its own (log entry 7). -/
opaque sumSplit : (u i : Nat) → Bool

/-- The 24-bit value of stochastic rounding: a fixed function of the seed, the row and the column (R81, log entry 9). -/
opaque srValue : (seed : W32) → (row col : Nat) → BitVec 24

/-- The order in which FREE blocks of the KV pool, and leaves of equal use stamp, are taken (log entry 27). -/
opaque blockKey : (u b : Nat) → Nat
/-- The line of KVP_META that holds the record of a block slot: the object's contents are private to the device (R178,
log entry 28). -/
opaque metaLine : (slot : Nat) → Nat

/-- What the device reads of block slot `slot` in the bytes of KVP_META, on a module that takes them over (R405, R413): field `i` of it (log
entry 28). -/
opaque metaField : (bytes : List Byte) → (slot i : Nat) → Nat

/-- The line of a cluster's SRAM (`hamper = false`) or of a tile's Hamper that is line `pos` of bank `bank`: the spec gives no
order of lines over banks (R261, log entry 32). -/
opaque bankLine : (hamper : Bool) → (bank pos : Nat) → Nat

/-- Whether the access of a memory channel after its first `bytes` bytes fails its link check and is retried (R262, log entry 93). -/
opaque retried : (channel : Nat) → (bytes : W64) → Bool

/-- The first line, within granule 0 of HBM, of partition `p`'s list buffers and context images (R303): the spec does not place them
(log entry 92). -/
opaque areaLine : (p : Nat) → Nat

/-- The value of a built-in Lantern function at an input its chapter does not fix exactly (R119, log entry 8). -/
opaque lantern : (fn : Nat) → (x : W32) → W32
/-- The value of a built-in function at a number of 25 bits, which only the draws of R114 give it: the number between the FP32 number `x` and
the next (log entry 8). -/
opaque lanternBetween : (fn : Nat) → (x : W32) → W32

/-- Which zero the larger (`max`) or the smaller of two zeros of opposite sign is: true, −0; `first`: the first operand is −0 (R106, R254, log
entry 96). -/
opaque zeroPick : (max first : Bool) → Bool
/-- Whether NORM_RMS adds the square of an element to its lane's sum with one rounding (R129, log entry 96). -/
opaque normFused : Bool

/-- What a decoder of `codec` with this session history reconstructs: byte `i` of plane `plane` (log entry 10). -/
opaque decoded : (u : Nat) → (plane i : Nat) → Byte
/-- What an encoder emits of a picture's samples, its blocks coded at the QPs `qps`: byte `i` of the coded frame (log entry 10). -/
opaque encoded : (u : Nat) → (samples qps : List Nat) → (i : Nat) → Byte
/-- The QP that rate control gives block `k` of a frame with a target of so many bytes (R285, log entry 10). -/
opaque rateQp : (u target k : Nat) → Nat

/-- What a line written under key `k` reads as under key `j` (R265, log entry 11): byte `i` of the line. -/
opaque unrelated : (k j line i : Nat) → Byte

/-- SHA3-256 of a byte string (log entry 13). -/
opaque sha3 : List Byte → BitVec 256
/-- Prefix key number `k`, drawn from the device's random source (R179, log entry 13). -/
opaque prefixKey : (k : Nat) → BitVec 128
/-- The random bytes of an SPDM response (log entry 13). -/
opaque spdmBytes : (u i : Nat) → Byte
/-- The identity key that a device derives from its fused unique secret, its public half (R341, log entry 13). -/
opaque identityKey : (secret : BitVec 256) → List Byte
/-- The identity key's signature number `u`: byte `i` (R341, log entry 13). -/
opaque signed : (key : List Byte) → (u i : Nat) → Byte

/-- A flit sealed with AES-256-GCM under traffic key `key` (R401, log entry 99): byte `i` of the 228 encrypted bytes and the 16 of the tag that
stand after its head. -/
opaque sealed : (key nonce : Nat) → (head plain : List Byte) → (i : Nat) → Byte
/-- What a HELLO flit says of the side of its sender (R398, log entry 99): byte `i` of the payload. -/
opaque hello : (sideB : Bool) → (i : Nat) → Byte
/-- How a KEEPALIVE flit carries the mirror states of the 32 partitions (R404, log entry 99): byte `i` of the payload. -/
opaque mirrorStates : (codes : List Nat) → (i : Nat) → Byte
/-- How KVP_META holds the block records, each given as its slot and its fields (R178, R405, log entry 28): byte `i` of the object. -/
opaque metaImage : (records : List (List Nat)) → (i : Nat) → Byte

/-- The public keys of the maker's slots 0x00 and 0x01 (R322). -/
opaque makerKey : (slot : Nat) → List Byte
/-- The digest of the boot ROM (R342). -/
opaque bootRom : BitVec 256
/-- The bytes over which digest measurement `index` is taken, from the values of what Table 10.6 names for it (R342): the spec gives no
order or width for them (log entry 41). -/
opaque measured : (index : Nat) → (values : List Nat) → List Byte
/-- The device's certificate chain in slot 0 (R341): the root's, the product's, and the device certificate for this key, whose subject carries
serial number, grade and stepping. -/
opaque certChain : (key : List Byte) → (serial : W64) → (grade stepping : Nat) → List Byte
/-- The value type that the DMTF format gives measurement `index`, without the bit that tells raw bytes from a digest (R342, log entry 98). -/
opaque measureType : (index : Nat) → BitVec 7

/-- Which links a tile's mesh stop has: bits 0 to 3 north, east, south, west (Table 17.14); the spec does not place the tiles. -/
opaque meshLinks : (tile : Nat) → BitVec 4

end Sys2Proof.Config
end

