-- ==== Sys2Proof/Machine/Bits.lean ====
section
/-! DEFINITION. Byte strings as little-endian numbers, and fields of numbers (R5). -/

namespace Sys2Proof.Machine

/-- The number a byte string spells, least significant byte first (R5). -/
def leNat : List Byte → Nat
  | [] => 0
  | b :: t => b.toNat + 256 * leNat t

/-- The low `n` bytes of a number, least significant first (R5). -/
def leBytes : Nat → Nat → List Byte
  | 0, _ => []
  | n + 1, x => BitVec.ofNat 8 x :: leBytes n (x / 256)

/-- `n` bytes of a string from byte `i` on; what lies past its end reads as zero. -/
def slice (bs : List Byte) (i n : Nat) : List Byte :=
  let t := (bs.drop i).take n
  t ++ List.replicate (n - t.length) 0

/-- The number in bytes `i` to `i + n - 1`. -/
def fieldAt (bs : List Byte) (i n : Nat) : Nat := leNat ((bs.drop i).take n)

/-- Bits `lo` to `lo + n - 1` of a number. -/
def bitsOf (x lo n : Nat) : Nat := x / 2 ^ lo % 2 ^ n

/-- Bit `i` of a number. -/
def bitOf (x i : Nat) : Bool := x / 2 ^ i % 2 == 1

/-- 1 or 0. -/
def b2n (b : Bool) : Nat := if b then 1 else 0

/-- A signed number's `w`-bit two's complement form. -/
def toTwos (w : Nat) (x : Int) : Nat := (x % (2 ^ w : Nat)).toNat

/-- The signed number that `w` bits spell. -/
def ofTwos (w x : Nat) : Int := if x < 2 ^ (w - 1) then (x : Int) else (x : Int) - (2 ^ w : Nat)

/-- The least multiple of `n` that is at least `x`. -/
def roundUp (x n : Nat) : Nat := (x + n - 1) / n * n

/-- `⌈x / n⌉`. -/
def ceilDiv (x n : Nat) : Nat := (x + n - 1) / n

/-- A count that stops at the top of `w` bits. -/
def sat (w x : Nat) : Nat := min x (2 ^ w - 1)

/-- A register of `w` bits that counts and saturates, after `n` more. -/
def satAdd {w : Nat} (c : BitVec w) (n : Nat) : BitVec w := BitVec.ofNat w (sat w (c.toNat + n))

/-- A register of `w` bits that counts and wraps, after `n` more. -/
def wrapAdd {w : Nat} (c : BitVec w) (n : Nat) : BitVec w := BitVec.ofNat w (c.toNat + n)

/-- Whether every byte from `i` to `i + n - 1` is zero. -/
def zeroAt (bs : List Byte) (i n : Nat) : Bool := ((bs.drop i).take n).all (· == 0)

/-- The numbers of the set bits of `x` below `n`, rising. -/
def setBits (x n : Nat) : List Nat := (List.range n).filter (bitOf x ·)

/-- The number whose set bits are `l`. -/
def maskOf (l : List Nat) : Nat := l.foldl (fun m i => m ||| 2 ^ i) 0

/-- Four bytes as a word. -/
def word32 (bs : List Byte) (i : Nat) : W32 := BitVec.ofNat 32 (fieldAt bs i 4)

end Sys2Proof.Machine
end

