-- ==== Sys2Proof/Machine/Causes.lean ====
section
/-!
DEFINITION. The cause codes (Table 16.10 and the cause tables of the chapters) and their classes (Table 16.1).
-/

namespace Sys2Proof.Machine.Cause

/-- No cause (R488). -/
def none' : W16 := 0x0000#16
/-- BAD_ENGINE, class 2. -/
def badEngine : W16 := 0x0101#16
/-- BAD_OPCODE, class 2. -/
def badOpcode : W16 := 0x0102#16
/-- BAD_UNIT, class 2. -/
def badUnit : W16 := 0x0103#16
/-- RSVD_NONZERO, class 2. -/
def rsvdNonzero : W16 := 0x0104#16
/-- BAD_FALLBACK, class 2. -/
def badFallback : W16 := 0x0105#16
/-- EXT_MISMATCH, class 2. -/
def extMismatch : W16 := 0x0106#16
/-- BAD_WAIT, class 2. -/
def badWait : W16 := 0x0107#16
/-- WAYMARK_REGRESS, class 2. -/
def waymarkRegress : W16 := 0x0108#16
/-- WAYMARK_SPAN, class 2. -/
def waymarkSpan : W16 := 0x0109#16
/-- ABSENT, class 2. -/
def absent : W16 := 0x010A#16
/-- FLAGGED_INPUT, class 1. -/
def flaggedInput : W16 := 0x010B#16
/-- BAD_OPERAND, class 2. -/
def badOperand : W16 := 0x010C#16
/-- LIST_TOO_LARGE, class 2. -/
def listTooLarge : W16 := 0x010D#16
/-- LIST_INVALID, class 2. -/
def listInvalid : W16 := 0x010E#16
/-- RING_CONFIG, class 2. -/
def ringConfig : W16 := 0x010F#16
/-- RING_OVERRUN, class 2. -/
def ringOverrun : W16 := 0x0110#16
/-- RING_FETCH_FAULT, class 2. -/
def ringFetchFault : W16 := 0x0111#16
/-- RING_OBJECT_BUSY, class 2. -/
def ringObjectBusy : W16 := 0x0112#16
/-- CONTEXT_STARVED, class 0. -/
def contextStarved : W16 := 0x0113#16
/-- CTX_BUSY, class 2. -/
def ctxBusy : W16 := 0x0114#16
/-- BAD_FORMAT, class 2. -/
def badFormat : W16 := 0x0201#16
/-- BAD_FORMAT_PAIR, class 2. -/
def badFormatPair : W16 := 0x0202#16
/-- BAD_EXTENT, class 2. -/
def badExtent : W16 := 0x0203#16
/-- BAD_ALIGN, class 2. -/
def badAlign : W16 := 0x0204#16
/-- BAD_CLUSTER, class 2. -/
def badCluster : W16 := 0x0205#16
/-- BAD_HALF, class 2. -/
def badHalf : W16 := 0x0206#16
/-- ALT_MISSING, class 2. -/
def altMissing : W16 := 0x0207#16
/-- OPERAND_POISON, class 1. -/
def operandPoison : W16 := 0x0208#16
/-- ARRAY_FAULT, class 2. -/
def arrayFault : W16 := 0x0209#16
/-- ARRAY_TIMEOUT, class 2. -/
def arrayTimeout : W16 := 0x020A#16
/-- HALF_OFFLINE, class 2. -/
def halfOffline : W16 := 0x020B#16
/-- CLAIM_HOME, class 2. -/
def claimHome : W16 := 0x020C#16
/-- LIST_EMPTY, class 2. -/
def listEmpty : W16 := 0x020D#16
/-- LIST_CONTENT, class 2. -/
def listContent : W16 := 0x020E#16
/-- FILL_RANGE, class 2. -/
def fillRange : W16 := 0x020F#16
/-- NO_BUCKET, class 2. -/
def noBucket : W16 := 0x0210#16
/-- BAD_BUCKET_TABLE, class 2. -/
def badBucketTable : W16 := 0x0211#16
/-- COUNTER_HOME, class 2. -/
def counterHome : W16 := 0x0212#16
/-- TILE_REPLAY, class 0. -/
def tileReplay : W16 := 0x0213#16
/-- TILE_LOST, class 2. -/
def tileLost : W16 := 0x0214#16
/-- NO_PARTICIPANT, class 2. -/
def noParticipant : W16 := 0x0215#16
/-- BAD_CONV_GEOMETRY, class 2. -/
def badConvGeometry : W16 := 0x0216#16
/-- BAD_ATTN_SHAPE, class 2. -/
def badAttnShape : W16 := 0x0217#16
/-- BAD_PAGE, class 2. -/
def badPage : W16 := 0x0218#16
/-- BAD_WICK_PROGRAM, class 2. -/
def badWickProgram : W16 := 0x0301#16
/-- BAD_WICK_MODE, class 2. -/
def badWickMode : W16 := 0x0302#16
/-- CHAIN_BREAK, class 2. -/
def chainBreak : W16 := 0x0303#16
/-- LANTERN_EMPTY, class 2. -/
def lanternEmpty : W16 := 0x0304#16
/-- LANTERN_BANK_ACTIVE, class 2. -/
def lanternBankActive : W16 := 0x0305#16
/-- LANTERN_IMAGE, class 2. -/
def lanternImage : W16 := 0x0306#16
/-- LANTERN_NOT_MONOTONE, class 2. -/
def lanternNotMonotone : W16 := 0x0307#16
/-- LANTERN_CAPACITY, class 2. -/
def lanternCapacity : W16 := 0x0308#16
/-- NORM_PARAM, class 2. -/
def normParam : W16 := 0x0309#16
/-- WICK_FAULT, class 2. -/
def wickFault : W16 := 0x030A#16
/-- SEQ_NOT_RUNNING, class 2. -/
def seqNotRunning : W16 := 0x0401#16
/-- SEQ_CONFIG, class 2. -/
def seqConfig : W16 := 0x0402#16
/-- SEQ_BUSY, class 2. -/
def seqBusy : W16 := 0x0403#16
/-- BAD_SEQ_ID, class 2. -/
def badSeqId : W16 := 0x0404#16
/-- SEQ_STATE, class 2. -/
def seqState : W16 := 0x0405#16
/-- SEQ_INIT, class 2. -/
def seqInit : W16 := 0x0406#16
/-- FORK_IDS, class 2. -/
def forkIds : W16 := 0x0407#16
/-- FORK_STREAM, class 2. -/
def forkStream : W16 := 0x0408#16
/-- BAD_PLAN, class 2. -/
def badPlan : W16 := 0x0409#16
/-- STEP_PHASE_FAIL, class 2. -/
def stepPhaseFail : W16 := 0x040A#16
/-- KV_DROP, class 0. -/
def kvDrop : W16 := 0x040B#16
/-- KV_STARVED, class 0. -/
def kvStarved : W16 := 0x040C#16
/-- SEQ_CAPACITY, class 0. -/
def seqCapacity : W16 := 0x040D#16
/-- PIN_HOLE, class 2. -/
def pinHole : W16 := 0x040E#16
/-- PIN_LIMIT, class 2. -/
def pinLimit : W16 := 0x040F#16
/-- PIN_UNDERFLOW, class 2. -/
def pinUnderflow : W16 := 0x0410#16
/-- SEQ_OBJECT_BUSY, class 2. -/
def seqObjectBusy : W16 := 0x0411#16
/-- SEQ_POISON, class 1. -/
def seqPoison : W16 := 0x0412#16
/-- BAD_STREAM_ID, class 2. -/
def badStreamId : W16 := 0x0501#16
/-- STREAM_STATE, class 2. -/
def streamState : W16 := 0x0502#16
/-- STREAM_INIT, class 2. -/
def streamInit : W16 := 0x0503#16
/-- SCAN_MODE, class 2. -/
def scanMode : W16 := 0x0504#16
/-- STREAM_SHAPE, class 2. -/
def streamShape : W16 := 0x0505#16
/-- STREAM_BROKEN, class 2. -/
def streamBroken : W16 := 0x0506#16
/-- STREAM_SWAP_DEFERRED, class 0. -/
def streamSwapDeferred : W16 := 0x0507#16
/-- STREAM_SWAPIN_FAIL, class 2. -/
def streamSwapinFail : W16 := 0x0508#16
/-- STREAM_POISON, class 1. -/
def streamPoison : W16 := 0x0509#16
/-- BAD_HOME, class 2. -/
def badHome : W16 := 0x0601#16
/-- DEST_RANGE, class 2. -/
def destRange : W16 := 0x0602#16
/-- RETIRED_PAGE, class 2. -/
def retiredPage : W16 := 0x0603#16
/-- MOV_RANGE, class 2. -/
def movRange : W16 := 0x0604#16
/-- PREFETCH_DEADLINE, class 2. -/
def prefetchDeadline : W16 := 0x0605#16
/-- DEADLINE_MISS, class 0. -/
def deadlineMiss : W16 := 0x0606#16
/-- POISON, class 1. -/
def poison : W16 := 0x0607#16
/-- POISON_WRITE, class 1. -/
def poisonWrite : W16 := 0x0608#16
/-- MOVE_POISON, class 1. -/
def movePoison : W16 := 0x0609#16
/-- SWAP_ORIGIN, class 2. -/
def swapOrigin : W16 := 0x060A#16
/-- OBJ_BUSY, class 2. -/
def objBusy : W16 := 0x060B#16
/-- OBJ_DEFINE, class 2. -/
def objDefine : W16 := 0x060C#16
/-- CE_PAGE_LIMIT, class 0. -/
def cePageLimit : W16 := 0x060D#16
/-- RETIRE_FULL, class 2. -/
def retireFull : W16 := 0x060E#16
/-- SCRUB_VERIFY, class 1. -/
def scrubVerify : W16 := 0x060F#16
/-- CHANNEL_FAIL, class 3. -/
def channelFail : W16 := 0x0610#16
/-- CRYPTO_FAULT, class 3. -/
def cryptoFault : W16 := 0x0611#16
/-- SESSION_PARAM, class 2. -/
def sessionParam : W16 := 0x0701#16
/-- SESSION_QUOTA, class 2. -/
def sessionQuota : W16 := 0x0702#16
/-- SESSION_ID, class 2. -/
def sessionId : W16 := 0x0703#16
/-- SESSION_CONTEXT, class 2. -/
def sessionContext : W16 := 0x0704#16
/-- POOL_EXHAUSTED, class 2. -/
def poolExhausted : W16 := 0x0705#16
/-- BITSTREAM_ERROR, class 2. -/
def bitstreamError : W16 := 0x0706#16
/-- STREAM_UNSUPPORTED, class 2. -/
def streamUnsupported : W16 := 0x0707#16
/-- UNIT_WORK_BOUND, class 2. -/
def unitWorkBound : W16 := 0x0708#16
/-- CDC_POISON, class 1. -/
def cdcPoison : W16 := 0x0709#16
/-- DELIVERY_RANGE, class 2. -/
def deliveryRange : W16 := 0x070A#16
/-- RC_PARAM, class 2. -/
def rcParam : W16 := 0x070B#16
/-- RC_EXHAUSTED, class 0. -/
def rcExhausted : W16 := 0x070C#16
/-- BITSTREAM_FULL, class 2. -/
def bitstreamFull : W16 := 0x070D#16
/-- SESSION_OBJECT_BUSY, class 2. -/
def sessionObjectBusy : W16 := 0x070E#16
/-- CDC_FAULT, class 2. -/
def cdcFault : W16 := 0x070F#16
/-- VPORT_DOWN, class 2. -/
def vportDown : W16 := 0x0801#16
/-- NET_PEER, class 2. -/
def netPeer : W16 := 0x0802#16
/-- NET_SIZE, class 2. -/
def netSize : W16 := 0x0803#16
/-- NET_LINK, class 2. -/
def netLink : W16 := 0x0804#16
/-- NET_POISON, class 1. -/
def netPoison : W16 := 0x0805#16
/-- SPOOF, class 2. -/
def spoof : W16 := 0x0806#16
/-- RTP_PARAM, class 2. -/
def rtpParam : W16 := 0x0807#16
/-- RTP_SESSION, class 2. -/
def rtpSession : W16 := 0x0808#16
/-- VPORT_LIMIT, class 2. -/
def vportLimit : W16 := 0x0809#16
/-- VPORT_CONFLICT, class 2. -/
def vportConflict : W16 := 0x080A#16
/-- NET_LINK_CHANGE, class 0. -/
def netLinkChange : W16 := 0x080B#16
/-- NET_FAULT, class 3. -/
def netFault : W16 := 0x080C#16
/-- PAIR_ABSENT, class 2. -/
def pairAbsent : W16 := 0x0901#16
/-- PAIR_SIDE, class 2. -/
def pairSide : W16 := 0x0902#16
/-- PAIR_PEER, class 2. -/
def pairPeer : W16 := 0x0903#16
/-- PAIR_PARAM, class 2. -/
def pairParam : W16 := 0x0904#16
/-- PAIR_SHAPE, class 2. -/
def pairShape : W16 := 0x0905#16
/-- PAIR_STATE, class 2. -/
def pairState : W16 := 0x0906#16
/-- PAIR_STANDBY, class 2. -/
def pairStandby : W16 := 0x0907#16
/-- PAIR_LINK_FAIL, class 2. -/
def pairLinkFail : W16 := 0x0908#16
/-- PAIR_LOST, class 2. -/
def pairLost : W16 := 0x0909#16
/-- PAIR_OVERFLOW, class 2. -/
def pairOverflow : W16 := 0x090A#16
/-- PAIR_SPLIT, class 2. -/
def pairSplit : W16 := 0x090B#16
/-- PAIR_PROMOTED, class 0. -/
def pairPromoted : W16 := 0x090C#16
/-- HOST_TRANSLATION, class 2. -/
def hostTranslation : W16 := 0x0A01#16
/-- HOST_COMPLETION, class 2. -/
def hostCompletion : W16 := 0x0A02#16
/-- APERTURE_RANGE, class 2. -/
def apertureRange : W16 := 0x0A03#16
/-- FLR_DONE, class 0. -/
def flrDone : W16 := 0x0A04#16
/-- LINK_DEGRADED, class 0. -/
def linkDegraded : W16 := 0x0A05#16
/-- LINK_DOWN, class 3. -/
def linkDown : W16 := 0x0A06#16
/-- HDM_CONFIG, class 2. -/
def hdmConfig : W16 := 0x0A07#16
/-- HDM_ATTR, class 2. -/
def hdmAttr : W16 := 0x0A08#16
/-- IDE_FAULT, class 2. -/
def ideFault : W16 := 0x0A09#16
/-- NO_SESSION, class 2. -/
def noSession : W16 := 0x0B01#16
/-- OWNER_DENIED, class 2. -/
def ownerDenied : W16 := 0x0B02#16
/-- AUTH_FAIL, class 2. -/
def authFail : W16 := 0x0B03#16
/-- CRED_SLOT, class 2. -/
def credSlot : W16 := 0x0B04#16
/-- CLAIMED, class 2. -/
def claimed : W16 := 0x0B05#16
/-- SESSION_LIMIT, class 2. -/
def sessionLimit : W16 := 0x0B06#16
/-- PARTITIONS_LIVE, class 2. -/
def partitionsLive : W16 := 0x0B07#16
/-- JOURNAL_FAIL, class 3. -/
def journalFail : W16 := 0x0B08#16
/-- FW_SIGNATURE, class 2. -/
def fwSignature : W16 := 0x0B09#16
/-- FW_ROLLBACK, class 2. -/
def fwRollback : W16 := 0x0B0A#16
/-- FW_BUSY, class 2. -/
def fwBusy : W16 := 0x0B0B#16
/-- FW_FALLBACK, class 0. -/
def fwFallback : W16 := 0x0B0C#16
/-- TDI_LOCKED, class 2. -/
def tdiLocked : W16 := 0x0B0D#16
/-- CONSENT_MISSING, class 2. -/
def consentMissing : W16 := 0x0B0E#16
/-- DEBUG_ACTIVE, class 2. -/
def debugActive : W16 := 0x0B0F#16
/-- CRED_STORE_BAD, class 3. -/
def credStoreBad : W16 := 0x0B10#16
/-- POWER_FAST_LIMIT, class 0. -/
def powerFastLimit : W16 := 0x0C01#16
/-- POWER_CAP_FLOOR, class 0. -/
def powerCapFloor : W16 := 0x0C02#16
/-- THERMAL_THROTTLE, class 0. -/
def thermalThrottle : W16 := 0x0C03#16
/-- THERMAL_CRITICAL, class 0. -/
def thermalCritical : W16 := 0x0C04#16
/-- COOLANT_RANGE, class 0. -/
def coolantRange : W16 := 0x0C05#16
/-- COOLANT_FLOW, class 0. -/
def coolantFlow : W16 := 0x0C06#16
/-- CAP_PARAM, class 2. -/
def capParam : W16 := 0x0C07#16
/-- INPUT_LOW, class 0. -/
def inputLow : W16 := 0x0C08#16
/-- SELFTEST_HELD, class 0. -/
def selftestHeld : W16 := 0x0C09#16
/-- SELFTEST_PASS, class 0. -/
def selftestPass : W16 := 0x0C0A#16
/-- SELFTEST_FAIL, class 2. -/
def selftestFail : W16 := 0x0C0B#16
/-- ST_PARAM, class 2. -/
def stParam : W16 := 0x0C0C#16
/-- STARTUP_DEGRADED, class 0. -/
def startupDegraded : W16 := 0x0C0D#16
/-- STARTUP_FAIL, class 3. -/
def startupFail : W16 := 0x0C0E#16
/-- RETRAIN_FORCED, class 0. -/
def retrainForced : W16 := 0x0C0F#16
/-- CONVERTER_FAULT, class 3. -/
def converterFault : W16 := 0x0C10#16
/-- PART_STATE, class 2. -/
def partState : W16 := 0x0D01#16
/-- PART_CONFIG, class 2. -/
def partConfig : W16 := 0x0D02#16
/-- RWS_RUNNING, class 2. -/
def rwsRunning : W16 := 0x0D03#16
/-- PART_FIXED, class 2. -/
def partFixed : W16 := 0x0D04#16
/-- PART_BUSY, class 2. -/
def partBusy : W16 := 0x0D05#16
/-- DRAIN_TIMEOUT, class 0. -/
def drainTimeout : W16 := 0x0D06#16
/-- PART_STATE_CHANGE, class 0. -/
def partStateChange : W16 := 0x0D07#16
/-- SNAPSHOT_BUSY, class 2. -/
def snapshotBusy : W16 := 0x0D08#16
/-- TEARDOWN_FAULT, class 2. -/
def teardownFault : W16 := 0x0D09#16
/-- REG_PARAM, class 2. -/
def regParam : W16 := 0x0D0A#16
/-- PARTITION_STALL, class 2. -/
def partitionStall : W16 := 0x0D0B#16

/-- The causes of class 0. -/
def class0 : List W16 := [contextStarved, tileReplay, kvDrop, kvStarved, seqCapacity, streamSwapDeferred, deadlineMiss, cePageLimit, rcExhausted, netLinkChange, pairPromoted, flrDone, linkDegraded, fwFallback, powerFastLimit, powerCapFloor, thermalThrottle, thermalCritical, coolantRange, coolantFlow, inputLow, selftestHeld, selftestPass, startupDegraded, retrainForced, drainTimeout, partStateChange]
/-- The causes of class 1. -/
def class1 : List W16 := [flaggedInput, operandPoison, seqPoison, streamPoison, poison, poisonWrite, movePoison, scrubVerify, cdcPoison, netPoison]
/-- The causes of class 3; IDE_FAULT on the link stream is one too (R470) and its raiser says so. -/
def class3 : List W16 := [channelFail, cryptoFault, netFault, linkDown, journalFail, credStoreBad, startupFail, converterFault]

/-- The class of a cause (R470). -/
def classOf (c : W16) : BitVec 2 :=
  if class0.contains c then 0 else if class1.contains c then 1 else if class3.contains c then 3 else 2

end Sys2Proof.Machine.Cause
end

