-- ==== Sys2Proof/Machine/State.lean ====
section
/-!
DEFINITION. The state of the SE-880, as plain data, and its state right after a cold reset.

The state is grouped by the block that owns it. `Tbl` is a sparse table: what it does not list is at the default its
reader gives it (the entry's reset value). Every sub-structure has a `reset`, the value its registers have after reset
or, for a partition's own state, after CREATE.
-/

namespace Sys2Proof.Machine

/-- The two grades of Table 0.1. -/
inductive Grade where
  | se880a
  | se720a
  deriving DecidableEq, Repr

/-- The four homes of Table 7.1; their codes are 0 to 3 in this order. -/
inductive Home where
  | c
  | s
  | h
  | l
  deriving DecidableEq, Repr

/-- The memories of the device and of its host, each with an address space of its own: cluster SRAM (physical cluster
× 48 MiB + offset), Hamper (tile × 128 MiB + offset), HBM and LPDDR by device physical address, host memory. -/
inductive Space where
  | sram
  | hamper
  | hbm
  | lpddr
  | host
  deriving DecidableEq, Repr

/-- The terminal statuses of R44 and R48; their codes are 0 to 4 in this order. -/
inductive Status where
  | done
  | snuffed
  | skipped
  | flagged
  | absent
  deriving DecidableEq, Repr

/-- Where a fetched command stands: in an engine queue, held by the control core because it has no queue (R40),
started, or ended and waiting for its terminal record. -/
inductive CmdPhase where
  | queued
  | held
  | started
  | ended
  deriving DecidableEq, Repr

/-- A token (R27). -/
structure Token where
  val : W32 := 0
  flagged : Bool := false
  deriving DecidableEq, Repr

/-- A late object of a command (R250): the operands that it is, by their kinds, and the outstanding PREFETCHes that make it late, each with its
waymark. -/
structure LateObj where
  handle : Nat
  kinds : List Nat
  fetches : List (Nat × W32)
  deriving DecidableEq, Repr

/-- An outstanding command (R25): fetched, not yet terminal. -/
structure Cmd where
  id : Nat := 0
  /-- its descriptor, 64 or 128 bytes -/
  desc : List Byte := []
  ring : Nat := 0
  ctx : Nat := 0
  /-- the LIST_CALL or STEP that generated it -/
  parent : Option Nat := none
  /-- an inner command's first 64-byte slot in its list -/
  slot : Nat := 0
  /-- an inner command of a LIST_CALL -/
  inner : Bool := false
  /-- the SHARED tile it belongs to -/
  tile : Option Nat := none
  /-- the participant that runs it -/
  participant : Option Nat := none
  unit : Option EngineUnit := none
  /-- the cause that the fetch checks noted, 0 when none -/
  noted : W16 := 0
  phase : CmdPhase := .queued
  status : Status := .done
  cause : W16 := 0
  detail : W32 := 0
  consumedFlagged : Bool := false
  partialDone : Bool := false
  /-- the credits that its partition's transfers had asked for when it ended; it has its terminal record when they have got them (R312) -/
  owed : List Nat := []
  /-- the buffers whose compute mark its release_mask cleared (R279) -/
  released : List Nat := []
  /-- it has written something: a store or a memory-side operation of it took effect (R45, R147) -/
  wrote : Bool := false
  /-- waits the device adds (R194, R216) -/
  extraWaits : List (Nat × W32) := []
  /-- the Lantern bank it holds (R125) -/
  bank : Option Bool := none
  /-- fallback taken: 0 none, 1 STREAM, 2 ALT, 3 WAIT (R90, R251) -/
  fallback : Nat := 0
  /-- B (or the weights) is read from the alternate operand -/
  altB : Bool := false
  /-- a SCAN_CHUNK counted against its streams (R210) -/
  counted : Bool := false
  /-- a SCAN_CHUNK that waited for an automatic SWAP_IN (R230) -/
  waitedSwap : Bool := false
  /-- a move deferred under R214, and one forced while chunks were pending (R249) -/
  deferred : Bool := false
  forced : Bool := false
  /-- the physical cluster and the halves it occupies once it has started -/
  cluster : Option Nat := none
  left : Bool := false
  right : Bool := false
  /-- a WICK_OP armed on its half (R108) -/
  armed : Bool := false
  /-- commands of the other half have looked up while it was in the cluster's buffer (R102) -/
  beside : Bool := false
  /-- it has a reserved entry in its completion ring (R50) -/
  reserved : Bool := false
  /-- the commands a FENCE covers (R36), or those that ran on the halves of a chained WICK_OP when it armed (R108) -/
  covers : List Nat := []
  /-- bytes 20 to 31 of its event record where its chapter lays them down -/
  evDetail : Option (List Byte) := none
  /-- the fault its cause is a consequence of, already on the partition's ring (R473) -/
  faultSeq : Option W64 := none
  /-- the parameter block it read when it started (R116) -/
  aux : List Byte := []
  /-- how far a command whose meaning is cut into several rows has come; 1: it has begun and waits -/
  stage : Nat := 0
  /-- its place in the order in which the partition's commands started -/
  order : Nat := 0
  /-- the device issued it outside any queue (automatic SWAP_IN): the token it signals -/
  autoTok : Option Nat := none
  /-- its late objects, found at the moment it stood at the head of its queue with its waits satisfied (R250); none: not yet found -/
  judged : Option (List LateObj) := none
  /-- a SCAN_CHUNK for which STREAM_SWAPIN_FAIL has been raised for want of a C origin (R215) -/
  noOrigin : Bool := false
  deriving DecidableEq, Repr

/-- The states of RING_STAT (Table 1.4). -/
inductive RingState where
  | stopped
  | idle
  | fetching
  | stallQueue
  | stallContext
  | error
  deriving DecidableEq, Repr

/-- A submission ring and its completion ring (R20). -/
structure Ring where
  base : W64 := 0
  cfg : W32 := 6
  head : W32 := 0
  tail : W32 := 0
  state : RingState := .stopped
  lastCause : W16 := 0
  stallUnit : BitVec 2 := 0
  stallEngine : BitVec 3 := 0
  cplWait : Bool := false
  lastWm : W32 := 0
  cplBase : W64 := 0
  cplCfg : W32 := 0
  cplHead : W32 := 0
  cplTail : W32 := 0
  /-- the waymark baseline of R24 -/
  baseline : Option W32 := none
  /-- completion entries reserved (R50) -/
  reserved : Nat := 0
  /-- commands whose record's write failed and is made again after a restart of the ring (R360, R504) -/
  waiting : List Nat := []
  deriving DecidableEq, Repr

/-- The context states of Table 1.16. -/
inductive CtxState where
  | free
  | resident
  | evicting
  | swapped
  | restoring
  deriving DecidableEq, Repr

/-- A context (R57 to R63). -/
structure Ctx where
  enable : Bool := false
  pin : Bool := false
  priority : BitVec 3 := 0
  state : CtxState := .free
  slot : BitVec 2 := 0
  /-- bytes of its saved image (R60) -/
  image : W32 := 0
  /-- when it was swapped out, for 'swapped out longest' (R60) -/
  swappedAt : Nat := 0
  deriving DecidableEq, Repr

/-- A list slot (R52): its two buffers, which one is active, its generation. -/
structure ListSlot where
  buf0 : List Byte := []
  buf1 : List Byte := []
  active : Bool := false
  gen : W32 := 0
  /-- LIST_LOADs that wait for the inactive buffer, and the one whose load waits for the switch (R54) -/
  loadWaiting : List Nat := []
  loaded : Option Nat := none
  deriving DecidableEq, Repr

/-- A participant of a SHARED call (R150, R151). -/
structure Participant where
  left : Bool := false
  removed : Bool := false
  /-- the tile index whose group it runs -/
  index : Option Nat := none
  /-- the commands of that group that have not started, and those that are not terminal -/
  rest : List Nat := []
  run : List Nat := []
  /-- the group's REDUCE_INTO has won its claim (R92) -/
  claimed : Bool := false
  /-- this run of the group has already put the tile on the replay list -/
  failed : Bool := false
  deriving DecidableEq, Repr

/-- A running LIST_CALL (R142 to R153). -/
structure Call where
  shared : Bool := false
  /-- the inner commands of a SHARED call after its fills, tile by tile: first 64-byte slot and descriptor -/
  groups : List (List (Nat × List Byte)) := []
  /-- the commands of tiles that have not yet run -/
  waiting : Tbl (List Nat) := []
  clusterBase : Nat := 0
  counterRef : W64 := 0
  claimRef : W64 := 0
  /-- tile_watch as it applies (R483) -/
  tileWatch : Nat := 0
  bucket : Nat := 0
  participants : List Participant := []
  replay : List Nat := []
  /-- failures of a tile so far -/
  failures : Tbl Nat := []
  replays : Nat := 0
  lost : List Nat := []
  /-- the fault of the first tile lost, and of a refused FETCH_ADD (R506) -/
  lostSeq : Option W64 := none
  refused : Option W64 := none
  removed : Bool := false
  /-- the counter has handed out every index -/
  exhausted : Bool := false
  /-- inner commands that run and are not yet terminal -/
  open' : List Nat := []
  wrote : Bool := false
  snuffed : Bool := false
  /-- its list holds a command with a writeback (R147) -/
  computes : Bool := false
  /-- the nonzero causes of inner commands by slot in the list, with their faults -/
  causes : Tbl (W16 × Option W64) := []
  deriving DecidableEq, Repr

/-- A member of the running STEP (R191, R192). -/
structure Member where
  seq : Nat
  /-- 0 PREFILL, 1 AR, 2 REFINE -/
  kind : Nat
  guide : Bool
  recompute : Bool
  first : Nat
  count : Nat
  /-- rows in the batch, and the first of them -/
  rows : Nat
  row0 : Nat
  deriving DecidableEq, Repr

/-- A phase of a step plan (Table 5.10). -/
structure Phase where
  perSeq : Bool
  rowmask : BitVec 3
  callRef : W64
  fillRef : W64
  callBytes : List Byte
  deriving DecidableEq, Repr

/-- The STEP in progress (R187 to R197). -/
structure StepRun where
  id : Nat
  members : List Member := []
  phases : List Phase := []
  maxRows : Nat := 0
  maxMembers : Nat := 0
  wsRef : W64 := 0
  tokBase : Nat := 0
  /-- the phase tokens as sampled -/
  sampled : List W32 := []
  /-- calls issued per phase -/
  issued : List Nat := []
  /-- next (phase, member index) to issue -/
  phase : Nat := 0
  nextMember : Nat := 0
  /-- call blocks handed out -/
  cbNext : Nat := 0
  /-- issued calls not yet terminal: command, phase, member's sequence (0xFFFF for BATCH) -/
  calls : List (Nat × Nat × Nat) := []
  /-- phase, sequence id and cause of the first failing call (R196) -/
  failed : Option (Nat × Nat × W16) := none
  wrote : Bool := false
  dropped : Bool := false
  starved : Bool := false
  passedOver : Bool := false
  totalRows : Nat := 0
  snuffed : Bool := false
  /-- every call has been issued -/
  allIssued : Bool := false
  /-- what the collection dropped: tier-1 blocks, tier-2 blocks, sequences newly marked (R185) -/
  drop1 : Nat := 0
  drop2 : Nat := 0
  marked : List Nat := []
  /-- the fault of a line that refused a write of a call block (R260) -/
  refused : Option W64 := none
  deriving DecidableEq, Repr

/-- A RECV_POST that has started (R388, R389). -/
structure Recv where
  id : Nat
  /-- start order -/
  order : Nat
  filled : Nat := 0
  /-- the fault of a poisoned line that refused a write of it -/
  refused : Option W64 := none
  deriving DecidableEq, Repr

/-- The command system of a partition (chapter 1): rings, contexts, queues, tokens, lists, outstanding commands. -/
structure CmdSys where
  rings : Tbl Ring := []
  ctxs : Tbl Ctx := []
  /-- the queue of engine unit u (0 CMP, 1 MOV, 2 SEQ, 3-6 CDC, 7-8 NET) of context c, under number 16 u + c -/
  queues : Tbl (List Nat) := []
  cmds : List Cmd := []
  /-- the ring whose turn it is (R17), and the last context served by engine unit u (R11); for LIVE commands of a codec engine under
  number 16 + u (R289) -/
  rrRing : Nat := 0
  rrCtx : Tbl Nat := []
  tokens : Tbl Token := []
  lists : Tbl ListSlot := []
  calls : Tbl Call := []
  tokenSel : BitVec 12 := 0
  ctxSaveBytes : W32 := 0
  /-- CONTEXT_STARVED has been raised and not yet re-armed (R61) -/
  starved : Bool := false
  /-- counts swap-outs, for swappedAt -/
  swapClock : Nat := 0
  /-- counts commands started, for Cmd.order -/
  startClock : Nat := 0
  /-- a boundary has come that the control core has not yet used (R59) -/
  boundary : Bool := false
  /-- the context to swap in once the victim is saved (R60 step 3) -/
  swapIn : Option Nat := none
  deriving DecidableEq, Repr

/-- One segment of a Lantern table, with the turn limits the loader set (R123). -/
structure LtnSeg where
  c0 : W32
  c1 : W32
  c2 : W32
  yLo : W32
  yHi : W32
  jMin : Nat
  jMax : Nat
  deriving DecidableEq, Repr

/-- One table of a Lantern function (Table 3.10). -/
structure LtnTable where
  exponent : Bool
  mb : Nat
  x0 : W32
  e0 : Int
  invWidth : W32
  below : W32
  above : W32
  belowClamp : Bool
  aboveClamp : Bool
  segs : List LtnSeg
  deriving DecidableEq, Repr

/-- A loaded Lantern function (Table 3.9). -/
structure LtnFn where
  increasing : Bool
  decreasing : Bool
  k : List W32
  steps : List W32
  tables : List LtnTable
  damaged : Bool := false
  deriving DecidableEq, Repr

/-- The Lantern store of a partition (R125 to R132). -/
structure Lantern where
  active : Bool := false
  gen : W32 := 0
  bank0 : Tbl LtnFn := []
  bank1 : Tbl LtnFn := []
  /-- the LANTERN_LOADs that wait under R127 step 2 -/
  loadWaiting : List Nat := []
  slotSel : W32 := 0
  deriving DecidableEq, Repr

/-- The states of Table 5.3. -/
inductive SeqState where
  | empty
  | idle
  | inStep
  | finished
  | faulted
  deriving DecidableEq, Repr

/-- A sequence-table entry (Table 5.2). -/
structure SeqEntry where
  state : SeqState := .empty
  kind : BitVec 2 := 0
  priority : BitVec 3 := 0
  guide : Bool := false
  hold : Bool := false
  autoEnd : Bool := false
  endCheck : Bool := false
  gateEn : Bool := false
  recompute : Bool := false
  tailMissing : Bool := false
  streamEn : Bool := false
  rows : W32 := 0
  pos : W32 := 0
  pend : W32 := 0
  step : W32 := 0
  target : W32 := 0
  seed : W64 := 0
  inRef : W64 := 0
  outRef : W64 := 0
  sampleRef : W64 := 0
  endValue : W32 := 0
  condVec : W32 := 0
  uncondVec : W32 := 0
  guideW : W32 := 0
  schedRef : W64 := 0
  gateTok : BitVec 12 := 0
  endTok : W16 := 0
  gateBase : W32 := 0
  stream : W32 := 0
  rcStart : W32 := 0
  rcEnd : W32 := 0
  parent : W32 := 0
  lastStepWm : W32 := 0
  /-- a STEP has included it (a sequence never stepped comes first, R190) -/
  stepped : Bool := false
  user0 : W64 := 0
  user1 : W64 := 0
  deriving DecidableEq, Repr

/-- The block states of Table 5.4. -/
inductive BlockState where
  | free
  | open'
  | sealed
  deriving DecidableEq, Repr

/-- A block slot of the KV pool (R177, R179). -/
structure Block where
  state : BlockState := .free
  gen : W32 := 0
  pins : W16 := 0
  stamp : W64 := 0
  parent : W64 := 0
  /-- the hash of its index entry; none: it has no index entry -/
  hash : Option W64 := none
  deriving DecidableEq, Repr

/-- The SEQ engine's state for a partition (R171 to R203). -/
structure Seq where
  started : Bool := false
  cfg : W32 := 0
  blocks : W32 := 0
  pinLimit : W32 := 0
  pool : BitVec 20 := 0
  metaObj : BitVec 20 := 0
  pl : BitVec 20 := 0
  content : BitVec 20 := 0
  /-- a register of the configuration has been written since the last START (R203) -/
  changed : Bool := true
  sel : W16 := 0
  steps : W64 := 0
  drops : W64 := 0
  hits : W64 := 0
  copyBytes : W64 := 0
  table : Tbl SeqEntry := []
  pool' : Tbl Block := []
  /-- page lists: entry 4096 i + j is the block slot that block j of sequence i names -/
  lists : Tbl (Option Nat) := []
  /-- the number of the partition's prefix key (R179) -/
  prefixKey : Nat := 0
  /-- the primary's prefix key, which a twin uses in place of its own (R405) -/
  givenKey : Option (BitVec 128) := none
  run : Option StepRun := none
  deriving DecidableEq, Repr

/-- The stream states of Table 6.2. -/
inductive StreamState where
  | empty
  | live
  | broken
  | faulted
  deriving DecidableEq, Repr

/-- A stream-table entry (Table 6.1), without the fields that follow from the object table and the pending moves (R209). -/
structure Stream where
  state : StreamState := .empty
  reset : Bool := false
  dual : Bool := false
  stateWords : W16 := 0
  stateRef : W64 := 0
  initRef : W64 := 0
  pending : W32 := 0
  lastWm : W32 := 0
  seq : W32 := 0
  resTok : BitVec 12 := 0
  steps : W64 := 0
  brokenCause : W16 := 0
  brokenWm : W32 := 0
  deriving DecidableEq, Repr

/-- An automatic SWAP_IN that has been called for (R215): its object, the chunk's waymark and ring, the token it
signals, that token's value when it was issued, and the number of the move once it has started. -/
structure AutoSwap where
  handle : Nat
  waymark : W32
  ctx : Nat
  ring : Nat
  tok : Nat
  /-- the tokens as they stood when it was issued (R216) -/
  tokens : Tbl Token := []
  move : Option Nat := none
  deriving DecidableEq, Repr

/-- The streams of a partition (R207 to R232). -/
structure Streams where
  table : Tbl Stream := []
  sel : W16 := 0
  autoSwapins : W64 := 0
  copyBytes : W64 := 0
  steps : W64 := 0
  swaps : List AutoSwap := []
  deriving DecidableEq, Repr

/-- The object states of Table 7.3. -/
inductive ObjState where
  | free
  | present
  | moving
  deriving DecidableEq, Repr

/-- A place in the partition's memory: home, place (cluster or tile) and address. -/
structure Place where
  home : Home := .c
  place : W16 := 0
  addr : W64 := 0
  deriving DecidableEq, Repr

/-- An object-table entry (Table 7.3), with the host writes that a move holds (R242 step 4). -/
structure Obj where
  state : ObjState := .free
  src : Place := {}
  size : W64 := 0
  mirror : Bool := false
  poisoned : Bool := false
  originValid : Bool := false
  origin : Place := {}
  dst : Place := {}
  moveWm : W32 := 0
  held : List (Nat × List Byte) := []
  deriving DecidableEq, Repr

/-- The OBJ page and table of a partition (R238 to R241). -/
structure Objs where
  table : Tbl Obj := []
  cmd : W32 := 0
  result : W16 := 0
  defSize : W64 := 0
  defAddr : W64 := 0
  defPlace : W16 := 0
  sel : BitVec 20 := 0
  failAddr : W64 := 0
  misses : W64 := 0
  deriving DecidableEq, Repr

/-- The session states of R276. -/
inductive SessState where
  | free
  | open'
  | faulted
  deriving DecidableEq, Repr

/-- A codec session of a partition (R274 to R298). -/
structure Session where
  state : SessState := .free
  ctx : Nat := 0
  codec : BitVec 2 := 0
  encode : Bool := false
  live : Bool := false
  tenBit : Bool := false
  nbuf : Nat := 0
  conv : BitVec 2 := 0
  level : Nat := 0
  width : Nat := 0
  height : Nat := 0
  poolRef : W64 := 0
  rcMode : BitVec 2 := 0
  qpMin : Nat := 0
  qpMax : Nat := 0
  target : Nat := 0
  frameCap : Nat := 0
  /-- the 13 bits of CDC_MARKS, per buffer (Table 8.8) -/
  marks : Tbl (BitVec 13) := []
  /-- when each buffer was last decoded into, for 'most recently decoded' (R292) -/
  decodedAt : Tbl Nat := []
  /-- decoded frames that await output, in display order (R281) -/
  reorder : List Nat := []
  /-- how many of them, from the first, are ready for output (R281) -/
  ready : Nat := 0
  deficit : Nat := 0
  /-- bytes of the last 64 frames (VBR) -/
  window : List Nat := []
  /-- commands it has carried out: the history a decoder or encoder depends on -/
  history : Nat := 0
  deriving DecidableEq, Repr

/-- The codec state of a partition. -/
structure Cdc where
  /-- session n of unit u, under 64 u + n -/
  sessions : Tbl Session := []
  sel : W32 := 0
  deriving DecidableEq, Repr

/-- A virtual port (Table 12.6). -/
structure VPort where
  enable : Bool := false
  pcp : BitVec 3 := 0
  vid : BitVec 12 := 0
  mtu : BitVec 14 := 1500
  macLo : W32 := 0
  macHi : W16 := 0
  ipv4 : W32 := 0
  ipv6a : BitVec 128 := 0
  ipv6b : BitVec 128 := 0
  /-- the lower words of VP_IPV6A and VP_IPV6B written and not yet completed (R496) -/
  lowA : Option W64 := none
  lowB : Option W64 := none
  deriving DecidableEq, Repr

/-- An RTP binding (R392). -/
structure Binding where
  unit : Nat
  session : Nat
  ctx : Nat
  vport : Nat
  pt : Byte
  ipv6 : Bool
  dscp : BitVec 6
  ssrc : W32
  seqNo : W16
  srcPort : W16
  tsBase : W32
  tsStep : W32
  frames : Nat
  dstMac : List Byte
  dstIp : List Byte
  dstPort : W16
  deriving DecidableEq, Repr

/-- A frame that waits for the credits of its port's regulator (R312): its port and virtual port, the command that sends it, whether it is of a
LIVE session's binding (R393). -/
structure TxFrame where
  port : Nat
  vport : Nat
  cmd : Nat
  live : Bool := false
  bytes : List Byte
  deriving DecidableEq, Repr

/-- The network state of a partition. -/
structure NetPart where
  vports : Tbl VPort := []
  /-- counters per vport v under 4 v: VNET_RX_NOBUF, VNET_RX_REG_DROP, VNET_BADCSUM, VNET_SPOOF -/
  ctrs : Tbl W32 := []
  sel : BitVec 6 := 0
  bindSel : Byte := 0
  binds : List Binding := []
  recvs : List Recv := []
  recvClock : Nat := 0
  /-- frames to be sent that wait, in the order in which they leave (R312, R393) -/
  txHeld : List TxFrame := []
  deriving DecidableEq, Repr

/-- The states of an event ring (EVT_STAT). -/
inductive EvState where
  | stopped
  | running
  | error
  deriving DecidableEq, Repr

/-- An event record (R471), 32 bytes when written out. -/
structure EvRec where
  cause : W16
  cls : BitVec 2
  chained : Bool := false
  block : Byte := 0
  inst : W16 := 0
  part : W16 := 0xFFFF#16
  waymark : W32 := 0
  seq : W64 := 0
  /-- bytes 20 to 31 -/
  detail : List Byte := []
  deriving DecidableEq, Repr

/-- An event ring with its overflow buffer (R476 to R479, R485, R486). -/
structure EvRing where
  base : W64 := 0
  /-- EVT_CFG, or PEV_CFG without its enable bit -/
  cfg : W32 := 6
  head : W32 := 0
  tail : W32 := 0
  state : EvState := .stopped
  lastCause : W16 := 0
  buffer : List EvRec := []
  lost : W32 := 0
  chainSel : W64 := 0
  /-- faults of which this ring holds a record (R475) -/
  seen : List W64 := []
  deriving DecidableEq, Repr

/-- The common header of a page (Table 17.1). -/
structure PageHdr where
  errStatus : W32 := 0
  errMask : W32 := 0
  errFirst : W32 := 0
  evWaymark : W32 := 0
  /-- the LOCK holder: session, role and credential (Table 17.6) -/
  lock : Option (Nat × Nat × Byte) := none
  deriving DecidableEq, Repr

/-- The partition states of Table 9.2. -/
inductive PartState where
  | empty
  | configuring
  | stopped
  | running
  | draining
  | teardown
  deriving DecidableEq, Repr

/-- The PCTL and PRES pages of a partition (R319) and what COMMIT claimed. -/
structure PartCtl where
  state : PartState := .empty
  tdStep : Nat := 0
  drainTimeout : Bool := false
  forced : Bool := false
  quads : BitVec 7 := 0
  /-- PART_QUADMAP, position by position -/
  quadMap : Tbl Byte := []
  seqCap : BitVec 17 := 0
  streamCap : BitVec 15 := 0
  objCap : BitVec 21 := 1024
  listCap : BitVec 9 := 16
  cfgFail : W32 := 0
  drainLimit : W32 := 25000000
  hbmGib : Byte := 1
  lpddrGib : BitVec 10 := 0
  cdcGrant : W32 := 0
  /-- PRES_HAMPER[t] -/
  hamper : Tbl (BitVec 6) := []
  /-- the device granules of partition granules 0, 1, … (PRES_HMAP, PRES_LMAP) -/
  hmap : List Nat := []
  lmap : List Nat := []
  /-- the Hamper granules held on each tile: under 32 t + k, granule k of tile t -/
  hgran : List Nat := []
  /-- the number of its memory key (R265); 0: none -/
  key : Nat := 0
  /-- a restart that the device owes it after a self-test (R462) -/
  restart : Bool := false
  /-- the configuration generation of measurement 0x20 + p (Table 10.6) -/
  cfgGen : W32 := 0
  deriving DecidableEq, Repr

/-- A regulator (R311, R312). -/
structure Regulator where
  weight : Byte := 16
  period : BitVec 20 := 4096
  cap : W32 := 0
  held : W32 := 0
  /-- credits left in each bucket, credits taken in this period and in the last complete one, and whether traffic waited in it -/
  bucket : List Int := [0, 0, 0, 0]
  taken : List Nat := [0, 0, 0, 0]
  last : List Nat := [0, 0, 0, 0]
  waited : List Bool := [false, false, false, false]
  /-- transfers that wait in each bucket, first to last: credits of each, and how many such (R312) -/
  queue : List (List (Nat × Nat)) := [[], [], [], []]
  /-- credits asked for by transfers that may wait, and credits that such transfers got, in each bucket since CREATE -/
  asked : List Nat := [0, 0, 0, 0]
  given : List Nat := [0, 0, 0, 0]
  /-- the buckets refilled at this period boundary, and whether REG_HELD counted the period that it ended -/
  seen : List Bool := [false, false, false, false]
  counted : Bool := false
  deriving DecidableEq, Repr

/-- A snapshot (R318). -/
structure Snap where
  busy : Bool := false
  final : Bool := false
  state : BitVec 3 := 0
  seq : W64 := 0
  vals : List W64 := []
  deriving DecidableEq, Repr

/-- The meters and regulators of a partition (R311 to R318). -/
structure Meters where
  regs : Tbl Regulator := []
  meshWeight : Byte := 16
  /-- the counters of Table 9.7 -/
  counters : Tbl W64 := []
  snap : Snap := {}
  deriving DecidableEq, Repr

/-- The TDISP states of a VF (PATT_TDI). -/
inductive Tdi where
  | unlocked
  | locked
  | run
  | error
  deriving DecidableEq, Repr

/-- A posted write to the BARs of a VF that waits for those before it (R364): one to BAR0, as the command that makes it, or bytes for an object. -/
inductive Posted where
  | cmd (i : Instr)
  | data (handle off : Nat) (bytes : List Byte) (finding : EccFinding)
  deriving DecidableEq, Repr

/-- The AER status registers of a function: correctable and uncorrectable (R376, log entry 98). -/
structure Aer where
  cor : W32 := 0
  unc : W32 := 0
  deriving DecidableEq, Repr

/-- A VF and its function level reset (R355, R374, R379). -/
structure Vf where
  enabled : Bool := false
  aprWin : Tbl W64 := []
  aprRange : W16 := 0
  tdi : Tdi := .unlocked
  /-- 0: no FLR; otherwise the step of Table 11.4 it has reached -/
  flr : Nat := 0
  /-- PART_CTRL commands that wait for its end, with session role and credential (R375) -/
  heldCmds : List (Nat × Byte) := []
  /-- translations cached for it (R358) -/
  atc : List W64 := []
  /-- its MSI-X table, word k of vector v under 4 v + k, and its pending bits (R356, R357) -/
  msix : Tbl W32 := []
  msixPend : List Nat := []
  msixOn : Bool := false
  msixMask : Bool := false
  /-- its AER status (R376) -/
  aer : Aer := {}
  /-- objects that hold writes of its BAR2 (R363), and the posted writes that arrived behind a held one (R364) -/
  aprHeld : List Nat := []
  later : List Posted := []
  /-- reads of its BAR2 whose lines wait for credits or for their die (R312): handle, offset, bytes, finding -/
  reads : List (Nat × Nat × Nat × EccFinding) := []
  deriving DecidableEq, Repr

/-- The mirror states of Table 13.3. -/
inductive MirState where
  | none
  | outOfSync
  | syncing
  | mirrored
  | isolated
  | standbyEmpty
  | standby
  | promoted
  deriving DecidableEq, Repr

/-- What a mirrored partition has changed since its last acknowledged delta (R406). -/
inductive Dirty where
  | seqE (i : Nat)
  | strE (i : Nat)
  | objE (i : Nat)
  | seqRegs
  | page (handle index : Nat)
  | all
  deriving DecidableEq, Repr

/-- A delta that side A has sent and that is not acknowledged (R407). -/
structure SentDelta where
  waymark : W32
  items : List Dirty
  deriving DecidableEq, Repr

/-- The mirror binding of a partition (R405 to R415). -/
structure Mirror where
  enable : Bool := false
  standby : Bool := false
  commitAck : Bool := true
  autoFailover : Bool := false
  asyncDepth : BitVec 4 := 1
  twin : BitVec 5 := 0
  stageMib : W16 := 0
  state : MirState := .none
  lastCause : W16 := 0
  acked : W32 := 0
  sentWm : W32 := 0
  bytes : W64 := 0
  dirty : List Dirty := []
  sent : List SentDelta := []
  /-- STEP commands whose records are held (R410) -/
  heldSteps : List Nat := []
  deriving DecidableEq, Repr

/-- The watchdog of a control core (R484, R487). -/
structure Watchdog where
  limit : W32 := 125000000
  stalled : Bool := false
  count : W32 := 0
  ticks : W32 := 0
  deriving DecidableEq, Repr

/-- A partition: its configuration and everything its tenant sees. -/
structure Part where
  ctl : PartCtl := {}
  mtr : Meters := {}
  cmd : CmdSys := {}
  ltn : Lantern := {}
  seq : Seq := {}
  str : Streams := {}
  obj : Objs := {}
  cdc : Cdc := {}
  net : NetPart := {}
  evt : EvRing := {}
  vf : Vf := {}
  mir : Mirror := {}
  wdg : Watchdog := {}
  /-- the headers of its VF BAR0 pages, by page number -/
  hdr : Tbl PageHdr := []
  deriving DecidableEq, Repr

/-- The states of an array half (Table 2.9); RUNNING is IDLE with a started command in the cluster's buffer that occupies it. -/
inductive HalfState where
  | idle
  | selfCheck
  | offline
  deriving DecidableEq, Repr

/-- The block in the stationary registers of a half (R68, R86): what keep_b compares, then the rows of B and of its scales as
they were loaded, and whether a full-array command left it (log entry 43). -/
structure Stationary where
  bRef : W64
  bStride : W32
  bFmt : Nat
  bTrans : Bool
  sbRef : W64
  nValid : Nat
  kValid : Nat
  precision : Nat
  rows : List (List Byte)
  scales : List (List Byte)
  full : Bool
  deriving DecidableEq, Repr

/-- One half of a cluster. -/
structure Half where
  state : HalfState := .idle
  stationary : Option Stationary := none
  /-- the WICK_OP armed on it -/
  armed : Option Nat := none
  faults : W16 := 0
  wickFaults : W16 := 0
  /-- the fault whose self-check runs is a WICK_FAULT -/
  fromWick : Bool := false
  deriving DecidableEq, Repr

/-- A physical cluster (R98, R133). -/
structure Cluster where
  l : Half := {}
  r : Half := {}
  /-- started commands it buffers (R71) -/
  buffer : List Nat := []
  watchLimit : BitVec 24 := 0x2625A0#24
  beats : W64 := 0
  wickBeats : W64 := 0
  lookups : W64 := 0
  lastFault : W32 := 0
  skewSel : BitVec 6 := 0
  /-- corrected errors of the banks of its SRAM (R258) -/
  ce : W32 := 0
  deriving DecidableEq, Repr

/-- The channel states of MC_STAT (Table 7.12). -/
inductive ChanState where
  | off
  | training
  | ready
  | calibrating
  | retrainWait
  | failed
  deriving DecidableEq, Repr

/-- An HBM or LPDDR channel (R267). -/
structure Chan where
  state : ChanState := .off
  ce : W32 := 0
  ue : W32 := 0
  retries : W32 := 0
  patrolInterval : W32 := 0
  patrolPos : W32 := 0
  patrolPasses : W32 := 0
  bytes : W64 := 0
  /-- the fault that its failure is -/
  failSeq : W64 := 0
  deriving DecidableEq, Repr

/-- A channel after reset: HBM channels are 0 to 255, LPDDR channels 256 to 319 (Table 7.11). -/
def Chan.reset (k : Nat) : Chan := { patrolInterval := if k < 256 then 2500000#32 else 312500#32 }

/-- A memory die: its adders, encryption engine and key store (R268). -/
structure Die where
  addOps : W64 := 0
  addRefused : W32 := 0
  hostKey : Bool := false
  destroyed : W32 := 0
  selftestPass : Bool := false
  selftestFail : Bool := false
  /-- its traffic stops after a CRYPTO_FAULT -/
  cryptoFailed : Bool := false
  deriving DecidableEq, Repr

/-- A tile's Hamper and mesh stop (R503). -/
structure Tile where
  ce : W32 := 0
  ue : W32 := 0
  patrolPasses : W32 := 0
  /-- granules withheld, by number (R316) -/
  withheld : List Nat := []
  flits : W64 := 0
  waits : W64 := 0
  temp : W16 := 0
  deriving DecidableEq, Repr

/-- A poisoned line: its space, its number and the fault that poisoned it. -/
structure PoisonLine where
  space : Space
  line : Nat
  seq : W64
  deriving DecidableEq, Repr

/-- The memories (chapter 7). Each memory lists (address, byte) pairs, addresses rising, no zero byte. -/
structure Mem where
  sram : List Host.Cell := []
  hamper : List Host.Cell := []
  hbm : List Host.Cell := []
  lpddr : List Host.Cell := []
  host : List Host.Cell := []
  poison : List PoisonLine := []
  /-- the number of the key a line of H or L was written under; unlisted: never written -/
  keyH : Tbl Nat := []
  keyL : Tbl Nat := []
  /-- keys drawn so far, and the number of the host key (0: its slot is empty) -/
  keys : Nat := 0
  hostKey : Nat := 0
  chans : Tbl Chan := []
  dies : Tbl Die := []
  /-- positions of the SRAM and Hamper patrols (R261) -/
  patrolS : Tbl Nat := []
  patrolC : Tbl Nat := []
  ceLimit : W16 := 16
  /-- device pages with corrected errors (R258): home, page, count -/
  tracked : List (Home × Nat × Nat) := []
  /-- device pages whose CE_PAGE_LIMIT has been raised (R258) -/
  limited : List (Home × Nat) := []
  retStatus : BitVec 2 := 0
  retCause : W16 := 0
  retSel : BitVec 12 := 0
  lastUe : W64 := 0
  deriving DecidableEq, Repr

/-- A MOV instance (R268) and a SEQ instance (R204). -/
structure MovInst where
  bytes : W64 := 0
  misses : W64 := 0
  deriving DecidableEq, Repr

/-- A SEQ instance (R204). -/
structure SeqInst where
  steps : W64 := 0
  poison : W32 := 0
  deriving DecidableEq, Repr

/-- A codec engine (R289, R299). -/
structure CdcEng where
  running : Option (PartId × Nat) := none
  suspended : Option (PartId × Nat) := none
  faults : W32 := 0
  decUnits : W64 := 0
  encUnits : W64 := 0
  preempts : W64 := 0
  rrPart : Nat := 0
  /-- the same for LIVE commands: each class has a round robin of its own (R289) -/
  rrLive : Nat := 0
  deriving DecidableEq, Repr

/-- An Ethernet port (R396). -/
structure NetPort where
  enable : Bool := false
  media : BitVec 2 := 0
  link : NetLink := .down
  noMatch : W32 := 0
  fcs : W32 := 0
  fecUncorr : W32 := 0
  fecCorr : W64 := 0
  txFrames : W64 := 0
  rxFrames : W64 := 0
  failed : Bool := false
  deriving DecidableEq, Repr

/-- The quad states of PWR_QD_STAT (Table 15.10). -/
inductive QuadState where
  | off
  | on
  | selftest
  | offline
  deriving DecidableEq, Repr

/-- A logical quad (R462, R467). -/
structure Quad where
  state : QuadState := .off
  pending : Bool := false
  forced : Bool := false
  /-- 0 none, 1 pass, 2 fail -/
  result : BitVec 2 := 0
  failCluster : BitVec 10 := 0x3FF#10
  withheld : Bool := false
  deriving DecidableEq, Repr

/-- The module stages of Table 15.4. -/
inductive Stage where
  | off
  | powering
  | boot
  | fwStart
  | ready
  | recovery
  | shutdown
  deriving DecidableEq, Repr

/-- The domain states of PWR_DOM_STAT (Table 15.11). -/
inductive DomState where
  | off
  | on
  | fault
  deriving DecidableEq, Repr

/-- A power domain's measured current and voltage, and its state. -/
structure Domain where
  state : DomState := .off
  current : W16 := 0
  voltage : BitVec 12 := 0
  deriving DecidableEq, Repr

/-- Power, thermal and start-up state (chapter 15). -/
structure Power where
  stage : Stage := .boot
  resetKind : BitVec 2 := 0
  /-- INPUT_LOW has been raised, and the input has not since been above 36.5 V for a period (R444) -/
  inputLow : Bool := false
  thermLatched : Bool := false
  coolantFlow : Bool := false
  coolantHigh : Bool := false
  coolantLow : Bool := false
  critical : Bool := false
  throttle : Bool := false
  /-- R450 acted in the last period, and in this one -/
  fast : Bool := false
  fastNow : Bool := false
  hbmWarm : BitVec 8 := 0
  capW : W16 := 0
  /-- the cap still in effect while a change written in this period waits for its end (R452); 0: none waits -/
  capNow : Nat := 0
  /-- POWER_CAP_FLOOR has been raised in a run of periods with a duty limit below 64/64 that has not ended (R451) -/
  floorSaid : Bool := false
  vcoreMax : BitVec 10 := 750
  vcore : BitVec 10 := 750
  vhub : BitVec 10 := 750
  duty : BitVec 7 := 64
  milliVolt : W16 := 0
  tenMilliAmp : W16 := 0
  avgWatt : W16 := 0
  peakWatt : W16 := 0
  inlet : W16 := 0
  outlet : W16 := 0
  hottest : W16 := 0
  hotDomain : BitVec 7 := 0
  flow : W16 := 0
  fastTrips : W32 := 0
  throttlePeriods : W32 := 0
  qdSel : BitVec 7 := 0
  domSel : BitVec 7 := 0
  calH : W32 := 1000000
  calL : W32 := 1066700
  retrainDeadline : W32 := 25000000
  retrains : W32 := 0
  quads : Tbl Quad := []
  /-- domain 100 is ON from PWR_GOOD (Table 15.1) -/
  domains : Tbl Domain := [(100, { state := .on })]
  deriving DecidableEq, Repr

/-- The pins the module drives or samples (R432 to R434). -/
structure Pins where
  pwrEn : Bool := true
  pwrGood : Bool := true
  j1Ok : Bool := true
  resetN : Bool := true
  perstN : Bool := false
  /-- the strap word as sampled (R433) -/
  straps : BitVec 9 := 0x1FF#9
  deriving DecidableEq, Repr

/-- The I3C target and the alert queue (R435 to R443). -/
structure Mgmt where
  dynValid : Bool := false
  dynAddr : BitVec 7 := 0
  hjEn : Bool := true
  ibiEn : Bool := true
  hjPending : Bool := false
  alertMask : BitVec 3 := 0
  eid : Byte := 0
  /-- MGMT_PID_LO as it stood at the last assignment of a dynamic address, or at PWR_GOOD before one (R443); none: as it stands -/
  pid : Option W32 := some 0
  /-- queued records, oldest first, as their 32 bytes with class and cause -/
  alerts : List EvRec := []
  alertDrops : W32 := 0
  sbErr : W32 := 0
  mrl : W16 := 0
  mwl : W16 := 0
  deriving DecidableEq, Repr

/-- The three roles (R7, Table 10.4); codes 0 to 2 in this order. -/
inductive Role where
  | maker
  | installer
  | operator
  deriving DecidableEq, Repr

/-- An SPDM session, or a handshake that FINISH has not completed (R328, R329). -/
structure SpdmSession where
  cred : Byte
  role : Role
  transport : Transport
  established : Bool
  heartbeat : Byte
  keyGen : Nat := 0
  deriving DecidableEq, Repr

/-- The SPDM responder of one transport (R327). -/
structure SpdmPort where
  version : Bool := false
  capabilities : Bool := false
  negotiated : Bool := false
  /-- the bytes of a large request received so far (CHUNK_SEND), and of a large response (CHUNK_GET) -/
  chunkHandle : Byte := 0
  chunkNext : W16 := 0
  request : List Byte := []
  response : List Byte := []
  /-- the handle of the response, and the number of its next chunk -/
  respHandle : Byte := 0
  respNext : W16 := 0
  deriving DecidableEq, Repr

/-- The security state that a reset does not keep (chapter 10). -/
structure Security where
  sessions : Tbl (Option SpdmSession) := []
  ports : Tbl SpdmPort := []
  credSel : Byte := 0
  authFails : W32 := 0
  consent : Option (BitVec 256) := none
  debug : Bool := false
  lockedOut : Bool := false
  /-- a stage in progress: its session and the bytes received -/
  staging : Option (Nat × List Byte) := none
  jrnFailed : Bool := false
  suppressed : W16 := 0
  /-- refused entries of role NONE written in a row (R339) -/
  noneRun : Nat := 0
  jrnSel : W32 := 0
  jrnSelVf : Tbl W32 := []
  deriving DecidableEq, Repr

/-- The journal actions of Table 10.4; codes 1 to 18 in this order. -/
inductive JrnAction where
  | write
  | refused
  | partCmd
  | partState
  | claim
  | release
  | credInstall
  | credRemove
  | fwStage
  | fwActivate
  | svnCommit
  | fwStart
  | consent
  | debugUnlock
  | retire
  | teardown
  | pairBind
  | failover
  deriving DecidableEq, Repr

/-- A journal entry (Table 10.4). -/
structure JrnEntry where
  index : W32
  action : JrnAction
  role : Byte
  cred : Byte
  part : Byte
  seq : W64
  target : W32
  cause : W16
  suppressed : W16
  detail : W32
  oldDigest : BitVec 256
  newDigest : BitVec 256
  link : BitVec 256
  deriving DecidableEq, Repr

/-- A firmware image in flash (R343). -/
structure Image where
  valid : Bool := false
  svn : BitVec 6 := 0
  digest : BitVec 256 := 0
  bytes : List Byte := []
  version : W32 := 0
  /-- signed under the key of maker slot 0x01; otherwise of 0x00 -/
  slot1 : Bool := false
  deriving DecidableEq, Repr

/-- What module flash and the SVN fuses keep without power (Start-up, R322, R335, R345). -/
structure Flash where
  imageA : Image := { valid := true }
  imageB : Image := {}
  activeB : Bool := false
  /-- the image that runs -/
  running : Image := { valid := true }
  fusedSvn : BitVec 6 := 0
  /-- credential keys by id, as the first flash device holds them; no key: the slot is empty (R322) -/
  creds : Tbl (List Byte) := []
  /-- the copy in the second flash device (R322) -/
  credsB : Tbl (List Byte) := []
  /-- the contents that the store's MAC was made over (R322): the MAC is good where they are the store's (log entry 13) -/
  credSeal : Tbl (List Byte) := []
  policy : BitVec 4 := 0
  /-- a successful FW_STAGE in recovery: the next power cycle starts the staged image (R442) -/
  stagedNext : Bool := false
  /-- the two flash devices accept what is programmed into them (R337); no command of the table changes it -/
  acceptsA : Bool := true
  acceptsB : Bool := true
  /-- the journal region of each flash device, the newest entry first; at most 16,384 (R335) -/
  journalA : List JrnEntry := []
  journalB : List JrnEntry := []
  jrnHead : W32 := 0
  /-- retired pages: home and page -/
  retired : List (Home × W32) := []
  pidLo : W32 := 0
  hotJoin : Bool := true
  /-- PWR_CEIL_W as the installer wrote it; none: the envelope -/
  ceilW : Option W16 := none
  tjThrottle : Byte := 95
  peerDigest : Option (BitVec 256) := none
  deriving DecidableEq, Repr

/-- The maker's fuses (Table 0.1, R97, R503). -/
structure Fuses where
  grade : Grade := .se880a
  /-- credential slot 0x00 is revoked (Table 10.1) -/
  revoked : Bool := false
  serial : W64 := 0
  /-- the unique secret (R341) -/
  secret : BitVec 256 := 0
  vendor : W16 := 0
  mipi : BitVec 15 := 0
  /-- ID_QLOC: tile and physical quad of a logical quad where they are not q / 4 and q mod 4 -/
  qloc : Tbl Byte := []
  /-- QD_CLUSTERS of a physical quad where it is not clusters 10 j to 10 j + 9 -/
  members : Tbl W64 := []
  /-- excluded physical rows of a physical cluster -/
  excluded : Tbl (List Nat) := []
  /-- the fused SHA3-256 hash of the maker's key of slot 0x00 or 0x01 where it is not that of the key there (Table 10.1) -/
  makerHash : Tbl (BitVec 256) := []
  deriving DecidableEq, Repr

/-- A link of a cause chain (R474). -/
structure ChainLink where
  cause : W16
  block : Byte
  inst : W16
  /-- the partition that raised it; none: the device -/
  part : Option Nat
  deriving DecidableEq, Repr

/-- The CXL RAS capability (R371, R376): its status registers, the header log, the replays towards its CRC threshold, and the errors of the exposed
range counted. -/
structure Ras where
  cor : W32 := 0
  unc : W32 := 0
  header : List Byte := []
  replays : Nat := 0
  correctable : Nat := 0
  uncorrectable : Nat := 0
  deriving DecidableEq, Repr

/-- The event system of the device (chapter 16). -/
structure Events where
  seq : W64 := 0
  pf : EvRing := {}
  pfEnable : Bool := false
  /-- chains of the last 256 faults, newest first -/
  chains : List (W64 × List ChainLink) := []
  /-- the PF's AER status and its CXL RAS status (R376) -/
  aer : Aer := {}
  ras : Ras := {}
  /-- the PF's MSI-X enable and function mask (R357) -/
  msixOn : Bool := false
  msixMask : Bool := false
  /-- the PF's MSI-X table, word k of vector v under 4 v + k, and its pending bits (R356, R357) -/
  msix : Tbl W32 := []
  msixPend : List Nat := []
  deriving DecidableEq, Repr

/-- The host link states of HST_LINK. -/
inductive LinkState where
  | down
  | training
  | up
  | retraining
  deriving DecidableEq, Repr

/-- An IDE selective stream (R373): the VF of a partition or the PF that it is associated with, the address ranges, whether it is secure. -/
structure IdeStream where
  fn : Option PartId
  ranges : List (W64 × W64)
  secure : Bool
  deriving DecidableEq, Repr

/-- The host port (chapter 11). -/
structure HostPort where
  link : LinkState := .down
  degraded : Bool := false
  flit : BitVec 2 := 0
  width : BitVec 5 := 0
  rate : BitVec 4 := 0
  cplTimeout : BitVec 24 := 250000
  hdmGib : BitVec 10 := 0
  committed : Bool := false
  /-- BI is enabled at the host port (Table 11.6) -/
  bi : Bool := false
  /-- decoder 0 as the host programmed it, and Error Not Committed (R367) -/
  decBase : W64 := 0
  notCommitted : Bool := false
  /-- NumVFs, and the bases of PF BAR0, VF BAR0 and VF BAR2 (R355, R356) -/
  numVfs : Nat := 0
  pfBar0 : W64 := 0
  vfBar0 : W64 := 0
  vfBar2 : W64 := 0
  /-- partition of slice k; unlisted: 0xFF -/
  attr : Tbl Byte := []
  /-- lines of the exposed range the host caches, least recently used first (R369) -/
  snoop : List Nat := []
  bisnp : W64 := 0
  flrCount : W32 := 0
  flrSnuffed : W32 := 0
  replays : W32 := 0
  retrains : W32 := 0
  ideLink : Bool := false
  /-- the selective streams that have keys (R373) -/
  ideSel : Tbl (Option IdeStream) := []
  deriving DecidableEq, Repr

/-- The Ecior link states of ECI_STAT. -/
inductive EciLink where
  | off
  | training
  | auth
  | up
  | retry
  | failed
  deriving DecidableEq, Repr

/-- A sequenced flit in the sender's retry buffer (R402). -/
structure SentFlit where
  seq : W16
  /-- its 256 bytes as they were sent (Table 13.1) -/
  bytes : List Byte
  /-- how often it has been replayed (R403) -/
  tries : Nat := 0
  deriving DecidableEq, Repr

/-- The Ecior pair link (chapter 13). -/
structure Eci where
  link : EciLink := .off
  peerAlive : Bool := false
  missCount : Byte := 0
  kaInterval : W32 := 43750
  kaMiss : Byte := 50
  /-- ECI_KA_MISS as it was written (R404) -/
  kaMissSet : Byte := 50
  replays : W32 := 0
  retrains : W32 := 0
  crcErr : W32 := 0
  cmdResult : W16 := 0
  txSeq : W16 := 0
  rxNext : W16 := 0
  retry : List SentFlit := []
  /-- the bytes of mirror messages that no DATA flit has carried yet (R408) -/
  stream : List Byte := []
  /-- a NAK has gone out and the flit that it names has not come (R402) -/
  naked : Bool := false
  /-- the one retrain within the retry budget has been used (R403) -/
  retrained : Bool := false
  /-- flits sent under the current key (the nonce's count) and the number of that key -/
  nonce : W64 := 0
  keyNo : Nat := 0
  deriving DecidableEq, Repr

/-- What leaves the block: an MSI-X message, a frame or datagram on Ethernet, a back-invalidation, a mirror or link
message, an in-band interrupt. -/
inductive Out where
  | msixPf (vector : Nat)
  | msixVf (p : Nat) (vector : Nat)
  | frame (port : Nat) (bytes : List Byte)
  | bisnpInv (line : Nat)
  /-- a flit of the pair link, 256 bytes (Table 13.1) -/
  | flit (bytes : List Byte)
  | ibi (data : Byte)
  | hotJoin
  deriving DecidableEq, Repr

/-- The device's answer to the last message, read or transfer that asks for one. -/
structure Reply where
  cause : W16 := 0
  count : Nat := 0
  words : List W64 := []
  bytes : List Byte := []
  /-- the data is marked poisoned -/
  poisoned : Bool := false
  /-- the message is refused with an error of its own protocol, for which the spec names no cause -/
  refused : Bool := false
  deriving DecidableEq, Repr

/-- The state of the device. -/
structure State where
  /-- the commands that wait, first in, first out -/
  pending : List Instr := []
  /-- the model's own counter: the number of the next free value (log entry 6) -/
  free : Nat := 0
  /-- the model's own counter: the number of the next outstanding command (log entry 16) -/
  nextId : Nat := 1
  reply : Reply := {}
  /-- what has left the block, newest first -/
  out : List Out := []
  fuse : Fuses := {}
  flash : Flash := {}
  pins : Pins := {}
  pwr : Power := {}
  mgmt : Mgmt := {}
  sec : Security := {}
  ev : Events := {}
  hst : HostPort := {}
  eci : Eci := {}
  mem : Mem := {}
  clus : Tbl Cluster := []
  tiles : Tbl Tile := []
  movs : Tbl MovInst := []
  seqs : Tbl SeqInst := []
  cdcs : Tbl CdcEng := []
  nets : Tbl NetPort := []
  parts : Tbl Part := []
  /-- the headers of the PF BAR0 pages, by page number (BAR offset / 4096) -/
  hdr : Tbl PageHdr := []
  deriving DecidableEq, Repr

/-- Why the block stops with a fault. -/
inductive Fault where
  /-- Raised by HDM_ACCESS when the host addresses a line outside the exposed range: that address does not exist on
  the device (R367). Safe: the device does nothing for it that the spec gives. -/
  | noSuchLine
  deriving DecidableEq, Repr

/-- Why a command is refused. -/
inductive Refusal where
  /-- Raised by an arm of exec for a command that has no meaning yet. Safe: nothing is claimed of it. -/
  | notModelled (mnemonic : String)
  deriving DecidableEq, Repr

/-- The device right after a cold reset: PWR_GOOD has risen, every strap reads open, the boot ROM runs (log entry 2). -/
def State.reset : State := {}

end Sys2Proof.Machine
end

