-- ==== Sys2Proof/Machine/Tables.lean ====
section
/-! DEFINITION. Sparse tables: reading and writing an entry, and sparse sets of numbers. -/

namespace Sys2Proof.Machine

/-- Entry `k` of a table; `d` where the table does not list it. -/
def tget {α : Type} (d : α) : Tbl α → Nat → α
  | [], _ => d
  | (i, v) :: t, k => if i = k then v else tget d t k

/-- A table with entry `k` written: the listed entries stay in rising order of their numbers. -/
def tset {α : Type} : Tbl α → Nat → α → Tbl α
  | [], k, v => [(k, v)]
  | (i, w) :: t, k, v =>
    if i = k then (i, v) :: t
    else if k < i then (k, v) :: (i, w) :: t
    else (i, w) :: tset t k v

/-- A table with entry `k` changed by `f`. -/
def tmod {α : Type} (d : α) (t : Tbl α) (k : Nat) (f : α → α) : Tbl α := tset t k (f (tget d t k))

/-- The entries of a table whose number satisfies `q`. -/
def tfilter {α : Type} (q : Nat → Bool) (t : Tbl α) : Tbl α := t.filter (fun e => q e.1)

/-- Element `i` of a list, `d` past its end. -/
def nth {α : Type} (d : α) (l : List α) (i : Nat) : α := l.getD i d

/-- A list with element `i` changed by `f`; unchanged where it has no such element. -/
def setNth {α : Type} (l : List α) (i : Nat) (f : α → α) : List α :=
  match l, i with
  | [], _ => []
  | a :: t, 0 => f a :: t
  | a :: t, i + 1 => a :: setNth t i f

/-- A list of numbers with `n` in it once. -/
def addTo (l : List Nat) (n : Nat) : List Nat := if n ∈ l then l else l ++ [n]

/-- The members of `l` in the order of the key `f`, least first, equal keys in the order of `l`. -/
def sortBy {α : Type} (f : α → Nat) : List α → List α
  | [] => []
  | a :: t => go f a (sortBy f t)
where
  go (f : α → Nat) (a : α) : List α → List α
    | [] => [a]
    | b :: t => if f a ≤ f b then a :: b :: t else b :: go f a t

/-- The first member of least key. -/
def minBy {α : Type} (f : α → Nat) : List α → Option α
  | [] => none
  | a :: t =>
    match minBy f t with
    | none => some a
    | some b => if f a ≤ f b then some a else some b

end Sys2Proof.Machine
end

