-- ==== Sys2Proof/Machine/Access.lean ====
section
/-! DEFINITION. Reading and writing the parts of the state by number; every other file goes through these. -/

namespace Sys2Proof.Machine

/-- What a meaning answers. -/
abbrev Res := Host.Outcome State Fault Refusal

/-- Partition `p`. -/
def State.part (s : State) (p : Nat) : Part := tget {} s.parts p
/-- The state with partition `p` replaced. -/
def State.setPart (s : State) (p : Nat) (x : Part) : State := { s with parts := tset s.parts p x }
/-- The state with partition `p` changed. -/
def State.modPart (s : State) (p : Nat) (f : Part → Part) : State := s.setPart p (f (s.part p))

/-- The command system of partition `p` changed. -/
def State.modSys (s : State) (p : Nat) (f : CmdSys → CmdSys) : State :=
  s.modPart p fun x => { x with cmd := f x.cmd }
/-- The control registers of partition `p` changed. -/
def State.modCtl (s : State) (p : Nat) (f : PartCtl → PartCtl) : State :=
  s.modPart p fun x => { x with ctl := f x.ctl }
/-- The meters of partition `p` changed. -/
def State.modMtr (s : State) (p : Nat) (f : Meters → Meters) : State :=
  s.modPart p fun x => { x with mtr := f x.mtr }
/-- The Lantern store of partition `p` changed. -/
def State.modLtn (s : State) (p : Nat) (f : Lantern → Lantern) : State :=
  s.modPart p fun x => { x with ltn := f x.ltn }
/-- The SEQ state of partition `p` changed. -/
def State.modSeq (s : State) (p : Nat) (f : Seq → Seq) : State :=
  s.modPart p fun x => { x with seq := f x.seq }
/-- The streams of partition `p` changed. -/
def State.modStr (s : State) (p : Nat) (f : Streams → Streams) : State :=
  s.modPart p fun x => { x with str := f x.str }
/-- The objects of partition `p` changed. -/
def State.modObjs (s : State) (p : Nat) (f : Objs → Objs) : State :=
  s.modPart p fun x => { x with obj := f x.obj }
/-- The codec sessions of partition `p` changed. -/
def State.modCdc (s : State) (p : Nat) (f : Cdc → Cdc) : State :=
  s.modPart p fun x => { x with cdc := f x.cdc }
/-- The network state of partition `p` changed. -/
def State.modNet (s : State) (p : Nat) (f : NetPart → NetPart) : State :=
  s.modPart p fun x => { x with net := f x.net }
/-- The VF of partition `p` changed. -/
def State.modVf (s : State) (p : Nat) (f : Vf → Vf) : State :=
  s.modPart p fun x => { x with vf := f x.vf }
/-- The mirror binding of partition `p` changed. -/
def State.modMir (s : State) (p : Nat) (f : Mirror → Mirror) : State :=
  s.modPart p fun x => { x with mir := f x.mir }
/-- The watchdog of partition `p` changed. -/
def State.modWdg (s : State) (p : Nat) (f : Watchdog → Watchdog) : State :=
  s.modPart p fun x => { x with wdg := f x.wdg }
/-- The event ring of partition `p` changed. -/
def State.modEvt (s : State) (p : Nat) (f : EvRing → EvRing) : State :=
  s.modPart p fun x => { x with evt := f x.evt }

/-- Physical cluster `c`. -/
def State.cluster (s : State) (c : Nat) : Cluster := tget {} s.clus c
/-- The state with physical cluster `c` changed. -/
def State.modCluster (s : State) (c : Nat) (f : Cluster → Cluster) : State := { s with clus := tmod {} s.clus c f }
/-- Tile `t`. -/
def State.tile (s : State) (t : Nat) : Tile := tget {} s.tiles t
/-- The state with tile `t` changed. -/
def State.modTile (s : State) (t : Nat) (f : Tile → Tile) : State := { s with tiles := tmod {} s.tiles t f }
/-- Channel `k` (HBM 0 to 255, LPDDR 256 to 319). -/
def State.chan (s : State) (k : Nat) : Chan := tget (Chan.reset k) s.mem.chans k
/-- The state with its memories changed. -/
def State.modMem (s : State) (f : Mem → Mem) : State := { s with mem := f s.mem }
/-- The state with channel `k` changed. -/
def State.modChan (s : State) (k : Nat) (f : Chan → Chan) : State :=
  s.modMem fun m => { m with chans := tmod (Chan.reset k) m.chans k f }
/-- Memory die `d`. -/
def State.die (s : State) (d : Nat) : Die := tget {} s.mem.dies d
/-- The state with memory die `d` changed. -/
def State.modDie (s : State) (d : Nat) (f : Die → Die) : State :=
  s.modMem fun m => { m with dies := tmod {} m.dies d f }
/-- Logical quad `q`. -/
def State.quad (s : State) (q : Nat) : Quad := tget {} s.pwr.quads q
/-- The state with logical quad `q` changed. -/
def State.modQuad (s : State) (q : Nat) (f : Quad → Quad) : State :=
  { s with pwr := { s.pwr with quads := tmod {} s.pwr.quads q f } }
/-- The state with its power registers changed. -/
def State.modPwr (s : State) (f : Power → Power) : State := { s with pwr := f s.pwr }
/-- The state with its security state changed. -/
def State.modSec (s : State) (f : Security → Security) : State := { s with sec := f s.sec }
/-- The state with its flash changed. -/
def State.modFlash (s : State) (f : Flash → Flash) : State := { s with flash := f s.flash }
/-- The state with its event system changed. -/
def State.modEv (s : State) (f : Events → Events) : State := { s with ev := f s.ev }
/-- The state with its host port changed. -/
def State.modHst (s : State) (f : HostPort → HostPort) : State := { s with hst := f s.hst }
/-- The state with its pair link changed. -/
def State.modEci (s : State) (f : Eci → Eci) : State := { s with eci := f s.eci }
/-- The state with its sideband registers changed. -/
def State.modMgmt (s : State) (f : Mgmt → Mgmt) : State := { s with mgmt := f s.mgmt }
/-- The state with codec engine `u` changed. -/
def State.modEng (s : State) (u : Nat) (f : CdcEng → CdcEng) : State := { s with cdcs := tmod {} s.cdcs u f }
/-- The state with Ethernet port `n` changed. -/
def State.modPort (s : State) (n : Nat) (f : NetPort → NetPort) : State := { s with nets := tmod {} s.nets n f }

/-- The state that answers `r`. -/
def State.answer (s : State) (r : Reply) : State := { s with reply := r }
/-- The state from which `o` has left the block. -/
def State.emit (s : State) (o : Out) : State := { s with out := o :: s.out }
/-- The state after one free value has been used (log entry 6). -/
def State.useFree (s : State) : State := { s with free := s.free + 1 }

/-- The enabled quads of the grade (Table 0.1). -/
def Grade.quads : Grade → Nat
  | .se880a => 80
  | .se720a => 72
/-- The code of a grade (ID_GRADE). -/
def Grade.code : Grade → Nat
  | .se880a => 0
  | .se720a => 1

/-- The codec engines of the grade. -/
def Grade.codecs : Grade → Nat
  | .se880a => 4
  | .se720a => 2
/-- The Ethernet ports of the grade. -/
def Grade.ports : Grade → Nat
  | .se880a => 2
  | .se720a => 0
/-- The power envelope of the grade in watts. -/
def Grade.envelope : Grade → Nat
  | .se880a => 1700
  | .se720a => 1500

/-- The code of a home (Table 7.1). -/
def Home.code : Home → Nat
  | .c => 0
  | .s => 1
  | .h => 2
  | .l => 3
/-- The home of a code. -/
def Home.ofCode (n : Nat) : Home :=
  match n % 4 with
  | 0 => .c
  | 1 => .s
  | 2 => .h
  | _ => .l
/-- The memory that holds a home. -/
def Home.space : Home → Space
  | .c => .hamper
  | .s => .sram
  | .h => .hbm
  | .l => .lpddr

/-- Tile of logical quad `q` and physical quad on it (ID_QLOC, R502): the fuse map's byte. -/
def State.qloc (s : State) (q : Nat) : Nat × Nat :=
  let b := (tget (BitVec.ofNat 8 (q / 4 + 32 * (q % 4))) s.fuse.qloc q).toNat
  (bitsOf b 0 5, bitsOf b 5 2)
/-- QD_CLUSTERS of physical quad `j` of tile `t`: the indices of its clusters, rising (R503). -/
def State.quadMembers (s : State) (t j : Nat) : List Nat :=
  setBits (tget (BitVec.ofNat 64 (1023 * 2 ^ (10 * j))) s.fuse.members (4 * t + j)).toNat 42
/-- The physical cluster that is logical cluster 10 q + m (R503). -/
def State.physCluster (s : State) (q m : Nat) : Nat :=
  let (t, j) := s.qloc q
  42 * t + nth 0 (s.quadMembers t j) m
/-- The ten physical clusters of logical quad `q`. -/
def State.quadClusters (s : State) (q : Nat) : List Nat := (List.range 10).map (s.physCluster q)
/-- The logical quad and the member of it that physical cluster `c` is. -/
def State.logCluster (s : State) (c : Nat) : Option (Nat × Nat) :=
  (List.range s.fuse.grade.quads).findSome? fun q =>
    let (t, j) := s.qloc q
    if t = c / 42 then ((s.quadMembers t j).take 10).findIdx? (· == c % 42) |>.map fun m => (q, m) else none

/-- The logical quad at position `k` of PART_QUADMAP. -/
def PartCtl.quadAt (c : PartCtl) (k : Nat) : Nat := (tget (0xFF#8) c.quadMap k).toNat
/-- The logical quads of partition `p`, in partition quad order (R304). -/
def State.quadsOf (s : State) (p : Nat) : List Nat :=
  let c := (s.part p).ctl
  (List.range c.quads.toNat).map c.quadAt
/-- Whether partition `p` holds its quads: from COMMIT on (R302). -/
def State.live (s : State) (p : Nat) : Bool :=
  match (s.part p).ctl.state with
  | .empty | .configuring => false
  | _ => true
/-- Partition-relative cluster `r` of partition `p` as a physical cluster (R137). -/
def State.relCluster (s : State) (p r : Nat) : Option Nat :=
  let c := (s.part p).ctl
  if r < 10 * c.quads.toNat then some (s.physCluster (c.quadAt (r / 10)) (r % 10)) else none
/-- The partition that holds logical quad `q`. -/
def State.quadOwner (s : State) (q : Nat) : Option Nat :=
  (List.range 32).find? fun p => s.live p && (s.quadsOf p).contains q
/-- The partition of physical cluster `c`, with its partition-relative id. -/
def State.clusterOwner (s : State) (c : Nat) : Option (Nat × Nat) := do
  let (q, m) ← s.logCluster c
  let p ← s.quadOwner q
  let k ← (s.quadsOf p).findIdx? (· == q)
  return (p, 10 * k + m)

/-- The outstanding command `id` of partition `p`. -/
def State.cmd? (s : State) (p id : Nat) : Option Cmd := (s.part p).cmd.cmds.find? (·.id == id)
/-- The state with command `id` of partition `p` changed. -/
def State.modCmd (s : State) (p id : Nat) (f : Cmd → Cmd) : State :=
  s.modSys p fun y => { y with cmds := y.cmds.map fun c => if c.id = id then f c else c }

/-- Ring `n` of partition `p`. -/
def State.ring (s : State) (p n : Nat) : Ring := tget {} (s.part p).cmd.rings n
/-- The state with ring `n` of partition `p` changed. -/
def State.modRing (s : State) (p n : Nat) (f : Ring → Ring) : State :=
  s.modSys p fun y => { y with rings := tmod {} y.rings n f }
/-- Context `c` of partition `p`. -/
def State.ctx (s : State) (p c : Nat) : Ctx := tget {} (s.part p).cmd.ctxs c
/-- The state with context `c` of partition `p` changed. -/
def State.modCtx (s : State) (p c : Nat) (f : Ctx → Ctx) : State :=
  s.modSys p fun y => { y with ctxs := tmod {} y.ctxs c f }
/-- Token `t` of partition `p`. -/
def State.token (s : State) (p t : Nat) : Token := tget {} (s.part p).cmd.tokens t
/-- The state with token `t` of partition `p` changed. -/
def State.modToken (s : State) (p t : Nat) (f : Token → Token) : State :=
  s.modSys p fun y => { y with tokens := tmod {} y.tokens t f }
/-- The LIST_CALL `id` of partition `p` in progress. -/
def State.call? (s : State) (p id : Nat) : Option Call :=
  ((s.part p).cmd.calls.find? (·.1 == id)).map (·.2)
/-- The state with LIST_CALL `id` of partition `p` changed. -/
def State.modCall (s : State) (p id : Nat) (f : Call → Call) : State :=
  s.modSys p fun y => { y with calls := y.calls.map fun e => if e.1 = id then (e.1, f e.2) else e }

/-- Object `h` of partition `p`. -/
def State.object (s : State) (p h : Nat) : Obj := tget {} (s.part p).obj.table h
/-- The state with object `h` of partition `p` changed. -/
def State.modObject (s : State) (p h : Nat) (f : Obj → Obj) : State :=
  s.modObjs p fun y => { y with table := tmod {} y.table h f }

/-- Meter `i` of partition `p` (Table 9.7). -/
def State.meter (s : State) (p i : Nat) : W64 := tget 0 (s.part p).mtr.counters i
/-- The state with `n` added to meter `i` of partition `p` (R317). -/
def State.count (s : State) (p i n : Nat) : State :=
  if n = 0 then s else s.modMtr p fun y => { y with counters := tmod 0 y.counters i (wrapAdd · n) }

/-- The header of the PF page with number `k` (BAR offset / 4096). -/
def State.pfHdr (s : State) (k : Nat) : PageHdr := tget {} s.hdr k
/-- The state with the header of PF page `k` changed. -/
def State.modPfHdr (s : State) (k : Nat) (f : PageHdr → PageHdr) : State := { s with hdr := tmod {} s.hdr k f }
/-- The header of VF page `k` of partition `p`. -/
def State.vfHdr (s : State) (p k : Nat) : PageHdr := tget {} (s.part p).hdr k
/-- The state with the header of VF page `k` of partition `p` changed. -/
def State.modVfHdr (s : State) (p k : Nat) (f : PageHdr → PageHdr) : State :=
  s.modPart p fun x => { x with hdr := tmod {} x.hdr k f }

/-- Stream entry `i` of partition `p`. -/
def State.stream (s : State) (p i : Nat) : Stream := tget {} (s.part p).str.table i

end Sys2Proof.Machine
end

