-- ==== Sys2Proof/Machine/Memory.lean ====
section
/-!
DEFINITION. The memories: cells, lines, poison, encryption keys, channels (chapter 7), and reads and writes of a
partition's memory by place.

A memory is a list of cells, addresses rising, none holding 0; an unlisted cell reads as 0 (log entry 1). The cells hold
plain data; the key a line of H or L was written under stands beside it, and under another key the line reads as
unrelated data (R265, log entry 11).
-/

namespace Sys2Proof.Machine

/-- The byte at an address of a memory. -/
def cellGet (l : List Host.Cell) (a : Nat) : Byte := tget 0 l a
/-- A memory with one byte written; a zero byte is not listed. -/
def cellSet (l : List Host.Cell) (a : Nat) (b : Byte) : List Host.Cell :=
  if b = 0 then l.filter (fun e => decide (e.1 ≠ a)) else tset l a b
/-- Bytes written from an address on. -/
def cellsSet (l : List Host.Cell) (a : Nat) : List Byte → List Host.Cell
  | [] => l
  | b :: t => cellsSet (cellSet l a b) (a + 1) t
/-- Bytes read from an address on. -/
def cellsGet (l : List Host.Cell) (a n : Nat) : List Byte := (List.range n).map fun i => cellGet l (a + i)

/-- The canonical form of a memory: addresses rising, no zero byte listed. -/
def Memory.wf : List Host.Cell → Bool
  | [] => true
  | [e] => e.2 != 0
  | e :: f :: t => e.2 != 0 && decide (e.1 < f.1) && Memory.wf (f :: t)

/-- The cells of a memory. -/
def Mem.cells (m : Mem) : Space → List Host.Cell
  | .sram => m.sram
  | .hamper => m.hamper
  | .hbm => m.hbm
  | .lpddr => m.lpddr
  | .host => m.host
/-- The memories with the cells of one replaced. -/
def Mem.setCells (m : Mem) (sp : Space) (l : List Host.Cell) : Mem :=
  match sp with
  | .sram => { m with sram := l }
  | .hamper => { m with hamper := l }
  | .hbm => { m with hbm := l }
  | .lpddr => { m with lpddr := l }
  | .host => { m with host := l }

/-- The key number a line was written under; 0: never written, or not encrypted. -/
def Mem.lineKey (m : Mem) (sp : Space) (line : Nat) : Nat :=
  match sp with
  | .hbm => tget 0 m.keyH line
  | .lpddr => tget 0 m.keyL line
  | _ => 0
/-- The memories with the key number of a line written. -/
def Mem.setLineKey (m : Mem) (sp : Space) (line k : Nat) : Mem :=
  match sp with
  | .hbm => { m with keyH := tset m.keyH line k }
  | .lpddr => { m with keyL := tset m.keyL line k }
  | _ => m

/-- The byte at `a` as key `key` reads it (R264, R265). -/
def Mem.byteAt (m : Mem) (key : Nat) (sp : Space) (a : Nat) : Byte :=
  let k := m.lineKey sp (a / 64)
  if k = 0 ∨ k = key then cellGet (m.cells sp) a else Config.unrelated k key (a / 64) (a % 64)

/-- The line brought under key `key`, its other bytes as that key reads them, before part of it is written. -/
def Mem.rekey (m : Mem) (key : Nat) (sp : Space) (line : Nat) : Mem :=
  let k := m.lineKey sp line
  if k = 0 ∨ k = key then m.setLineKey sp line key
  else
    let bs := (List.range 64).map fun i => m.byteAt key sp (64 * line + i)
    (m.setCells sp (cellsSet (m.cells sp) (64 * line) bs)).setLineKey sp line key

/-- Bytes of one line written under a key. -/
def Mem.poke (m : Mem) (key : Nat) (sp : Space) (a : Nat) (bs : List Byte) : Mem :=
  let m := m.rekey key sp (a / 64)
  m.setCells sp (cellsSet (m.cells sp) a bs)

/-- Bit `i` of the xor of the fields of `x` that R236 and R237 name: `n` bits wide, from bit `lo` on, `count` of them. -/
def xorFields (x lo n count : Nat) : Nat :=
  (List.range count).foldl (fun c k => c ^^^ bitsOf x (lo + n * k) n) 0
/-- The HBM channel of a DPA (R236). -/
def hbmChannel (x : Nat) : Nat := xorFields x 8 8 5
/-- The LPDDR channel of a DPA (R237). -/
def lpddrChannel (x : Nat) : Nat := xorFields (x % 2 ^ 48) 7 6 7
/-- The address within an HBM channel (R236). -/
def hbmInner (x : Nat) : Nat := bitsOf x 16 32 * 256 + x % 256
/-- The address within an LPDDR channel (R237). -/
def lpddrInner (x : Nat) : Nat := bitsOf x 13 35 * 128 + x % 128
/-- The channel number of an address: HBM 0 to 255, LPDDR 256 to 319. -/
def chanOf (sp : Space) (a : Nat) : Option Nat :=
  match sp with
  | .hbm => some (hbmChannel a)
  | .lpddr => some (256 + lpddrChannel a)
  | _ => none
/-- The memory die of a channel (R236, R237). -/
def dieOf (k : Nat) : Nat := if k < 256 then k / 64 else (k - 256) / 16

/-- The fault that poisons a line: its own, or that of its FAILED channel (R262); none: the line is good. -/
def Mem.poisonAt (m : Mem) (sp : Space) (line : Nat) : Option W64 :=
  let failed := (chanOf sp (64 * line)).bind fun k =>
    let c := tget (Chan.reset k) m.chans k
    if c.state = .failed then some c.failSeq else none
  match failed with
  | some q => some q
  | none => (m.poison.find? fun x => x.space = sp ∧ x.line = line).map (·.seq)
/-- Whether the channel of an address is FAILED. -/
def Mem.chanFailed (m : Mem) (sp : Space) (a : Nat) : Bool :=
  match chanOf sp a with
  | some k => (tget (Chan.reset k) m.chans k).state == .failed
  | none => false
/-- The memories with a line marked poisoned by a fault. -/
def Mem.addPoison (m : Mem) (sp : Space) (line : Nat) (q : W64) : Mem :=
  if m.poison.any fun x => x.space = sp ∧ x.line = line then m
  else { m with poison := m.poison ++ [{ space := sp, line := line, seq := q }] }
/-- The memories with a line's poison cleared. -/
def Mem.clearPoison (m : Mem) (sp : Space) (line : Nat) : Mem :=
  { m with poison := m.poison.filter fun x => ! decide (x.space = sp ∧ x.line = line) }

/-- A write of `bs` at `a`, all in one line (R260, R262): a FAILED channel takes none, a poisoned line takes only a
whole line, which clears its poison. Answers the fault that refused it. -/
def Mem.writeLine (m : Mem) (key : Nat) (sp : Space) (a : Nat) (bs : List Byte) : Mem × Option W64 :=
  match m.poisonAt sp (a / 64) with
  | none => (m.poke key sp a bs, none)
  | some q =>
    if bs.length = 64 ∧ ! m.chanFailed sp a then ((m.poke key sp a bs).clearPoison sp (a / 64), none) else (m, some q)

/-- The size of a cluster's SRAM in bytes. -/
def sramBytes : Nat := 50331648
/-- The size of a tile's Hamper in bytes. -/
def hamperBytes : Nat := 134217728
/-- The Hamper granule, 4 MiB (Table 9.1). -/
def hamperGranule : Nat := 4194304
/-- The quota granule, 1 GiB. -/
def gib : Nat := 1073741824

/-- A physical address: a memory and an address in it. -/
structure PAddr where
  space : Space
  addr : Nat
  deriving DecidableEq, Repr

/-- The granules that partition `p` holds on tile `t`, in the order of its share. -/
def PartCtl.hamperShare (c : PartCtl) (t : Nat) : List Nat := (c.hgran.filter (· / 32 == t)).map (· % 32)

/-- The physical address of byte `off` from a place of partition `p` (R234, R235, R305). -/
def State.phys (s : State) (p : Nat) (pl : Place) (off : Nat) : PAddr :=
  let c := (s.part p).ctl
  let a := pl.addr.toNat + off
  match pl.home with
  | .c => ⟨.hamper, hamperBytes * pl.place.toNat + hamperGranule * nth 0 (c.hamperShare pl.place.toNat) (a / hamperGranule) + a % hamperGranule⟩
  | .s => ⟨.sram, sramBytes * ((s.relCluster p pl.place.toNat).getD 0) + a⟩
  | .h => ⟨.hbm, gib * nth 0 c.hmap (a / gib) + a % gib⟩
  | .l => ⟨.lpddr, gib * nth 0 c.lmap (a / gib) + a % gib⟩

/-- The parts of the range of `n` bytes from `off` that lie in one line each: offset and length. -/
def lineSegs (off n : Nat) : List (Nat × Nat) :=
  if n = 0 then [] else
  (List.range ((off + n + 63) / 64 - off / 64)).map fun i =>
    let l := off / 64 + i
    let lo := max off (64 * l)
    (lo, min (off + n) (64 * l + 64) - lo)

/-- The size of a bucket of regulator `r` (R312). -/
def bucketSize (r cap : Nat) : Nat := if r < 2 then cap / 4 else cap

/-- Whether a transfer of `n` credits waits at bucket `b` of a regulator, whose buckets hold `size` (R312): others wait there, or there are
too few credits. A transfer of more credits than a bucket holds needs a full one (log entry 23). -/
def Regulator.holds (g : Regulator) (b n size : Nat) : Bool :=
  g.cap != 0 && (!(nth [] g.queue b).isEmpty || decide (nth 0 g.bucket b < ((min n size : Nat) : Int)))

/-- Credits taken from a bucket now; `floor` is how far below zero it may fall (R312, R366). -/
def Regulator.spend (g : Regulator) (b n floor : Nat) : Regulator :=
  { g with
    taken := setNth g.taken b (· + n)
    bucket := if g.cap = 0 then g.bucket else setNth g.bucket b (fun x => max (x - (n : Int)) (-(floor : Int))) }

/-- A transfer of `n` credits put last among those that wait. -/
def pushCredits (q : List (Nat × Nat)) (n : Nat) : List (Nat × Nat) :=
  match q.getLast? with
  | some (c, k) => if c = n then q.dropLast ++ [(c, k + 1)] else q ++ [(n, 1)]
  | none => [(n, 1)]

/-- A transfer marked as one that waited in this period. -/
def Regulator.wait (g : Regulator) (b : Nat) : Regulator := { g with waited := setNth g.waited b fun _ => true }

/-- A transfer of `n` credits at bucket `b` (R312): it takes them, or waits behind those that wait. -/
def Regulator.take (g : Regulator) (b n size : Nat) : Regulator :=
  let asked := setNth g.asked b (· + n)
  if g.holds b n size then { g.wait b with asked := asked, queue := setNth g.queue b (pushCredits · n) }
  else { g.spend b n 0 with asked := asked, given := setNth g.given b (· + n) }

/-- Regulator `r` of partition `p`. -/
def State.regulator (s : State) (p r : Nat) : Regulator := tget {} (s.part p).mtr.regs r
/-- The state with regulator `r` of partition `p` changed. -/
def State.modReg (s : State) (p r : Nat) (f : Regulator → Regulator) : State :=
  s.modMtr p fun y => { y with regs := tmod {} y.regs r f }
/-- Whether a transfer of `n` credits waits at bucket `b` of regulator `r` of partition `p`. -/
def State.regHolds (s : State) (p r b n : Nat) : Bool :=
  (s.regulator p r).holds b n (bucketSize r (s.regulator p r).cap.toNat)
/-- Credits of regulator `r` of partition `p` counted by the meter of its bytes (Table 9.7); frames are metered in bytes (R394). -/
def State.meterCredits (s : State) (p r n : Nat) : State := if r < 3 then s.count p (3 + r) (64 * n) else s

/-- A transfer of `n` credits at bucket `b` of regulator `r` of partition `p`: metered unless it waits (R312). -/
def State.charge (s : State) (p r b n : Nat) : State :=
  let t := s.modReg p r fun g => g.take b n (bucketSize r g.cap.toNat)
  if s.regHolds p r b n then t else t.meterCredits p r n

/-- A transfer of `n` bytes between the host and partition `p`, in whole 64 B credits (R365): the host-byte counter and the HOST
regulator; `asked`: the host asks for it, so that it never waits and the bucket may fall as low as −cap (R366). -/
def State.countHost (s : State) (p n : Nat) (asked : Bool) : State :=
  let k := (n + 63) / 64
  if asked then (s.modReg p 2 fun g => g.spend 0 k g.cap.toNat).meterCredits p 2 k else s.charge p 2 0 k

/-- The credits asked for in the buckets of a partition's regulators by transfers that may wait, and those such transfers got. -/
def State.asked (s : State) (p : Nat) : List Nat := (List.range 5).flatMap fun r => (s.regulator p r).asked
/-- The credits that a partition's transfers got. -/
def State.given (s : State) (p : Nat) : List Nat := (List.range 5).flatMap fun r => (s.regulator p r).given
/-- Whether the transfers that had been asked for when a command ended have all been made (R312). -/
def State.paid (s : State) (p : Nat) (c : Cmd) : Bool := ((s.given p).zip c.owed).all fun x => decide (x.2 ≤ x.1)

/-- One 64 B line of H or L transferred for partition `p`: meters, regulator, channel (R245, R267, R312), whose controller may have retried
it (R262). -/
def State.countLine (s : State) (p : Nat) (sp : Space) (a : Nat) : State :=
  match chanOf sp a with
  | none => s
  | some k =>
    let i := if k < 256 then 0 else 1
    ((s.modChan k fun c => { c with bytes := wrapAdd c.bytes 64, retries := satAdd c.retries (b2n (Config.retried k c.bytes)) })).charge p i (dieOf k) 1

/-- The lines of `n` bytes at `off` of a partition's list buffers and context images (R303) counted as transferred (R245, R311). -/
def State.countArea (s : State) (p off n : Nat) : State :=
  (List.range (ceilDiv n 64)).foldl (fun s i => s.countLine p .hbm (64 * ((Config.areaLine p + off / 64 + i) % 2 ^ 24))) s

/-- What a read answers: the bytes, and the first poisoned line met with the fault that poisoned it. -/
structure Rd where
  bytes : List Byte
  poison : Option PoisonLine := none
  deriving Repr

/-- The bytes of `n` bytes from `off` of a place of partition `p`, and the first poisoned line among them (R260). -/
def State.peek (s : State) (p : Nat) (pl : Place) (off n : Nat) : Rd :=
  let key := (s.part p).ctl.key
  let segs := (lineSegs off n).map fun (o, k) => (s.phys p pl o, k)
  { bytes := segs.flatMap fun (x, k) => (List.range k).map fun i => s.mem.byteAt key x.space (x.addr + i)
    poison := segs.findSome? fun (x, _) =>
      (s.mem.poisonAt x.space (x.addr / 64)).map fun q => { space := x.space, line := x.addr / 64, seq := q } }

/-- The lines of a range counted as transferred (R245). -/
def State.countRange (s : State) (p : Nat) (pl : Place) (off n : Nat) : State :=
  match pl.home with
  | .c | .s => s
  | _ => (lineSegs off n).foldl (fun s e => let x := s.phys p pl e.1; s.countLine p x.space x.addr) s

/-- Bytes written at a place of partition `p`, line by line; answers the first fault that refused a line (R260, R262). -/
def State.poke (s : State) (p : Nat) (pl : Place) (off : Nat) (bs : List Byte) : State × Option W64 :=
  let key := (s.part p).ctl.key
  (lineSegs off bs.length).foldl (fun (r : State × Option W64) e =>
    let x := r.1.phys p pl e.1
    let (m, bad) := r.1.mem.writeLine key x.space x.addr ((bs.drop (e.1 - off)).take e.2)
    (({ r.1 with mem := m } : State).countLine p x.space x.addr, r.2.orElse fun _ => bad)) (s, none)

/-- What a mirrored partition has changed since its last delta (R406). -/
def State.markDirty (s : State) (p : Nat) (d : Dirty) : State :=
  let m := (s.part p).mir
  if m.enable && !m.standby && !m.dirty.contains d then
    s.modMir p fun y => { y with dirty := y.dirty ++ [d] }
  else s

/-- The 4 KiB pages of a written range of a mirrored object marked dirty (R406). -/
def State.dirtyRange (s : State) (p h off n : Nat) : State :=
  if (s.object p h).mirror && n ≠ 0 then
    (List.range ((off + n - 1) / 4096 + 1 - off / 4096)).foldl
      (fun s i => s.markDirty p (.page h (off / 4096 + i))) s
  else s

/-- An object reference (R84): bits 19:0 the handle, bits 63:20 the offset. -/
structure ORef where
  handle : Nat
  off : Nat
  deriving DecidableEq, Repr

/-- The reference that 64 bits spell. -/
def ORef.of (x : Nat) : ORef := ⟨bitsOf x 0 20, bitsOf x 20 44⟩
/-- The reference in eight bytes of a descriptor. -/
def orefAt (bs : List Byte) (i : Nat) : ORef := ORef.of (fieldAt bs i 8)
/-- The reference `n` bytes further on. -/
def ORef.add (r : ORef) (n : Nat) : ORef := ⟨r.handle, r.off + n⟩

/-- Whether an object holds data: PRESENT or MOVING. -/
def Obj.usable (o : Obj) : Bool := o.state != .free

/-- Whether a reference names `n` bytes of a PRESENT or MOVING object (R240). -/
def State.inObj (s : State) (p : Nat) (r : ORef) (n : Nat) : Bool :=
  let o := s.object p r.handle
  o.usable && r.off + n ≤ o.size.toNat

/-- The bytes that a reference names, from the object's home as it stands; a MOVING object is read at its source
(R242). -/
def State.peekO (s : State) (p : Nat) (r : ORef) (n : Nat) : Rd := s.peek p (s.object p r.handle).src r.off n
/-- The lines that a read of a reference transfers. -/
def State.countO (s : State) (p : Nat) (r : ORef) (n : Nat) : State := s.countRange p (s.object p r.handle).src r.off n
/-- Whether a home is S or C. -/
def Home.near (hm : Home) : Bool := hm == .c || hm == .s

/-- Whether a line of a range of a place lies on a channel that satisfies `q`. -/
def State.anyChannel (s : State) (p : Nat) (pl : Place) (off n : Nat) (q : Nat → Bool) : Bool :=
  !pl.home.near && (lineSegs off n).any fun e =>
    let x := s.phys p pl e.1
    (chanOf x.space x.addr).any q

/-- Whether a die's traffic has stopped after a CRYPTO_FAULT (R270). -/
def State.anyStopped (s : State) : Bool := (List.range 4).any fun d => (s.die d).cryptoFailed

/-- Whether a line on channel `k` waits for credits of its die's bucket (R312). -/
def State.lineHeld (s : State) (p k : Nat) : Bool := s.regHolds p (if k < 256 then 0 else 1) (dieOf k) 1
/-- Whether a regulator of partition `p`'s memory is capped. -/
def State.memCapped (s : State) (p : Nat) : Bool := (s.regulator p 0).cap != 0 || (s.regulator p 1).cap != 0
/-- Whether a range touches a die whose traffic has stopped (R270), or one where the partition's transfers find too few credits (R312): what
touches one does not go on. -/
def State.stoppedAt (s : State) (p : Nat) (pl : Place) (off n : Nat) : Bool :=
  (s.anyStopped && s.anyChannel p pl off n fun k => (s.die (dieOf k)).cryptoFailed)
    || (s.memCapped p && s.anyChannel p pl off n (s.lineHeld p))
/-- Whether a range of an object touches a die whose traffic has stopped or waits. -/
def State.stoppedO (s : State) (p : Nat) (r : ORef) (n : Nat) : Bool := s.stoppedAt p (s.object p r.handle).src r.off n
/-- The buckets at which a range of a place waits for credits marked as ones at which traffic waited (R312). -/
def State.waitAt (s : State) (p : Nat) (pl : Place) (off n : Nat) : State :=
  if !s.memCapped p || pl.home.near then s else
  (lineSegs off n).foldl (fun s e =>
    let x := s.phys p pl e.1
    match chanOf x.space x.addr with
    | some k => if s.lineHeld p k then s.modReg p (if k < 256 then 0 else 1) (·.wait (dieOf k)) else s
    | none => s) s
/-- Those of the ranges of references. -/
def State.waitO (s : State) (p : Nat) (rs : List (ORef × Nat)) : State :=
  rs.foldl (fun s r => s.waitAt p (s.object p r.1.handle).src r.1.off r.2) s

/-- Bytes written to a reference. -/
def State.pokeO (s : State) (p : Nat) (r : ORef) (bs : List Byte) : State × Option W64 :=
  let t := s.poke p (s.object p r.handle).src r.off bs
  (t.1.dirtyRange p r.handle r.off bs.length, t.2)

/-- A write to an object by an agent that cannot stall: a MOVING object holds it until its commit (R242 step 4, log entry 36). -/
def State.pokeHeld (s : State) (p : Nat) (r : ORef) (bs : List Byte) : State × Option W64 :=
  if (s.object p r.handle).state = .moving then
    (s.modObject p r.handle fun o => { o with held := o.held ++ [(r.off, bs)] }, none)
  else s.pokeO p r bs

/-- A write of several pieces, in order; answers the first fault that refused a line. -/
def State.pokeAll (s : State) (p : Nat) (ws : List (ORef × List Byte)) : State × Option W64 :=
  ws.foldl (fun (r : State × Option W64) w =>
    let t := r.1.pokeO p w.1 w.2
    (t.1, r.2.orElse fun _ => t.2)) (s, none)

/-- Bytes of host memory. -/
def State.hostBytes (s : State) (a n : Nat) : List Byte := cellsGet s.mem.host a n
/-- Bytes of host memory written. -/
def State.setHost (s : State) (a : Nat) (bs : List Byte) : State :=
  s.modMem fun m => { m with host := cellsSet m.host a bs }

end Sys2Proof.Machine
end

