-- ==== Sys2Proof/Machine/Events.lean ====
section
/-!
DEFINITION. Event records, event rings, cause chains, alerts (chapter 16, R376, R436, R441).

A fault takes the next device event sequence number (R473) and starts a chain with its first cause; each ring holds at
most one record of it. Every event of the spec is raised through the operations of this file.
-/

namespace Sys2Proof.Machine

/-- Where a cause is raised: block code (Table 16.3) and instance (R472). -/
structure Src where
  block : Nat
  inst : Nat := 0
  deriving DecidableEq, Repr

/-- The 32 bytes of an event record (Table 16.2). -/
def EvRec.bytes (r : EvRec) : List Byte :=
  leBytes 2 r.cause.toNat ++ [BitVec.ofNat 8 (r.cls.toNat + 128 * b2n r.chained), r.block]
    ++ leBytes 2 r.inst.toNat ++ leBytes 2 r.part.toNat ++ leBytes 4 r.waymark.toNat ++ leBytes 8 r.seq.toNat
    ++ slice r.detail 0 12

/-- The place of a ring base in a device object: bits 59:40 the handle, bits 39:0 the offset (Table 1.2). -/
def baseRef (b : W64) : ORef := ⟨bitsOf b.toNat 40 20, bitsOf b.toNat 0 40⟩

/-- How many records an event ring holds. -/
def EvRing.size (r : EvRing) : Nat := 2 ^ bitsOf r.cfg.toNat 0 5
/-- Whether an event ring has a free record (R476). -/
def EvRing.room (r : EvRing) : Bool := (r.tail - r.head).toNat < r.size
/-- Whether a class raises the ring's vector (R479). -/
def EvRing.irq (r : EvRing) (cls : BitVec 2) : Bool := bitsOf r.cfg.toNat 10 2 ≤ cls.toNat

/-- A record put into the overflow buffer of `cap` records (R477). -/
def EvRing.buffered (r : EvRing) (cap : Nat) (x : EvRec) : EvRing :=
  if r.buffer.length < cap then { r with buffer := r.buffer ++ [x] }
  else if x.cls = 0 then { r with lost := satAdd r.lost 1 }
  else
    match r.buffer.findIdx? (·.cls == 0) with
    | some i => { r with buffer := r.buffer.eraseIdx i ++ [x], lost := satAdd r.lost 1 }
    | none => { r with lost := satAdd r.lost 1 }

/-- A message to the host leaves only while the link is up (R377). -/
def State.hostUp (s : State) : Bool := s.hst.link == .up || s.hst.link == .retraining

/-- Whether a vector is masked in an MSI-X table (R357): as PCIe has it, every vector is until its control word is written. -/
def msixMasked (t : Tbl W32) (v : Nat) : Bool := bitOf (tget 1 t (4 * v + 3)).toNat 0
/-- MSI-X vector `v` of VF `p + 1` raised (R51, R357, R479): by an enabled VF that no FLR holds, over a link that is up; a masked vector
is pending. -/
def State.msixVf (s : State) (p v : Nat) : State :=
  let x := (s.part p).vf
  if x.enabled && x.flr == 0 && s.hostUp && x.msixOn then
    if x.msixMask || msixMasked x.msix v then s.modVf p fun y => { y with msixPend := addTo y.msixPend v } else s.emit (.msixVf p v)
  else s
/-- MSI-X vector `v` of the PF raised (R357), over a link that is up; a masked vector is pending. -/
def State.msixPf (s : State) (v : Nat) : State :=
  if !s.hostUp || !s.ev.msixOn then s
  else if s.ev.msixMask || msixMasked s.ev.msix v then s.modEv fun e => { e with msixPend := addTo e.msixPend v } else s.emit (.msixPf v)

/-- Whether a range of an object takes no write now: the object is MOVING, or the range's dies do not take the partition's transfers (R242, R270,
R312). -/
def State.notNow (s : State) (p : Nat) (r : ORef) (n : Nat) : Bool := (s.object p r.handle).state == .moving || s.stoppedO p r n

/-- Whether the memory of a partition has no key any more: its teardown is past step 3 (R316). -/
def State.keyless (s : State) (p : Nat) : Bool :=
  let c := (s.part p).ctl
  c.state == .empty || (c.state == .teardown && c.key == 0)

/-- A record written into the event ring of partition `p`, in its slot, with its interrupt (R476, R478, R479). A poisoned
line of a device object puts the ring in ERROR and the record into the buffer. `none`: it cannot be written now; so it is while the object of the
ring is MOVING, or the record finds too few credits (R242, R312, R366; log entry 98), and once the partition's key is erased (R316). -/
def State.writePartRec (s : State) (p : Nat) (x : EvRec) : Option State :=
  let r := (s.part p).evt
  if r.state != .running || !r.room then none else
  let slot := 32 * (r.tail.toNat % r.size)
  let after (s : State) : State :=
    let s := s.modEvt p fun r => { r with tail := r.tail + 1 }
    if r.irq x.cls then s.msixVf p (bitsOf r.cfg.toNat 20 3) else s
  if bitOf r.cfg.toNat 8 then
    if s.keyless p || s.notNow p ((baseRef r.base).add slot) 32 then none else
    let t := s.pokeO p ((baseRef r.base).add slot) x.bytes
    match t.2 with
    | none => some (after t.1)
    | some _ => some (s.modEvt p fun r => { (r.buffered 64 x) with state := .error, lastCause := Cause.poisonWrite })
  else if s.hostUp && !s.regHolds p 2 0 1 then some (after ((s.setHost (r.base.toNat + slot) x.bytes).countHost p 32 false))
  else none

/-- A record written into the PF event ring, with vector 0 (R476, R479). -/
def State.writePfRec (s : State) (x : EvRec) : Option State :=
  let r := s.ev.pf
  if r.state != .running || !r.room || !s.hostUp then none else
  let s := (s.setHost (r.base.toNat + 32 * (r.tail.toNat % r.size)) x.bytes).modEv fun e =>
    { e with pf := { e.pf with tail := e.pf.tail + 1 } }
  some (if r.irq x.cls then s.msixPf 0 else s)

/-- Buffered records of a partition's ring written while there is room (R477), at most `n`. -/
def State.flushPart (s : State) (p : Nat) : Nat → State
  | 0 => s
  | n + 1 =>
    match (s.part p).evt.buffer with
    | [] => s
    | x :: rest =>
      let s' := s.modEvt p fun r => { r with buffer := rest }
      match s'.writePartRec p x with
      | some t => if (t.part p).evt.state = .running then t.flushPart p n else s.modEvt p fun r => { r with state := .error, lastCause := Cause.poisonWrite }
      | none => s

/-- Buffered records of the PF ring written while there is room (R477). -/
def State.flushPf (s : State) : Nat → State
  | 0 => s
  | n + 1 =>
    match s.ev.pf.buffer with
    | [] => s
    | x :: rest =>
      match (s.modEv fun e => { e with pf := { e.pf with buffer := rest } }).writePfRec x with
      | some t => t.flushPf n
      | none => s

/-- The links of a fault, root first. -/
def Events.links (e : Events) (q : W64) : List ChainLink := ((e.chains.find? (·.1 == q)).map (·.2)).getD []
/-- The chains the device shows: those of the last 256 faults with two or more links (R474). -/
def Events.shown (e : Events) : List (W64 × List ChainLink) := (e.chains.filter fun c => 2 ≤ c.2.length).take 256
/-- A link added to a fault's chain, once; a fault with more than four keeps its root and its last three (R474). -/
def Events.addLink (e : Events) (q : W64) (l : ChainLink) : Events :=
  let ls := if (e.links q).contains l then e.links q else e.links q ++ [l]
  let ls := if ls.length ≤ 4 then ls else ls.take 1 ++ ls.drop (ls.length - 3)
  if e.chains.any (·.1 == q) then { e with chains := e.chains.map fun c => if c.1 = q then (q, ls) else c }
  else { e with chains := (q, ls) :: e.chains }

/-- A new fault: it takes the next device event sequence number (R473). -/
def State.newFault (s : State) : W64 × State := (s.ev.seq, s.modEv fun e => { e with seq := e.seq + 1 })
/-- A cause added to the chain of fault `q`. -/
def State.link (s : State) (q : W64) (cause : W16) (src : Src) (part : Option Nat) : State :=
  s.modEv fun e => e.addLink q { cause := cause, block := BitVec.ofNat 8 src.block, inst := BitVec.ofNat 16 src.inst, part := part }

/-- A copy of a record enters the sideband alert queue: class 3, or a cause in 0x0Bxx or 0x0Cxx (R441); it raises an IBI
while the module has a dynamic address and IBI is enabled (R436). -/
def State.alert (s : State) (x : EvRec) : State :=
  let hi := x.cause.toNat / 256
  if x.cls = 3 ∨ hi = 0x0B ∨ hi = 0x0C then
    if s.mgmt.alerts.length < 16 then
      let s := s.modMgmt fun m => { m with alerts := m.alerts ++ [x] }
      if s.mgmt.dynValid && s.mgmt.ibiEn then s.emit (.ibi (BitVec.ofNat 8 hi)) else s
    else s.modMgmt fun m => { m with alertDrops := satAdd m.alertDrops 1 }
  else s

/-- The PF page of a block's instance, for EVENT_WAYMARK (R489, Tables 16.3, 17.10). -/
def Src.pfPage (b : Src) : Option Nat :=
  match b.block with
  | 0x01 => some (0x3011 + b.inst)
  | 0x02 => some (0x1000 + 0x80 * (b.inst / 42) + 5 + b.inst % 42)
  | 0x03 => some (0x1000 + 0x80 * b.inst + 0x2F)
  | 0x04 => some (0x1000 + 0x80 * b.inst + 0x30)
  | 0x06 => some (0x3000 + b.inst)
  | 0x07 => some (0x3002 + b.inst)
  | 0x08 => some (0x300A + b.inst)
  | 0x09 => some (0x300E + b.inst)
  | 0x0A => some 0x3010
  | 0x0B => some (0x2000 + 0x100 * (b.inst / 64) + b.inst % 64)
  | 0x0C => some (0x2040 + 0x100 * (b.inst / 16) + b.inst % 16)
  | 0x0D => some (0x2050 + 0x100 * b.inst)
  | 0x0E => some (0x2051 + 0x100 * b.inst)
  | 0x0F => some (0x2052 + 0x100 * b.inst)
  | 0x10 => some 4
  | 0x11 => some 1
  | _ => none

/-- The VF page on which a partition sees a block: SEQ, CDC, NET (log entry 24). -/
def Src.vfPage (b : Src) : Option Nat :=
  match b.block with
  | 0x06 => some 0x15
  | 0x08 => some 0x18
  | 0x09 => some 0x19
  | _ => none

/-- The PF page of the block that raises a record: on a partition's ring a cluster stands as its partition-relative id (R472). -/
def State.srcPage (s : State) (src : Src) (p : Option Nat) : Option Nat :=
  match p with
  | some p => if src.block = 2 then (s.relCluster p src.inst).bind fun k => { src with inst := k }.pfPage else src.pfPage
  | none => src.pfPage

/-- EVENT_WAYMARK of the page of the block that raised a record with a nonzero waymark. -/
def State.noteWm (s : State) (src : Src) (wm : W32) (p : Option Nat) : State :=
  if wm = 0 then s else
  let s := match s.srcPage src p with
    | some k => s.modPfHdr k fun h => { h with evWaymark := wm }
    | none => s
  match p, src.vfPage with
  | some p, some k => s.modVfHdr p k fun h => { h with evWaymark := wm }
  | _, _ => s

/-- A record handed to the ring of partition `p`: behind those in its buffer, which are written first where they can be (R477). -/
def State.postRec (s : State) (p : Nat) (x : EvRec) : State :=
  let s := if (s.part p).evt.buffer.isEmpty then s else s.flushPart p 64
  if (s.part p).evt.buffer.isEmpty then (s.writePartRec p x).getD (s.modEvt p fun r => r.buffered 64 x)
  else s.modEvt p fun r => r.buffered 64 x

/-- The record of fault `q` written on the ring of partition `p`, unless that ring already has one (R473). -/
def State.recPart (s : State) (p : Nat) (q : W64) (cause : W16) (cls : BitVec 2) (src : Src) (wm : W32)
    (detail : List Byte) : State :=
  if (s.part p).evt.seen.contains q then s else
  let x : EvRec := {
    cause := cause, cls := cls, chained := decide (2 ≤ (s.ev.links q).length),
    block := BitVec.ofNat 8 src.block, inst := BitVec.ofNat 16 src.inst, part := BitVec.ofNat 16 p, waymark := wm,
    seq := q, detail := detail }
  let s := (s.modEvt p fun r => { r with seen := q :: r.seen }).noteWm src wm (some p)
  s.postRec p x

/-- AER status bits of the PF set (R376); vector 2 where one is newly set (R357). -/
def State.aerPf (s : State) (cor unc : W32) : State :=
  let a := s.ev.aer
  if cor &&& ~~~a.cor = 0 ∧ unc &&& ~~~a.unc = 0 then s
  else (s.modEv fun e => { e with aer := { cor := a.cor ||| cor, unc := a.unc ||| unc } }).msixPf 2
/-- CXL RAS status bits set (R376), where the port has that capability; an uncorrectable one logs a header. -/
def State.rasPf (s : State) (cor unc : W32) (header : List Byte) : State :=
  let a := s.ev.ras
  if !bitOf s.pins.straps.toNat 2 ∨ cor &&& ~~~a.cor = 0 ∧ unc &&& ~~~a.unc = 0 then s
  else (s.modEv fun e => { e with ras := {
    e.ras with cor := a.cor ||| cor, unc := a.unc ||| unc, header := if a.unc = 0 ∧ unc ≠ 0 then header else a.header } }).msixPf 2
/-- The AER of VF `p + 1` has one of its own requests as a non-fatal advisory error (R376). -/
def State.aerVf (s : State) (p : Nat) : State := s.modVf p fun v => { v with aer := { v.aer with cor := v.aer.cor ||| 0x2000#32 } }

/-- The record of fault `q` written on the PF event ring, with its alert and its AER report (R376, R441), unless the ring
already has one; `late`: a consequence met before the record was written chains it already (R474). -/
def State.recPf (s : State) (q : W64) (cause : W16) (cls : BitVec 2) (src : Src) (part : Option Nat) (wm : W32)
    (detail : List Byte) (late : Bool := false) : State :=
  if s.ev.pf.seen.contains q then s else
  let x : EvRec := {
    cause := cause, cls := cls, chained := late || decide (2 ≤ (s.ev.links q).length),
    block := BitVec.ofNat 8 src.block, inst := BitVec.ofNat 16 src.inst, part := BitVec.ofNat 16 (part.getD 0xFFFF),
    waymark := wm, seq := q, detail := detail }
  let s := (s.modEv fun e => { e with pf := { e.pf with seen := q :: e.pf.seen } }).noteWm src wm none
  let s := s.alert x
  let s := if cls = 3 ∧ cause ≠ Cause.linkDown then s.aerPf 0 0x400000#32 else s
  (s.writePfRec x).getD (s.modEv fun e => { e with pf := e.pf.buffered 256 x })

/-- A new fault whose one record goes to partition `p`'s ring. -/
def State.raisePart (s : State) (p : Nat) (cause : W16) (src : Src) (wm : W32 := 0) (detail : List Byte := []) : State :=
  let (q, s) := s.newFault
  (s.link q cause src (some p)).recPart p q cause (Cause.classOf cause) src wm detail

/-- A new fault whose one record goes to the PF ring. -/
def State.raisePf (s : State) (cause : W16) (src : Src) (part : Option Nat := none) (detail : List Byte := []) : State :=
  let (q, s) := s.newFault
  (s.link q cause src part).recPf q cause (Cause.classOf cause) src part 0 detail

/-- A new fault with a record on partition `p`'s ring and one on the PF ring. -/
def State.raiseBoth (s : State) (p : Nat) (cause : W16) (src : Src) (wm : W32 := 0) (detail : List Byte := []) : State :=
  let (q, s) := s.newFault
  let s := s.link q cause src (some p)
  (s.recPart p q cause (Cause.classOf cause) src wm detail).recPf q cause (Cause.classOf cause) src (some p) wm detail

/-- A consequence of fault `q` within partition `p`: its cause joins the chain, and the ring takes a record if it has
none (R473). -/
def State.raiseIn (s : State) (p : Nat) (q : W64) (cause : W16) (src : Src) (wm : W32) (detail : List Byte) : State :=
  (s.link q cause src (some p)).recPart p q cause (Cause.classOf cause) src wm detail

/-- The block and instance of the control core of partition `p`. -/
def srcCore (p : Nat) : Src := ⟨0x01, p⟩

end Sys2Proof.Machine
end

