-- ==== Sys2Proof/Machine/Journal.lean ====
section
/-!
DEFINITION. The journal (R335 to R340) and what a rejected register write does to its page (R491, R493, R494).
-/

namespace Sys2Proof.Machine

/-- Who makes a change: role code and credential of Table 10.4. -/
structure Writer where
  role : Nat
  cred : Byte
  deriving DecidableEq, Repr

/-- The device itself. -/
def Writer.device : Writer := ⟨3, 0xFF⟩
/-- Nobody that the device has authenticated, or a tenant. -/
def Writer.none : Writer := ⟨4, 0xFF⟩

/-- The code of a journal action. -/
def JrnAction.code : JrnAction → Nat
  | .write => 1
  | .refused => 2
  | .partCmd => 3
  | .partState => 4
  | .claim => 5
  | .release => 6
  | .credInstall => 7
  | .credRemove => 8
  | .fwStage => 9
  | .fwActivate => 10
  | .svnCommit => 11
  | .fwStart => 12
  | .consent => 13
  | .debugUnlock => 14
  | .retire => 15
  | .teardown => 16
  | .pairBind => 17
  | .failover => 18

/-- A digest as its 32 bytes. -/
def digestBytes (d : BitVec 256) : List Byte := leBytes 32 d.toNat

/-- Bytes 0 to 95 of a journal entry (Table 10.4). -/
def JrnEntry.body (e : JrnEntry) : List Byte :=
  leBytes 4 e.index.toNat ++ [BitVec.ofNat 8 e.action.code, e.role, e.cred, e.part] ++ leBytes 8 e.seq.toNat
    ++ leBytes 4 e.target.toNat ++ leBytes 2 e.cause.toNat ++ leBytes 2 e.suppressed.toNat ++ leBytes 4 e.detail.toNat
    ++ leBytes 4 0 ++ digestBytes e.oldDigest ++ digestBytes e.newDigest
/-- The 128 bytes of a journal entry. -/
def JrnEntry.bytes (e : JrnEntry) : List Byte := e.body ++ digestBytes e.link

/-- The digest of an action that concerns no register, key or image: of the 32-byte zero value (R336). -/
def zeroDigest : BitVec 256 := Config.sha3 (List.replicate 32 0)

/-- What a journal entry says beside its number and links. -/
structure JrnNote where
  action : JrnAction
  who : Writer
  part : Option Nat := .none
  target : W32 := 0xFFFFFFFF#32
  cause : W16 := 0
  detail : Nat := 0
  old : BitVec 256 := zeroDigest
  new : BitVec 256 := zeroDigest

/-- The digest of a register's value (R336). -/
def regDigest (v : W64) : BitVec 256 := Config.sha3 (leBytes 8 v.toNat)

/-- Whether a copy of the journal holds its head: the newest entry (R352). -/
def Flash.headIn (f : Flash) (l : List JrnEntry) : Bool :=
  match l with
  | [] => f.jrnHead == 0
  | e :: _ => e.index + 1 == f.jrnHead
/-- The copy of the journal that the device goes by: one that holds the head. -/
def Flash.journal (f : Flash) : List JrnEntry := if f.headIn f.journalA then f.journalA else f.journalB
/-- Whether a flash device accepts a journal entry (R337). -/
def Flash.accepts (f : Flash) : Bool := f.acceptsA || f.acceptsB
/-- An entry programmed into one flash device and then into the other, where they accept it (R335, R337). -/
def Flash.program (f : Flash) (e : JrnEntry) : Flash :=
  { f with
    journalA := if f.acceptsA then (e :: f.journalA).take 16384 else f.journalA
    journalB := if f.acceptsB then (e :: f.journalB).take 16384 else f.journalB
    jrnHead := f.jrnHead + 1 }
/-- The entries, oldest first, over which a copy's chain verifies: those that follow one another without a gap; nothing alters a stored entry
(log entry 98). -/
def chainRun : List JrnEntry → List JrnEntry
  | e :: f :: t => if f.index = e.index + 1 then e :: chainRun (f :: t) else [e]
  | l => l
/-- The journal as start-up leaves it (R337): the copy whose chain verifies to the higher index kept, and the other repaired from it. -/
def Flash.repaired (f : Flash) : Flash :=
  let a := (chainRun f.journalA.reverse).reverse
  let b := (chainRun f.journalB.reverse).reverse
  let top (l : List JrnEntry) : Nat := (l.head?.map fun e => e.index.toNat + 1).getD 0
  let kept := if top b ≤ top a then a else b
  { f with journalA := kept, journalB := kept, jrnHead := BitVec.ofNat 32 (top kept) }

/-- The journal with one more entry (R335, R336, R339): a run of more than 64 refused entries of role NONE is only counted,
and the next other entry carries the count. DEDUCED (log entry 50): the change takes a device event sequence number of its own, since entries
are written in increasing event_seq (R337). -/
def State.journal (s : State) (n : JrnNote) : State :=
  let anon := n.action == .refused && n.who.role == 4
  if anon && decide (64 ≤ s.sec.noneRun) then s.modSec fun x => { x with suppressed := satAdd x.suppressed 1 } else
  let prev := (s.flash.journal.head?.map (·.link)).getD 0
  let e : JrnEntry := {
    index := s.flash.jrnHead, action := n.action, role := BitVec.ofNat 8 n.who.role, cred := n.who.cred
    part := BitVec.ofNat 8 (n.part.getD 0xFF), seq := s.ev.seq, target := n.target, cause := n.cause
    suppressed := if anon then 0 else s.sec.suppressed, detail := BitVec.ofNat 32 n.detail, oldDigest := n.old, newDigest := n.new
    link := 0 }
  let e := { e with link := Config.sha3 (digestBytes prev ++ e.body) }
  ((s.modFlash fun f => f.program e).modEv fun y =>
    { y with seq := y.seq + 1 }).modSec fun x =>
    if anon then { x with noneRun := x.noneRun + 1 } else { x with noneRun := 0, suppressed := 0 }

/-- Whether the journal takes an entry: a flash device accepts it, and none has been refused since the last reset (R337). -/
def State.journalOk (s : State) : Bool := s.flash.accepts && !s.sec.jrnFailed
/-- The journal has failed: neither flash device accepts an entry (R337); JOURNAL_FAIL is raised once (R353). -/
def State.journalFails (s : State) : State :=
  if s.sec.jrnFailed then s else (s.modSec fun x => { x with jrnFailed := true }).raisePf Cause.journalFail ⟨0x12, 0⟩

/-- An entry the device writes for a change of its own, where the journal takes it. -/
def State.note (s : State) (n : JrnNote) : State := if s.journalOk then s.journal n else s.journalFails

/-- The common bits of ERR_STATUS (Table 17.4): an RWS write while running. -/
def errRws : Nat := 8
/-- NO_SESSION. -/
def errNoSession : Nat := 9
/-- OWNER_DENIED. -/
def errOwner : Nat := 10
/-- A value or width rejected. -/
def errParam : Nat := 11
/-- A START refused. -/
def errStart : Nat := 12
/-- A STOP refused. -/
def errStop : Nat := 13

/-- A header with ERR_STATUS bit `bit` set by a rejected write; ERR_FIRST captures the first unmasked one (R493). -/
def PageHdr.reject (h : PageHdr) (bit role off : Nat) (cause : W16) : PageHdr :=
  { h with
    errStatus := h.errStatus ||| BitVec.ofNat 32 (2 ^ bit)
    errFirst := if h.errFirst = 0 ∧ ¬ bitOf h.errMask.toNat bit
      then BitVec.ofNat 32 (2 ^ 28 * role + 2 ^ 16 * (off % 4096) + cause.toNat) else h.errFirst }

/-- A header with a block's own ERR_STATUS bits set. -/
def PageHdr.setBits (h : PageHdr) (bits : Nat) : PageHdr := { h with errStatus := h.errStatus ||| BitVec.ofNat 32 bits }

/-- Whether the VF of partition `p` reaches its pages: it is enabled, and no FLR closes them (R374, R497). -/
def State.vfReach (s : State) (p : Nat) : Bool := (s.part p).vf.enabled && (s.part p).vf.flr == 0
/-- An access of the tenant to a register of its VF BAR0, counted (R365, R366). -/
def State.mmio (s : State) (p : Nat) : State := if s.vfReach p && s.live p then s.countHost p 8 true else s
/-- Whether the pages of VF `p + 1` take writes other than of RW registers: the partition is RUNNING (R309). -/
def State.vfOpen (s : State) (p : Nat) : Bool := s.vfReach p && (s.part p).ctl.state == .running
/-- Whether its pages may be read and its RW registers written (R309). -/
def State.vfRw (s : State) (p : Nat) : Bool :=
  s.vfReach p && (match (s.part p).ctl.state with
    | .running | .draining | .stopped => true
    | _ => false)

/-- A write rejected at offset `off` of VF page `k` of partition `p` (R493, R494). -/
def State.rejectVf (s : State) (p k off bit : Nat) (cause : W16) (value : W64) (old : W64 := 0) : State :=
  (s.modVfHdr p k fun h => h.reject bit 4 off cause).note
    { action := .refused, who := Writer.none, part := some p, cause := cause, old := regDigest old, new := regDigest value }

/-- A write rejected at PF BAR0 offset `off` (R493, R494). -/
def State.rejectPf (s : State) (off bit : Nat) (cause : W16) (who : Writer) (part : Option Nat) (value : W64)
    (old : W64 := 0) : State :=
  (s.modPfHdr (off / 4096) fun h => h.reject bit who.role off cause).note
    { action := .refused, who := who, part := part, target := BitVec.ofNat 32 off, cause := cause, old := regDigest old, new := regDigest value }

end Sys2Proof.Machine
end

