-- ==== Sys2Proof/Machine/Float.lean ====
section
/-!
DEFINITION. Numbers of the array and of Wick: the formats of Table 2.1, exact products and sums, FP32 rounding (R78), the
output rounding of R81 and R82, and the accumulation whose order the spec leaves open (R79, log entry 7).
-/

namespace Sys2Proof.Machine

/-- A number: NaN, an infinity, or the exact value ± mag × 2 ^ e. -/
inductive Num where
  | nan
  | inf (neg : Bool)
  | fin (neg : Bool) (mag : Nat) (e : Int)
  deriving DecidableEq, Repr

/-- Positive zero. -/
def Num.zero : Num := .fin false 0 0
/-- Whether a number is a zero. -/
def Num.isZero : Num → Bool
  | .fin _ m _ => m == 0
  | _ => false
/-- Whether a number is finite. -/
def Num.isFin : Num → Bool
  | .fin _ _ _ => true
  | _ => false
/-- Whether a number is NaN. -/
def Num.isNan : Num → Bool
  | .nan => true
  | _ => false
/-- The sign of a number. -/
def Num.negative : Num → Bool
  | .nan => false
  | .inf n => n
  | .fin n _ _ => n
/-- The number with the other sign. -/
def Num.negate : Num → Num
  | .nan => .nan
  | .inf n => .inf (!n)
  | .fin n m e => .fin (!n) m e
/-- The number without its sign. -/
def Num.abs : Num → Num
  | .nan => .nan
  | .inf _ => .inf false
  | .fin _ m e => .fin false m e
/-- An integer as a number. -/
def Num.ofInt (x : Int) : Num := .fin (decide (x < 0)) x.natAbs 0
/-- A number times a power of two. -/
def Num.scale (x : Num) (k : Int) : Num :=
  match x with
  | .fin n m e => .fin n m (e + k)
  | y => y

/-- The exact product (R78, R80). -/
def Num.mul : Num → Num → Num
  | .nan, _ => .nan
  | _, .nan => .nan
  | .inf a, .inf b => .inf (a != b)
  | .inf a, .fin b m _ => if m = 0 then .nan else .inf (a != b)
  | .fin a m _, .inf b => if m = 0 then .nan else .inf (a != b)
  | .fin a m e, .fin b n f => .fin (a != b) (m * n) (e + f)

/-- The signed integer that a finite number is at exponent `q`, where `q` is at most its own. -/
def Num.atExp (n : Bool) (m : Nat) (e q : Int) : Int :=
  let x : Int := (m * 2 ^ (e - q).toNat : Nat)
  if n then -x else x

/-- The exact sum (R80); an exact cancellation gives +0, and so does a sum of zeros of both signs. -/
def Num.add : Num → Num → Num
  | .nan, _ => .nan
  | _, .nan => .nan
  | .inf a, .inf b => if a = b then .inf a else .nan
  | .inf a, .fin _ _ _ => .inf a
  | .fin _ _ _, .inf b => .inf b
  | .fin a m e, .fin b n f =>
    let q := min e f
    let x := Num.atExp a m e q + Num.atExp b n f q
    .fin (if x = 0 then a && b else decide (x < 0)) x.natAbs q

/-- Whether one number is less than another; nothing is less than NaN. -/
def Num.lt : Num → Num → Bool
  | .nan, _ => false
  | _, .nan => false
  | .inf a, .inf b => a && !b
  | .inf a, .fin _ _ _ => a
  | .fin _ _ _, .inf b => !b
  | .fin a m e, .fin b n f => let q := min e f; decide (Num.atExp a m e q < Num.atExp b n f q)

/-- How the output is rounded (R81): to nearest even, toward zero, or stochastically with a 24-bit value. -/
inductive Rnd where
  | rne
  | rz
  | sr (v : BitVec 24)
  deriving DecidableEq, Repr

/-- The number of bits of a number. -/
def bitLen (m : Nat) : Nat := if m = 0 then 0 else Nat.log2 m + 1

/-- `m × 2^e` rounded to a multiple of `2^q`: the multiplier (R81). -/
def roundAt (r : Rnd) (m : Nat) (e q : Int) : Nat :=
  if q ≤ e then m * 2 ^ (e - q).toNat else
  let s := (q - e).toNat
  match r with
  | .rne =>
    let k := m / 2 ^ s
    let d := m % 2 ^ s
    if 2 ^ s < 2 * d ∨ (2 ^ s = 2 * d ∧ k % 2 = 1) then k + 1 else k
  | .rz => m / 2 ^ s
  | .sr v => if s ≤ 24 then (m + v.toNat / 2 ^ (24 - s)) / 2 ^ s else (m / 2 ^ (s - 24) + v.toNat) / 2 ^ 24

/-- A format's kind of special values: infinities and NaNs as IEEE 754, NaN only (FP8 E4M3), or none. -/
inductive Specials where
  | ieee
  | nanOnly
  | never
  deriving DecidableEq, Repr

/-- A binary format: exponent and mantissa bits, and its specials. -/
structure Fmt where
  ebits : Nat
  mbits : Nat
  specials : Specials
  deriving DecidableEq, Repr

/-- FP32. -/
def Fmt.fp32 : Fmt := ⟨8, 23, .ieee⟩
/-- BF16. -/
def Fmt.bf16 : Fmt := ⟨8, 7, .ieee⟩
/-- FP16. -/
def Fmt.fp16 : Fmt := ⟨5, 10, .ieee⟩
/-- FP8 E4M3. -/
def Fmt.e4m3 : Fmt := ⟨4, 3, .nanOnly⟩
/-- FP8 E5M2. -/
def Fmt.e5m2 : Fmt := ⟨5, 2, .ieee⟩
/-- MXFP6 E2M3. -/
def Fmt.e2m3 : Fmt := ⟨2, 3, .never⟩
/-- MXFP6 E3M2. -/
def Fmt.e3m2 : Fmt := ⟨3, 2, .never⟩
/-- MXFP4 E2M1. -/
def Fmt.e2m1 : Fmt := ⟨2, 1, .never⟩

/-- The exponent bias. -/
def Fmt.bias (f : Fmt) : Nat := 2 ^ (f.ebits - 1) - 1
/-- The exponent of the last bit of a subnormal. -/
def Fmt.qmin (f : Fmt) : Int := 1 - (f.bias : Int) - (f.mbits : Int)
/-- The largest biased exponent of a finite number. -/
def Fmt.emax (f : Fmt) : Nat := match f.specials with
  | .ieee => 2 ^ f.ebits - 2
  | _ => 2 ^ f.ebits - 1
/-- The largest significand at the largest exponent. -/
def Fmt.topSig (f : Fmt) : Nat := match f.specials with
  | .nanOnly => 2 ^ (f.mbits + 1) - 2
  | _ => 2 ^ (f.mbits + 1) - 1
/-- The largest finite number. -/
def Fmt.maxFin (f : Fmt) (neg : Bool) : Num := .fin neg f.topSig ((f.emax : Int) - (f.bias : Int) - (f.mbits : Int))

/-- The number that bits of a format spell. -/
def Fmt.decode (f : Fmt) (x : Nat) : Num :=
  let man := bitsOf x 0 f.mbits
  let ex := bitsOf x f.mbits f.ebits
  let neg := bitOf x (f.mbits + f.ebits)
  if f.specials = .ieee ∧ ex = 2 ^ f.ebits - 1 then (if man = 0 then .inf neg else .nan)
  else if f.specials = .nanOnly ∧ ex = 2 ^ f.ebits - 1 ∧ man = 2 ^ f.mbits - 1 then .nan
  else if ex = 0 then .fin neg man f.qmin
  else .fin neg (2 ^ f.mbits + man) ((ex : Int) - 1 + f.qmin)

/-- The canonical quiet NaN of a format (R80). -/
def Fmt.nanBits (f : Fmt) : Nat := match f.specials with
  | .ieee => (2 ^ f.ebits - 1) * 2 ^ f.mbits + 2 ^ (f.mbits - 1)
  | _ => 2 ^ (f.ebits + f.mbits) - 1

/-- The bits of a number that the format holds exactly; an infinity of a format without one is its NaN. -/
def Fmt.encode (f : Fmt) (x : Num) : Nat :=
  match x with
  | .nan => f.nanBits
  | .inf n => if f.specials = .ieee then b2n n * 2 ^ (f.ebits + f.mbits) + (2 ^ f.ebits - 1) * 2 ^ f.mbits else f.nanBits
  | .fin n m e =>
    let q := max (e + (bitLen m : Int) - (f.mbits + 1 : Int)) f.qmin
    let k := roundAt .rz m e q
    let body := if k < 2 ^ f.mbits then k else ((q - f.qmin).toNat + 1) * 2 ^ f.mbits + (k - 2 ^ f.mbits)
    b2n n * 2 ^ (f.ebits + f.mbits) + body

/-- A finite number rounded into a format with an unbounded exponent range above (R82). -/
def Fmt.roundFin (f : Fmt) (r : Rnd) (n : Bool) (m : Nat) (e : Int) : Num :=
  let q := max (e + (bitLen m : Int) - (f.mbits + 1 : Int)) f.qmin
  .fin n (roundAt r m e q) q

/-- FP32 with round to nearest even, honouring subnormals, overflow to infinity: the rounding of memory-side operations
(R254) and of IEEE 754. -/
def Fmt.round (f : Fmt) (x : Num) : Num :=
  match x with
  | .fin n m e =>
    let y := f.roundFin .rne n m e
    if (f.maxFin false).lt y.abs then .inf n else y
  | y => y

/-- FP32 with round to nearest even; what falls below 2^−126 is flushed to a zero of its sign (R78). -/
def rnd32 (x : Num) : Num :=
  match Fmt.fp32.round x with
  | .fin n m e => if m ≠ 0 ∧ e + (bitLen m : Int) ≤ -126 then .fin n 0 0 else .fin n m e
  | y => y

/-- FP32 addition, multiplication and fused multiply-add with the flush of R78. -/
def add32 (x y : Num) : Num := rnd32 (x.add y)
/-- FP32 multiplication. -/
def mul32 (x y : Num) : Num := rnd32 (x.mul y)
/-- FP32 fused multiply-add. -/
def fma32 (x y z : Num) : Num := rnd32 ((x.mul y).add z)
/-- The FP32 number of a word. -/
def f32 (x : W32) : Num := Fmt.fp32.decode x.toNat
/-- The word of an FP32 number. -/
def w32 (x : Num) : W32 := BitVec.ofNat 32 (Fmt.fp32.encode x)

/-- An FP32 number with its significand brought to 24 bits, the form in which R81 counts discarded positions. -/
def norm24 (m : Nat) (e : Int) : Nat × Int := let k := 24 - bitLen m; (m * 2 ^ k, e - (k : Int))

/-- What an output rounding gives: the number, and whether it was saturated (R82). -/
structure OutVal where
  val : Num
  sat : Bool := false
  deriving DecidableEq, Repr

/-- An FP32 result rounded to an output format (R81, R82). -/
def Fmt.output (f : Fmt) (r : Rnd) (sat : Bool) (x : Num) : OutVal :=
  match x with
  | .fin n m e =>
    let (m, e) := norm24 m e
    let y := f.roundFin r n m e
    if (f.maxFin false).lt y.abs then
      if sat then ⟨f.maxFin n, true⟩ else ⟨if f.specials = .ieee then .inf n else .nan, false⟩
    else ⟨y, false⟩
  | .inf n => ⟨if f.specials = .ieee then .inf n else .nan, false⟩
  | .nan => ⟨.nan, false⟩

/-- A chain of FP32 additions from +0 (R78). -/
def chain (l : List Num) : Num := l.foldl add32 .zero

/-- Cuts a list after the elements that the free value names (log entry 7). -/
def cutChunks (u : Nat) : Nat → List Num → List (List Num)
  | _, [] => []
  | _, [x] => [[x]]
  | i, x :: y :: t =>
    match cutChunks u (i + 1) (y :: t) with
    | [] => [[x]]
    | c :: cs => if Config.sumSplit u i then [x] :: c :: cs else (x :: c) :: cs

/-- The FP32 sum of terms in an order, and in partial sums, that the spec leaves open (R79): a fixed choice for each
number `u`, so that equal work gives equal bits (R83, log entry 7). -/
def accumulate (u : Nat) (terms : List Num) : Num :=
  let idx := (List.range terms.length).zip terms
  let sorted := (sortBy (fun e => Config.sumKey u e.1) idx).map (·.2)
  match cutChunks u 0 sorted with
  | [] => .zero
  | [c] => chain c
  | cs => chain (cs.map chain)

end Sys2Proof.Machine
end

