-- ==== Sys2Proof/Machine/Approx.lean ====
section
/-!
DEFINITION. What Table 3.7 asks of a built-in Lantern function (R119): enclosures of the elementary functions in fixed point with 96
fraction bits, the error bounds, and monotonicity. Every enclosure holds the true value and is narrower than 2^-70 of it (or of 1), far
below every bound of the table (log entry 8).
-/

namespace Sys2Proof.Machine

/-- Two numbers with a value between them. -/
structure Encl where
  lo : Num
  hi : Num
  deriving DecidableEq, Repr

/-- `1` in fixed point. -/
def fixOne : Int := 2 ^ 96
/-- `ln 2` in fixed point. -/
def fixLn2 : Int := 54916777467707473351141471128
/-- `π` in fixed point. -/
def fixPi : Int := 248902613312231085230521944622
/-- `1 / √(2π)` in fixed point. -/
def fixInvSqrt2Pi : Int := 31607463825455920808620519744

/-- `⌊x⌋`; 0 for NaN, and a bound beyond every use for an infinity. -/
def Num.floor : Num → Int
  | .nan => 0
  | .inf n => if n then -(2 ^ 200) else 2 ^ 200
  | .fin n m e =>
    let x : Int := if n then -(m : Int) else m
    if 0 ≤ e then x * (2 ^ e.toNat : Nat) else x.fdiv ((2 ^ (-e).toNat : Nat) : Int)

/-- A number in fixed point, rounded down. -/
def Num.toFix (x : Num) : Int := (x.scale 96).floor
/-- The enclosure `[lo, hi] × 2^k` of fixed-point ends. -/
def Encl.ofFix (lo hi k : Int) : Encl := ⟨(Num.ofInt lo).scale (k - 96), (Num.ofInt hi).scale (k - 96)⟩
/-- The enclosure of the value with the other sign. -/
def Encl.negate (x : Encl) : Encl := ⟨x.hi.negate, x.lo.negate⟩
/-- One number, exactly. -/
def Encl.exact (x : Num) : Encl := ⟨x, x⟩

/-- `Σ r^i / i!` from term `t` on, `n` terms, in fixed point. -/
def expSum (r : Int) : Nat → Int → Int → Int
  | 0, _, _ => 0
  | n + 1, k, t => t + expSum r n (k + 1) (t * r / (fixOne * k))
/-- `e^x` for a finite `x`. -/
def enclExp (x : Num) : Encl :=
  let f := x.toFix
  let k := f / fixLn2
  let s := expSum (f - k * fixLn2) 40 1 fixOne
  Encl.ofFix (s - 4 * (k.natAbs + 2)) (s + 128 + 4 * (k.natAbs + 2)) k
/-- `2^x` for a finite `x`. -/
def enclExp2 (x : Num) : Encl :=
  let f := x.toFix
  let k := f / fixOne
  let s := expSum ((f - k * fixOne) * fixLn2 / fixOne) 40 1 fixOne
  Encl.ofFix (s - 8) (s + 136) k

/-- `Σ z^(2i+1) / (2i+1)` from `z^j` on, `n` terms, with `w` the square of `z`. -/
def atanhSum (w : Int) : Nat → Int → Int → Int
  | 0, _, _ => 0
  | n + 1, j, t => t / j + atanhSum w n (j + 2) (t * w / fixOne)
/-- `ln x` for a finite `x` above 0. -/
def enclLn (x : Num) : Encl :=
  match x with
  | .fin _ m e =>
    let b : Nat := 2 ^ (bitLen m - 1)
    let k : Int := e + (bitLen m : Int) - 1
    let z : Int := ((m - b : Nat) : Int) * fixOne / ((m + b : Nat) : Int)
    let s := 2 * atanhSum (z * z / fixOne) 40 1 z + k * fixLn2
    Encl.ofFix (s - (k.natAbs + 300)) (s + (k.natAbs + 300)) 0
  | _ => Encl.exact .zero

/-- `1 / √x` for a finite `x` above 0. -/
def enclRsqrt (x : Num) : Encl :=
  match x with
  | .fin _ m e =>
    let m' := if e % 2 = 0 then m else 2 * m
    let h := (if e % 2 = 0 then e else e - 1) / 2
    let t := 96 + bitLen m'
    let y := Nat.sqrt (2 ^ (2 * t) / m')
    ⟨.fin false y (-(t : Int) - h), .fin false (y + 1) (-(t : Int) - h)⟩
  | _ => Encl.exact .zero
/-- `1 / x` for a finite `x` other than 0. -/
def enclRecip (x : Num) : Encl :=
  match x with
  | .fin n m e =>
    let t := 96 + bitLen m
    let y := 2 ^ t / m
    let p : Encl := ⟨.fin false y (-(t : Int) - e), .fin false (y + 1) (-(t : Int) - e)⟩
    if n then p.negate else p
  | _ => Encl.exact .zero

/-- `e^-a` for `a` at least 0 or infinite, as the ends of a fixed-point enclosure. -/
def decay (a : Num) : Int × Int :=
  if a.isFin && a.lt (Num.ofInt 100) then ((enclExp a.negate).lo.toFix, (enclExp a.negate).hi.toFix + 1) else (0, 1)
/-- `1 / (1 + e^-x)`. -/
def enclSigmoid (x : Num) : Encl :=
  let (l, h) := decay x.abs
  if x.negative then Encl.ofFix (l * fixOne / (fixOne + l)) (h * fixOne / (fixOne + h) + 1) 0
  else Encl.ofFix (fixOne * fixOne / (fixOne + h)) (fixOne * fixOne / (fixOne + l) + 1) 0
/-- `tanh x`. -/
def enclTanh (x : Num) : Encl :=
  let (l, h) := decay (x.abs.scale 1)
  let p := Encl.ofFix ((fixOne - h) * fixOne / (fixOne + h)) ((fixOne - l) * fixOne / (fixOne + l) + 1) 0
  if x.negative then p.negate else p

/-- `Σ x^(2i+1) / (1·3·…·(2i+1))` from term `t` on, `n` terms, with `w` the square of `x`. -/
def phiSum (w : Int) : Nat → Int → Int → Int
  | 0, _, _ => 0
  | n + 1, j, t => t + phiSum w n (j + 2) (t * w / (fixOne * j))
/-- The normal distribution function less one half at `a` of at least 0 or infinite, in fixed point; beyond 8 it is within 2^-49 of one
half. -/
def phiHalf (a : Num) : Int × Int :=
  if a.isFin && a.lt (Num.ofInt 8) then
    let f := a.toFix
    let w := f * f / fixOne
    let s := phiSum w 250 3 f
    let d := decay (Num.ofInt w |>.scale (-97))
    let q := (d.1 * fixInvSqrt2Pi / fixOne) * s / fixOne
    let e : Int := 2 ^ 26 + 2 * s / fixOne * 2 ^ 10
    (q - e, (d.2 * (fixInvSqrt2Pi + 1) / fixOne + 1) * (s + 2 ^ 20) / fixOne + e)
  else (fixOne / 2 - 2 ^ 47, fixOne / 2)
/-- The normal distribution function at `x`. -/
def enclPhi (x : Num) : Encl :=
  let (l, h) := phiHalf x.abs
  if x.negative then Encl.ofFix (fixOne / 2 - h) (fixOne / 2 - l) 0 else Encl.ofFix (fixOne / 2 + l) (fixOne / 2 + h) 0

/-- `Σ ± r^j / j!` over `j = 1, 3, 5, …` from term `t` on, `n` terms, with `w` the square of `r`. -/
def sinSum (w : Int) : Nat → Int → Int → Int
  | 0, _, _ => 0
  | n + 1, j, t => t + sinSum w n (j + 2) (-(t * w) / (fixOne * (j * (j - 1))))
/-- `sin(π x)` for a finite `x`. -/
def enclSinPi (x : Num) : Encl :=
  let f := x.toFix % (2 * fixOne)
  let up := decide (f < fixOne)
  let g := if up then f else f - fixOne
  let g := if 2 * g ≤ fixOne then g else fixOne - g
  let r := g * fixPi / fixOne
  let s := sinSum (r * r / fixOne) 30 3 r
  let p := Encl.ofFix (s - 256) (s + 256) 0
  if up then p else p.negate

/-- The unit in the last place of FP32 at a value. -/
def ulpOf : Num → Num
  | .fin _ m e => .fin false 1 (max (e + (bitLen m : Int) - 24) (-149))
  | _ => .zero

/-- A value `2^k`. -/
def twoTo (k : Int) : Num := .fin false 1 k

/-- Whether an FP32 result lies within `b` of what is enclosed; an infinity does where a finite number within `b` lies beyond FP32. -/
def Encl.near (x : Encl) (b : Num) : Num → Bool
  | .nan => false
  | .inf n =>
    if n then !((twoTo 128).negate.lt (x.lo.add b.negate)) else !((x.hi.add b).lt (twoTo 128))
  | y => !(y.lt (x.lo.add b.negate)) && !((x.hi.add b).lt y)

/-- Whether a number lies in a closed interval. -/
def Num.within (x lo hi : Num) : Bool := !(x.lt lo) && !(hi.lt x)

/-- Whether `y` is a value that Table 3.7 allows at an input that its specials do not fix. -/
def boundOk (fn : Nat) (x y : Num) : Bool :=
  match fn with
  | 0 => let v := enclExp x; v.near (if v.hi.lt (twoTo (-126)) then twoTo (-149) else (ulpOf v.hi).scale 1) y
  | 1 => let v := enclExp2 x; v.near (ulpOf v.hi) y
  | 2 => let v := enclLn x; v.near (if x.within (twoTo (-1)) (twoTo 1) then twoTo (-23) else (ulpOf v.hi).scale 1) y
  | 3 => let v := enclRsqrt x; v.near ((ulpOf v.hi).scale 1) y
  | 4 => let v := enclRecip x; v.near ((ulpOf v.hi).scale 1) y
  | 5 => (enclSigmoid x).near (twoTo (-23)) y
  | 6 => (enclTanh x).near (twoTo (-22)) y
  | 7 => (enclPhi x).near (twoTo (-22)) y
  | 8 =>
    if x.within (twoTo (-24)) ((Num.ofInt 1).add (twoTo (-24)).negate) then
      !(x.lt (enclPhi (y.add (twoTo (-18)).negate)).lo) && !((enclPhi (y.add (twoTo (-18)))).hi.lt x)
    else !y.isNan
  | 9 => (enclSinPi x).near (twoTo (-22)) y
  | _ => true

/-- The middle of what is enclosed, rounded to FP32. -/
def Encl.middle (x : Encl) : Num := Fmt.fp32.round ((x.lo.add x.hi).scale (-1))

/-- `Φ⁻¹(x)` by bisection of `[lo, hi]`, `n` times. -/
def bisectPhi (x : Num) : Nat → Num → Num → Num
  | 0, lo, _ => lo
  | n + 1, lo, hi =>
    let m := (lo.add hi).scale (-1)
    if (enclPhi m).lo.lt x then bisectPhi x n m hi else bisectPhi x n lo m

/-- A function's true value rounded to FP32. -/
def nearest (fn : Nat) (x : Num) : Num :=
  match fn with
  | 0 => (enclExp x).middle
  | 1 => (enclExp2 x).middle
  | 2 => (enclLn x).middle
  | 3 => (enclRsqrt x).middle
  | 4 => (enclRecip x).middle
  | 5 => (enclSigmoid x).middle
  | 6 => (enclTanh x).middle
  | 7 => (enclPhi x).middle
  | 8 => Fmt.fp32.round (bisectPhi x 60 (Num.ofInt (-16)) (Num.ofInt 16))
  | 9 => (enclSinPi x).middle
  | _ => .nan

end Sys2Proof.Machine
end

