-- ==== Sys2Proof/Machine/Operands.lean ====
section
/-!
DEFINITION. The descriptor header (Table 1.6), the opcodes of the engines, and the checks that the control core makes at
fetch (Table 1.9).
-/

namespace Sys2Proof.Machine

/-- Header dword of a descriptor. -/
def hdw (d : List Byte) : Nat := fieldAt d 0 4
/-- Engine field (Table 1.1). -/
def dEngine (d : List Byte) : Nat := bitsOf (hdw d) 0 3
/-- Opcode field. -/
def dOpcode (d : List Byte) : Nat := bitsOf (hdw d) 3 8
/-- Unit field. -/
def dUnit (d : List Byte) : Nat := bitsOf (hdw d) 11 2
/-- ext: the descriptor is 128 B. -/
def dExt (d : List Byte) : Bool := bitOf (hdw d) 13
/-- The number of waits. -/
def dNwait (d : List Byte) : Nat := bitsOf (hdw d) 14 2
/-- sig_en. -/
def dSigEn (d : List Byte) : Bool := bitOf (hdw d) 16
/-- accept_flagged. -/
def dAccept (d : List Byte) : Bool := bitOf (hdw d) 17
/-- cpl. -/
def dCpl (d : List Byte) : Bool := bitOf (hdw d) 18
/-- irq. -/
def dIrq (d : List Byte) : Bool := bitOf (hdw d) 19
/-- The waymark (R23). -/
def dWaymark (d : List Byte) : W32 := word32 d 4
/-- Target of wait `i`. -/
def dTarget (d : List Byte) (i : Nat) : W32 := word32 d (8 + 8 * i)
/-- Token of wait `i`. -/
def dToken (d : List Byte) (i : Nat) : Nat := bitsOf (fieldAt d (12 + 8 * i) 2) 0 12
/-- The signal token. -/
def dSignal (d : List Byte) : Nat := bitsOf (fieldAt d 32 2) 0 12
/-- The fallback byte (R251). -/
def dFallback (d : List Byte) : Nat := fieldAt d 34 1

/-- The number of an engine unit: CMP 0, MOV 1, SEQ 2, CDC 3 to 6, NET 7 and 8. -/
def unitNo : EngineUnit → Nat
  | .cmp => 0
  | .mov => 1
  | .seq => 2
  | .cdc u => 3 + u.val
  | .net u => 7 + u.val
/-- The engine code of a unit (Table 1.1). -/
def unitEngine : EngineUnit → Nat
  | .cmp => 0
  | .mov => 1
  | .seq => 2
  | .cdc _ => 3
  | .net _ => 4
/-- The unit field of a unit. -/
def unitField : EngineUnit → Nat
  | .cdc u => u.val
  | .net u => u.val
  | _ => 0

/-- The opcodes of this model's dispatch over an engine: SIGNAL and its fellows on any engine. -/
def Op.fence : Nat := 0x01
/-- WAIT. -/
def Op.wait : Nat := 0x02
/-- SIGNAL. -/
def Op.signal : Nat := 0x03
/-- SNUFF. -/
def Op.snuff : Nat := 0x04
/-- LIST_LOAD. -/
def Op.listLoad : Nat := 0x05

/-- The size in bytes of the descriptor of an opcode of an engine; none: the opcode is reserved there (R22, R84, R116,
R126, R131, R140, R156, R162, R220, R168, R246, R294, R387). -/
def opcodeSize (engine op : Nat) : Option Nat :=
  if 0x01 ≤ op ∧ op ≤ 0x05 then some 64 else
  match engine with
  | 0 => if op < 0x10 ∨ 0x19 < op then none else if op = 0x14 ∨ op = 0x15 ∨ op = 0x18 then some 64 else some 128
  | 1 => if op < 0x10 ∨ 0x15 < op then none else some 64
  | 2 => if op < 0x10 ∨ 0x16 < op then none else if op = 0x11 then some 128 else some 64
  | 3 => if op < 0x10 ∨ 0x13 < op then none else if op = 0x10 ∨ op = 0x12 then some 128 else some 64
  | 4 => if op < 0x10 ∨ 0x12 < op then none else some 64
  | _ => none

/-- The unit that an engine and unit field name, where Table 1.1 allows them. -/
def unitOf (engine field : Nat) : Option EngineUnit :=
  match engine with
  | 0 => if field = 0 then some .cmp else none
  | 1 => if field = 0 then some .mov else none
  | 2 => if field = 0 then some .seq else none
  | 3 => some (.cdc (Fin.ofNat 4 field))
  | 4 => if field < 2 then some (.net (Fin.ofNat 2 field)) else none
  | _ => none

/-- Whether a grade has an engine unit (Table 0.1, R41). -/
def Grade.has (g : Grade) : EngineUnit → Bool
  | .cdc u => decide (u.val < g.codecs)
  | .net u => decide (u.val < g.ports)
  | _ => true

/-- Whether the reserved bits and bytes of a header, its unused waits, its unused signal token and bits 15:12 of a used
one are zero (Table 1.9). -/
def headerZero (d : List Byte) : Bool :=
  bitsOf (hdw d) 20 12 == 0
    && (List.range 3).all (fun i => if i < dNwait d then zeroAt d (14 + 8 * i) 2 else zeroAt d (8 + 8 * i) 8)
    && (if dSigEn d then bitsOf (fieldAt d 32 2) 12 4 == 0 else zeroAt d 32 2)

/-- The fetch checks of Table 1.9 but for the waymark checks: the cause of the first that fails, 0 when none does. DEDUCED (log entry 61): the checks
are made in the table's order, so a NET command of an SE-720-A with an undefined opcode or unit ends with that cause, not with ABSENT (R41). -/
def headerCheck (g : Grade) (d : List Byte) : W16 :=
  let e := dEngine d
  let op := dOpcode d
  if 4 < e then Cause.badEngine
  else if (opcodeSize e op).isNone then Cause.badOpcode
  else match unitOf e (dUnit d) with
  | none => Cause.badUnit
  | some u =>
    if ! g.has u then Cause.absent
    else if dExt d != (opcodeSize e op == some 128) then Cause.extMismatch
    else if ! headerZero d then Cause.rsvdNonzero
    else if (List.range (dNwait d)).any (fun i => bitsOf (fieldAt d (12 + 8 * i) 2) 12 4 != 0)
        || (op == Op.snuff && dNwait d != 0) then Cause.badWait
    else if 2 < dFallback d || (op ≤ 0x05 && dFallback d != 0) then Cause.badFallback
    else 0

/-- Whether waymark `a` is later than `b` (R23). -/
def later (a b : W32) : Bool := decide (1 ≤ (a - b).toNat) && decide ((a - b).toNat ≤ 2 ^ 31 - 1)
/-- Whether two waymarks lie within 2^30 of each other (R25). -/
def withinSpan (a b : W32) : Bool := decide ((a - b).toNat ≤ 2 ^ 30) || decide ((b - a).toNat ≤ 2 ^ 30)

/-- Whether a descriptor ends at its fetch: a SNUFF, or one whose waits cannot be evaluated (R40, R43). -/
def endsAtFetch (d : List Byte) : Bool :=
  (dOpcode d == Op.snuff && decide (dEngine d ≤ 4))
    || (List.range (dNwait d)).any fun i => bitsOf (fieldAt d (12 + 8 * i) 2) 12 4 != 0

/-- The waymark of a command. -/
def Cmd.wm (c : Cmd) : W32 := dWaymark c.desc
/-- The engine of a command. -/
def Cmd.engine (c : Cmd) : Nat := dEngine c.desc
/-- The opcode of a command. -/
def Cmd.op (c : Cmd) : Nat := dOpcode c.desc
/-- Whether a command is opcode `op` of engine `e` and has started. -/
def Cmd.runs (c : Cmd) (e op : Nat) : Bool := c.phase == .started && c.engine == e && c.op == op
/-- Byte field of a command's descriptor. -/
def Cmd.fld (c : Cmd) (i n : Nat) : Nat := fieldAt c.desc i n
/-- A reference in a command's descriptor. -/
def Cmd.ref (c : Cmd) (i : Nat) : ORef := orefAt c.desc i
/-- Whether the bytes from `i` to the end of a command's descriptor are zero. -/
def Cmd.zeroFrom (c : Cmd) (i : Nat) : Bool := (c.desc.drop i).all (· == 0)

end Sys2Proof.Machine
end

