-- ==== Sys2Proof/Machine/Flags.lean ====
section
/-! DEFINITION. Tokens, waits and signals (R27 to R33). -/

namespace Sys2Proof.Machine

/-- Whether a wait for `target` is satisfied by a token's value (R28). -/
def waitMet (value target : W32) : Bool := decide ((value - target).toNat < 2 ^ 31)

/-- The waits of a command: token and target (R28). -/
def Cmd.waits (c : Cmd) : List (Nat × W32) := (List.range (dNwait c.desc)).map fun i => (dToken c.desc i, dTarget c.desc i)
/-- Whether a command is a WAIT with the any bit (R38). -/
def Cmd.waitsAny (c : Cmd) : Bool := c.op == Op.wait && bitOf (c.fld 35 1) 0

/-- Whether one wait is satisfied. -/
def State.met (s : State) (p : Nat) (w : Nat × W32) : Bool := waitMet (s.token p w.1).val w.2

/-- The object of a stream's state. -/
def Stream.handle (x : Stream) : Nat := (ORef.of x.stateRef.toNat).handle

/-- The streams that a SCAN_CHUNK names, below STREAM_CAP (R210). -/
def State.scanStreams (s : State) (p : Nat) (c : Cmd) : List Nat :=
  ((List.range (c.fld 42 2)).map (c.fld 40 2 + ·)).filter fun i => decide (i < (s.part p).ctl.streamCap.toNat)

/-- Whether a stream entry is LIVE or BROKEN. -/
def Stream.open' (x : Stream) : Bool := x.state == .live || x.state == .broken

/-- The waits that the pending automatic SWAP_INs put on a SCAN_CHUNK at the head of its queue, one for each of its streams of the objects
(R216). -/
def State.swapWaitsOf (s : State) (p : Nat) (c : Cmd) (swaps : List AutoSwap) : List (Nat × W32) :=
  if c.engine != 0 || c.op != 0x19 || !c.counted then [] else
  swaps.flatMap fun a => ((s.scanStreams p c).filter fun i => (s.stream p i).open' && (s.stream p i).handle == a.handle).map fun i =>
    let t := (s.stream p i).resTok.toNat
    (t, (tget {} a.tokens t : Token).val + 1)

/-- Whether the waits of a command at the head of its queue are satisfied (R28, R38), with those the device adds (R194, R216). -/
def State.waitsMet (s : State) (p : Nat) (c : Cmd) : Bool :=
  (if c.waitsAny then c.waits.isEmpty || c.waits.any (s.met p) else c.waits.all (s.met p)) && c.extraWaits.all (s.met p)
    && (s.swapWaitsOf p c (s.part p).str.swaps).all (s.met p)

/-- The flagged tokens that a command waited on, in the order of its waits: for a WAIT with any, only those satisfied
(R33, R38). -/
def State.flaggedWaits (s : State) (p : Nat) (c : Cmd) : List Nat :=
  ((c.waits.filter fun w => !c.waitsAny || s.met p w) ++ c.extraWaits).filterMap fun w =>
    if (s.token p w.1).flagged then some w.1 else none

/-- A signal of token `t`: it adds 1, and sets FLAGGED where `flag` says so (R29, R31). -/
def State.signal (s : State) (p t : Nat) (flag : Bool) : State :=
  s.modToken p t fun x => { val := x.val + 1, flagged := x.flagged || flag }

/-- Whether a terminal status and cause flag the signal (R29). -/
def flagsSignal (st : Status) (cause : W16) : Bool := st != .done || cause != 0

/-- The tokens first to first + count − 1 written: INC adds 1, SET writes the value and clears FLAGGED (R34). -/
def State.signalRange (s : State) (p first count : Nat) (set : Option W32) : State :=
  (List.range count).foldl (fun s i =>
    s.modToken p (first + i) fun x =>
      match set with
      | none => { x with val := x.val + 1 }
      | some v => { val := v, flagged := false }) s

end Sys2Proof.Machine
end

