-- ==== Sys2Proof/Machine/Ops.lean ====
section
/-!
DEFINITION. The named operations on commands that every engine shares: making one, ending one, its completion record
(R48 to R51), the reservation of its entry (R50), ring errors (R15, R360), progress of the watchdog (R484).
-/

namespace Sys2Proof.Machine

/-- The code of a status (R48). -/
def Status.code : Status → Nat
  | .done => 0
  | .snuffed => 1
  | .skipped => 2
  | .flagged => 3
  | .absent => 4

/-- A progress event of partition `p`: the watchdog's count starts again and a stall ends (R484). -/
def State.progress (s : State) (p : Nat) : State := s.modWdg p fun w => { w with ticks := 0, stalled := false }

/-- The size of a ring in slots and of a completion ring in records. -/
def Ring.slots (r : Ring) : Nat := 2 ^ bitsOf r.cfg.toNat 0 5
/-- The size of a completion ring in records. -/
def Ring.records (r : Ring) : Nat := 2 ^ bitsOf r.cplCfg.toNat 0 5
/-- The context of a ring (Table 1.3). -/
def Ring.ctx (r : Ring) : Nat := bitsOf r.cfg.toNat 16 4
/-- Whether the ring lies in a device object. -/
def Ring.inDevice (r : Ring) : Bool := bitOf r.cfg.toNat 8
/-- Whether the completion ring lies in a device object. -/
def Ring.cplInDevice (r : Ring) : Bool := bitOf r.cplCfg.toNat 8
/-- The VF vector of a ring. -/
def Ring.vector (r : Ring) : Nat := bitsOf r.cfg.toNat 20 3
/-- Whether the completion ring has an entry to reserve (R50). -/
def Ring.canReserve (r : Ring) : Bool := decide ((r.cplTail - r.cplHead).toNat + r.reserved < r.records)
/-- Whether a ring is started: neither STOPPED nor in ERROR. -/
def Ring.started (r : Ring) : Bool := r.state != .stopped && r.state != .error

/-- Slots written and not yet fetched (R14, R15). -/
def Ring.avail (r : Ring) : Nat := (r.tail - r.head).toNat

/-- The queue of engine unit `u` of context `c`. -/
def CmdSys.queue (y : CmdSys) (u c : Nat) : List Nat := tget [] y.queues (16 * u + c)

/-- The heads of a context's queues. -/
def State.ctxHeads (s : State) (p n : Nat) : List Cmd :=
  (List.range 9).filterMap fun u => (((s.part p).cmd.queue u n).head?).bind (s.cmd? p ·)

/-- Whether a swapped-out context is runnable (R58). -/
def State.ctxRunnable (s : State) (p n : Nat) : Bool :=
  (s.ctx p n).state == .swapped &&
    ((List.range 16).any (fun k => (s.ring p k).ctx == n && (s.ring p k).started && (s.ring p k).avail != 0)
      || (s.ctxHeads p n).any fun c => s.waitsMet p c)

/-- CONTEXT_STARVED may be raised again once no runnable context remains swapped out (R61); what can end the last one's being so calls this. -/
def State.rearm (s : State) (p : Nat) : State :=
  if (s.part p).cmd.starved && !(List.range 16).any (s.ctxRunnable p ·) then s.modSys p fun y => { y with starved := false } else s

/-- A ring put in ERROR with an event that carries a cause in detail bytes 24 to 25 (R15, R360, R504); `q`: the fault of the
poisoned line it follows from (R473). -/
def State.ringError (s : State) (p n : Nat) (cause inner : W16) (wm : W32) (q : Option W64 := none) : State :=
  let s := (s.modRing p n fun r => { r with state := .error, lastCause := cause }).rearm p
  let d := List.replicate 4 0 ++ leBytes 2 inner.toNat
  match q with
  | none => s.raisePart p cause (srcCore p) wm d
  | some q => s.raiseIn p q cause (srcCore p) wm d

/-- An entry of a ring's completion ring reserved for a command (R50). -/
def State.reserve (s : State) (p id : Nat) : State :=
  match s.cmd? p id with
  | none => s
  | some c =>
    if c.reserved || c.parent.isSome || c.autoTok.isSome then s
    else (s.modRing p c.ring fun r => { r with reserved := r.reserved + 1 }).modCmd p id
      fun c => { c with reserved := true }

/-- Whether a command's record has an entry, or can get one; a command the device generated writes no record. -/
def State.canReserve (s : State) (p : Nat) (c : Cmd) : Bool :=
  c.reserved || c.parent.isSome || c.autoTok.isSome || (s.ring p c.ring).canReserve

/-- Whether a command of a ring waits for a free completion entry (R50, Table 1.4): there is none, and a command without one stands in a queue,
or a SNUFF at its fetch. -/
def State.cplWaits (s : State) (p n : Nat) : Bool :=
  let r := s.ring p n
  !r.canReserve && (r.cplWait || (s.part p).cmd.cmds.any fun c =>
    c.ring == n && !c.reserved && c.parent.isNone && c.autoTok.isNone)

/-- A command put into the list of outstanding commands, with the next number (log entry 16). -/
def State.addCmd (s : State) (p : Nat) (c : Cmd) : State × Nat :=
  let id := s.nextId
  (({ s with nextId := id + 1 } : State).modSys p fun y => { y with cmds := y.cmds ++ [{ c with id := id }] }, id)

/-- The command system with one queue changed. -/
def CmdSys.modQueue (y : CmdSys) (u c : Nat) (f : List Nat → List Nat) : CmdSys :=
  { y with queues := tmod [] y.queues (16 * u + c) f }
/-- The command system with `id` taken out of every queue. -/
def CmdSys.unqueue (y : CmdSys) (id : Nat) : CmdSys := { y with queues := y.queues.map fun e => (e.1, e.2.filter (· != id)) }

/-- Whether the queue of engine unit `u` of context `c` has no free entry (R9); the inner commands of a LIST_CALL stand in
place of the call and take none (R146). -/
def CmdSys.queueFull (y : CmdSys) (u c : Nat) : Bool :=
  decide (256 ≤ (y.queue u c).countP fun i => !y.cmds.any fun d => d.id == i && d.inner)

/-- `id` taken out of its cluster's buffer, and off a half where it was armed (R71, R110). -/
def State.leaveCluster (s : State) (p id : Nat) : State :=
  match (s.cmd? p id).bind (·.cluster) with
  | none => s
  | some k =>
    let off (h : Half) : Half :=
      if h.armed = some id then { h with armed := none } else h
    s.modCluster k fun c => { c with buffer := c.buffer.filter (· != id), l := off c.l, r := off c.r }

/-- A command ends: its status, cause and detail stand, and it waits for its terminal record (R44). -/
def State.finish (s : State) (p id : Nat) (st : Status) (cause : W16) (detail : Nat := 0) (part : Bool := false) : State :=
  (((s.leaveCluster p id).modSys p fun y => y.unqueue id).modCmd p id fun c =>
    { c with phase := .ended, status := st, cause := cause, detail := BitVec.ofNat 32 detail, partialDone := part, owed := s.asked p })

/-- A command ends DONE without a cause. -/
def State.done (s : State) (p id : Nat) (detail : Nat := 0) : State := s.finish p id .done 0 detail

/-- The detail of a command that ends before it could report anything: a LIST_CALL has no failing inner command (Table 4.6). -/
def Cmd.noDetail (c : Cmd) : Nat := if c.engine = 0 ∧ c.op = 0x18 then 0xFFFF else 0

/-- A command is skipped with a cause (R39); SNUFF and others end in the same way. -/
def State.skip (s : State) (p id : Nat) (cause : W16) : State :=
  s.finish p id (if cause = Cause.absent then .absent else .skipped) cause (((s.cmd? p id).map Cmd.noDetail).getD 0)

/-- A command ends DONE with a cause that is a consequence of fault `q` (R473). -/
def State.finishBy (s : State) (p id : Nat) (cause : W16) (q : Option W64) (detail : Nat := 0) : State :=
  (s.finish p id .done cause detail).modCmd p id fun c => { c with faultSeq := q }

/-- A command ends DONE; where a line refused one of its writes, with POISON_WRITE (R260, R262). -/
def State.finishWrites (s : State) (p id : Nat) (bad : Option W64) (detail : Nat := 0) : State :=
  match bad with
  | none => s.done p id detail
  | some q => s.finishBy p id Cause.poisonWrite (some q) detail

/-- The block that a command's event record names: the control core for what it found itself, else the command's engine;
CMP work on a cluster names the cluster by its partition-relative id (R472). -/
def State.cmdSrc (s : State) (p : Nat) (c : Cmd) : Src :=
  if c.noted ≠ 0 ∨ c.status = .flagged then srcCore p else
  match c.unit with
  | some .mov => ⟨0x07, p % 8⟩
  | some .seq => ⟨0x06, p % 2⟩
  | some (.cdc u) => ⟨0x08, u.val⟩
  | some (.net u) => ⟨0x09, u.val⟩
  | _ =>
    match c.cluster.bind s.clusterOwner with
    | some (_, r) => ⟨0x02, r⟩
    | none => srcCore p

/-- The detail bytes of a command's event record (R42), where its chapter lays down no other. -/
def State.cmdDetail (s : State) (p : Nat) (c : Cmd) : List Byte :=
  c.evDetail.getD
    ([BitVec.ofNat 8 c.op, BitVec.ofNat 8 (c.engine + 8 * dUnit c.desc), BitVec.ofNat 8 c.ring, BitVec.ofNat 8 c.ctx]
      ++ leBytes 2 (if c.status = .flagged then ((s.flaggedWaits p c).head?).getD 0xFFFF else 0xFFFF))

/-- The completion record of a command (Table 1.12). -/
def Cmd.record (c : Cmd) : List Byte :=
  leBytes 4 c.wm.toNat ++ [BitVec.ofNat 8 c.status.code, BitVec.ofNat 8 (c.engine + 8 * dUnit c.desc)]
    ++ leBytes 2 c.cause.toNat ++ [BitVec.ofNat 8 c.ring, BitVec.ofNat 8 c.ctx,
      BitVec.ofNat 8 (b2n c.consumedFlagged + 2 * b2n (dSigEn c.desc && flagsSignal c.status c.cause) + 4 * b2n c.partialDone), 0]
    ++ leBytes 4 c.detail.toNat

/-- Whether a command writes a completion record (R49). -/
def Cmd.writesRecord (c : Cmd) : Bool := c.status != .done || dCpl c.desc || c.cause != 0

/-- The fault of a poisoned line that a read met. -/
def Rd.fault (r : Rd) : Option W64 := r.poison.map (·.seq)

/-- The next state of a command of the block that acts on the started command `id` of partition `p`; where there is none
of engine `e` and opcode `op`, nothing happens (log entry 15). -/
def onStarted (s : State) (p id e op : Nat) (f : Cmd → State) : State :=
  match s.cmd? p id with
  | some c => if c.runs e op then f c else s
  | none => s

end Sys2Proof.Machine
end

