-- ==== Sys2Proof/Machine/Adders.lean ====
section
/-!
DEFINITION. Memory-side operations (R254, R255), the writes a compute command makes, and error correction findings
(R258, R259).
-/

namespace Sys2Proof.Machine

/-- The operations of Table 7.9. -/
inductive AddOp where
  | addF32
  | addBf16
  | addI32
  | addI64
  | maxF32
  | minF32
  | maxBf16
  | minBf16
  | maxI64
  | minI64
  | fetchAdd
  | or
  deriving DecidableEq, Repr

/-- The size of an operation's element in bytes. -/
def AddOp.bytes : AddOp → Nat
  | .addF32 | .addI32 | .maxF32 | .minF32 => 4
  | .addBf16 | .maxBf16 | .minBf16 => 2
  | _ => 8

/-- Of two zeros of opposite sign, the one that a larger or a smaller of the two is; the spec does not say which (log entry 96). -/
def Num.zeroOf (max : Bool) (x : Num) : Num := .fin (Config.zeroPick max x.negative) 0 0
/-- Whether two numbers are zeros of opposite sign. -/
def Num.zerosDiffer (x y : Num) : Bool := x.isZero && y.isZero && x.negative != y.negative
/-- The larger of two numbers, NaN when either is (R254). -/
def Num.max (x y : Num) : Num :=
  if x.isNan || y.isNan then .nan else if x.zerosDiffer y then x.zeroOf true else if x.lt y then y else x
/-- The smaller of two numbers, NaN when either is. -/
def Num.min (x y : Num) : Num :=
  if x.isNan || y.isNan then .nan else if x.zerosDiffer y then x.zeroOf false else if y.lt x then y else x

/-- What the stored value becomes (Table 7.9). The operand of a float operation is an FP32 number. -/
def AddOp.apply (o : AddOp) (s v : Nat) : Nat :=
  let f (fm : Fmt) (g : Num → Num → Num) : Nat := fm.encode (fm.round (g (fm.decode s) (Fmt.fp32.decode v)))
  match o with
  | .addF32 => f .fp32 Num.add
  | .addBf16 => f .bf16 Num.add
  | .maxF32 => f .fp32 Num.max
  | .minF32 => f .fp32 Num.min
  | .maxBf16 => f .bf16 Num.max
  | .minBf16 => f .bf16 Num.min
  | .addI32 => (s + v) % 2 ^ 32
  | .addI64 | .fetchAdd => (s + v) % 2 ^ 64
  | .maxI64 => if ofTwos 64 s < ofTwos 64 v then v else s
  | .minI64 => if ofTwos 64 v < ofTwos 64 s then v else s
  | .or => s ||| v

/-- One memory-side operation on the element a reference names: the new state, the old value, and the fault of a poisoned
line that refused it (R254, R260, R262). -/
def State.memOp (s : State) (p : Nat) (o : AddOp) (r : ORef) (v : Nat) : State × Nat × Option W64 :=
  let pl := (s.object p r.handle).src
  let x := s.phys p pl r.off
  let rd := s.peek p pl r.off o.bytes
  let s := s.countLine p x.space x.addr
  let die := (chanOf x.space x.addr).map dieOf
  match rd.poison with
  | some q =>
    (match die with
      | some d => s.modDie d fun y => { y with addRefused := satAdd y.addRefused 1 }
      | none => s, 0, some q.seq)
  | none =>
    let old := leNat rd.bytes
    let key := (s.part p).ctl.key
    let s := { s with mem := s.mem.poke key x.space x.addr (leBytes o.bytes (o.apply old v)) }
    let s := s.dirtyRange p r.handle r.off o.bytes
    (match die with
      | some d => s.modDie d fun y => { y with addOps := wrapAdd y.addOps 1 }
      | none => s, old, none)

/-- One write of a compute command: bytes stored, or an element combined by a memory-side adder. -/
inductive Wr where
  | store (r : ORef) (bs : List Byte)
  | red (o : AddOp) (r : ORef) (v : Nat)
  deriving DecidableEq, Repr

/-- A write made; answers the fault of a line that refused it. -/
def State.applyWr (s : State) (p : Nat) : Wr → State × Option W64
  | .store r bs => s.pokeO p r bs
  | .red o r v => let t := s.memOp p o r v; (t.1, t.2.2)

/-- Writes made in order; answers the first fault that refused one. -/
def State.applyWrs (s : State) (p : Nat) (ws : List Wr) : State × Option W64 :=
  ws.foldl (fun (r : State × Option W64) w =>
    let t := r.1.applyWr p w
    (t.1, r.2.orElse fun _ => t.2)) (s, none)

/-- Whether a write of `n` bytes at a place takes effect in some line: a line that is good, or a poisoned one that it writes whole (R260,
R262). -/
def State.landsAt (s : State) (p : Nat) (pl : Place) (off n : Nat) : Bool :=
  (lineSegs off n).any fun e =>
    let x := s.phys p pl e.1
    (s.mem.poisonAt x.space (x.addr / 64)).isNone || (e.2 == 64 && !s.mem.chanFailed x.space x.addr)
/-- Whether a write of a compute command takes effect. -/
def State.lands (s : State) (p : Nat) : Wr → Bool
  | .store r bs => s.landsAt p (s.object p r.handle).src r.off bs.length
  | .red o r _ => (s.peekO p r o.bytes).poison.isNone

/-- The writes of command `id` made in order; where one takes effect the command has written something (R45, R147). Answers the first
fault that refused one. -/
def State.applyFor (s : State) (p id : Nat) (ws : List Wr) : State × Option W64 :=
  let t := s.applyWrs p ws
  (if ws.any (s.lands p) then t.1.modCmd p id fun c => { c with wrote := true } else t.1, t.2)

/-- The owner partition of a line, if it has one (R259). -/
def State.lineOwner (s : State) (sp : Space) (line : Nat) : Option Nat :=
  let a := 64 * line
  match sp with
  | .sram => (s.clusterOwner (a / sramBytes)).map (·.1)
  | .hamper => (List.range 32).find? fun p =>
      s.live p && (s.part p).ctl.hgran.contains (32 * (a / hamperBytes) + a % hamperBytes / hamperGranule)
  | .hbm => (List.range 32).find? fun p => s.live p && (s.part p).ctl.hmap.contains (a / gib)
  | .lpddr => (List.range 32).find? fun p => s.live p && (s.part p).ctl.lmap.contains (a / gib)
  | .host => none

/-- The block that reports a line, and its number there: channel, cluster or tile (R259, Table 16.3). -/
def lineSrc (sp : Space) (line : Nat) : Src :=
  let a := 64 * line
  match sp with
  | .sram => ⟨0x02, a / sramBytes⟩
  | .hamper => ⟨0x03, a / hamperBytes⟩
  | .hbm => ⟨0x0B, hbmChannel a⟩
  | _ => ⟨0x0C, lpddrChannel a⟩

/-- The home of a device memory. -/
def Space.home : Space → Home
  | .sram => .s
  | .hamper => .c
  | .hbm => .h
  | _ => .l
/-- The memory of a home's code. -/
def spaceOfHome (h : BitVec 2) : Space := (Home.ofCode h.toNat).space

/-- The 64 KiB page number of a line: of the DPA, or of the offset in the physical cluster or tile (R259). -/
def linePage (sp : Space) (line : Nat) : Nat :=
  match sp with
  | .sram => line / 1024 % 768
  | .hamper => line / 1024 % 2048
  | _ => line / 1024

/-- The detail of a POISON or CE_PAGE_LIMIT record (R259). -/
def lineDetail (sp : Space) (line found : Nat) : List Byte :=
  leBytes 4 (linePage sp line) ++ [BitVec.ofNat 8 sp.home.code, BitVec.ofNat 8 found]
    ++ leBytes 2 (lineSrc sp line).inst ++ leBytes 2 (line % 1024)

/-- A corrected error on a line (R258): counted at its channel or bank; a page of H or L that reaches ECC_CE_LIMIT raises
CE_PAGE_LIMIT once. -/
def State.corrected (s : State) (sp : Space) (line found : Nat) : State :=
  match sp, chanOf sp (64 * line) with
  | .hamper, _ => s.modTile (64 * line / hamperBytes) fun t => { t with ce := satAdd t.ce 1 }
  | .sram, _ => s.modCluster (64 * line / sramBytes) fun k => { k with ce := satAdd k.ce 1 }
  | _, none => s
  | _, some k =>
    let s := s.modChan k fun c => { c with ce := satAdd c.ce 1 }
    let hm := sp.home
    let g := linePage sp line
    let n := ((s.mem.tracked.find? fun e => e.1 = hm ∧ e.2.1 = g).map (·.2.2)).getD 0 + 1
    let rest := s.mem.tracked.filter fun e => ! decide (e.1 = hm ∧ e.2.1 = g)
    let rest := if n = 1 ∧ 16384 ≤ rest.length then
      match minBy (fun e => e.2.2) rest with
      | some e => rest.filter (fun x => decide (x ≠ e))
      | none => rest else rest
    let s := s.modMem fun m => { m with tracked := rest ++ [(hm, g, n)] }
    if s.mem.ceLimit.toNat ≤ n ∧ (hm, g) ∉ s.mem.limited then
      (s.modMem fun m => { m with limited := (hm, g) :: m.limited }).raisePf Cause.cePageLimit (lineSrc sp line) (s.lineOwner sp line) (lineDetail sp line found)
    else s

/-- The page of the last POISON in the format of Table 7.15. -/
def retFormat (sp : Space) (line : Nat) : W64 := BitVec.ofNat 64 (sp.home.code * 2 ^ 62 + linePage sp line)

/-- The home, place and partition address of a line of partition `p`'s memory. -/
def State.relAddr (s : State) (p : Nat) (sp : Space) (line : Nat) : Option (Home × Nat × Nat) :=
  let c := (s.part p).ctl
  let a := 64 * line
  match sp with
  | .sram => (s.clusterOwner (a / sramBytes)).bind fun o => if o.1 = p then some (.s, o.2, a % sramBytes) else none
  | .hamper =>
    let t := a / hamperBytes
    ((c.hamperShare t).findIdx? (· == a % hamperBytes / hamperGranule)).map fun i => (.c, t, hamperGranule * i + a % hamperGranule)
  | .hbm => (c.hmap.findIdx? (· == a / gib)).map fun i => (.h, 0, gib * i + a % gib)
  | .lpddr => (c.lmap.findIdx? (· == a / gib)).map fun i => (.l, 0, gib * i + a % gib)
  | .host => none

/-- Whether an object holds a byte of the line at an address of a home (and place). -/
def Obj.holds (o : Obj) (hm : Home) (pl a : Nat) : Bool :=
  o.usable && o.src.home == hm && (hm == .h || hm == .l || o.src.place.toNat == pl)
    && decide (o.src.addr.toNat < a + 64) && decide (a < o.src.addr.toNat + o.size.toNat)

/-- The objects of partition `p` that hold a line are marked as poisoned since their definition (Table 7.3); their entries and the page that
is newly poisoned are changed (R406). -/
def State.markPoisoned (s : State) (p : Nat) (sp : Space) (line : Nat) : State :=
  match s.relAddr p sp line with
  | none => s
  | some (hm, pl, a) =>
    let mark (e : Nat × Obj) : Nat × Obj := if e.2.holds hm pl a then (e.1, { e.2 with poisoned := true }) else e
    let hit := (s.part p).obj.table.filter fun e => e.2.holds hm pl a
    hit.foldl (fun s e => (if e.2.poisoned then s else s.markDirty p (.objE e.1)).dirtyRange p e.1 (a - e.2.src.addr.toNat) 1)
      (s.modObjs p fun y => { y with table := y.table.map mark })

/-- An uncorrectable line found (R259): it becomes poisoned; at its first detection POISON is raised on the PF ring, and
on the owner's ring unless a command of the owner, whose cause `by'` names, consumed it (R473). -/
def State.poisonFound (s : State) (sp : Space) (line found : Nat) (wm : W32) (by' : Option (Nat × W16 × Src)) : State :=
  if (s.mem.poisonAt sp line).isSome then s else
  let (q, s) := s.newFault
  let src := lineSrc sp line
  let own := s.lineOwner sp line
  let s := s.modMem fun m => { m.addPoison sp line q with
    lastUe := if sp = .hbm ∨ sp = .lpddr then retFormat sp line else m.lastUe }
  let s := match sp, chanOf sp (64 * line) with
    | .hamper, _ => s.modTile src.inst fun t => { t with ue := satAdd t.ue 1 }
    | _, some k => s.modChan k fun c => { c with ue := satAdd c.ue 1 }
    | _, none => s
  let s := match own with
    | some p => s.markPoisoned p sp line
    | none => s
  let s := s.link q Cause.poison src own
  let s := match by' with
    | some (p, c, b) => s.link q c b (some p)
    | none => s
  let d := lineDetail sp line found
  let s := s.recPf q Cause.poison 1 src own wm d
  match own, by' with
  | some p, none => s.recPart p q Cause.poison 1 src wm d
  | some p, some (p', _, _) => if p = p' then s else s.recPart p q Cause.poison 1 src wm d
  | none, _ => s

/-- What error correction finds in one line (R257 to R259). -/
def State.eccLine (s : State) (sp : Space) (line found : Nat) (f : EccFinding) (wm : W32)
    (by' : Option (Nat × W16 × Src)) : State :=
  match f with
  | .clean => s
  | .corrected => s.corrected sp line found
  | .uncorrectable => s.poisonFound sp line found wm by'

/-- How many bytes of a range of a partition's object lie on a line; none: no byte does. -/
def State.onLine (s : State) (p : Nat) (sp : Space) (line : Nat) (r : ORef) (n : Nat) : Option Nat :=
  ((lineSegs r.off n).find? fun e =>
    let x := s.phys p (s.object p r.handle).src e.1
    x.space == sp && x.addr / 64 == line).map (·.2)

/-- How a command finds what is wrong with a line, as R259 codes it, and the cause it reports of a poisoned one; none: it does not read the
line. -/
abbrev Finder := State → Space → Nat → Option (Nat × W16)

/-- A command that reads `reads` and makes the writes `ws`: a line that it does not read it finds by a memory-side operation or by a partial
write (R259); a write of the whole line reads nothing. -/
def Finder.of (p : Nat) (cause : W16) (reads : List (ORef × Nat)) (ws : List Wr) : Finder := fun s sp line =>
  if reads.any fun r => (s.onLine p sp line r.1 r.2).isSome then some (0, cause) else
  ws.findSome? fun w => match w with
    | .store r bs => (s.onLine p sp line r bs.length).bind fun n => if n < 64 then some (5, Cause.poisonWrite) else none
    | .red o r _ => (s.onLine p sp line r o.bytes).map fun _ => (3, Cause.poisonWrite)

/-- Something that reads `n` bytes from `off` of a place of partition `p`: the lines it finds so, with the cause it raises for a poisoned one
(0: none). -/
def Finder.place (p found : Nat) (cause : W16) (pl : Place) (off n : Nat) : Finder := fun s sp line =>
  if (lineSegs off n).any fun e => let x := s.phys p pl e.1; x.space == sp && x.addr / 64 == line then some (found, cause) else none
/-- Something that reads `n` bytes from `r`, where an object holds them. -/
def Finder.reads (p : Nat) (cause : W16) (r : ORef) (n : Nat) : Finder := fun s =>
  if s.inObj p r n then Finder.place p 0 cause (s.object p r.handle).src r.off n s else fun _ _ => none
/-- Something that reads `n` bytes from `off` of a partition's list buffers and context images (R303). -/
def Finder.area (p off n : Nat) : Finder := fun _ sp line =>
  if sp == .hbm && (List.range (ceilDiv n 64)).any fun i => (Config.areaLine p + off / 64 + i) % 2 ^ 24 == line then some (0, 0) else none
/-- Something that finds lines in each of several ways. -/
def Finder.first (l : List Finder) : Finder := fun s sp line => l.findSome? fun f => f s sp line
/-- A command that writes `n` bytes from `r`: it finds the lines of which it writes a part (R259). -/
def Finder.partly (p : Nat) (r : ORef) (n : Nat) : Finder := fun s sp line =>
  (s.onLine p sp line r n).bind fun k => if k < 64 then some (5, Cause.poisonWrite) else none

/-- The findings in the lines that something of partition `p` reads, or writes in part, as waymark `wm` and block `b`. -/
def State.eccFinds (s : State) (p : Nat) (wm : W32) (b : Src) (how : Finder) (hits : List EccHit) : State :=
  hits.foldl (fun s h =>
    match how s (spaceOfHome h.home) h.line with
    | some k => s.eccLine (spaceOfHome h.home) h.line k.1 h.finding wm (if k.2 = 0 then none else some (p, k.2, b))
    | none => s) s

/-- The findings in the lines that a command reads, or writes in part. -/
def State.eccHits (s : State) (p : Nat) (c : Cmd) (how : Finder) (hits : List EccHit) : State :=
  s.eccFinds p c.wm (s.cmdSrc p c) how hits

/-- The cause that a command ends with where it reads a poisoned line (R205, R213, R244, R260, R505). -/
def Cmd.poisonCause (c : Cmd) : W16 :=
  if c.engine = 1 then Cause.movePoison
  else if c.engine = 2 then (if c.op = 0x16 then Cause.streamPoison else Cause.seqPoison)
  else if c.engine = 3 then Cause.cdcPoison
  else if c.engine = 4 then Cause.netPoison
  else if c.op = 0x19 then Cause.streamPoison else Cause.operandPoison

/-- The findings in the lines that command `id` reads as its row runs, where it is one of the row's commands. -/
def State.eccRead (s : State) (p id : Nat) (mine : Cmd → Bool) (how : State → Cmd → List Finder) (hits : List EccHit) : State :=
  match s.cmd? p id with
  | some c => if mine c then s.eccHits p c (Finder.first (how s c)) hits else s
  | none => s
/-- The findings in the lines that command `id` writes in part, or adds to at memory. -/
def State.eccWrite (s : State) (p id : Nat) (how : Cmd → Finder) (hits : List EccHit) : State :=
  match s.cmd? p id with
  | some c => s.eccHits p c (how c) hits
  | none => s

/-- The pool objects that a RUNNING SEQ page owns (R178). -/
def State.seqOwns (s : State) (p h : Nat) : Bool :=
  let q := (s.part p).seq
  q.started && (h == q.pool.toNat || h == q.metaObj.toNat || h == q.pl.toNat || h == q.content.toNat) && h != 0
/-- The objects that an open codec session owns (R277). -/
def State.sessionOwns (s : State) (p h : Nat) : Bool :=
  (s.part p).cdc.sessions.any fun e => e.2.state == .open' && (ORef.of e.2.poolRef.toNat).handle == h
/-- Why a command may not name an object as its destination (R178, R277); 0: it may. -/
def State.destCheck (s : State) (p h : Nat) : W16 :=
  if s.seqOwns p h then Cause.seqObjectBusy else if s.sessionOwns p h then Cause.sessionObjectBusy else 0

/-- Whether any object among `hs` is MOVING, so that the writes of a command to it are held (R242 step 4). -/
def State.anyMoving (s : State) (p : Nat) (hs : List Nat) : Bool := hs.any fun h => (s.object p h).state == .moving

/-- Where a write goes, and its bytes. -/
def Wr.range : Wr → ORef × Nat
  | .store r bs => (r, bs.length)
  | .red o r _ => (r, o.bytes)

end Sys2Proof.Machine
end

