-- ==== Sys2Proof/Machine/Array.lean ====
section
/-!
DEFINITION. The matrix array (chapter 2): formats, passes, the product of GEMM_TILE and REDUCE_INTO, their checks (R85, R91,
R92), and what any compute command on a cluster does with the work it has found.
-/

namespace Sys2Proof.Machine

/-- Bits of an element of a format code (Table 2.1). -/
def elemBits (f : Nat) : Nat := nth 0 [32, 16, 16, 8, 8, 8, 4, 8, 8, 6, 6, 4, 8, 32, 64] f
/-- Significand pieces of a format code (Table 2.1). -/
def pieceCount (f : Nat) : Nat := if f = 0 then 3 else if f = 2 then 2 else 1
/-- The narrow formats. -/
def isNarrow (f : Nat) : Bool := f == 6 || f == 9 || f == 10 || f == 11
/-- The formats with shared scales. -/
def isMX (f : Nat) : Bool := decide (7 ≤ f) && decide (f ≤ 12)
/-- The integer formats. -/
def isInteger (f : Nat) : Bool := f == 5 || f == 6 || f == 12
/-- Complex BF16 as an input. -/
def isComplexIn (f : Nat) : Bool := f == 13
/-- Whether a code may be an input. -/
def okInput (f : Nat) : Bool := decide (f ≤ 13)
/-- Whether a code may be an output. -/
def okOutput (f : Nat) : Bool := decide (f ≤ 4) || f == 13 || f == 14
/-- Whether R74 allows a pairing. -/
def okPair (a b : Nat) : Bool :=
  okInput a && okInput b && (isComplexIn a == isComplexIn b) && (isComplexIn a || isInteger a == isInteger b)

/-- The binary format of a float code. -/
def fmtOf (f : Nat) : Fmt :=
  match f with
  | 0 => .fp32
  | 1 => .bf16
  | 2 => .fp16
  | 3 | 7 => .e4m3
  | 4 | 8 => .e5m2
  | 9 => .e2m3
  | 10 => .e3m2
  | 11 => .e2m1
  | 13 => .bf16
  | _ => .fp32

/-- Bits of element `i` of a packed row (R73). -/
def elemAt (bits : Nat) (row : List Byte) (i : Nat) : Nat :=
  let b := bits * i
  bitsOf (fieldAt row (b / 8) ((bits + 7) / 8 + 1)) (b % 8) bits

/-- The number that an element's bits stand for (Table 2.1, R76). -/
def elemVal (f x : Nat) : Num :=
  match f with
  | 5 => Num.ofInt (ofTwos 8 x)
  | 6 => Num.ofInt (ofTwos 4 x)
  | 12 => (Num.ofInt (ofTwos 8 x)).scale (-6)
  | _ => (fmtOf f).decode x

/-- Element `i` of a packed row as a number. -/
def rowElem (f : Nat) (row : List Byte) (i : Nat) : Num := elemVal f (elemAt (elemBits f) row i)

/-- The significand pieces of a finite number of a format, most significant first (R74). -/
def pieces (f : Nat) (x : Num) : List Num :=
  match f, x with
  | 0, .fin n m e => [.fin n (m / 65536) (e + 16), .fin n (m / 256 % 256) (e + 8), .fin n (m % 256) e]
  | 2, .fin n m e => [.fin n (m / 8) (e + 3), .fin n (m % 8) e]
  | _, y => [y]

/-- The piece products of one product; `trunc` omits those of R75. A product with an infinity or a NaN is one product. -/
def pieceProducts (fa fb : Nat) (trunc : Bool) (x y : Num) : List Num :=
  if !(x.isFin && y.isFin) then [x.mul y] else
  ((pieces fa x).zipIdx.flatMap fun (a, i) => (pieces fb y).zipIdx.filterMap fun (b, j) =>
    if trunc && 3 ≤ i + j then none else some (a.mul b))

/-- The product of the piece counts (R74). -/
def passCount (fa fb prec : Nat) : Nat :=
  if isComplexIn fa then (if prec = 2 then 3 else 4)
  else if prec = 1 then 6 else pieceCount fa * pieceCount fb

/-- K-rows of a stationary block (R74). -/
def blockRows (fa fb : Nat) : Nat := if isNarrow fa && isNarrow fb then 128 else 64

/-- The factor of an E8M0 scale, 0xFF: NaN (R76). -/
def scaleNum (x : Byte) : Num := if x = 0xFF then .nan else .fin false 1 ((x.toNat : Int) - 127)

/-- The terms of one real output element: piece products, or with MX operands the scaled block sums (R74 to R76). `sa` and
`sb` are the scales of block `j`, present for an MX operand. -/
def realTerms (fa fb prec : Nat) (a b : List Num) (sa sb : Nat → Num) : List Num :=
  let prods := (a.zip b).map fun (x, y) => pieceProducts fa fb (prec == 1) x y
  if isMX fa || isMX fb then
    (List.range (ceilDiv prods.length 32)).flatMap fun j =>
      let blk := (prods.drop (32 * j)).take 32
      let n := blk.foldl (fun n l => max n l.length) 0
      (List.range n).map fun i =>
        let sum := blk.foldl (fun s l => s.add (nth Num.zero l i)) Num.zero
        (sum.mul (sa j)).mul (sb j)
  else prods.flatten

/-- A GEMM_TILE or REDUCE_INTO as its operands state it (Table 2.4). -/
structure Gemm where
  half : Nat
  biasEn : Bool
  sat : Bool
  bTrans : Bool
  keepB : Bool
  aFmt : Nat
  bFmt : Nat
  outFmt : Nat
  rnd : Nat
  prec : Nat
  cluster : Nat
  m : Nat
  mv : Nat
  n : Nat
  nv : Nat
  redOp : Nat
  claimEn : Bool
  k : Nat
  kv : Nat
  a : ORef
  aStride : Nat
  b : ORef
  bStride : Nat
  d : ORef
  dStride : Nat
  sa : ORef
  sb : ORef
  bias : ORef
  seed : Nat
  altHandle : Nat
  altFmt : Nat
  altEn : Bool
  claim : ORef
  deriving Repr

/-- The operands of a command (Table 2.4); B as the ALT fallback has it where the command took it (R88). -/
def Cmd.gemm (c : Cmd) : Gemm :=
  let b := c.ref 64
  let sb := c.ref 96
  let alt := c.fld 116 4
  let h := bitsOf alt 0 20
  { half := bitsOf (c.fld 35 1) 0 2, biasEn := bitOf (c.fld 35 1) 2, sat := bitOf (c.fld 35 1) 3
    bTrans := bitOf (c.fld 35 1) 4, keepB := bitOf (c.fld 35 1) 5
    aFmt := bitsOf (c.fld 36 1) 0 4, bFmt := if c.altB then bitsOf alt 20 4 else bitsOf (c.fld 36 1) 4 4
    outFmt := bitsOf (c.fld 37 1) 0 4, rnd := bitsOf (c.fld 37 1) 4 2, prec := bitsOf (c.fld 37 1) 6 2
    cluster := c.fld 38 2, m := c.fld 40 2, mv := c.fld 42 2, n := c.fld 44 1, nv := c.fld 45 1
    redOp := c.fld 46 1, claimEn := bitOf (c.fld 47 1) 0, k := c.fld 48 2, kv := c.fld 50 2
    a := c.ref 52, aStride := c.fld 60 4, b := if c.altB then ⟨h, b.off⟩ else b, bStride := c.fld 72 4
    d := c.ref 76, dStride := c.fld 84 4, sa := c.ref 88, sb := if c.altB then ⟨h, sb.off⟩ else sb
    bias := c.ref 104, seed := c.fld 112 4, altHandle := h, altFmt := bitsOf alt 20 4, altEn := bitOf alt 24
    claim := c.ref 120 }

/-- Bytes of `n` elements of a format, in whole bytes. -/
def fmtBytes (f n : Nat) : Nat := ceilDiv (elemBits f * n) 8

/-- Whether a command feeds nothing: a valid extent of 0 (R86). -/
def Gemm.isEmpty (g : Gemm) : Bool := g.mv == 0 || g.nv == 0 || g.kv == 0
/-- Whether a command needs the accumulator (R87). -/
def Gemm.needsAcc (g : Gemm) (red : Bool) : Bool :=
  decide (blockRows g.aFmt g.bFmt < g.kv) || decide (1 < passCount g.aFmt g.bFmt g.prec) || g.half != 0
    || isComplexIn g.aFmt || red
/-- Rows of B as stored, and elements of each (b_trans). -/
def Gemm.bRows (g : Gemm) : Nat := if g.bTrans then g.nv else g.kv
/-- Elements of a stored row of B. -/
def Gemm.bCols (g : Gemm) : Nat := if g.bTrans then g.kv else g.nv

/-- Whether an offset and a stride are whole elements, of 6 bits too, and the stride at least one row, where more than one row is used
(R85, BAD_ALIGN). -/
def okRows (f off stride rows cols : Nat) : Bool :=
  let b := elemBits f
  (8 * off) % b == 0 && (decide (rows ≤ 1) || ((8 * stride) % b == 0 && decide (fmtBytes f cols ≤ stride)))

/-- Bytes from the origin of an operand to the end of its last valid row. -/
def spanBytes (rows stride rowBytes : Nat) : Nat := if rows = 0 ∨ rowBytes = 0 then 0 else (rows - 1) * stride + rowBytes

/-- The references whose valid extents must lie in their objects (R85): reference and bytes from it. -/
def Gemm.ranges (g : Gemm) : List (ORef × Nat) :=
  let live (n : Nat) := if g.isEmpty then 0 else n
  let sc := ceilDiv g.kv 32
  [(g.a, live (spanBytes g.mv g.aStride (fmtBytes g.aFmt g.kv))),
   (g.b, live (spanBytes g.bRows g.bStride (fmtBytes g.bFmt g.bCols))),
   (g.d, live (spanBytes g.mv g.dStride (fmtBytes g.outFmt g.nv)))]
  ++ (if isMX g.aFmt then [(g.sa, live (spanBytes g.mv (g.k / 32) sc))] else [])
  ++ (if isMX g.bFmt then [(g.sb, live (spanBytes sc g.n g.nv))] else [])
  ++ (if g.biasEn then [(g.bias, live ((if isComplexIn g.aFmt then 8 else 4) * g.nv))] else [])

/-- The checks that GEMM_TILE and REDUCE_INTO share, in the order of R85 with those of R91 and R92; 0: all pass. DEDUCED (log entry 97): the
stride and alignment checks go by the extents of each operand, also where another extent of 0 makes the command read nothing. -/
def gemmCheck (s : State) (p : Nat) (c : Cmd) (red : Bool) : W16 :=
  let g := c.gemm
  let cx := isComplexIn g.aFmt
  if !okInput g.aFmt || !okInput g.bFmt || !okOutput g.outFmt || g.rnd == 3 || g.prec == 3
      || (g.prec == 1 && !(g.aFmt == 0 && g.bFmt == 0)) || (g.prec == 2 && !(cx && isComplexIn g.bFmt))
      || (cx != decide (13 ≤ g.outFmt))
      || (red && (!(g.outFmt == 0 || g.outFmt == 1) || g.rnd != 0 || decide (2 < g.redOp))) then Cause.badFormat
  else if !okPair g.aFmt g.bFmt then Cause.badFormatPair
  else if g.m == 0 || g.n == 0 || g.k == 0 || decide (64 < g.n) || decide (g.m < g.mv) || decide (g.n < g.nv)
      || decide (g.k < g.kv) || (g.half != 0 && decide (32 < g.n))
      || ((isMX g.aFmt || isMX g.bFmt) && g.k % 32 != 0)
      || (g.needsAcc red && decide ((if cx then 512 else 1024) < g.mv)) then Cause.badExtent
  else if !(okRows g.aFmt g.a.off g.aStride g.mv g.kv && okRows g.bFmt g.b.off g.bStride g.bRows g.bCols
      && okRows g.outFmt g.d.off g.dStride g.mv g.nv && (!g.biasEn || g.bias.off % (if cx then 8 else 4) == 0)
      && (!(red && g.claimEn) || g.claim.off % 8 == 0)) then
    Cause.badAlign
  else if (s.relCluster p g.cluster).isNone then Cause.badCluster
  else if g.half == 3 then Cause.badHalf
  else if (dFallback c.desc == 1 && !g.altEn) || (g.altEn && !okPair g.aFmt g.altFmt) then Cause.altMissing
  else if bitsOf (c.fld 35 1) 6 2 != 0 || bitsOf (c.fld 47 1) 1 7 != 0 || bitsOf (c.fld 116 4) 25 7 != 0
      || (!red && (g.redOp != 0 || g.claimEn))
      || (!isMX g.aFmt && !zeroAt c.desc 88 8)
      || (!isMX (bitsOf (c.fld 36 1) 4 4) && (if g.altEn && isMX g.altFmt then (c.ref 96).handle != 0 else !zeroAt c.desc 96 8))
      || (!g.biasEn && !zeroAt c.desc 104 8)
      || (if red then !g.claimEn && g.seed != 0 else g.rnd != 2 && g.seed != 0)
      || (!g.altEn && bitsOf (c.fld 116 4) 0 24 != 0)
      || (!g.claimEn && !zeroAt c.desc 120 8)
      || (g.altEn && !(s.object p g.altHandle).usable)
      || (red && g.claimEn && !(s.object p g.claim.handle).usable)
      || g.ranges.any (fun r => !s.inObj p r.1 r.2) then Cause.badOperand
  else if s.destCheck p g.d.handle != 0 then s.destCheck p g.d.handle
  else if red && g.claimEn && s.destCheck p g.claim.handle != 0 then s.destCheck p g.claim.handle
  else if red && g.claimEn && (!(s.inObj p g.claim (8 * (g.seed / 64) + 8)) || (s.object p g.claim.handle).src.home != .c) then
    Cause.claimHome
  else 0

/-- The rounding of an output element (R81): its row tag and column. -/
def rndOf (code seed row col : Nat) : Rnd :=
  match code with
  | 0 => .rne
  | 1 => .rz
  | _ => .sr (Config.srValue (BitVec.ofNat 32 seed) row col)

/-- Counts of what the outputs turned out to be (Table 2.5). -/
structure OutStat where
  nsat : Nat := 0
  nan : Bool := false
  inf : Bool := false
  deriving DecidableEq, Repr

/-- The counts after one more output. -/
def OutStat.add (o : OutStat) (v : OutVal) : OutStat :=
  { nsat := o.nsat + b2n v.sat, nan := o.nan || v.val.isNan, inf := o.inf || (match v.val with | .inf _ => true | _ => false) }

/-- The detail bits of Table 2.5 that the outputs give. -/
def OutStat.bits (o : OutStat) : Nat := sat 16 o.nsat + 65536 * b2n o.nan + 131072 * b2n o.inf

/-- What a compute command on a cluster has found to do: its writes, row by row; the lines it reads; the first row whose
operands met a poisoned line; its beats; its detail. -/
structure Work where
  rows : List (List Wr) := []
  /-- what is written after every row, and only if none was refused (R212) -/
  last : List Wr := []
  reads : List (ORef × Nat) := []
  poison : Option (Nat × W64) := none
  accum : Bool := false
  /-- advances of the array, of Wick, and lookups (R72, R104) -/
  beats : Nat := 0
  wick : Nat := 0
  lookups : Nat := 0
  /-- what one more advance of the array counts: 2 in a full array, 1 in a half, 0 where no row is fed (R72) -/
  weight : Nat := 0
  /-- no row is bubble: the operands lie in the cluster's own S and every later stationary load is hidden (R66, R70) -/
  steady : Bool := false
  /-- the half code of a command that looks up on one half (R102) -/
  half : Nat := 0
  /-- what Wick may count above `wick` where the other half's lookups share its units (R102, R103) -/
  shared : Nat := 0
  detail : Nat := 0
  /-- the part of the detail that stands however the command ends (R90, R95, R118) -/
  fixed : Nat := 0
  /-- the bits of the detail, as many as this is a power of two, that count what its outputs turned out to be -/
  counts : Nat := 262144
  deriving Repr

/-- The first poisoned range among a list of (row, reference, bytes), in the order of the list. -/
def State.firstPoison (s : State) (p : Nat) (l : List (Nat × ORef × Nat)) : Option (Nat × W64) :=
  l.findSome? fun (i, r, n) => (s.peekO p r n).fault.map fun q => (i, q)

/-- The references a product reads, each with the output row that needs it first (R85, R260); `reuse`: the stationary load is skipped
(R86). -/
def Gemm.readList (g : Gemm) (reuse : Bool) : List (Nat × ORef × Nat) :=
  if g.isEmpty then [] else
  let sc := ceilDiv g.kv 32
  (if reuse then [] else (List.range g.bRows).map fun i => (0, g.b.add (i * g.bStride), fmtBytes g.bFmt g.bCols))
  ++ (if isMX g.bFmt && !reuse then (List.range sc).map fun j => (0, g.sb.add (j * g.n), g.nv) else [])
  ++ (if g.biasEn then [(0, g.bias, (if isComplexIn g.aFmt then 8 else 4) * g.nv)] else [])
  ++ ((List.range g.mv).flatMap fun r =>
    (r, g.a.add (r * g.aStride), fmtBytes g.aFmt g.kv)
      :: (if isMX g.aFmt then [(r, g.sa.add (r * (g.k / 32)), sc)] else []))

/-- A matrix's column or row as numbers. -/
def Gemm.bElem (g : Gemm) (rows : List (List Byte)) (kk c : Nat) : Nat :=
  if g.bTrans then elemAt (elemBits g.bFmt) (nth [] rows c) kk else elemAt (elemBits g.bFmt) (nth [] rows kk) c

/-- The parts of a complex element: real in the lower half (R73). -/
def complexParts (x : Nat) : Num × Num := (Fmt.bf16.decode (x % 65536), Fmt.bf16.decode (x / 65536))

/-- The real and imaginary terms of one complex element: four passes, or three in Gauss mode with pre-sums rounded to BF16
(R76). -/
def complexTerms (gauss : Bool) (a b : List (Num × Num)) : List Num × List Num :=
  let r16 (x : Num) := Fmt.bf16.round x
  let ab := a.zip b
  if gauss then
    let k1 := ab.map fun ((ar, ai), (br, _)) => br.mul (r16 (ar.add ai))
    let k2 := ab.map fun ((ar, _), (br, bi)) => ar.mul (r16 (bi.add br.negate))
    let k3 := ab.map fun ((_, ai), (br, bi)) => (ai.mul (r16 (br.add bi))).negate
    (k1 ++ k3, k1 ++ k2)
  else
    (ab.flatMap fun ((ar, ai), (br, bi)) => [ar.mul br, (ai.mul bi).negate],
     ab.flatMap fun ((ar, ai), (br, bi)) => [ar.mul bi, ai.mul br])

/-- The number of an accumulation order: equal formats, precision and term counts add in one order, whatever the cluster,
half, row and column (R83, log entry 7). -/
def Gemm.order (g : Gemm) (part : Nat) : Nat :=
  g.aFmt + 16 * g.bFmt + 256 * g.prec + 1024 * part + 4096 * g.kv

/-- What a command names for keep_b to compare (R86). -/
def Gemm.stationary (g : Gemm) (c : Cmd) : Stationary :=
  { bRef := BitVec.ofNat 64 (g.b.handle + 2 ^ 20 * g.b.off), bStride := BitVec.ofNat 32 g.bStride, bFmt := g.bFmt
    bTrans := g.bTrans, sbRef := if isMX g.bFmt then BitVec.ofNat 64 (g.sb.handle + 2 ^ 20 * g.sb.off) else BitVec.ofNat 64 (c.fld 96 8)
    nValid := g.nv, kValid := g.kv, precision := g.prec, rows := [], scales := [], full := g.half == 0 }

/-- Whether a command has one stationary block and one pass, so that keep_b has effect (R86). -/
def Gemm.oneBlock (g : Gemm) : Bool := decide (g.kv ≤ blockRows g.aFmt g.bFmt) && passCount g.aFmt g.bFmt g.prec == 1
/-- Whether a command leaves in the active registers the one block that B is: one stationary block of one piece, however many passes A's
pieces make over it (R68, R86). -/
def Gemm.leavesBlock (g : Gemm) : Bool :=
  decide (g.kv ≤ blockRows g.aFmt g.bFmt) && pieceCount g.bFmt == 1 && !isComplexIn g.bFmt

/-- Whether a half's registers hold the block that a command names (R86, log entry 43). -/
def Half.holds (h : Half) (x : Stationary) (full : Bool) : Bool :=
  h.stationary.any fun y => { y with rows := [], scales := [], full := x.full } == x && y.full == full

/-- Whether keep_b finds the block it wants in the registers of its half, or of both halves (R86); a left-half command finds the
block of a full-array command in the left half, which holds all its columns. -/
def Cluster.keeps (k : Cluster) (half : Nat) (x : Stationary) : Bool :=
  match half with
  | 0 => k.l.holds x true && k.r.holds x true
  | 1 => k.l.holds x false || k.l.holds x true
  | _ => k.r.holds x false

/-- Whether keep_b has effect and finds its block (R86). -/
def Gemm.reuses (g : Gemm) (c : Cmd) (k : Cluster) : Bool := g.keepB && !g.isEmpty && g.oneBlock && k.keeps g.half (g.stationary c)

/-- The rows of B and of its scales that a product multiplies by: those in the registers where keep_b finds its block there, else those
in memory (R86). -/
def State.blockOf (s : State) (p : Nat) (c : Cmd) (k : Nat) : List (List Byte) × List (List Byte) :=
  let g := c.gemm
  let cl := s.cluster k
  match if g.half = 2 then cl.r.stationary else cl.l.stationary, g.reuses c cl with
  | some x, true => (x.rows, x.scales)
  | _, _ =>
    ((List.range g.bRows).map fun i => (s.peekO p (g.b.add (i * g.bStride)) (fmtBytes g.bFmt g.bCols)).bytes,
     if isMX g.bFmt then (List.range (ceilDiv g.kv 32)).map fun j => (s.peekO p (g.sb.add (j * g.n)) g.nv).bytes else [])

/-- The stationary block that a command leaves in the registers of its half (R68, R86); none where B had several blocks or pieces. -/
def State.leaves (s : State) (p : Nat) (c : Cmd) (k : Nat) : Option Stationary :=
  let b := s.blockOf p c k
  if c.gemm.leavesBlock then some { c.gemm.stationary c with rows := b.1, scales := b.2 } else none

/-- The FP32 results of a product before any output rounding, row by row; a complex element is two numbers (R78 to R81). DEDUCED (log entry
90): the bias addition of the drain flushes a result below 2^−126 as R78's partial sums are flushed. -/
def State.product (s : State) (p : Nat) (c : Cmd) (k : Nat) : List (List Num) :=
  let g := c.gemm
  if g.isEmpty then [] else
  let (bRows, sbRows) := s.blockOf p c k
  let sc := ceilDiv g.kv 32
  let cx := isComplexIn g.aFmt
  let bias := if g.biasEn then (s.peekO p g.bias ((if cx then 8 else 4) * g.nv)).bytes else []
  let biasAt (x : Num) (i : Nat) : Num := if g.biasEn then add32 x (Fmt.fp32.decode (fieldAt bias (4 * i) 4)) else x
  (List.range g.mv).map fun r =>
    let row := (s.peekO p (g.a.add (r * g.aStride)) (fmtBytes g.aFmt g.kv)).bytes
    let sa := if isMX g.aFmt then (s.peekO p (g.sa.add (r * (g.k / 32))) sc).bytes else []
    if cx then
      let a := (List.range g.kv).map fun i => complexParts (elemAt 32 row i)
      (List.range g.nv).flatMap fun c =>
        let b := (List.range g.kv).map fun i => complexParts (g.bElem bRows i c)
        let (re, im) := complexTerms (g.prec == 2) a b
        [biasAt (accumulate (g.order 0) re) (2 * c), biasAt (accumulate (g.order 1) im) (2 * c + 1)]
    else
      let a := (List.range g.kv).map fun i => rowElem g.aFmt row i
      (List.range g.nv).map fun c =>
        let b := (List.range g.kv).map fun i => elemVal g.bFmt (g.bElem bRows i c)
        let ts := realTerms g.aFmt g.bFmt g.prec a b
          (fun j => if isMX g.aFmt then scaleNum (nth 0 sa j) else .fin false 1 0)
          (fun j => if isMX g.bFmt then scaleNum (nth 0 (nth [] sbRows j) c) else .fin false 1 0)
        biasAt (accumulate (g.order 0) ts) c

/-- The bytes of a row of outputs, and the counts (R81, R82); for complex outputs the two parts of an element share its
column. -/
def outRow (fmt rnd seed : Nat) (sat : Bool) (row : Nat) (vals : List Num) : List Byte × OutStat :=
  let cx := decide (13 ≤ fmt)
  let fm := if fmt = 14 then Fmt.fp32 else fmtOf fmt
  let outs := vals.zipIdx.map fun (v, i) => fm.output (rndOf rnd seed row (if cx then i / 2 else i)) sat v
  (outs.flatMap fun o => leBytes ((fm.ebits + fm.mbits + 1) / 8) (fm.encode o.val), outs.foldl OutStat.add {})

/-- Two counts together. -/
def OutStat.join (a b : OutStat) : OutStat := { nsat := a.nsat + b.nsat, nan := a.nan || b.nan, inf := a.inf || b.inf }

/-- Spare rows in use on a physical cluster (R97). -/
def State.spares (s : State) (k : Nat) : Nat := (tget [] s.fuse.excluded k).length

/-- What one advance of the array counts for a command on a half code (R72). -/
def halfWeight (half : Nat) : Nat := if half = 0 then 2 else 1

/-- Array advances of a product (R72): the fed rows of every pass and block, and the drain; 2 for a full beat. The advances with bubble rows
(R66, R70) come on top: how many there are follows from when the rows arrive (`Work.metered`). -/
def Gemm.beats (g : Gemm) (spares : Nat) : Nat :=
  if g.isEmpty then 0 else
  halfWeight g.half
    * (passCount g.aFmt g.bFmt g.prec * ceilDiv g.kv (blockRows g.aFmt g.bFmt) * g.mv + 130 + spares)

/-- The halves of a half code: left, right. -/
def halvesOf (h : Nat) : Bool × Bool := (h != 2, h != 1)

/-- The registers of the halves a product used hold its last block (R68, R86). -/
def State.setStationary (s : State) (k half : Nat) (x : Option Stationary) : State :=
  s.modCluster k fun c =>
    { c with
      l := if half = 2 then c.l else { c.l with stationary := x }
      r := if half = 1 then c.r else { c.r with stationary := x } }

/-- The fallback code of the completion detail (Table 2.5). -/
def Cmd.fallbackBits (c : Cmd) : Nat := 262144 * (c.fallback % 4)
/-- The fallback taken and the spare rows in use, which the completion detail holds however the command ends (Table 2.5). -/
def State.arrayBits (s : State) (c : Cmd) (k : Nat) : Nat := c.fallbackBits + 4194304 * s.spares k

/-- The part of a command's completion detail that stands before it has run on its cluster (Table 2.5, R118, R230): the spare rows and the
fallback, the Lantern bank, the wait for a swap. Whether keep_b matched and whether a WICK_OP was bound is not known yet. -/
def State.standing (s : State) (c : Cmd) (k : Nat) : Nat :=
  match c.op with
  | 0x12 => 524288 * b2n (c.bank.getD false)
  | 0x13 => 0
  | 0x19 => 524288 * b2n c.waitedSwap
  | _ => s.arrayBits c k

/-- Whether an operand lies in the S of physical cluster `k`, from where its rows come without a wait (R70). -/
def State.inOwnS (s : State) (p k : Nat) (r : ORef) : Bool :=
  let pl := (s.object p r.handle).src
  pl.home == .s && s.relCluster p pl.place.toNat == some k

/-- Whether every advance of a product feeds a row or drains (R66, R70): a full array whose two feeder ports bring a row of A each beat, with A
and B in its own S, and whose later stationary loads, if it has any, each take no more port beats than the rows of the block before. What the
ports give in split mode, to scales and to a transposed B the spec does not say. -/
def State.gemmSteady (s : State) (p : Nat) (g : Gemm) (k : Nat) : Bool :=
  let rows := blockRows g.aFmt g.bFmt
  let later := rows < g.kv || 1 < pieceCount g.bFmt
  g.half == 0 && !isMX g.aFmt && decide (fmtBytes g.aFmt rows ≤ 128) && s.inOwnS p k g.a && s.inOwnS p k g.b
    && (!later || (!g.bTrans && !isMX g.bFmt && decide (min g.kv rows * ceilDiv (fmtBytes g.bFmt g.nv) 64 ≤ g.mv)))

/-- The work of a GEMM_TILE that no WICK_OP follows. -/
def State.gemmWork (s : State) (p : Nat) (c : Cmd) (k : Nat) : Work :=
  let g := c.gemm
  let reuse := g.reuses c (s.cluster k)
  let outs := (s.product p c k).zipIdx.map fun (v, r) => outRow g.outFmt g.rnd g.seed g.sat r v
  let st := outs.foldl (fun (a : OutStat) o => a.join o.2) {}
  { rows := outs.zipIdx.map fun (o, r) => [Wr.store (g.d.add (r * g.dStride)) o.1]
    reads := (g.readList reuse).map (·.2)
    poison := s.firstPoison p (g.readList reuse)
    accum := g.needsAcc false
    beats := g.beats (s.spares k)
    weight := if g.isEmpty then 0 else halfWeight g.half
    steady := s.gemmSteady p g k
    detail := st.bits + 1048576 * b2n reuse + s.arrayBits c k
    fixed := 1048576 * b2n reuse + s.arrayBits c k }

/-- The memory-side operation of a REDUCE_INTO (R91). -/
def redOpOf (bf16 : Bool) (code : Nat) : AddOp :=
  match bf16, code with
  | false, 0 => .addF32
  | false, 1 => .maxF32
  | false, _ => .minF32
  | true, 0 => .addBf16
  | true, 1 => .maxBf16
  | true, _ => .minBf16

/-- The work of a REDUCE_INTO that has its claim: every element goes to the adder as FP32 (R91). DEDUCED (log entry 90): inf_out and nan_out
are judged on the contribution rounded to D's format. -/
def State.reduceWork (s : State) (p : Nat) (c : Cmd) (k : Nat) : Work :=
  let g := c.gemm
  let o := redOpOf (g.outFmt == 1) g.redOp
  let fm := fmtOf g.outFmt
  let reuse := g.reuses c (s.cluster k)
  let rows := s.product p c k
  let st := rows.foldl (fun (a : OutStat) r => a.join (r.foldl (fun (b : OutStat) v => b.add ⟨fm.round v, false⟩) {})) {}
  { rows := rows.zipIdx.map fun (v, r) => v.zipIdx.map fun (x, i) =>
      Wr.red o (g.d.add (r * g.dStride + o.bytes * i)) (Fmt.fp32.encode x)
    reads := (g.readList reuse).map (·.2)
    poison := s.firstPoison p (g.readList reuse)
    accum := true
    beats := g.beats (s.spares k)
    weight := if g.isEmpty then 0 else halfWeight g.half
    steady := s.gemmSteady p g k
    detail := ({ st with nsat := 0 } : OutStat).bits + 1048576 * b2n reuse + s.arrayBits c k
    fixed := 1048576 * b2n reuse + s.arrayBits c k }

/-- Whether two occupations of a cluster share a half. -/
def sharesHalf (a b : Cmd) : Bool := (a.left && b.left) || (a.right && b.right)

/-- The halves of a command that are in a state. -/
def Cluster.anyHalf (k : Cluster) (c : Cmd) (st : HalfState) : Bool :=
  (c.left && k.l.state == st) || (c.right && k.r.state == st)

/-- Whether a started command may run on its cluster now (R71, R93): no command of the buffer that started earlier, and is
not an armed WICK_OP, needs one of its halves, and none of them is in SELF_CHECK. -/
def State.mayRun (s : State) (p : Nat) (c : Cmd) : Bool :=
  match c.cluster with
  | none => true
  | some k =>
    let cl := s.cluster k
    !cl.anyHalf c .selfCheck
      && (cl.buffer.takeWhile (· != c.id)).all fun i =>
        match s.cmd? p i with
        | some d => d.armed || !sharesHalf c d
        | none => true

/-- The armed WICK_OPs of the halves a command occupies end with CHAIN_BREAK (R108, R110), all but `keep` and those that
armed while the command ran. -/
def State.breakChains (s : State) (p : Nat) (c : Cmd) (keep : Option Nat) : State :=
  match c.cluster with
  | none => s
  | some k =>
    let cl := s.cluster k
    let l := (if c.left then cl.l.armed.toList else []) ++ (if c.right then cl.r.armed.toList else [])
    l.eraseDups.foldl (fun s i =>
      if some i = keep || ((s.cmd? p i).any fun w => w.covers.contains c.id) then s else 
        s.finish p i .done Cause.chainBreak (((s.cmd? p i).map fun w => s.standing w k).getD 0)) s

/-- How a piece of work finds what is wrong with a line (R259). -/
def Work.finder (w : Work) (p : Nat) : Finder := Finder.of p Cause.operandPoison w.reads (w.rows.flatten ++ w.last)

/-- The first rows of a piece of work, as many as `n`. -/
def Work.take (w : Work) (n : Nat) : List Wr := (w.rows.take n).flatten

/-- The commands of a cluster's buffer that a lookup on half `half` may slow: those that occupy the other one (R102). -/
def State.lookedBeside (s : State) (p k half : Nat) : State :=
  (s.cluster k).buffer.foldl (fun s i => s.modCmd p i fun c =>
    { c with beside := c.beside || (if half = 1 then !c.left else !c.right) }) s

/-- The reads, beats and lookups of a piece of work counted (R72, R104, R245). -/
def State.countWork (s : State) (p : Nat) (k : Option Nat) (w : Work) : State :=
  let s := w.reads.foldl (fun s r => s.countO p r.1 r.2) s
  let s := ((s.count p 0 w.beats).count p 1 w.wick).count p 2 w.lookups
  match k with
  | none => s
  | some k =>
    let s := if w.half = 0 ∨ w.lookups = 0 then s else s.lookedBeside p k w.half
    s.modCluster k fun c =>
      { c with
        beats := wrapAdd c.beats w.beats
        wickBeats := wrapAdd c.wickBeats w.wick
        lookups := wrapAdd c.lookups w.lookups }

/-- A piece of work as it was metered to its end (R66, R70, R72, R102, R103): the advances with bubble rows are a free number, where there can be
any, and so is what the sharing of the Lantern units adds to the Wick beats of a half. -/
def Work.metered (w : Work) (u : Nat) : Work :=
  { w with
    beats := w.beats + (if w.steady then 0 else w.weight * Config.freeNat u)
    wick := w.wick + Config.freeNat (u + 1) % (w.shared + 1) }

/-- A piece of work that stopped in mid-course: its reads, beats and lookups are free, up to the whole (log entry 18). -/
def Work.cut (w : Work) (u : Nat) : Work :=
  let m := w.metered u
  { m with
    reads := w.reads.take (Config.freeNat (u + 5) % (w.reads.length + 1))
    beats := Config.freeNat (u + 2) % (m.beats + 1)
    wick := Config.freeNat (u + 3) % (m.wick + 1)
    lookups := Config.freeNat (u + 4) % (m.lookups + 1) }

/-- The state after `n` free values have been used. -/
def State.useFrees (s : State) (n : Nat) : State := { s with free := s.free + n }

/-- The ranges that a piece of work reads and writes. -/
def Work.ranges (w : Work) : List (ORef × Nat) := w.reads ++ (w.rows.flatten ++ w.last).map Wr.range
/-- Whether a piece of work touches a die whose traffic has stopped, or where its partition waits for credits (R270, R312): it does not go
on. -/
def State.workStopped (s : State) (p : Nat) (w : Work) : Bool := w.ranges.any fun r => s.stoppedO p r.1 r.2

/-- The last writes of a command, all of them or, where a line refuses one, none (R212). -/
def State.applyLast (s : State) (p id : Nat) (ws : List Wr) : State × Option W64 :=
  let t := s.applyFor p id ws
  if t.2.isSome then (s, t.2) else t

/-- A SCAN_CHUNK that a fault ends sets partial where it has written output rows (R229). -/
def State.scanPartial (s : State) (p id : Nat) : State :=
  s.modCmd p id fun c => if c.engine = 0 ∧ c.op = 0x19 then { c with partialDone := c.wrote } else c

/-- A compute command carried out: its reads counted; with a poisoned operand it stops at that row with OPERAND_POISON and
only rows before it may have been written, none when it accumulates (R95 step 2, R260); else every row is written. -/
def State.runWork (s : State) (p id : Nat) (k : Option Nat) (w : Work) : State :=
  if s.workStopped p w then s.waitO p w.ranges else
  let u := s.free
  match w.poison with
  | some (r, q) =>
    let n := if w.accum then 0 else Config.freeNat u % (r + 1)
    let s := (s.useFrees 7).countWork p k (w.cut (u + 1))
    let (s, _) := s.applyFor p id (w.take n)
    (s.finishBy p id Cause.operandPoison (some q) w.fixed).scanPartial p id
  | none =>
    let s := (s.useFrees 2).countWork p k (w.metered u)
    let (s, bad) := s.applyFor p id w.rows.flatten
    let (s, bad) := if bad.isSome then (s, bad) else s.applyLast p id w.last
    s.finishWrites p id bad w.detail

end Sys2Proof.Machine
end

