-- ==== Sys2Proof/Machine/Lantern.lean ====
section
/-!
DEFINITION. Lantern functions: the built-in ones (R119), the evaluation of a loaded one (R121, R122), and the reading and
checking of function images (R121, R123, R127).
-/

namespace Sys2Proof.Machine

/-- FP32 round to nearest even, subnormals honoured (R106). -/
def rn (x : Num) : Num := Fmt.fp32.round x

/-- Whether `x` is less than the decimal `a / 100`. -/
def belowCenti (x : Num) (a : Int) : Bool := ((x.mul (Num.ofInt 100))).lt (Num.ofInt a)
/-- Whether `x` is greater than the decimal `a / 100`. -/
def aboveCenti (x : Num) (a : Int) : Bool := (Num.ofInt a).lt (x.mul (Num.ofInt 100))

/-- The specials of Table 3.7: the inputs whose result it states. -/
def special (fn : Nat) (x : Num) : Option Num :=
  if x.isNan then some .nan else
  match fn with
  | 0 => if belowCenti x (-10397) then some .zero else if aboveCenti x 8872 then some (.inf false) else none
  | 1 => if belowCenti x (-15000) then some .zero else if !(belowCenti x 12800) then some (.inf false) else none
  | 2 => if x.isZero then some (.inf true) else if x.negative then some .nan else if x = .inf false then some (.inf false) else none
  | 3 => if x.isZero then some (.inf x.negative) else if x.negative then some .nan else if x = .inf false then some .zero else none
  | 4 => if x.isZero then some (.inf x.negative) else if !x.isFin then some (.fin x.negative 0 0) else none
  | 8 => if !(Num.zero.lt x) then some (.inf true) else if !(belowCenti x 100) then some (.inf false) else none
  | 9 => if !x.isFin then some .nan else none
  | _ => none

/-- A built-in function over its whole domain, with `f` where Table 3.7 states no result. -/
def whole (fn : Nat) (f : W32 → W32) (w : W32) : Num := (special fn (f32 w)).getD (f32 (f w))

/-- Whether two results, of inputs `x` below `y`, are in the order that Table 3.7 asks. -/
def inOrder (fn : Nat) (x y a b : Num) : Bool :=
  match fn with
  | 3 => x.negative || !(a.lt b)
  | 4 => x.negative != y.negative || !(a.lt b)
  | 9 => true
  | _ => !(b.lt a)

/-- Whether `f` is as Table 3.7 asks at two inputs: within its bound at the first, and in order where the table says monotone. -/
def allows (fn : Nat) (f : W32 → W32) (v w : W32) : Bool :=
  ((special fn (f32 v)).isSome || boundOk fn (f32 v) (f32 (f v)))
    && (!((f32 v).lt (f32 w)) || inOrder fn (f32 v) (f32 w) (whole fn f v) (whole fn f w))

/-- The functions that Table 3.7 allows. -/
def Allowed (fn : Nat) (f : W32 → W32) : Prop := ∀ v w : W32, allows fn f v w = true

/-- A function is allowed or it is not. -/
def allowedDec (fn : Nat) (f : W32 → W32) : Decidable (Allowed fn f) := inferInstanceAs (Decidable (∀ v w : W32, allows fn f v w = true))

/-- The value of a built-in function where Table 3.7 states no result: the device's, which is any that the table allows; of a value of
Config.lantern that is no such function, the true value rounded (log entry 8). -/
def lanternValue (fn : Nat) (w : W32) : Num :=
  match allowedDec fn (Config.lantern fn) with
  | isTrue _ => f32 (Config.lantern fn w)
  | isFalse _ => nearest fn (f32 w)

/-- A built-in function (R119). -/
def builtin (fn : Nat) (x : Num) : Num :=
  match special fn x with
  | some y => y
  | none => lanternValue fn (w32 x)

/-- NORMINV or LOG of the number that an instruction draws (R106, R114): its 25 bits go in as they are. One that is no FP32 number lies alone
between two that are, and its value lies between theirs, within the bound of Table 3.7; of a value of Config.lanternBetween that does not,
the true value rounded, held between theirs (log entry 8). -/
def builtinDrawn (fn : Nat) (u : Num) : Num :=
  let w := w32 u
  if !((f32 w).lt u) then builtin fn u else
  let lo := builtin fn (f32 w)
  let hi := builtin fn (f32 (w + 1))
  let v := f32 (Config.lanternBetween fn w)
  if boundOk fn u v && !(v.lt lo) && !(hi.lt v) then v else ((nearest fn u).max lo).min hi

/-- The result below a table's domain. -/
def LtnTable.under (t : LtnTable) : Num := if t.belowClamp then f32 ((t.segs.head?.map (·.yLo)).getD 0) else f32 t.below
/-- The result above a table's domain. -/
def LtnTable.over (t : LtnTable) : Num := if t.aboveClamp then f32 ((t.segs.getLast?.map (·.yHi)).getD 0) else f32 t.above

/-- `q(j / 2^16)` of a segment, exactly (R122). -/
def LtnSeg.quad (g : LtnSeg) (j : Nat) : Num :=
  ((f32 g.c0).add ((f32 g.c1).mul (.fin false j (-16)))).add ((f32 g.c2).mul (.fin false (j * j) (-32)))

/-- A segment's value at `j`, with the turn clip and the clamp of a monotone function (R122). -/
def LtnSeg.value (g : LtnSeg) (inc dec : Bool) (j : Nat) : Num :=
  if inc || dec then
    let y := rn (g.quad (min (max j g.jMin) g.jMax))
    let (lo, hi) := if dec then (f32 g.yHi, f32 g.yLo) else (f32 g.yLo, f32 g.yHi)
    (y.max lo).min hi
  else rn (g.quad j)

/-- One lookup (R122). -/
def LtnTable.lookup (t : LtnTable) (inc dec : Bool) (v : Num) : Num :=
  if v.isNan then .nan else
  let n : Int := t.segs.length
  let at' (i : Int) (j : Nat) : Num :=
    if i < 0 then t.under else if n ≤ i then t.over else
    match t.segs[i.toNat]? with
    | some g => g.value inc dec j
    | none => t.over
  if !t.exponent then
    let x := rn ((rn (v.add (f32 t.x0).negate)).mul (f32 t.invWidth))
    if x.isNan then .nan else
    if x.lt .zero then t.under else
    if !(x.lt (Num.ofInt n)) then t.over else
    let i := x.floor
    at' i ((x.add (Num.ofInt (-i))).scale 16).floor.toNat
  else
    let w := (w32 v).toNat
    let ex := bitsOf w 23 8
    let man := bitsOf w 0 23
    if v.negative || ex = 0 then t.under
    else if !v.isFin then t.over
    else at' (((ex : Int) - 127 - t.e0) * (2 ^ t.mb : Nat) + (man / 2 ^ (23 - t.mb) : Nat)) (man / 2 ^ (7 - t.mb) % 65536)

/-- The values a micro-program works on (Table 3.12). -/
structure LtnVals where
  v : Num
  n : Int := 0
  s : Bool := false

/-- One step of a micro-program (Table 3.12), rounded to FP32. -/
def LtnFn.step (f : LtnFn) (x : LtnVals) (w : W32) : LtnVals :=
  let k := f32 (nth 0 f.k (bitsOf w.toNat 26 2))
  match bitsOf w.toNat 28 4 with
  | 1 => { x with v := rn (x.v.mul k) }
  | 2 => { x with v := rn (x.v.add k) }
  | 3 =>
    match f.tables[bitsOf w.toNat 25 1]? with
    | some t => { x with v := t.lookup f.increasing f.decreasing x.v }
    | none => x
  | 4 =>
    let n := max (-256) (min 255 x.v.floor)
    { x with n := n, v := rn (x.v.add (Num.ofInt (-n))) }
  | 5 => { x with v := rn (x.v.scale x.n) }
  | 6 => { x with v := rn (x.v.add ((Num.ofInt x.n).mul k)) }
  | 7 => { x with s := x.v.negative, v := x.v.abs }
  | 8 => { x with v := if x.s then x.v.negate else x.v }
  | _ => x

/-- A loaded function of `x`. -/
def LtnFn.eval (f : LtnFn) (x : Num) : Num := (f.steps.foldl f.step { v := x }).v

/-- The bank of a Lantern store. -/
def Lantern.bank (l : Lantern) (b : Bool) : Tbl LtnFn := if b then l.bank1 else l.bank0
/-- The store with a bank replaced. -/
def Lantern.setBank (l : Lantern) (b : Bool) (t : Tbl LtnFn) : Lantern :=
  if b then { l with bank1 := t } else { l with bank0 := t }
/-- The function in a slot of a bank, damaged or not. -/
def Lantern.slot? (l : Lantern) (b : Bool) (slot : Nat) : Option LtnFn := ((l.bank b).find? fun e => e.1 = slot).map (·.2)
/-- The valid, undamaged function in a slot of a bank (R117, R134). -/
def Lantern.fn? (l : Lantern) (b : Bool) (slot : Nat) : Option LtnFn :=
  ((l.bank b).find? fun e => e.1 = slot && !e.2.damaged).map (·.2)
/-- Whether a function id names something in a bank (R117). -/
def Lantern.has (l : Lantern) (b : Bool) (fn : Nat) : Bool := decide (fn < 10) || (l.fn? b fn).isSome

/-- A function of a bank applied. A command that has started keeps the function of its bank though the slot has been marked damaged since
(R125, R134). -/
def Lantern.apply (l : Lantern) (b : Bool) (fn : Nat) (x : Num) : Num :=
  if fn < 10 then builtin fn x else
  match l.slot? b fn with
  | some f => f.eval x
  | none => .nan
/-- Lookups per element of a loaded function. -/
def LtnFn.lookups (f : LtnFn) : Nat := f.steps.countP fun w => bitsOf w.toNat 28 4 == 3
/-- Lookups per element of a function id in a bank (R119, R121). -/
def Lantern.lookups (l : Lantern) (b : Bool) (fn : Nat) : Nat :=
  if fn = 8 then 2 else if fn < 10 then 1 else ((l.slot? b fn).map LtnFn.lookups).getD 0
/-- The functions of a bank's valid slots: those that are not damaged (R117, R134). -/
def bankFns (t : Tbl LtnFn) : Tbl LtnFn := t.filter fun e => !e.2.damaged
/-- Segments that the functions of a bank's valid slots use (R127). -/
def bankSegs (t : Tbl LtnFn) : Nat := (bankFns t).foldl (fun n e => n + (e.2.tables.map (·.segs.length)).foldl (· + ·) 0) 0

/-- A table header and its segments read from an image (Tables 3.10, 3.11); none: malformed. -/
def parseTable (bs : List Byte) : Option (LtnTable × List Byte) :=
  let f (i n : Nat) := fieldAt bs i n
  let nseg := f 2 2
  let mode := f 0 1
  let inv := f32 (word32 bs 8)
  if bs.length < 32 + 32 * nseg ∨ nseg = 0 ∨ 1024 < nseg ∨ 1 < mode ∨ 7 < f 1 1 ∨ (mode = 0 ∧ f 1 1 ≠ 0)
      ∨ (mode = 0 ∧ !(inv.isFin && Num.zero.lt inv)) ∨ (mode = 1 ∧ (f 8 4 ≠ 0 ∨ f 6 2 ≠ 0))
      ∨ bitsOf (f 20 1) 2 6 ≠ 0 ∨ !zeroAt bs 21 11 then none else
  let segs := (List.range nseg).map fun i => (bs.drop (32 + 32 * i)).take 32
  if segs.any fun g => !zeroAt g 20 12 then none else
  some ({ exponent := mode == 1, mb := f 1 1, x0 := word32 bs 4, e0 := ofTwos 16 (f 4 2), invWidth := word32 bs 8
          below := word32 bs 12, above := word32 bs 16, belowClamp := bitOf (f 20 1) 0, aboveClamp := bitOf (f 20 1) 1
          segs := segs.map fun g =>
            { c0 := word32 g 0, c1 := word32 g 4, c2 := word32 g 8, yLo := word32 g 12, yHi := word32 g 16, jMin := 0, jMax := 65535 } },
        bs.drop (32 + 32 * nseg))

/-- A number of tables read from an image. -/
def parseTables : Nat → List Byte → Option (List LtnTable × List Byte)
  | 0, bs => some ([], bs)
  | n + 1, bs => do
    let (t, bs) ← parseTable bs
    let (ts, bs) ← parseTables n bs
    return (t :: ts, bs)

/-- One function image (Table 3.9): its slot and function, and the bytes after it; none: malformed (R127 step 3). -/
def parseImage (bs : List Byte) : Option ((Nat × LtnFn) × List Byte) :=
  let f (i n : Nat) := fieldAt bs i n
  let slot := f 0 1
  let nst := f 1 1
  let nt := f 2 1
  if bs.length < 96 ∨ slot < 10 ∨ 15 < slot ∨ nst = 0 ∨ 8 < nst ∨ nt = 0 ∨ 2 < nt ∨ 2 < f 3 1
      ∨ !zeroAt bs (20 + 4 * nst) (32 - 4 * nst) ∨ !zeroAt bs 52 12 then none else
  let steps := (List.range nst).map fun i => word32 bs (20 + 4 * i)
  let bad (w : W32) : Bool :=
    let o := bitsOf w.toNat 28 4
    o == 0 || decide (8 < o) || bitsOf w.toNat 0 25 != 0 || (o == 3 && decide (nt ≤ bitsOf w.toNat 25 1))
  if steps.any bad ∨ 2 < steps.countP (fun w => bitsOf w.toNat 28 4 == 3) then none else
  match parseTables nt (bs.drop 64) with
  | none => none
  | some (ts, rest) =>
    some ((slot, { increasing := bitOf (f 3 1) 0, decreasing := bitOf (f 3 1) 1
                   k := (List.range 4).map fun i => word32 bs (4 + 4 * i), steps := steps, tables := ts }), rest)

/-- The images of a load, back to back, at most `n` (R127 step 3). -/
def parseImages : Nat → List Byte → Option (List (Nat × LtnFn))
  | _, [] => some []
  | 0, _ => none
  | n + 1, bs => do
    let (f, rest) ← parseImage bs
    let fs ← parseImages n rest
    return f :: fs

/-- Whether `a ≤ b`, or `b ≤ a` for a decreasing function (R123). -/
def ordered (dec : Bool) (a b : W32) : Bool :=
  let (x, y) := if dec then (f32 b, f32 a) else (f32 a, f32 b)
  !x.isNan && !y.isNan && !(y.lt x)

/-- What R123 requires of one table; below and above may be infinite, and are no NaN even where a clamp bit makes them unused. -/
def LtnTable.monotoneOk (t : LtnTable) (dec : Bool) : Bool :=
  let fin (w : W32) := (f32 w).isFin
  !t.exponent && !(f32 t.below).isNan && !(f32 t.above).isNan && fin t.x0 && fin t.invWidth
    && t.segs.all (fun g => fin g.c0 && fin g.c1 && fin g.c2 && fin g.yLo && fin g.yHi && ordered dec g.yLo g.yHi)
    && (t.segs.zip (t.segs.drop 1)).all (fun (g, h') => ordered dec g.yHi h'.yLo)
    && (t.belowClamp || ordered dec t.below ((t.segs.head?.map (·.yLo)).getD 0))
    && (t.aboveClamp || ordered dec ((t.segs.getLast?.map (·.yHi)).getD 0) t.above)

/-- What R123 requires of a function declared monotone. DEDUCED (log entry 97): the inequalities that a decreasing function reverses are those of
its tables; MULK asks K[k] > 0 of it too, for a negative factor would turn a decreasing step into an increasing one. -/
def LtnFn.monotoneOk (f : LtnFn) : Bool :=
  f.steps.all (fun w =>
    match bitsOf w.toNat 28 4 with
    | 1 => Num.zero.lt (f32 (nth 0 f.k (bitsOf w.toNat 26 2))) && (f32 (nth 0 f.k (bitsOf w.toNat 26 2))).isFin
    | 2 => (f32 (nth 0 f.k (bitsOf w.toNat 26 2))).isFin
    | 3 => true
    | _ => false)
  && f.tables.all (·.monotoneOk f.decreasing)

/-- A segment with the turn limits that the loader sets (R123). -/
def LtnSeg.limits (g : LtnSeg) (dec : Bool) : LtnSeg :=
  match f32 g.c1, f32 g.c2 with
  | .fin n1 m1 e1, .fin n2 m2 e2 =>
    let q := min e1 e2
    let sg : Int := if dec then -1 else 1
    let a := sg * Num.atExp n1 m1 e1 q
    let b := sg * Num.atExp n2 m2 e2 q
    if 0 ≤ a ∧ 0 ≤ a + 2 * b then { g with jMin := 0, jMax := 65535 }
    else if a ≤ 0 ∧ a + 2 * b ≤ 0 then { g with jMin := 0, jMax := 0 }
    else if b < 0 then { g with jMin := 0, jMax := 65536 * a.natAbs / (2 * b.natAbs) }
    else { g with jMin := ceilDiv (65536 * a.natAbs) (2 * b.natAbs), jMax := 65535 }
  | _, _ => g

/-- A loaded function with its turn limits. -/
def LtnFn.prepare (f : LtnFn) : LtnFn :=
  if f.increasing || f.decreasing then
    { f with tables := f.tables.map fun t => { t with segs := t.segs.map (·.limits f.decreasing) } }
  else f

/-- The bank that a load would leave (R127 step 5). -/
def loadBank (old : Tbl LtnFn) (clear : Bool) (fs : List (Nat × LtnFn)) : Tbl LtnFn :=
  fs.foldl (fun t f => tset t f.1 f.2.prepare) (if clear then [] else old)

/-- Whether a command holds a bank of its partition's Lanterns (R125). -/
def State.bankHeld (s : State) (p : Nat) (b : Bool) : Bool :=
  (s.part p).cmd.cmds.any fun c => c.phase != .queued && c.phase != .held && c.bank == some b

/-- The segment count and the valid slots of a bank, as LANTERN_LOAD's detail gives them (R127). -/
def bankDetail (t : Tbl LtnFn) : Nat := bankSegs t % 2048 + 65536 * maskOf ((bankFns t).map fun e => e.1 - 10)

/-- LANTERN_LOAD's operands (Table 3.13); 0: all pass. -/
def lanternLoadCheck (s : State) (p : Nat) (c : Cmd) : W16 :=
  let len := c.fld 40 4
  if bitsOf (c.fld 35 1) 1 7 ≠ 0 ∨ bitsOf (c.fld 36 1) 1 7 ≠ 0 ∨ !zeroAt c.desc 37 3 ∨ !c.zeroFrom 52 ∨ len % 32 ≠ 0
      ∨ len < 96 ∨ 65536 < len ∨ !s.inObj p (c.ref 44) len then Cause.badOperand
  else 0

/-- LANTERN_SWITCH's operands. -/
def lanternSwitchCheck (c : Cmd) : W16 :=
  if bitsOf (c.fld 35 1) 1 7 ≠ 0 ∨ !c.zeroFrom 36 then Cause.badOperand else 0

end Sys2Proof.Machine
end

