-- ==== Sys2Proof/Machine/Wick.lean ====
section
/-!
DEFINITION. Wick programs and their operations, WICK_OP and its checks (R105 to R118), NORM_RMS (R129 to R131).
-/

namespace Sys2Proof.Machine

/-- A WICK_OP as its operands state it (Table 3.6), with its parameter block (Table 3.8) as read at start. -/
structure WickOp where
  half : Nat
  chain : Bool
  replace : Bool
  pairCols : Bool
  pairRows : Bool
  condEn : Bool
  fmt0 : Nat
  fmt1 : Nat
  fmt2 : Nat
  outFmt : Nat
  cluster : Nat
  m : Nat
  mv : Nat
  n : Nat
  nv : Nat
  ninstr : Nat
  rnd : Nat
  sat : Bool
  redKind : Nat
  redMem : Bool
  program : List Nat
  in0 : ORef
  in1 : ORef
  out : ORef
  aux : ORef
  inStride : Nat
  outStride : Nat
  k0 : W32
  k1 : W32
  in2 : ORef
  in1Stride : Nat
  in2Stride : Nat
  colv : ORef
  rowMap : ORef
  cond : ORef
  cvec : ORef
  cvecStride : Nat
  colBase : Nat
  seed : Nat
  red : ORef
  srSeed : Nat
  deriving Repr

/-- The operands of a WICK_OP. -/
def Cmd.wick (c : Cmd) : WickOp :=
  let b (i : Nat) := bitOf (c.fld 35 1) i
  let a (i n : Nat) := fieldAt c.aux i n
  let inS := c.fld 112 4
  { half := bitsOf (c.fld 35 1) 0 2, chain := b 2, replace := b 3, pairCols := b 4, pairRows := b 5, condEn := b 6
    fmt0 := bitsOf (c.fld 36 1) 0 4, fmt1 := bitsOf (c.fld 36 1) 4 4, fmt2 := bitsOf (c.fld 37 1) 0 4
    outFmt := bitsOf (c.fld 37 1) 4 4, cluster := c.fld 38 2, m := c.fld 40 2, mv := c.fld 42 2, n := c.fld 44 1
    nv := c.fld 45 1, ninstr := bitsOf (c.fld 46 1) 0 4, rnd := bitsOf (c.fld 46 1) 4 2, sat := bitOf (c.fld 46 1) 6
    redKind := bitsOf (c.fld 47 1) 0 3, redMem := bitOf (c.fld 47 1) 3
    program := (List.range (min 8 (bitsOf (c.fld 46 1) 0 4))).map fun i => c.fld (48 + 4 * i) 4
    in0 := c.ref 80, in1 := c.ref 88, out := c.ref 96, aux := c.ref 104, inStride := inS, outStride := c.fld 116 4
    k0 := word32 c.desc 120, k1 := word32 c.desc 124
    in2 := orefAt c.aux 0, in1Stride := if a 8 4 = 0 then inS else a 8 4, in2Stride := if a 12 4 = 0 then inS else a 12 4
    colv := orefAt c.aux 16, rowMap := orefAt c.aux 24, cond := orefAt c.aux 32, cvec := orefAt c.aux 40
    cvecStride := a 48 4, colBase := a 52 4, seed := a 56 8, red := orefAt c.aux 64, srSeed := a 72 4 }

/-- Which of the sources a, b, c and fn an operation uses; none: a reserved op (Table 3.3). -/
def wickUses (op : Nat) : Option (Bool × Bool × Bool × Bool) :=
  match op with
  | 0x01 | 0x02 | 0x03 | 0x05 | 0x06 | 0x0E | 0x10 => some (true, true, false, false)
  | 0x04 | 0x0B | 0x0C | 0x0D => some (true, true, true, false)
  | 0x07 | 0x08 => some (true, false, false, false)
  | 0x09 => some (true, false, false, true)
  | 0x0A => some (true, true, false, true)
  | 0x0F => some (false, false, false, false)
  | _ => none

/-- Op, destination, sources and function id of an instruction word (Table 3.1). -/
def wOp (w : Nat) : Nat := bitsOf w 26 6
/-- Destination temporary. -/
def wDst (w : Nat) : Nat := bitsOf w 24 2
/-- Source a, b or c: `i` = 0, 1, 2. -/
def wSrc (w i : Nat) : Nat := bitsOf w (20 - 4 * i) 4
/-- Lantern function id. -/
def wFn (w : Nat) : Nat := bitsOf w 8 4

/-- Whether an instruction word is well formed: a known op, unused fields and reserved bits zero (R105). -/
def okWickWord (w : Nat) : Bool :=
  match wickUses (wOp w) with
  | none => false
  | some (a, b, c, f) =>
    (a || wSrc w 0 == 0) && (b || wSrc w 1 == 0) && (c || wSrc w 2 == 0) && (f || wFn w == 0) && bitsOf w 0 8 == 0

/-- The sources that an instruction reads. -/
def wickSources (w : Nat) : List Nat :=
  match wickUses (wOp w) with
  | none => []
  | some (a, b, c, _) => (if a then [wSrc w 0] else []) ++ (if b then [wSrc w 1] else []) ++ (if c then [wSrc w 2] else [])

/-- The sources that a program reads. -/
def WickOp.sources (g : WickOp) : List Nat := g.program.flatMap wickSources
/-- Whether a program reads a source. -/
def WickOp.reads (g : WickOp) (i : Nat) : Bool := g.sources.contains i
/-- Whether a pair mode is set. -/
def WickOp.paired (g : WickOp) : Bool := g.pairCols || g.pairRows

/-- Lookups per element of a program (Table 3.3). -/
def WickOp.lookups (g : WickOp) (l : Lantern) (bank : Bool) : Nat :=
  g.program.foldl (fun n w => n +
    (match wOp w with
    | 0x09 | 0x0A => l.lookups bank (wFn w)
    | 0x0E | 0x10 => 2
    | _ => 0)) 0

/-- Output rows and columns (R111). -/
def WickOp.outRows (g : WickOp) : Nat := if g.pairRows then g.mv / 2 else g.mv
/-- Output columns (R111). -/
def WickOp.outCols (g : WickOp) : Nat := if g.pairCols then g.nv / 2 else g.nv
/-- How many input rows an output row needs (R111). -/
def WickOp.span (g : WickOp) : Nat := if g.pairRows then 2 else 1
/-- A WICK_OP with no valid element does nothing (R117). -/
def WickOp.isEmpty (g : WickOp) : Bool := g.mv == 0 || g.nv == 0
/-- Bytes of a reduction's record for one row (R115). -/
def WickOp.redBytes (g : WickOp) : Nat := if g.redKind = 3 then 8 else 4

/-- A reference of all zero bits names nothing. -/
def ORef.isZero (r : ORef) : Bool := r.handle == 0 && r.off == 0

/-- The fixed ranges of a WICK_OP: reference and bytes from it (R85, R117). -/
def WickOp.ranges (g : WickOp) : List (ORef × Nat) :=
  let live (n : Nat) := if g.isEmpty then 0 else n
  (if g.chain then [] else [(g.in0, live (spanBytes g.mv g.inStride (fmtBytes g.fmt0 g.nv)))])
  ++ (if g.reads 1 && !g.paired then [(g.in1, live (spanBytes g.mv g.in1Stride (fmtBytes g.fmt1 g.nv)))] else [])
  ++ (if g.reads 2 then [(g.in2, live (spanBytes g.outRows g.in2Stride (fmtBytes g.fmt2 g.outCols)))] else [])
  ++ (if g.reads 3 then [(g.colv, live (4 * g.outCols))] else [])
  ++ (if g.condEn then [(g.rowMap, live (2 * g.mv)), (g.cond, 0)] else [])
  ++ (if g.reads 7 || g.reads 8 then [(g.cvec, 0)] else [])
  ++ (if g.out.isZero then [] else [(g.out, live (spanBytes g.outRows g.outStride (fmtBytes g.outFmt g.outCols)))])
  ++ (if g.redKind != 0 then [(g.red, live (g.redBytes * g.outRows))] else [])

/-- The row map's index of an input row; none: no entry (R112). -/
def State.condIndex (s : State) (p : Nat) (g : WickOp) (r : Nat) : Option Nat :=
  if !g.condEn then none else
  let i := leNat (s.peekO p (g.rowMap.add (2 * r)) 2).bytes
  if i = 0xFFFF then none else some i

/-- The input row that an output row takes its entry and tag from (R112). -/
def WickOp.inRow (g : WickOp) (r : Nat) : Nat := if g.pairRows then 2 * r else r

/-- The ranges that the row map and the conditioning entries name (R112, R113). -/
def State.condRanges (s : State) (p : Nat) (g : WickOp) : List (Nat × ORef × Nat) :=
  if !g.condEn || g.isEmpty then [] else
  (List.range g.outRows).flatMap fun r =>
    match s.condIndex p g (g.inRow r) with
    | none => []
    | some i =>
      let e := g.cond.add (32 * i)
      let vec := leNat (s.peekO p (e.add 12) 4).bytes
      (r, e, 32) :: (if (g.reads 7 || g.reads 8) && vec != 0xFFFFFFFF
        then [(r, g.cvec.add (vec * g.cvecStride + 8 * g.colBase), 8 * g.outCols)] else [])

/-- Whether a field of a WICK_OP or of its parameter block that its mode and program leave unused is nonzero (R85, R117): strides, references
and seeds of inputs, vectors, tables and outputs that they do not name. DEDUCED (log entry 97): K0, K1 and the seed of SR are such fields; the noise
seed is not, for it stands for the row's conditioning entry in every program. -/
def Cmd.wickStray (c : Cmd) : Bool :=
  let g := c.wick
  let in1 := g.reads 1 && !g.paired
  let a (i n : Nat) : Bool := fieldAt c.aux i n != 0
  (!in1 && (!g.in1.isZero || g.fmt1 != 0 || a 8 4)) || (!g.reads 2 && (g.fmt2 != 0 || !g.in2.isZero || a 12 4))
    || (g.chain && !(in1 && !a 8 4) && !(g.reads 2 && !a 12 4) && g.inStride != 0)
    || (g.out.isZero && (g.outFmt != 0 || g.outStride != 0))
    || (!g.reads 9 && g.k0 != 0) || (!g.reads 10 && g.k1 != 0)
    || (!g.reads 3 && !g.colv.isZero) || (!g.condEn && (!g.rowMap.isZero || !g.cond.isZero))
    || (!(g.reads 7 || g.reads 8) && (!g.cvec.isZero || g.cvecStride != 0))
    || (g.redKind == 0 && !g.red.isZero) || (g.rnd != 2 && g.srSeed != 0)

/-- The checks of a WICK_OP in the order of R117; 0: all pass. -/
def wickCheck (s : State) (p : Nat) (c : Cmd) (bank : Bool) : W16 :=
  let g := c.wick
  let noAux := g.aux.isZero
  let unpaired := !g.paired
  if g.ninstr == 0 || decide (8 < g.ninstr) || g.program.any (fun w => !okWickWord w)
      || !zeroAt c.desc (48 + 4 * g.ninstr) (32 - 4 * g.ninstr) then Cause.badWickProgram
  else if g.program.any (fun w => (wOp w == 0x09 || wOp w == 0x0A) && !(s.part p).ltn.has bank (wFn w)) then Cause.lanternEmpty
  else if g.half == 3 || (g.pairCols && g.pairRows) || (g.pairCols && g.nv % 2 != 0) || (g.pairRows && g.mv % 2 != 0)
      || (g.chain && (!g.in0.isZero || g.fmt0 != 0)) || (g.replace && !g.chain)
      || (noAux && (g.sources.any (fun i => decide (2 ≤ i) && decide (i ≤ 8)) || g.redKind != 0 || g.condEn))
      || (!g.condEn && g.sources.any (fun i => decide (4 ≤ i) && decide (i ≤ 8)))
      || (g.reads 1 && unpaired && g.in1.isZero)
      || (g.out.isZero && g.redKind == 0) || decide (3 < g.redKind) || (g.rnd == 2 && noAux) then Cause.badWickMode
  else if g.rnd == 3 || decide (5 < g.fmt0) || decide (5 < g.fmt1) || decide (5 < g.fmt2) || decide (4 < g.outFmt) then
    Cause.badFormat
  else if g.m == 0 || g.n == 0 || decide (64 < g.n) || decide (g.m < g.mv) || decide (g.n < g.nv)
      || (g.half != 0 && decide (32 < g.n)) then Cause.badExtent
  else if g.aux.off % 64 != 0
      || !((g.chain || okRows g.fmt0 g.in0.off g.inStride g.mv g.nv)
        && (!(g.reads 1 && unpaired) || okRows g.fmt1 g.in1.off g.in1Stride g.mv g.nv)
        && (!g.reads 2 || okRows g.fmt2 g.in2.off g.in2Stride g.outRows g.outCols)
        && (g.out.isZero || okRows g.outFmt g.out.off g.outStride g.outRows g.outCols)
        && (!g.reads 3 || g.colv.off % 4 == 0)
        && (!g.condEn || (g.rowMap.off % 2 == 0 && g.cond.off % 4 == 0))
        && (!(g.reads 7 || g.reads 8) || (g.cvec.off % 4 == 0 && g.cvecStride % 4 == 0))
        && (g.redKind == 0 || g.red.off % g.redBytes == 0)) then Cause.badAlign
  else if (s.relCluster p g.cluster).isNone then Cause.badCluster
  else if bitOf (c.fld 35 1) 7 || bitOf (c.fld 46 1) 7 || bitsOf (c.fld 47 1) 4 4 != 0
      || (g.redMem && g.redKind == 0)
      || c.wickStray
      || (!noAux && !(s.inObj p g.aux 128)) || !zeroAt c.aux 76 52
      || g.ranges.any (fun r => !s.inObj p r.1 r.2)
      || (s.condRanges p g).any (fun r => !s.inObj p r.2.1 r.2.2) then Cause.badOperand
  else if !g.out.isZero && s.destCheck p g.out.handle != 0 then s.destCheck p g.out.handle
  else if g.redKind != 0 && s.destCheck p g.red.handle != 0 then s.destCheck p g.red.handle
  else 0

/-- The uniform value of R114, with 24 fraction bits and the half. -/
def uniform (seed step col i : Nat) : Num :=
  let w := 2 ^ 64
  let ctr := (step * 2 ^ 40 + col * 256 + i) % w
  let z := (seed + (ctr + 1) * 0x9E3779B97F4A7C15) % w
  let z := ((z ^^^ (z / 2 ^ 30)) * 0xBF58476D1CE4E5B9) % w
  let z := ((z ^^^ (z / 2 ^ 27)) * 0x94D049BB133111EB) % w
  let z := z ^^^ (z / 2 ^ 31)
  .fin false (2 * (z / 2 ^ 40) + 1) (-25)

/-- One operation of Wick on its operands (Table 3.3, R106). -/
def wickAlu (l : Lantern) (bank : Bool) (w : Nat) (a b c : Num) (u : Num) : Num :=
  let fn (x : Num) : Num := l.apply bank (wFn w) x
  match wOp w with
  | 0x01 => rn (a.add b)
  | 0x02 => rn (a.add b.negate)
  | 0x03 => rn (a.mul b)
  | 0x04 => rn ((a.mul b).add c)
  | 0x05 => a.max b
  | 0x06 => a.min b
  | 0x07 => a.abs
  | 0x08 => a.negate
  | 0x09 => rn (fn a)
  | 0x0A => rn (a.mul (fn b))
  | 0x0B => if Num.zero.lt a then b else c
  | 0x0C => if a.isNan || b.isNan || c.isNan then .nan else (a.max b).min c
  | 0x0D => rn (a.add (c.mul (rn (b.add a.negate))))
  | 0x0E => rn (a.add (b.mul (rn (builtinDrawn 8 u))))
  | 0x0F => rn u
  | 0x10 =>
    let x := rn (builtinDrawn 2 u)
    let y := rn (builtin 2 x.negate)
    rn (a.add (b.mul y.negate))
  | _ => a

/-- A program run on one element: `src` gives sources 0 to 10, `seed`, `step` and `col` the noise (R105, R114). -/
def wickRun (l : Lantern) (bank : Bool) (prog : List Nat) (src : Nat → Num) (seed step col : Nat) : Num :=
  let ts := prog.zipIdx.foldl (fun (ts : List Num) (w, i) =>
    let v (k : Nat) : Num := if k ≤ 10 then src k else if k = 15 then .zero else nth .zero ts (k - 11)
    setNth ts (wDst w) fun _ => wickAlu l bank w (v (wSrc w 0)) (v (wSrc w 1)) (v (wSrc w 2)) (uniform seed step col i))
    [.zero, .zero, .zero, .zero]
  nth .zero ts 0

/-- A sum in a fixed pairwise tree over lanes: each level joins neighbours after a permutation that the spec leaves open
(R115, R129, log entry 7). An absent lane joins as nothing. -/
def treeSum : Nat → List (Option Num) → Num
  | 0, l => ((l.head?).getD none).getD .zero
  | n + 1, l =>
    let rec pairUp : List (Option Num) → List (Option Num)
      | some x :: some y :: t => some (rn (x.add y)) :: pairUp t
      | some x :: none :: t => some x :: pairUp t
      | none :: y :: t => y :: pairUp t
      | l => l
    treeSum n (pairUp l)

/-- The lanes of a row in the order of the fixed tree's leaves (log entry 7). -/
def treeLeaves (lane0 : Nat) (vals : List Num) : List (Option Num) :=
  let lanes := (List.range 64).map fun l => if lane0 ≤ l ∧ l < lane0 + vals.length then vals[l - lane0]? else none
  (sortBy (fun e => Config.sumKey 1 e.1) ((List.range 64).zip lanes)).map (·.2)

/-- The FP32 sum of a row's lanes (R115). -/
def laneSum (lane0 : Nat) (vals : List Num) : Num :=
  match vals with
  | [x] => x
  | _ => treeSum 6 (treeLeaves lane0 vals)

/-- The ARGMAX record of one element (R115). -/
def argRecord (x : Num) (col : Nat) : Nat :=
  let b := (w32 x).toNat
  (if bitOf b 31 then b ^^^ 0x7FFFFFFF else b) * 2 ^ 32 + col % 2 ^ 32

/-- What Wick makes of its input rows: the writes of each output row, and the counts (R107, R111 to R115). `in0 r c` is the
element of input row r, lane c. -/
def State.wickRows (s : State) (p : Nat) (g : WickOp) (bank : Bool) (in0 : Nat → Nat → Num) : List (List Wr) × OutStat :=
  let l := (s.part p).ltn
  let bytes (r : ORef) (n : Nat) : List Byte := (s.peekO p r n).bytes
  let colv := if g.reads 3 then bytes g.colv (4 * g.outCols) else []
  let one (r : Nat) : List Wr × OutStat :=
    let ir := g.inRow r
    let in1 := if g.reads 1 && !g.paired then bytes (g.in1.add (r * g.in1Stride)) (fmtBytes g.fmt1 g.nv) else []
    let in2 := if g.reads 2 then bytes (g.in2.add (r * g.in2Stride)) (fmtBytes g.fmt2 g.outCols) else []
    let ent := (s.condIndex p g ir).map fun i => bytes (g.cond.add (32 * i)) 32
    let e := ent.getD []
    let vec := fieldAt e 12 4
    let cv := if ent.isSome && (g.reads 7 || g.reads 8) && vec != 0xFFFFFFFF
      then bytes (g.cvec.add (vec * g.cvecStride + 8 * g.colBase)) (8 * g.outCols) else []
    let seed := if ent.isSome then fieldAt e 16 8 else g.seed
    let step := if ent.isSome then fieldAt e 24 4 else ir
    let vals := (List.range g.outCols).map fun c =>
      let src (k : Nat) : Num :=
        match k with
        | 0 => if g.pairCols then in0 r (2 * c) else in0 ir c
        | 1 => if g.pairCols then in0 r (2 * c + 1) else if g.pairRows then in0 (ir + 1) c else rowElem g.fmt1 in1 c
        | 2 => rowElem g.fmt2 in2 c
        | 3 => Fmt.fp32.decode (fieldAt colv (4 * c) 4)
        | 4 => Fmt.fp32.decode (fieldAt e 0 4)
        | 5 => Fmt.fp32.decode (fieldAt e 4 4)
        | 6 => Fmt.fp32.decode (fieldAt e 8 4)
        | 7 => Fmt.fp32.decode (fieldAt cv (8 * c) 4)
        | 8 => Fmt.fp32.decode (fieldAt cv (8 * c + 4) 4)
        | 9 => f32 g.k0
        | _ => f32 g.k1
      wickRun l bank g.program src seed step (g.colBase + c)
    let (bs, st) := outRow g.outFmt g.rnd g.srSeed g.sat r vals
    let redRef := g.red.add (g.redBytes * r)
    let red : List Wr :=
      match g.redKind with
      | 0 => []
      | 1 =>
        let x := (w32 (laneSum (if g.half = 2 then 32 else 0) vals)).toNat
        [if g.redMem then .red .addF32 redRef x else .store redRef (leBytes 4 x)]
      | 2 =>
        let x := (w32 (vals.foldl Num.max (.inf true))).toNat
        [if g.redMem then .red .maxF32 redRef x else .store redRef (leBytes 4 x)]
      | _ =>
        let recs := vals.zipIdx.map fun (v, c) => argRecord v (g.colBase + c)
        let x := recs.foldl (fun a b => if ofTwos 64 a < ofTwos 64 b then b else a) (recs.headD 0)
        [if g.redMem then .red .maxI64 redRef x else .store redRef (leBytes 8 x)]
    ((if g.out.isZero then [] else [Wr.store (g.out.add (r * g.outStride)) bs]) ++ red,
      if g.out.isZero then {} else st)
  let rows := if g.isEmpty then [] else (List.range g.outRows).map one
  (rows.map (·.1), rows.foldl (fun (a : OutStat) o => a.join o.2) {})

/-- The ranges that Wick itself reads, with the output row that needs each first. -/
def State.wickReads (s : State) (p : Nat) (g : WickOp) : List (Nat × ORef × Nat) :=
  if g.isEmpty then [] else
  (if g.reads 3 then [(0, g.colv, 4 * g.outCols)] else [])
  ++ (if g.condEn then [(0, g.rowMap, 2 * g.mv)] else [])
  ++ s.condRanges p g
  ++ (List.range g.outRows).flatMap fun r =>
    (if g.chain then [] else if g.pairRows then
      [(r, g.in0.add (2 * r * g.inStride), fmtBytes g.fmt0 g.nv), (r, g.in0.add ((2 * r + 1) * g.inStride), fmtBytes g.fmt0 g.nv)]
      else [(r, g.in0.add (r * g.inStride), fmtBytes g.fmt0 g.nv)])
    ++ (if g.reads 1 && !g.paired then [(r, g.in1.add (r * g.in1Stride), fmtBytes g.fmt1 g.nv)] else [])
    ++ (if g.reads 2 then [(r, g.in2.add (r * g.in2Stride), fmtBytes g.fmt2 g.outCols)] else [])

/-- Wick beats of the rows of a program (R103, R104), a row's lookups served at `each` beats for each that they need: 1 alone, 2 where the
other half has every second one (R102). -/
def WickOp.beats (g : WickOp) (lookups each : Nat) : Nat :=
  if g.isEmpty then 0 else
  halfWeight g.half * g.outRows * max (ceilDiv g.ninstr 4) (each * lookups * ceilDiv g.outCols 16)

/-- Whether a command on a cluster's half is at its turn there with lookups to make (R71, R102): an unchained WICK_OP, or a chained one behind
which a GEMM_TILE of its half is at its turn. -/
def State.looksUp (s : State) (p k : Nat) (d : Cmd) : Bool :=
  d.op == 0x12 && d.phase == .started && !(s.cluster k).anyHalf d .offline
    && decide (0 < d.wick.lookups (s.part p).ltn (d.bank.getD false))
    && if d.wick.chain then ((s.cluster k).buffer.filterMap (s.cmd? p ·)).any fun g => g.op == 0x10 && sharesHalf g d && s.mayRun p g
      else s.mayRun p d

/-- Whether lookups of the cluster's other half stand beside those of a command, or have stood while it was in the buffer (R102). -/
def State.hasBeside (s : State) (p : Nat) (c : Cmd) : Bool :=
  c.beside || match c.cluster with
    | none => false
    | some k => ((s.cluster k).buffer.filterMap (s.cmd? p ·)).any fun d => !sharesHalf c d && s.looksUp p k d

/-- The work of a WICK_OP on the rows that `in0` gives (R116, R118). -/
def State.wickWork (s : State) (p : Nat) (c : Cmd) (in0 : Nat → Nat → Num) : Work :=
  let g := c.wick
  let bank := c.bank.getD false
  let lk := g.lookups (s.part p).ltn bank
  let (rows, st) := s.wickRows p g bank in0
  let rd := s.wickReads p g
  { rows := rows, reads := rd.map (·.2), poison := s.firstPoison p rd, wick := g.beats lk 1
    lookups := if g.isEmpty then 0 else g.outRows * g.outCols * lk
    half := g.half
    shared := if s.hasBeside p c then g.beats lk 2 - g.beats lk 1 else 0
    detail := st.bits + 262144 * b2n g.chain + 524288 * b2n bank
    fixed := 262144 * b2n g.chain + 524288 * b2n bank }

/-- The elements of an unchained WICK_OP's input stream 0. -/
def State.wickIn0 (s : State) (p : Nat) (g : WickOp) : Nat → Nat → Num :=
  let rows := if g.isEmpty then [] else
    (List.range g.mv).map fun r => (s.peekO p (g.in0.add (r * g.inStride)) (fmtBytes g.fmt0 g.nv)).bytes
  fun r c => rowElem g.fmt0 (nth [] rows r) c

/-- A NORM_RMS as its operands state it (Table 3.14). -/
structure Norm where
  gainEn : Bool
  biasEn : Bool
  subEn : Bool
  sat : Bool
  rnd : Nat
  inFmt : Nat
  outFmt : Nat
  cluster : Nat
  m : Nat
  mv : Nat
  len : Nat
  lv : Nat
  eps : W32
  subScale : W32
  inp : ORef
  inStride : Nat
  outStride : Nat
  out : ORef
  gain : ORef
  bias : ORef
  sub : ORef
  seed : Nat
  deriving Repr

/-- The operands of a NORM_RMS. -/
def Cmd.norm (c : Cmd) : Norm :=
  let b (i : Nat) := bitOf (c.fld 35 1) i
  { gainEn := b 0, biasEn := b 1, subEn := b 2, sat := b 3, rnd := bitsOf (c.fld 35 1) 4 2
    inFmt := bitsOf (c.fld 36 1) 0 4, outFmt := bitsOf (c.fld 36 1) 4 4, cluster := c.fld 38 2, m := c.fld 40 2
    mv := c.fld 42 2, len := c.fld 44 2, lv := c.fld 46 2, eps := word32 c.desc 48, subScale := word32 c.desc 52
    inp := c.ref 56, inStride := c.fld 64 4, outStride := c.fld 68 4, out := c.ref 72, gain := c.ref 80
    bias := c.ref 88, sub := c.ref 96, seed := c.fld 104 4 }

/-- The ranges of a NORM_RMS; one without valid rows reads none of them. -/
def Norm.ranges (g : Norm) : List (ORef × Nat) :=
  let live (n : Nat) := if g.mv = 0 then 0 else n
  [(g.inp, spanBytes g.mv g.inStride (fmtBytes g.inFmt g.lv)), (g.out, spanBytes g.mv g.outStride (fmtBytes g.outFmt g.lv))]
  ++ (if g.gainEn then [(g.gain, live (4 * g.lv))] else []) ++ (if g.biasEn then [(g.bias, live (4 * g.lv))] else [])
  ++ (if g.subEn then [(g.sub, 4 * g.mv)] else [])

/-- The checks of a NORM_RMS (R131, as R117 orders them); 0: all pass. -/
def normCheck (s : State) (p : Nat) (c : Cmd) : W16 :=
  let g := c.norm
  let e := f32 g.eps
  if g.rnd == 3 || decide (4 < g.inFmt) || decide (4 < g.outFmt) then Cause.badFormat
  else if g.m == 0 || decide (g.m < g.mv) || g.len == 0 || decide (16384 < g.len) || g.lv == 0 || decide (g.len < g.lv) then
    Cause.badExtent
  else if !(okRows g.inFmt g.inp.off g.inStride g.mv g.lv && okRows g.outFmt g.out.off g.outStride g.mv g.lv
      && (!g.gainEn || g.gain.off % 4 == 0) && (!g.biasEn || g.bias.off % 4 == 0) && (!g.subEn || g.sub.off % 4 == 0)) then
    Cause.badAlign
  else if (s.relCluster p g.cluster).isNone then Cause.badCluster
  else if !e.isFin || (e.negative && !e.isZero) || !(f32 g.subScale).isFin then Cause.normParam
  else if bitsOf (c.fld 35 1) 6 2 != 0 || c.fld 37 1 != 0 || !c.zeroFrom 108 || (!g.gainEn && !zeroAt c.desc 80 8)
      || (!g.biasEn && !zeroAt c.desc 88 8) || (!g.subEn && (!zeroAt c.desc 96 8 || g.subScale != 0))
      || (g.rnd != 2 && g.seed != 0) || g.ranges.any (fun r => !s.inObj p r.1 r.2) then Cause.badOperand
  else s.destCheck p g.out.handle

/-- The exponent of the leading bit of a number. -/
def Num.exponent : Num → Int
  | .fin _ m e => e + (bitLen m : Int) - 1
  | _ => 0

/-- A finite number rounded to a 24-bit significand, nearest even, in an unbounded exponent range (R129 step 5). -/
def round24 (x : Num) : Num :=
  match x with
  | .fin n m e => let q := e + (bitLen m : Int) - 24; .fin n (roundAt .rne m e q) q
  | y => y

/-- 1/√q within 2 ulp, Lantern id 3 in the wide exponent range: the device's value of the FP32 number that `q` is after an
even power of two is taken out, scaled back (R129 step 6, log entry 8). -/
def wideRsqrt (q : Num) : Num :=
  let e := q.exponent
  let h := e.fdiv 2
  (builtin 3 (q.scale (-2 * h))).scale (-h)

/-- One row of NORM_RMS before the output rounding, and the lookups it makes (R129): a row that yields NaN gives none, and neither it nor a
row with q = 0 makes one. -/
def Norm.row (g : Norm) (xs : List Num) (sub : Num) (gain bias : Nat → Num) : Option (List Num) × Nat :=
  let c := if g.subEn then rn (sub.mul (f32 g.subScale)) else .zero
  let d := xs.map fun x => rn (x.add c.negate)
  if d.any (fun x => !x.isFin) then (none, 0) else
  let top := d.foldl (fun (a : Num) x => if a.lt x.abs then x.abs else a) .zero
  let e : Int := if top.isZero then 0 else top.exponent
  let d' := d.map (·.scale (-e))
  let lanes := (List.range 64).map fun l =>
    let ys := (d'.zipIdx.filter fun (_, i) => i % 64 == l).map (·.1)
    if ys.isEmpty then none else some (ys.foldl (fun a y => rn (a.add (if Config.normFused then y.mul y else rn (y.mul y)))) .zero)
  let sum := if d'.length = 1 then (nth none lanes 0).getD .zero else
    treeSum 6 ((sortBy (fun x => Config.sumKey 2 x.1) ((List.range 64).zip lanes)).map (·.2))
  let mu := rn (sum.mul (rn (Num.recipNat g.lv)))
  let q := round24 (mu.add ((f32 g.eps).scale (-2 * e)))
  let y := if q.isZero then d'.map fun _ => Num.zero else let r := wideRsqrt q; d'.map fun x => rn (x.mul r)
  (some (y.zipIdx.map fun (v, i) =>
    let v := if g.gainEn then rn (v.mul (gain i)) else v
    if g.biasEn then rn (v.add (bias i)) else v), b2n !q.isZero)
where
  /-- 1/n to enough bits that its FP32 rounding is exact (R129 step 4). -/
  Num.recipNat (n : Nat) : Num :=
    let k := 2 ^ 80 / n
    .fin false (2 * k + (if k * n = 2 ^ 80 then 0 else 1)) (-81)

/-- The work of a NORM_RMS (R129, R131). DEDUCED (log entry 97): the beats that R131 gives with "about" are metered as they stand. -/
def State.normWork (s : State) (p : Nat) (c : Cmd) : Work :=
  let g := c.norm
  let bytes (r : ORef) (n : Nat) : List Byte := (s.peekO p r n).bytes
  let gain := if g.gainEn && g.mv != 0 then bytes g.gain (4 * g.lv) else []
  let bias := if g.biasEn && g.mv != 0 then bytes g.bias (4 * g.lv) else []
  let rows := (List.range g.mv).map fun r =>
    let row := bytes (g.inp.add (r * g.inStride)) (fmtBytes g.inFmt g.lv)
    let sub := if g.subEn then Fmt.fp32.decode (leNat (bytes (g.sub.add (4 * r)) 4)) else .zero
    let (res, looks) := g.row ((List.range g.lv).map fun i => rowElem g.inFmt row i) sub
      (fun i => Fmt.fp32.decode (fieldAt gain (4 * i) 4)) (fun i => Fmt.fp32.decode (fieldAt bias (4 * i) 4))
    let (bs, st) := outRow g.outFmt g.rnd g.seed g.sat r (res.getD (List.replicate g.lv .nan))
    (Wr.store (g.out.add (r * g.outStride)) bs, st, res.isNone, looks)
  let rd : List (Nat × ORef × Nat) :=
    (if g.gainEn && g.mv != 0 then [(0, g.gain, 4 * g.lv)] else []) ++ (if g.biasEn && g.mv != 0 then [(0, g.bias, 4 * g.lv)] else [])
    ++ (List.range g.mv).flatMap fun r =>
      (r, g.inp.add (r * g.inStride), fmtBytes g.inFmt g.lv) :: (if g.subEn then [(r, g.sub.add (4 * r), 4)] else [])
  { rows := rows.map fun r => [r.1], reads := rd.map (·.2), poison := s.firstPoison p rd
    wick := 2 * g.mv * (3 * ceilDiv g.lv 64 + 10), lookups := rows.foldl (fun n r => n + r.2.2.2) 0, counts := 2 ^ 32
    detail := sat 16 (rows.countP fun r => r.2.2.1) + 65536 * sat 16 (rows.foldl (fun n r => n + r.2.1.nsat) 0) }

end Sys2Proof.Machine
end

