-- ==== Sys2Proof/Machine/ComputeRows.lean ====
section
/-!
DEFINITION. The compute commands of chapters 2 and 3 as they run on their cluster: GEMM_TILE, REDUCE_INTO, WICK_OP, NORM_RMS,
LANTERN_LOAD and LANTERN_SWITCH.
-/

namespace Sys2Proof.Machine

/-- A started command at its turn on its cluster (R71, R93): it does nothing before its turn or while an object it writes
is MOVING (R242 step 4, log entry 20); a half of it that is OFFLINE skips it (R95 step 6); else, its work being `w`, the armed WICK_OPs of its
halves but `keep` end with CHAIN_BREAK (R108), the findings in the lines it reads take effect, and `f` carries it out. -/
def State.onCluster (s : State) (p : Nat) (c : Cmd) (dests : List Nat) (ecc : List EccHit) (w : Nat → Work) (keep : Option Nat)
    (f : State → Nat → State) : State :=
  match c.cluster with
  | none => s
  | some k =>
    if !s.mayRun p c || s.anyMoving p dests then s
    else if (s.cluster k).anyHalf c .offline then s.finish p c.id .skipped Cause.halfOffline (s.standing c k)
    else f ((s.eccHits p c ((w k).finder p) ecc).breakChains p c keep) k

/-- The WICK_OP that a GEMM_TILE binds (R108): armed on the same halves, with equal valid extents and an FP32 input. -/
def State.bound? (s : State) (p : Nat) (c : Cmd) (k : Nat) : Option Cmd :=
  let cl := s.cluster k
  match ((if c.left then cl.l.armed else none) <|> (if c.right then cl.r.armed else none)).bind (s.cmd? p ·) with
  | none => none
  | some w =>
    if w.left = c.left ∧ w.right = c.right ∧ w.wick.mv = c.gemm.mv ∧ w.wick.nv = c.gemm.nv ∧ w.wick.fmt0 = 0
        ∧ c.id ∉ w.covers then some w else none

/-- The objects that a WICK_OP writes. -/
def WickOp.dests (g : WickOp) : List Nat :=
  (if g.out.isZero then [] else [g.out.handle]) ++ (if g.redKind = 0 then [] else [g.red.handle])

/-- The element that a product's row delivers to Wick at a lane (R109). -/
def productLane (rows : List (List Num)) (r c : Nat) : Num := nth .zero (nth [] rows r) c

/-- The work of the two commands of a bound pair: the product's rows pass into Wick unrounded; `replace` suppresses D (R109), and the
detail's sat_count with it. DEDUCED (log entry 97): nan_out and inf_out still tell what D's outputs would have been. -/
def State.pairWork (s : State) (p : Nat) (c w : Cmd) (k : Nat) : Work × Work :=
  let g := s.gemmWork p c k
  (if w.wick.replace then { g with rows := [], detail := g.detail - g.detail % 65536 } else g,
    s.wickWork p w (productLane (s.product p c k)))

/-- The rows of a pair that stand when it stops with `n` rows of the product out of the drain: those of D, and the rows of Wick that they
complete, fewer than `top` of them (R109, R111). -/
def pairRows (g ww : Work) (w : WickOp) (n top : Nat) : List Wr × List Wr := (g.take n, ww.take (min (n / w.span) top))

/-- The commands of a pair that stopped write the rows that stand; the work of both is metered as far as it came. The `used` free values from
`u` on are the caller's. -/
def State.pairStops (s : State) (p : Nat) (c w : Cmd) (k : Nat) (g ww : Work) (u used : Nat) (rows : List Wr × List Wr) : State :=
  let s := ((s.useFrees (used + 12)).countWork p k (g.cut (u + used))).countWork p k (ww.cut (u + used + 6))
  ((s.applyFor p c.id rows.1).1.applyFor p w.id rows.2).1

/-- A bound pair carried out (R109, log entry 25); a poisoned operand of either ends both commands, at the row that met it first. -/
def State.runBound (s : State) (p : Nat) (c w : Cmd) (k : Nat) : State :=
  let (g, ww) := s.pairWork p c w k
  if s.workStopped p g || s.workStopped p ww then s.waitO p (g.ranges ++ ww.ranges) else
  match g.poison <|> ww.poison with
  | some (_, q) =>
    let u := s.free
    let last := min ((g.poison.map (·.1)).getD c.gemm.mv) ((ww.poison.map fun x => (x.1 + 1) * w.wick.span).getD c.gemm.mv)
    let n := if g.accum && g.poison.isSome then 0 else Config.freeNat u % (last + 1)
    let rows := pairRows g ww w.wick n ((ww.poison.map (·.1)).getD w.wick.outRows)
    let s := s.pairStops p c w k g ww u 1 (if g.accum then [] else rows.1, rows.2)
    (s.finishBy p c.id Cause.operandPoison (some q) g.fixed).finishBy p w.id Cause.operandPoison (some q) ww.fixed
  | none =>
    let u := s.free
    let s := (s.useFrees 2).countWork p k (g.metered u)
    let (s, bad) := s.applyFor p c.id g.rows.flatten
    (s.finishWrites p c.id bad g.detail).runWork p w.id (some k) ww

/-- A GEMM_TILE with its cluster: bound behind the WICK_OP armed on its halves, or alone; its halves then hold its last
stationary block (R86). -/
def State.runGemm (s : State) (p : Nat) (c : Cmd) (w : Option Cmd) (k : Nat) : State :=
  let g := c.gemm
  if s.workStopped p (s.gemmWork p c k) then s.waitO p (s.gemmWork p c k).ranges else
  let left := if (s.gemmWork p c k).poison.isNone then s.leaves p c k else none
  let s := match w with
    | none => s.runWork p c.id (some k) (s.gemmWork p c k)
    | some w => s.runBound p c w k
  if g.isEmpty then s else s.setStationary k g.half left

/-- GEMM_TILE (R84 to R90). -/
def State.gemmTile (s : State) (p id : Nat) (ecc : List EccHit) : State :=
  onStarted s p id 0 0x10 fun c =>
    let w := c.cluster.bind (s.bound? p c)
    let dests := (match w with
      | none => [c.gemm.d.handle]
      | some w => (if w.wick.replace then [] else [c.gemm.d.handle]) ++ w.wick.dests)
    let work (k : Nat) : Work := match w with
      | none => s.gemmWork p c k
      | some w =>
        let (g, ww) := s.pairWork p c w k
        { g with reads := g.reads ++ ww.reads, rows := g.rows ++ ww.rows }
    s.onCluster p c dests ecc work (w.map (·.id)) fun s k => s.runGemm p c w k

/-- Runs GEMM_TILE `id` of partition `p`. -/
def execGemmTile (p : PartId) (id : Nat) (ecc : List EccHit) (s : State) : Res := .next (s.gemmTile p.val id ecc)

/-- What the atomic OR of a claim bit finds (R92). -/
inductive Claim where
  | won
  | lost
  | refused (q : W64)
  deriving DecidableEq, Repr

/-- The claim of a REDUCE_INTO or of a tile: an atomic OR of its bit into the 8-byte word of its bitmap (R92, R150, R254); a poisoned line
refuses it (R260). -/
def State.claimBit (s : State) (p : Nat) (claim : ORef) (bit : Nat) : State × Claim :=
  let t := s.memOp p .or (claim.add (8 * (bit / 64))) (2 ^ (bit % 64))
  (t.1, match t.2.2 with
    | some q => .refused q
    | none => if bitOf t.2.1 (bit % 64) then .lost else .won)

/-- A REDUCE_INTO with its cluster (R91, R92): with claim_en it first takes its claim; a lost claim ends it with
claim_lost in its detail and nothing written. Its stage says what came of the claim: 1 won (or none asked), 2 refused, 3 lost. DEDUCED (log
entry 90): a command with a valid extent of 0 takes its claim too. -/
def State.runReduce (s : State) (p : Nat) (c : Cmd) (k : Nat) : State :=
  let g := c.gemm
  if s.workStopped p (s.reduceWork p c k) then s.waitO p (s.reduceWork p c k).ranges else
  let t := if g.claimEn then s.claimBit p g.claim g.seed else (s, .won)
  match t.2 with
  | .lost => (t.1.done p c.id (2097152 + t.1.arrayBits c k)).modCmd p c.id fun c => { c with stage := 3 }
  | .refused q => (t.1.finishBy p c.id Cause.poisonWrite (some q) (t.1.arrayBits c k)).modCmd p c.id fun c => { c with stage := 2 }
  | .won =>
    let w := t.1.reduceWork p c k
    let left := if w.poison.isNone then t.1.leaves p c k else none
    let s := (t.1.modCmd p c.id fun c => { c with stage := 1 }).runWork p c.id (some k) w
    if g.isEmpty then s else s.setStationary k g.half left

/-- REDUCE_INTO (R91, R92). -/
def State.reduceInto (s : State) (p id : Nat) (ecc : List EccHit) : State :=
  onStarted s p id 0 0x11 fun c =>
    let work (k : Nat) : Work :=
      let w := s.reduceWork p c k
      if c.gemm.claimEn then { w with rows := [.red .or (c.gemm.claim.add (8 * (c.gemm.seed / 64))) 0] :: w.rows } else w
    s.onCluster p c (c.gemm.d.handle :: if c.gemm.claimEn then [c.gemm.claim.handle] else []) ecc work none fun s k => s.runReduce p c k

/-- Runs REDUCE_INTO `id` of partition `p`. -/
def execReduceInto (p : PartId) (id : Nat) (ecc : List EccHit) (s : State) : Res := .next (s.reduceInto p.val id ecc)

/-- A chained WICK_OP arms its halves (R108, R110): WICK_OPs armed there before it end with CHAIN_BREAK; the commands that run there
now cannot bind to it. -/
def State.arm (s : State) (p : Nat) (c : Cmd) (k : Nat) : State :=
  let s := s.breakChains p c (some c.id)
  let run := ((s.cluster k).buffer.filterMap (s.cmd? p ·)).filter fun d => d.id != c.id && sharesHalf c d && s.mayRun p d
  let h (x : Half) : Half := { x with armed := some c.id }
  (s.modCluster k fun x => { x with l := if c.left then h x.l else x.l, r := if c.right then h x.r else x.r }).modCmd p c.id
    fun c => { c with armed := true, covers := run.map (·.id) }

/-- A chained WICK_OP at its half (R95, R108): it arms unless the half tests itself, when it waits, or is OFFLINE, when it is skipped. -/
def State.armOrWait (s : State) (p : Nat) (c : Cmd) (k : Nat) : State :=
  let cl := s.cluster k
  if cl.anyHalf c .offline then s.finish p c.id .skipped Cause.halfOffline (s.standing c k)
  else if c.armed || cl.anyHalf c .selfCheck then s
  else s.arm p c k

/-- An unchained WICK_OP runs; a chained one arms where it has waited for a self-check, and stays armed until a command runs on its halves
(R95, R107, R108). -/
def State.wickOp (s : State) (p id : Nat) (ecc : List EccHit) : State :=
  onStarted s p id 0 0x12 fun c =>
    if c.wick.chain then (match c.cluster with
      | some k => s.armOrWait p c k
      | none => s) else
    s.onCluster p c c.wick.dests ecc (fun _ => s.wickWork p c (s.wickIn0 p c.wick)) none fun s k => s.runWork p c.id (some k) (s.wickWork p c (s.wickIn0 p c.wick))

/-- Runs WICK_OP `id` of partition `p`. -/
def execWickOp (p : PartId) (id : Nat) (ecc : List EccHit) (s : State) : Res := .next (s.wickOp p.val id ecc)

/-- NORM_RMS (R129 to R131). -/
def State.normRms (s : State) (p id : Nat) (ecc : List EccHit) : State :=
  onStarted s p id 0 0x13 fun c =>
    s.onCluster p c [c.norm.out.handle] ecc (fun _ => s.normWork p c) none fun s k => s.runWork p c.id (some k) (s.normWork p c)

/-- Runs NORM_RMS `id` of partition `p`. -/
def execNormRms (p : PartId) (id : Nat) (ecc : List EccHit) (s : State) : Res := .next (s.normRms p.val id ecc)

/-- LANTERN_LOAD, steps 1 and 2 (R127): the active bank skips it; while a command holds the bank it waits; else it may
write. -/
def State.lanternLoad (s : State) (p id : Nat) : State :=
  onStarted s p id 0 0x14 fun c =>
    let b := bitOf (c.fld 35 1) 0
    if c.stage ≠ 0 then s
    else if (s.part p).ltn.active = b ∧ id ∉ (s.part p).ltn.loadWaiting then s.skip p id Cause.lanternBankActive
    else if s.bankHeld p b then s.modLtn p fun l => { l with loadWaiting := addTo l.loadWaiting id }
    else (s.modLtn p fun l => { l with loadWaiting := l.loadWaiting.filter (· != id) }).modCmd p id fun c => { c with stage := 1 }

/-- Runs steps 1 and 2 of LANTERN_LOAD `id` of partition `p`. -/
def execLanternLoad (p : PartId) (id : Nat) (s : State) : Res := .next (s.lanternLoad p.val id)

/-- LANTERN_LOAD, steps 3 to 5 (R127, R505): the images are read, checked and written into the bank. -/
def State.lanternLoadWrite (s : State) (p id : Nat) : State :=
  onStarted s p id 0 0x14 fun c =>
    let b := bitOf (c.fld 35 1) 0
    let len := c.fld 40 4
    if c.stage = 0 || s.bankHeld p b then s else
    let rd := s.peekO p (c.ref 44) len
    let s := s.countO p (c.ref 44) len
    match rd.fault with
    | some q => s.finishBy p id Cause.operandPoison (some q)
    | none =>
      match parseImages 683 rd.bytes with
      | none => s.skip p id Cause.lanternImage
      | some fs =>
        if fs.any fun f => (f.2.increasing || f.2.decreasing) && !f.2.monotoneOk then s.skip p id Cause.lanternNotMonotone
        else
          let t := loadBank ((s.part p).ltn.bank b) (bitOf (c.fld 36 1) 0) fs
          if 1024 < bankSegs t then s.skip p id Cause.lanternCapacity
          else (s.modLtn p fun l => l.setBank b t).done p id (bankDetail t)

/-- What LANTERN_LOAD reads once its bank is free. -/
def State.imageReads (p : Nat) (s : State) (c : Cmd) : List Finder :=
  if c.stage = 0 || s.bankHeld p (bitOf (c.fld 35 1) 0) then [] else [Finder.reads p Cause.operandPoison (c.ref 44) (c.fld 40 4)]

/-- Runs steps 3 to 5 of LANTERN_LOAD `id` of partition `p`. -/
def execLanternLoadWrite (p : PartId) (id : Nat) (s : State) (ecc : List EccHit := []) : Res := .next ((s.eccRead p.val id (·.runs 0 0x14) (State.imageReads p.val) ecc).lanternLoadWrite p.val id)

/-- Whether a started LANTERN_SWITCH waits: a LANTERN_LOAD to its bank, started before it in its context, has yet to write (R128, log entry
44). -/
def State.switchWaits (s : State) (p : Nat) (c : Cmd) : Bool :=
  (s.part p).cmd.cmds.any fun d =>
    d.engine == 0 && d.op == 0x14 && d.phase == .started && d.ctx == c.ctx && decide (d.order < c.order)
      && bitOf (d.fld 35 1) 0 == bitOf (c.fld 35 1) 0

/-- LANTERN_SWITCH (R128): the named bank becomes active and the generation counts; an active bank changes nothing. Step 5
of a LANTERN_LOAD is one step of the model, so that the switch never meets one (log entry 19); a LANTERN_LOAD to that bank that stood
before it in its queue is carried out before it (log entry 44). -/
def State.lanternSwitch (s : State) (p id : Nat) : State :=
  onStarted s p id 0 0x15 fun c =>
    let b := bitOf (c.fld 35 1) 0
    if s.switchWaits p c then s
    else
      let s := if (s.part p).ltn.active = b then s else s.modLtn p fun l => { l with active := b, gen := l.gen + 1 }
      s.done p id (s.part p).ltn.gen.toNat

/-- Runs LANTERN_SWITCH `id` of partition `p`. -/
def execLanternSwitch (p : PartId) (id : Nat) (s : State) : Res := .next (s.lanternSwitch p.val id)

end Sys2Proof.Machine
end

