-- ==== Sys2Proof/Machine/Conv.lean ====
section
/-! DEFINITION. CONV_TILE (R154 to R161): blocked layouts, taps, weights, checks and work. -/

namespace Sys2Proof.Machine

/-- A CONV_TILE as its operands state it (Table 4.7). -/
structure Conv where
  half : Nat
  biasEn : Bool
  sat : Bool
  replicate : Bool
  c32 : Bool
  temporal : Bool
  inFmt : Nat
  wFmt : Nat
  outFmt : Nat
  rnd : Nat
  group : Nat
  cluster : Nat
  kh : Nat
  kw : Nat
  kt : Nat
  sh : Nat
  sw : Nat
  st : Nat
  dh : Nat
  dw : Nat
  dt : Nat
  ph : Nat
  pw : Nat
  n : Nat
  nv : Nat
  toh : Nat
  tow : Nat
  tot : Nat
  inH : Nat
  inW : Nat
  inT : Nat
  inC : Nat
  outH : Nat
  outW : Nat
  outT : Nat
  outC : Nat
  oh0 : Nat
  ow0 : Nat
  ot0 : Nat
  cin : Nat
  cinK : Nat
  cinV : Nat
  cout : Nat
  x : ORef
  w : ORef
  wStride : Nat
  out : ORef
  bias : ORef
  seed : Nat
  altHandle : Nat
  altFmt : Nat
  altEn : Bool
  deriving Repr

/-- The operands of a CONV_TILE; the weights as the ALT fallback has them where the command took it (R161). -/
def Cmd.conv (c : Cmd) : Conv :=
  let b (i : Nat) := bitOf (c.fld 35 1) i
  let alt := c.fld 124 4
  let w := c.ref 92
  { half := bitsOf (c.fld 35 1) 0 2, biasEn := b 2, sat := b 3, replicate := b 4, c32 := b 5, temporal := b 6
    inFmt := bitsOf (c.fld 36 1) 0 4, wFmt := if c.altB then bitsOf alt 20 4 else bitsOf (c.fld 36 1) 4 4
    outFmt := bitsOf (c.fld 37 1) 0 4, rnd := bitsOf (c.fld 37 1) 4 2, group := bitsOf (c.fld 37 1) 6 2
    cluster := c.fld 38 2, kh := bitsOf (c.fld 40 1) 0 4, kw := bitsOf (c.fld 40 1) 4 4, kt := bitsOf (c.fld 41 1) 0 2 + 1
    sh := bitsOf (c.fld 41 1) 2 2 + 1, sw := bitsOf (c.fld 41 1) 4 2 + 1, st := bitsOf (c.fld 41 1) 6 2 + 1
    dh := c.fld 42 1, dw := c.fld 43 1, dt := c.fld 44 1, ph := c.fld 45 1, pw := c.fld 46 1, n := c.fld 48 1, nv := c.fld 49 1
    toh := c.fld 50 1, tow := c.fld 51 1, tot := c.fld 52 1, inH := c.fld 54 2, inW := c.fld 56 2, inT := c.fld 58 2
    inC := c.fld 60 2, outH := c.fld 62 2, outW := c.fld 64 2, outT := c.fld 66 2, outC := c.fld 68 2, oh0 := c.fld 70 2
    ow0 := c.fld 72 2, ot0 := c.fld 74 2, cin := c.fld 76 2, cinK := c.fld 78 2, cinV := c.fld 80 2, cout := c.fld 82 2
    x := c.ref 84, w := if c.altB then ⟨bitsOf alt 0 20, w.off⟩ else w, wStride := c.fld 100 4, out := c.ref 104
    bias := c.ref 112, seed := c.fld 120 4, altHandle := bitsOf alt 0 20, altFmt := bitsOf alt 20 4, altEn := bitOf alt 24 }

/-- Channels of a C-block (R154). -/
def Conv.blk (g : Conv) : Nat := if g.c32 then 32 else 16
/-- Channels of a group; 0 when dense (R158). -/
def Conv.groupSize (g : Conv) : Nat := nth 0 [0, 1, 16, 32] g.group

/-- The element index of (c, t, h, w) in a tensor of the blocked layouts (R154). -/
def Conv.elemIndex (g : Conv) (chans hh ww c t h w : Nat) : Nat :=
  let cb := ceilDiv chans g.blk
  (((if g.temporal then t * cb else 0) + c / g.blk) * hh * ww + h * ww + w) * g.blk + c % g.blk

/-- The valid rows of the tile: their row number q and output position (t, h, w) (R157). -/
def Conv.rows (g : Conv) : List (Nat × Nat × Nat × Nat) :=
  (List.range (g.tot * g.toh * g.tow)).filterMap fun q =>
    let t := g.ot0 + q / (g.toh * g.tow)
    let h := g.oh0 + q / g.tow % g.toh
    let w := g.ow0 + q % g.tow
    if t < g.outT ∧ h < g.outH ∧ w < g.outW then some (q, t, h, w) else none

/-- The taps in the order of their numbers: (kt, kh, kw) (R158). -/
def Conv.taps (g : Conv) : List (Nat × Nat × Nat) :=
  (List.range g.kt).flatMap fun a => (List.range g.kh).flatMap fun b => (List.range g.kw).map fun c => (a, b, c)

/-- The number of a tap (R158). -/
def Conv.tapNo (g : Conv) (k : Nat × Nat × Nat) : Nat := (k.1 * g.kh + k.2.1) * g.kw + k.2.2

/-- The input coordinates (t, h, w) that an output position reads under a tap (R157). -/
def Conv.coord (g : Conv) (pos k : Nat × Nat × Nat) : Int × Int × Int :=
  ((pos.1 * g.st : Int) - ((g.kt - 1 - k.1) * g.dt : Nat),
   (pos.2.1 * g.sh : Int) - g.ph + (k.2.1 * g.dh : Nat),
   (pos.2.2 * g.sw : Int) - g.pw + (k.2.2 * g.dw : Nat))

/-- The coordinate as read: none where it is padding of zeros; clamped with replicate padding (R157). -/
def Conv.source (g : Conv) (x : Int × Int × Int) : Option (Nat × Nat × Nat) :=
  if g.replicate then
    let cl (v : Int) (n : Nat) : Nat := (max 0 (min v ((n : Int) - 1))).toNat
    some (cl x.1 g.inT, cl x.2.1 g.inH, cl x.2.2 g.inW)
  else if x.1 < 0 ∨ x.2.1 < 0 ∨ (g.inH : Int) ≤ x.2.1 ∨ x.2.2 < 0 ∨ (g.inW : Int) ≤ x.2.2 then none
  else some (x.1.toNat, x.2.1.toNat, x.2.2.toNat)

/-- The live taps (R159): not those that, for every valid row, read padding in some one dimension. -/
def Conv.live (g : Conv) : List (Nat × Nat × Nat) :=
  if g.replicate then g.taps else
  g.taps.filter fun k =>
    let xs := g.rows.map fun r => g.coord r.2 k
    !(xs.all (fun x => decide (x.1 < 0)) || xs.all (fun x => decide (x.2.1 < 0 ∨ (g.inH : Int) ≤ x.2.1))
      || xs.all (fun x => decide (x.2.2 < 0 ∨ (g.inW : Int) ≤ x.2.2)))

/-- Stationary blocks of a command: live taps times blocks of input channels with a valid one (R160). -/
def Conv.blocks (g : Conv) : Nat := g.live.length * ceilDiv g.cinV (blockRows g.inFmt g.wFmt)
/-- A command that reads nothing: no stationary block, valid row or valid column (R160). -/
def Conv.isEmpty (g : Conv) : Bool := g.rows.isEmpty || g.nv == 0 || g.blocks == 0
/-- Whether a command needs the accumulator (R160). -/
def Conv.needsAcc (g : Conv) : Bool := decide (1 < g.blocks) || decide (1 < passCount g.inFmt g.wFmt 0) || g.half != 0

/-- Elements of a weight row (R158). -/
def Conv.wCols (g : Conv) : Nat := if g.group = 0 then g.nv else g.groupSize

/-- The C-blocks that hold valid input channels: first channel and count of each (R155). -/
def Conv.chunks (blk base count : Nat) : List (Nat × Nat) :=
  if count = 0 then [] else
  (List.range ((base + count - 1) / blk + 1 - base / blk)).map fun i =>
    let lo := max base (blk * (base / blk + i))
    (lo, min (base + count) (blk * (base / blk + i) + blk) - lo)

/-- The bytes of `n` elements of a format from an element index on: reference and length. -/
def chunkRef (r : ORef) (f idx n : Nat) : ORef × Nat :=
  let b := elemBits f
  (r.add (b * idx / 8), ceilDiv (b * idx % 8 + b * n) 8)

/-- The valid channels of an input row that its tensor has: the device never uses the contents of the channels from C on that fill the last
C-block (R154), which enter as bubbles. -/
def Conv.cinIn (g : Conv) : Nat := min g.cinV (g.inC - g.cin)

/-- Beats of a row in stationary block `b` of a tap (R155, R160): a port-beat for each 64 B of a chunk or part of it, over the two ports of the
feeder, one in a half (R93). -/
def Conv.rowBeats (g : Conv) (b : Nat) : Nat :=
  let w := blockRows g.inFmt g.wFmt
  let ports := (Conv.chunks g.blk (g.cin + w * b) (min w (g.cinV - w * b))).map fun e => ceilDiv (fmtBytes g.inFmt e.2) 64
  ceilDiv (ports.foldl (· + ·) 0) (if g.half = 0 then 2 else 1)

/-- Beats of one row in all stationary blocks of all live taps (R160). -/
def Conv.beatsPerRow (g : Conv) : Nat :=
  g.live.length * ((List.range (ceilDiv g.cinV (blockRows g.inFmt g.wFmt))).map g.rowBeats).foldl (· + ·) 0

/-- Where the channels of an input position lie, chunk by chunk. -/
def Conv.inputs (g : Conv) (x : Nat × Nat × Nat) : List (ORef × Nat) :=
  (Conv.chunks g.blk g.cin g.cinIn).map fun (c, n) => chunkRef g.x g.inFmt (g.elemIndex g.inC g.inH g.inW c x.1 x.2.1 x.2.2) n

/-- Where the outputs of a position lie, chunk by chunk: reference, first column, columns. -/
def Conv.outputs (g : Conv) (pos : Nat × Nat × Nat) : List (ORef × Nat × Nat) :=
  (Conv.chunks g.blk g.cout g.nv).map fun (c, n) =>
    (g.out.add (elemBits g.outFmt / 8 * g.elemIndex g.outC g.outH g.outW c pos.1 pos.2.1 pos.2.2), c - g.cout, n)

/-- The weight row of a tap and an input channel (R158). -/
def Conv.wRow (g : Conv) (k : Nat × Nat × Nat) (c : Nat) : ORef := g.w.add ((g.tapNo k * g.inC + c) * g.wStride)

/-- The ranges that a CONV_TILE reads, with the place of the output row that needs each first. -/
def Conv.readList (g : Conv) : List (Nat × ORef × Nat) :=
  (if g.biasEn && !g.rows.isEmpty && g.nv != 0 then [(0, g.bias, 4 * g.nv)] else []) ++
  (if g.isEmpty then [] else
    (g.live.flatMap fun k => (List.range g.cinV).map fun i => (0, g.wRow k (g.cin + i), fmtBytes g.wFmt g.wCols))
    ++ g.rows.zipIdx.flatMap fun (r, i) => g.live.flatMap fun k =>
      match g.source (g.coord r.2 k) with
      | none => []
      | some x => (g.inputs x).map fun e => (i, e.1, e.2))

/-- The ranges that a CONV_TILE writes. -/
def Conv.writeList (g : Conv) : List (ORef × Nat) :=
  g.rows.flatMap fun r => (g.outputs r.2).map fun e => (e.1, elemBits g.outFmt / 8 * e.2.2)

/-- What BAD_CONV_GEOMETRY covers (R161). -/
def Conv.badGeometry (g : Conv) : Bool :=
  let out (v lo hi : Nat) := decide (v < lo) || decide (hi < v)
  out g.kh 1 7 || out g.kw 1 7 || out g.dh 1 16 || out g.dw 1 16 || out g.dt 1 16 || decide (96 < g.ph) || decide (96 < g.pw)
    || (!g.temporal && (g.kt != 1 || g.st != 1 || g.dt != 1 || g.tot != 1 || g.inT != 1))
    || (g.group != 0 && (g.cinK != g.n || g.cinV != g.nv || g.cin != g.cout))
    || g.cin % g.blk != 0 || decide (g.outT ≤ g.ot0) || decide (g.outH ≤ g.oh0) || decide (g.outW ≤ g.ow0)
    || decide (g.outC < g.cout + g.nv)

/-- The checks of a CONV_TILE: those of R85 read with its own fields, and R161's; 0: all pass. -/
def convCheck (s : State) (p : Nat) (c : Cmd) : W16 :=
  let g := c.conv
  if decide (6 < g.inFmt) || decide (6 < g.wFmt) || decide (4 < g.outFmt) || g.rnd == 3 then Cause.badFormat
  else if !okPair g.inFmt g.wFmt then Cause.badFormatPair
  else if g.n == 0 || decide (64 < g.n) || decide (g.n < g.nv) || (g.half != 0 && decide (32 < g.n)) || g.toh == 0 || g.tow == 0
      || g.tot == 0 || g.cinK == 0 || decide (g.cinK < g.cinV)
      || (g.needsAcc && decide (1024 < g.toh * g.tow * g.tot)) then Cause.badExtent
  else if !(okRows g.wFmt g.w.off g.wStride (g.blocks * g.cinV) g.wCols && okRows g.inFmt g.x.off 0 1 0
      && okRows g.outFmt g.out.off 0 1 0 && (!g.biasEn || g.bias.off % 4 == 0)) then Cause.badAlign
  else if (s.relCluster p g.cluster).isNone then Cause.badCluster
  else if g.half == 3 then Cause.badHalf
  else if g.badGeometry then Cause.badConvGeometry
  else if (dFallback c.desc == 1 && !g.altEn) || (g.altEn && (decide (6 < g.altFmt) || !okPair g.inFmt g.altFmt)) then Cause.altMissing
  else if bitOf (c.fld 35 1) 7 || c.fld 47 1 != 0 || c.fld 53 1 != 0 || bitsOf (c.fld 124 4) 25 7 != 0
      || (!g.biasEn && !zeroAt c.desc 112 8) || (g.rnd != 2 && g.seed != 0) || (!g.altEn && bitsOf (c.fld 124 4) 0 24 != 0)
      || (g.altEn && !(s.object p g.altHandle).usable)
      || !s.inObj p g.x 0 || !s.inObj p g.w 0 || !s.inObj p g.out 0
      || g.readList.any (fun r => !s.inObj p r.2.1 r.2.2) || g.writeList.any (fun r => !s.inObj p r.1 r.2) then Cause.badOperand
  else s.destCheck p g.out.handle

/-- Column `j` uses input channel `cin + i` (R158). -/
def Conv.uses (g : Conv) (i j : Nat) : Bool :=
  match g.groupSize with
  | 0 => true
  | k => i / k == j / k

/-- The element of a weight row that column `j` uses (R158). -/
def Conv.wElem (g : Conv) (j : Nat) : Nat :=
  match g.groupSize with
  | 0 => j
  | k => j % k

/-- The FP32 results of one output row (R157 to R160). -/
def State.convRow (s : State) (p : Nat) (g : Conv) (bias : List Byte) (pos : Nat × Nat × Nat) : List Num :=
  let taps := if g.isEmpty then [] else g.live.filterMap fun k => (g.source (g.coord pos k)).map fun x =>
    ((g.inputs x).zip (Conv.chunks g.blk g.cin g.cinIn) |>.flatMap fun (e, ch) =>
        let bs := (s.peekO p e.1 e.2).bytes
        let skip := elemBits g.inFmt * g.elemIndex g.inC g.inH g.inW ch.1 x.1 x.2.1 x.2.2 % 8 / elemBits g.inFmt
        (List.range ch.2).map fun i => rowElem g.inFmt bs (skip + i),
     (List.range g.cinV).map fun i => (s.peekO p (g.wRow k (g.cin + i)) (fmtBytes g.wFmt g.wCols)).bytes)
  (List.range g.nv).map fun j =>
    let b := Fmt.fp32.decode (fieldAt bias (4 * j) 4)
    if g.isEmpty then (if g.biasEn then b else .zero) else
    let terms := taps.flatMap fun (xs, ws) =>
      let used := ((List.range g.cinIn).filter fun i => g.uses i j)
      realTerms g.inFmt g.wFmt 0 (used.map fun i => nth .zero xs i) (used.map fun i => rowElem g.wFmt (nth [] ws i) (g.wElem j))
        (fun _ => .zero) (fun _ => .zero)
    let y := accumulate (2 ^ 40 + g.inFmt + 16 * g.wFmt + 256 * terms.length) terms
    if g.biasEn then add32 y b else y

/-- The work of a CONV_TILE (R160). -/
def State.convWork (s : State) (p : Nat) (c : Cmd) (k : Nat) : Work :=
  let g := c.conv
  let bias := if g.biasEn then (s.peekO p g.bias (4 * g.nv)).bytes else []
  let outs := g.rows.map fun r =>
    let (bs, st) := outRow g.outFmt g.rnd g.seed g.sat r.1 (s.convRow p g bias r.2)
    ((g.outputs r.2).map fun (e : ORef × Nat × Nat) => Wr.store e.1 (slice bs (elemBits g.outFmt / 8 * e.2.1) (elemBits g.outFmt / 8 * e.2.2)), st)
  let st := outs.foldl (fun (a : OutStat) o => a.join o.2) {}
  { rows := if g.nv = 0 then [] else outs.map (·.1)
    reads := g.readList.map (·.2)
    poison := s.firstPoison p g.readList
    accum := g.needsAcc
    beats := if g.isEmpty then 0 else
      halfWeight g.half * (passCount g.inFmt g.wFmt 0 * g.beatsPerRow * g.rows.length + 130 + s.spares k)
    weight := if g.isEmpty then 0 else halfWeight g.half
    detail := st.bits + s.arrayBits c k
    fixed := s.arrayBits c k }

/-- CONV_TILE (R156 to R161); its stationary block is none that keep_b could name. -/
def State.convTile (s : State) (p id : Nat) (ecc : List EccHit) : State :=
  onStarted s p id 0 0x16 fun c =>
    s.onCluster p c [c.conv.out.handle] ecc (s.convWork p c) none fun s k =>
      (s.runWork p c.id (some k) (s.convWork p c k)).setStationary k c.conv.half none

/-- Runs CONV_TILE `id` of partition `p`. -/
def execConvTile (p : PartId) (id : Nat) (ecc : List EccHit) (s : State) : Res := .next (s.convTile p.val id ecc)

end Sys2Proof.Machine
end

