-- ==== Sys2Proof/Machine/Attn.lean ====
section
/-! DEFINITION. ATTN_TILE (R162 to R165): its operands, checks, running softmax and work. -/

namespace Sys2Proof.Machine

/-- An ATTN_TILE as its operands state it (Table 4.8). -/
structure Attn where
  mask : Nat
  cont : Bool
  final : Bool
  sat : Bool
  qFmt : Nat
  kvFmt : Nat
  outFmt : Nat
  rnd : Nat
  cluster : Nat
  m : Nat
  mv : Nat
  d : Nat
  npages : Nat
  qPos : Nat
  kvPos : Nat
  kvLen : Nat
  blkW : Nat
  scale : W32
  qStride : Nat
  q : ORef
  list : ORef
  pool : Nat
  kOff : Nat
  vOff : Nat
  kvRow : Nat
  acc : ORef
  out : ORef
  outStride : Nat
  seed : Nat
  deriving Repr

/-- The operands of an ATTN_TILE. -/
def Cmd.attn (c : Cmd) : Attn :=
  let b (i : Nat) := bitOf (c.fld 35 1) i
  { mask := bitsOf (c.fld 35 1) 0 2, cont := b 2, final := b 3, sat := b 4, qFmt := bitsOf (c.fld 36 1) 0 4
    kvFmt := bitsOf (c.fld 36 1) 4 4, outFmt := bitsOf (c.fld 37 1) 0 4, rnd := bitsOf (c.fld 37 1) 4 2, cluster := c.fld 38 2
    m := c.fld 40 2, mv := c.fld 42 2, d := c.fld 44 1, npages := c.fld 46 2, qPos := c.fld 48 4, kvPos := c.fld 52 4
    kvLen := c.fld 56 4, blkW := c.fld 60 4, scale := word32 c.desc 64, qStride := c.fld 68 4, q := c.ref 72, list := c.ref 80
    pool := bitsOf (c.fld 88 4) 0 20, kOff := c.fld 92 4, vOff := c.fld 96 4, kvRow := c.fld 100 4, acc := c.ref 104
    out := c.ref 112, outStride := c.fld 120 4, seed := c.fld 124 4 }

/-- Whether row `r` may use key `j` (R163). -/
def Attn.allows (g : Attn) (r j : Nat) : Bool :=
  let p := g.kvPos + j
  decide (j < g.kvLen) &&
  match g.mask with
  | 0 => true
  | 1 => decide (p ≤ g.qPos + r)
  | _ => decide (p / g.blkW ≤ (g.qPos + r) / g.blkW)

/-- The key blocks that hold a valid key, and those with an allowed key for some valid row (R163). -/
def Attn.keyBlocks (g : Attn) : Nat := ceilDiv g.kvLen 64
/-- The keys of block `b` that row `r` may use. -/
def Attn.allowed (g : Attn) (r b : Nat) : List Nat := (List.range 64).filter fun i => g.allows r (64 * b + i)
/-- The live blocks. -/
def Attn.live (g : Attn) : List Nat :=
  (List.range g.keyBlocks).filter fun b => (List.range g.mv).any fun r => !(g.allowed r b).isEmpty

/-- The page that entry `b` of the page list names. -/
def State.attnPage (s : State) (p : Nat) (g : Attn) (b : Nat) : Nat := leNat (s.peekO p (g.list.add (4 * b)) 4).bytes
/-- The K row (`off` = k_off) or V row (`off` = v_off) of key `j`. -/
def State.keyRow (s : State) (p : Nat) (g : Attn) (off j : Nat) : ORef :=
  ⟨g.pool, 65536 * s.attnPage p g (j / 64) + off + (j % 64) * g.kvRow⟩

/-- The FP32 state of a row: its accumulator and its (max, sum) pair (Table 4.8). -/
def Attn.accRow (g : Attn) (r : Nat) : ORef := g.acc.add (4 * g.d * r)
/-- The (max, sum) pair of a row. -/
def Attn.accPair (g : Attn) (r : Nat) : ORef := g.acc.add (4 * g.d * g.m + 8 * r)

/-- The ranges that an ATTN_TILE reads, with the row that needs each first. -/
def State.attnReads (s : State) (p : Nat) (g : Attn) : List (Nat × ORef × Nat) :=
  if g.mv = 0 then [] else
  [(0, g.list, 4 * g.keyBlocks)]
  ++ (g.live.flatMap fun b => ((List.range 64).filter fun i => 64 * b + i < g.kvLen).flatMap fun i =>
      [(0, s.keyRow p g g.kOff (64 * b + i), fmtBytes g.kvFmt g.d), (0, s.keyRow p g g.vOff (64 * b + i), fmtBytes g.kvFmt g.d)])
  ++ (List.range g.mv).flatMap fun r =>
    (r, g.q.add (r * g.qStride), fmtBytes g.qFmt g.d) :: (if g.cont then [(r, g.accRow r, 4 * g.d), (r, g.accPair r, 8)] else [])

/-- The checks of an ATTN_TILE in the order of R85, with R162 and R165; 0: all pass. -/
def attnCheck (s : State) (p : Nat) (c : Cmd) : W16 :=
  let g := c.attn
  let okIn (f : Nat) := f == 1 || f == 3 || f == 4
  if !okIn g.qFmt || !okIn g.kvFmt || decide (4 < g.outFmt) || g.rnd == 3 then Cause.badFormat
  else if g.m == 0 || decide (g.m < g.mv) || g.npages == 0 || decide (4096 < g.npages) then Cause.badExtent
  else if !(okRows g.qFmt g.q.off g.qStride g.mv g.d && g.list.off % 4 == 0 && g.acc.off % 4 == 0
      && okRows g.kvFmt g.kOff g.kvRow g.kvLen g.d && okRows g.kvFmt g.vOff g.kvRow g.kvLen g.d
      && (!g.final || okRows g.outFmt g.out.off g.outStride g.mv g.d)) then Cause.badAlign
  else if (s.relCluster p g.cluster).isNone then Cause.badCluster
  else if dFallback c.desc == 1 then Cause.altMissing
  else if !(g.d == 32 || g.d == 64 || g.d == 128) || decide ((if g.d = 128 then 512 else 1024) < g.m) || g.mask == 3
      || (g.mask == 2 && g.blkW == 0) || (g.mask != 2 && g.blkW != 0) || g.kvPos % 64 != 0 || decide (64 * g.npages < g.kvLen)
      || (!g.final && (g.outFmt != 0 || !zeroAt c.desc 112 8 || g.outStride != 0)) then Cause.badAttnShape
  else if bitsOf (c.fld 35 1) 5 3 != 0 || bitsOf (c.fld 37 1) 6 2 != 0 || c.fld 45 1 != 0 || bitsOf (c.fld 88 4) 20 12 != 0
      || (g.rnd != 2 && g.seed != 0) || (!g.final && g.rnd != 0) || (g.final && !g.cont && !zeroAt c.desc 104 8)
      || !s.inObj p ⟨g.pool, 0⟩ 0 || !s.inObj p g.q (if g.mv = 0 then 0 else spanBytes g.mv g.qStride (fmtBytes g.qFmt g.d))
      || !s.inObj p g.list (4 * g.keyBlocks)
      || ((g.cont || !g.final) && !s.inObj p g.acc (if g.mv = 0 then 0 else 4 * g.d * g.m + 8 * g.mv))
      || (g.final && !s.inObj p g.out (spanBytes g.mv g.outStride (fmtBytes g.outFmt g.d))) then Cause.badOperand
  else if (List.range g.keyBlocks).any (fun b => decide ((s.object p g.pool).size.toNat < 65536 * (s.attnPage p g b + 1))) then
    Cause.badPage
  else if (s.attnReads p g).any (fun r => !s.inObj p r.2.1 r.2.2) then Cause.badOperand
  else if !g.final && s.destCheck p g.acc.handle != 0 then s.destCheck p g.acc.handle
  else if g.final then s.destCheck p g.out.handle else 0

/-- The quotient of two numbers rounded to FP32, nearest even (R164, log entry 26). -/
def Num.div32 (x y : Num) : Num :=
  match x, y with
  | .fin a m e, .fin b n f =>
    if n = 0 then (if m = 0 then .nan else .inf (a != b)) else
    let k := m * 2 ^ 600 / n
    rn (.fin (a != b) (2 * k + (if k * n = m * 2 ^ 600 then 0 else 1)) (e - f - 601))
  | .nan, _ => .nan
  | _, .nan => .nan
  | .inf a, .fin b _ _ => .inf (a != b)
  | .fin a _ _, .inf b => .fin (a != b) 0 0
  | .inf _, .inf _ => .nan

/-- The running state of a row: max, sum, accumulator (R164). -/
structure AttnRow where
  mu : Num
  l : Num
  o : List Num

/-- One live block for one row (R164): `ks` and `vs` are the K and V rows of its 64 keys. A row with no allowed key in the
block keeps its state. -/
def Attn.block (g : Attn) (q : List Num) (ks vs : List (List Num)) (r b : Nat) (x : AttnRow) : AttnRow :=
  let js := g.allowed r b
  if js.isEmpty then x else
  let ord := 2 ^ 41 + g.qFmt + 16 * g.kvFmt + 256 * g.d
  let sj := js.map fun j => rn ((f32 g.scale).mul (accumulate ord ((q.zip (nth [] ks j)).map fun (a, k) => a.mul k)))
  let mu := sj.foldl Num.max x.mu
  let pj := sj.map fun v => rn (builtin 0 (rn (v.add mu.negate)))
  let c := rn (builtin 0 (rn (x.mu.add mu.negate)))
  let pb := pj.map Fmt.bf16.round
  { mu := mu
    l := rn (pj.foldl Num.add (x.l.mul c))
    o := x.o.zipIdx.map fun (o, i) => accumulate (ord + 2 ^ 20) (o.mul c :: (js.zip pb).map fun (j, w) => w.mul (nth .zero (nth [] vs j) i)) }

/-- The work of an ATTN_TILE (R163, R164). -/
def State.attnWork (s : State) (p : Nat) (c : Cmd) (k : Nat) : Work :=
  let g := c.attn
  let nums (f : Nat) (r : ORef) : List Num :=
    let bs := (s.peekO p r (fmtBytes f g.d)).bytes
    (List.range g.d).map fun i => rowElem f bs i
  let blocks := if g.mv = 0 then [] else g.live.map fun b =>
    let row (off i : Nat) : List Num := if 64 * b + i < g.kvLen then nums g.kvFmt (s.keyRow p g off (64 * b + i)) else []
    (b, (List.range 64).map (row g.kOff), (List.range 64).map (row g.vOff))
  let one (r : Nat) : List Wr × OutStat :=
    let q := nums g.qFmt (g.q.add (r * g.qStride))
    let start : AttnRow :=
      if g.cont then
        let a := (s.peekO p (g.accRow r) (4 * g.d)).bytes
        let ml := (s.peekO p (g.accPair r) 8).bytes
        { mu := Fmt.fp32.decode (fieldAt ml 0 4), l := Fmt.fp32.decode (fieldAt ml 4 4)
          o := (List.range g.d).map fun i => Fmt.fp32.decode (fieldAt a (4 * i) 4) }
      else { mu := .inf true, l := .zero, o := List.replicate g.d .zero }
    let x := blocks.foldl (fun x e => g.block q e.2.1 e.2.2 r e.1 x) start
    if g.final then
      let (bs, st) := outRow g.outFmt g.rnd g.seed g.sat r (if x.l.isZero then List.replicate g.d .zero else x.o.map (·.div32 x.l))
      ([Wr.store (g.out.add (r * g.outStride)) bs], st)
    else
      ([Wr.store (g.accRow r) (x.o.flatMap fun v => leBytes 4 (w32 v).toNat),
        Wr.store (g.accPair r) (leBytes 4 (w32 x.mu).toNat ++ leBytes 4 (w32 x.l).toNat)], {})
  let outs := (List.range g.mv).map one
  let st := outs.foldl (fun (a : OutStat) o => a.join o.2) {}
  let rd := s.attnReads p g
  let cells := blocks.flatMap fun e => (List.range g.mv).map fun r => (g.allowed r e.1).length
  { rows := outs.map (·.1), reads := rd.map (·.2), poison := s.firstPoison p rd, accum := true
    weight := if blocks.isEmpty then 0 else 2
    beats := if blocks.isEmpty then 0 else 2 * (blocks.length * g.mv * (2 * ceilDiv g.d 64) + 130 + s.spares k)
    wick := 2 * (cells.map fun a => ceilDiv a 16).foldl (· + ·) 0
    lookups := cells.foldl (fun n a => n + a + 1) 0
    detail := st.bits + s.arrayBits c k
    fixed := s.arrayBits c k }

/-- ATTN_TILE (R162 to R165). -/
def State.attnTile (s : State) (p id : Nat) (ecc : List EccHit) : State :=
  onStarted s p id 0 0x17 fun c =>
    s.onCluster p c [if c.attn.final then c.attn.out.handle else c.attn.acc.handle] ecc (s.attnWork p c) none fun s k =>
      (s.runWork p c.id (some k) (s.attnWork p c k)).setStationary k 0 none

/-- Runs ATTN_TILE `id` of partition `p`. -/
def execAttnTile (p : PartId) (id : Nat) (ecc : List EccHit) (s : State) : Res := .next (s.attnTile p.val id ecc)

end Sys2Proof.Machine
end

