-- ==== Sys2Proof/Machine/Entries.lean ====
section
/-!
DEFINITION. The tables of a partition that the device keeps in its memory (R171, R207, R235, R238): where their entries lie,
and the bytes of a sequence entry (Table 5.2), a stream entry (Table 6.1) and an object entry (Table 7.3).
-/

namespace Sys2Proof.Machine

/-- The bytes that the device reserves for the sequence and stream tables (R235). -/
def PartCtl.tableBytes (c : PartCtl) : Nat := roundUp (128 * c.seqCap.toNat + 64 * c.streamCap.toNat) 65536
/-- The lowest tile with a Hamper share. -/
def PartCtl.tableTile (c : PartCtl) : Option Nat := (List.range 20).find? fun t => !(c.hamperShare t).isEmpty
/-- The place of byte `off` of the reserved region, at the top of the share of that tile (R235). -/
def State.tablePlace (s : State) (p : Nat) : Option Place :=
  let c := (s.part p).ctl
  c.tableTile.map fun t =>
    { home := .c, place := BitVec.ofNat 16 t
      addr := BitVec.ofNat 64 (hamperGranule * (c.hamperShare t).length - c.tableBytes) }

/-- The fault of a poisoned line in `n` bytes from `off` of the reserved region. -/
def State.tablePoison (s : State) (p off n : Nat) : Option W64 :=
  (s.tablePlace p).bind fun pl => (s.peek p pl off n).fault
/-- The fault of the line of sequence entry `i`. -/
def State.seqEntryPoison (s : State) (p i : Nat) : Option W64 := s.tablePoison p (128 * i) 128
/-- The fault of the line of stream entry `i`. -/
def State.streamEntryPoison (s : State) (p i : Nat) : Option W64 :=
  s.tablePoison p (128 * (s.part p).ctl.seqCap.toNat + 64 * i) 64

/-- A range of the reserved region that a command reads. -/
def State.tableReads (s : State) (p : Nat) (cause : W16) (off n : Nat) : List Finder :=
  ((s.tablePlace p).map fun pl => Finder.place p 0 cause pl off n).toList
/-- The poison of `n` bytes of the reserved region cleared: an entry written as a whole (R202). -/
def State.clearTable (s : State) (p off n : Nat) : State :=
  match s.tablePlace p with
  | none => s
  | some pl => (lineSegs off n).foldl (fun s e =>
      let x := s.phys p pl e.1
      s.modMem fun m => m.clearPoison x.space (x.addr / 64)) s

/-- The code of a sequence state (Table 5.2). -/
def SeqState.code : SeqState → Nat
  | .empty => 0
  | .idle => 1
  | .inStep => 2
  | .finished => 3
  | .faulted => 4

/-- The 128 bytes of a sequence entry (Table 5.2). -/
def SeqEntry.bytes (e : SeqEntry) : List Byte :=
  leBytes 4 (e.state.code + 8 * e.kind.toNat + 32 * e.priority.toNat + 256 * b2n e.guide + 512 * b2n e.hold
    + 1024 * b2n e.autoEnd + 2048 * b2n e.endCheck + 4096 * b2n e.gateEn + 8192 * b2n e.recompute + 16384 * b2n e.tailMissing
    + 32768 * b2n e.streamEn)
  ++ leBytes 4 e.rows.toNat ++ leBytes 4 e.pos.toNat ++ leBytes 4 e.pend.toNat ++ leBytes 4 e.step.toNat
  ++ leBytes 4 e.target.toNat ++ leBytes 8 e.seed.toNat ++ leBytes 8 e.inRef.toNat ++ leBytes 8 e.outRef.toNat
  ++ leBytes 8 e.sampleRef.toNat ++ leBytes 4 e.endValue.toNat ++ leBytes 4 e.condVec.toNat ++ leBytes 4 e.uncondVec.toNat
  ++ leBytes 4 e.guideW.toNat ++ leBytes 8 e.schedRef.toNat ++ leBytes 2 e.gateTok.toNat ++ leBytes 2 e.endTok.toNat
  ++ leBytes 4 e.gateBase.toNat ++ leBytes 4 e.stream.toNat ++ leBytes 4 e.rcStart.toNat ++ leBytes 4 e.rcEnd.toNat
  ++ leBytes 4 e.parent.toNat ++ leBytes 4 e.lastStepWm.toNat ++ leBytes 4 0 ++ leBytes 8 e.user0.toNat ++ leBytes 8 e.user1.toNat

/-- Eight bytes as a word. -/
def word64 (bs : List Byte) (i : Nat) : W64 := BitVec.ofNat 64 (fieldAt bs i 8)

/-- The sequence entry that 128 bytes spell; `state` and `stepped` are the model's (R172). -/
def SeqEntry.ofBytes (bs : List Byte) (state : SeqState) (stepped : Bool) : SeqEntry :=
  let h := fieldAt bs 0 4
  { state := state, kind := BitVec.ofNat 2 (bitsOf h 3 2), priority := BitVec.ofNat 3 (bitsOf h 5 3), guide := bitOf h 8
    hold := bitOf h 9, autoEnd := bitOf h 10, endCheck := bitOf h 11, gateEn := bitOf h 12, recompute := bitOf h 13
    tailMissing := bitOf h 14, streamEn := bitOf h 15, rows := word32 bs 4, pos := word32 bs 8, pend := word32 bs 12
    step := word32 bs 16, target := word32 bs 20, seed := word64 bs 24, inRef := word64 bs 32, outRef := word64 bs 40
    sampleRef := word64 bs 48, endValue := word32 bs 56, condVec := word32 bs 60, uncondVec := word32 bs 64
    guideW := word32 bs 68, schedRef := word64 bs 72, gateTok := BitVec.ofNat 12 (fieldAt bs 80 2)
    endTok := BitVec.ofNat 16 (fieldAt bs 82 2), gateBase := word32 bs 84, stream := word32 bs 88, rcStart := word32 bs 92
    rcEnd := word32 bs 96, parent := word32 bs 100, lastStepWm := word32 bs 104, stepped := stepped
    user0 := word64 bs 112, user1 := word64 bs 120 }

/-- The sequence state of a code. -/
def SeqState.ofCode (n : Nat) : SeqState :=
  match n with
  | 1 => .idle
  | 2 => .inStep
  | 3 => .finished
  | 4 => .faulted
  | _ => .empty

/-- The code of a stream state (Table 6.1). -/
def StreamState.code : StreamState → Nat
  | .empty => 0
  | .live => 1
  | .broken => 2
  | .faulted => 3
/-- The stream state of a code. -/
def StreamState.ofCode (n : Nat) : StreamState :=
  match n with
  | 1 => .live
  | 2 => .broken
  | 3 => .faulted
  | _ => .empty

/-- The bytes of a stream's state: h, and c with dual (R208). -/
def Stream.bytesOfState (x : Stream) : Nat := 4 * x.stateWords.toNat * (1 + b2n x.dual)

/-- Whether a move of object `h` is deferred (R214). -/
def State.moveDeferred (s : State) (p h : Nat) : Bool :=
  (s.part p).cmd.cmds.any fun c => c.deferred && c.stage == 0 && c.phase != .ended && bitsOf (c.fld 40 4) 0 20 == h

/-- The 64 bytes of a stream entry (Table 6.1, R209); of an EMPTY one the chunks counted against it (R210). -/
def State.streamBytes (s : State) (p : Nat) (x : Stream) : List Byte :=
  if x.state = .empty then List.replicate 24 0 ++ leBytes 4 x.pending.toNat ++ List.replicate 36 0 else
  let o := s.object p x.handle
  leBytes 4 (x.state.code + 8 * o.src.home.code + 32 * b2n (o.state == .moving)
    + 64 * b2n ((s.part p).str.swaps.any (·.handle == x.handle)) + 128 * b2n x.reset + 256 * b2n x.dual
    + 512 * b2n (s.moveDeferred p x.handle))
  ++ leBytes 4 x.stateWords.toNat ++ leBytes 8 x.stateRef.toNat ++ leBytes 8 x.initRef.toNat ++ leBytes 4 x.pending.toNat
  ++ leBytes 4 x.lastWm.toNat ++ leBytes 4 x.seq.toNat ++ leBytes 4 x.resTok.toNat ++ leBytes 8 x.steps.toNat
  ++ leBytes 4 x.brokenCause.toNat ++ leBytes 4 x.brokenWm.toNat ++ leBytes 8 0

/-- The stream entry that 64 bytes spell (Table 6.1). -/
def Stream.ofBytes (bs : List Byte) (state : StreamState) : Stream :=
  let h := fieldAt bs 0 4
  { state := state, reset := bitOf h 7, dual := bitOf h 8, stateWords := BitVec.ofNat 16 (fieldAt bs 4 2)
    stateRef := word64 bs 8, initRef := word64 bs 16, pending := word32 bs 24, lastWm := word32 bs 28, seq := word32 bs 32
    resTok := BitVec.ofNat 12 (fieldAt bs 36 2), steps := word64 bs 40, brokenCause := BitVec.ofNat 16 (fieldAt bs 48 2)
    brokenWm := word32 bs 52 }

/-- The code of an object state (Table 7.3). -/
def ObjState.code : ObjState → Nat
  | .free => 0
  | .present => 1
  | .moving => 2

/-- Sequence entry `i` of partition `p`. -/
def State.seqEntry (s : State) (p i : Nat) : SeqEntry := tget {} (s.part p).seq.table i
/-- The state with sequence entry `i` of partition `p` changed; a mirrored partition notes it (R406). -/
def State.modSeqEntry (s : State) (p i : Nat) (f : SeqEntry → SeqEntry) : State :=
  (s.modSeq p fun y => { y with table := tmod {} y.table i f }).markDirty p (.seqE i)

/-- The state with stream entry `i` of partition `p` changed; a mirrored partition notes it (R406). -/
def State.modStream (s : State) (p i : Nat) (f : Stream → Stream) : State :=
  (s.modStr p fun y => { y with table := tmod {} y.table i f }).markDirty p (.strE i)

/-- The 64 bytes of an object entry (Table 7.3). -/
def Obj.bytes (o : Obj) : List Byte :=
  if o.state = .free then List.replicate 64 0 else
  let m := o.state == .moving
  leBytes 4 (o.state.code + 8 * o.src.home.code + 32 * o.origin.home.code + 128 * b2n o.originValid + 256 * b2n o.mirror + 512 * b2n o.poisoned)
  ++ leBytes 2 o.src.place.toNat ++ leBytes 2 o.origin.place.toNat ++ leBytes 8 o.size.toNat ++ leBytes 8 o.src.addr.toNat
  ++ leBytes 8 o.origin.addr.toNat ++ leBytes 4 (if m then o.dst.home.code + 65536 * o.dst.place.toNat else 0)
  ++ leBytes 4 (if m then o.moveWm.toNat else 0) ++ leBytes 8 (if m then o.dst.addr.toNat else 0) ++ List.replicate 16 0

/-- The object entry that 64 bytes spell (Table 7.3); a twin has no move in progress, so that an entry that was MOVING is PRESENT at its
source there. -/
def Obj.ofBytes (bs : List Byte) : Obj :=
  let h := fieldAt bs 0 4
  if bitsOf h 0 3 = 0 then {} else
  { state := .present, src := ⟨Home.ofCode (bitsOf h 3 2), BitVec.ofNat 16 (fieldAt bs 4 2), word64 bs 16⟩, size := word64 bs 8
    mirror := bitOf h 8, poisoned := bitOf h 9, originValid := bitOf h 7
    origin := ⟨Home.ofCode (bitsOf h 5 2), BitVec.ofNat 16 (fieldAt bs 6 2), word64 bs 24⟩ }

/-- The registers 0x040 to 0x05F of the SEQ page (Table 5.16), as the SEQ page entry of a delta carries them. -/
def Seq.regBytes (q : Seq) (cap : Nat) : List Byte :=
  leBytes 4 q.cfg.toNat ++ leBytes 4 cap ++ leBytes 4 q.blocks.toNat ++ leBytes 4 q.pinLimit.toNat ++ leBytes 4 q.pool.toNat
    ++ leBytes 4 q.metaObj.toNat ++ leBytes 4 q.pl.toNat ++ leBytes 4 q.content.toNat

end Sys2Proof.Machine
end

