-- ==== Sys2Proof/Machine/Streams.lean ====
section
/-!
DEFINITION. Recurrent streams (chapter 6): counting of chunks, automatic swap-ins, STREAM_CHUNK, SCAN_CHUNK.
-/

namespace Sys2Proof.Machine

/-- Whether the object of a stream is homed outside C. -/
def State.stateAway (s : State) (p : Nat) (x : Stream) : Bool :=
  let o := s.object p x.handle
  o.usable && o.src.home != .c

/-- Whether an automatic SWAP_IN of an object is pending (R215). -/
def State.swapPending (s : State) (p h : Nat) : Bool := (s.part p).str.swaps.any (·.handle == h)

/-- An automatic SWAP_IN of object `h` called for by chunk `c` (R215): issued when the object has a C origin; else
STREAM_SWAPIN_FAIL is raised with detail byte 20 = 1, once for the chunk. A context whose head now waits may be runnable no longer (R61). -/
def State.callSwap (s : State) (p h : Nat) (c : Cmd) : State :=
  let o := s.object p h
  let tok := (s.stream p (c.fld 40 2)).resTok.toNat
  if o.originValid && o.origin.home == .c then
    (s.modStr p fun y => { y with
      swaps := y.swaps ++ [{ handle := h, waymark := c.wm, ctx := c.ctx, ring := c.ring, tok := tok, tokens := (s.part p).cmd.tokens }]
      autoSwapins := y.autoSwapins + 1 }).rearm p
  else if (s.cmd? p c.id).any (·.noOrigin) then s
  else (s.modCmd p c.id fun d => { d with noOrigin := true }).raisePart p Cause.streamSwapinFail ⟨0x06, p % 2⟩ c.wm
    ([1, 0, 0, 0] ++ leBytes 4 h)

/-- A SCAN_CHUNK counted against the streams of its range (R210), with the automatic SWAP_INs that this calls for (R215). -/
def State.countChunk (s : State) (p id : Nat) : State :=
  match s.cmd? p id with
  | none => s
  | some c =>
    let ids := s.scanStreams p c
    let s := (ids.foldl (fun s i => s.modStream p i fun x => { x with pending := x.pending + 1 }) s).modCmd p id
      fun c => { c with counted := true }
    let away := (ids.filterMap fun i =>
      let x := s.stream p i
      if x.open' && s.stateAway p x && !s.swapPending p x.handle then some x.handle else none).eraseDups
    away.foldl (fun s h => s.callSwap p h c) s

/-- What the terminal record of a SCAN_CHUNK does to the streams of its range: it counts no longer where it was counted, and breaks the LIVE
ones unless it ended cleanly (R210, R212, R213). -/
def State.scanTerminal (s : State) (p : Nat) (c : Cmd) : State :=
  let good := c.status == .done && c.cause == 0
  let tv := c.fld 46 2
  let empty := tv == 0 || c.fld 51 1 == 0
  let ids := s.scanStreams p c
  let upd (x : Stream) : Stream :=
    let x := { x with pending := if c.counted then x.pending - 1 else x.pending }
    if x.state != .live then x
    else if good then { x with steps := wrapAdd x.steps tv, lastWm := c.wm, reset := x.reset && empty }
    else { x with state := .broken, brokenCause := c.cause, brokenWm := c.wm }
  let adv := if good then tv * (ids.countP fun i => (s.stream p i).state == .live) else 0
  (ids.foldl (fun s i => s.modStream p i upd) s).modStr p fun y => { y with steps := wrapAdd y.steps adv }

/-- Whether every SCAN_CHUNK counted before `c` against one of its streams is terminal (R211). -/
def State.scanTurn (s : State) (p : Nat) (c : Cmd) : Bool :=
  let lo := c.fld 40 2
  let hi := lo + c.fld 42 2
  !(s.part p).cmd.cmds.any fun d =>
    d.counted && decide (d.id < c.id) && decide (d.fld 40 2 < hi) && decide (lo < d.fld 40 2 + d.fld 42 2)

/-- The streams among `ids` whose entry lines are poisoned go FAULTED when they are read (R213); the first fault. -/
def State.readStreams (s : State) (p : Nat) (ids : List Nat) : State × Option W64 :=
  ids.foldl (fun (r : State × Option W64) i =>
    if !(r.1.stream p i).open' then r else
    match r.1.streamEntryPoison p i with
    | none => r
    | some q => (r.1.modStream p i fun x => { x with state := .faulted }, r.2.orElse fun _ => some q)) (s, none)

/-- A SCAN_CHUNK as its operands state it (Table 6.4). -/
structure Scan where
  mode : Nat
  maskMode : Nat
  outEn : Bool
  sat : Bool
  rnd : Nat
  inFmt : Nat
  outFmt : Nat
  uFmt : Nat
  group : Nat
  dual : Bool
  cluster : Nat
  first : Nat
  count : Nat
  t : Nat
  tv : Nat
  col0 : Nat
  n : Nat
  nv : Nat
  ninstr : Nat
  a : ORef
  b : ORef
  out : ORef
  mask : ORef
  inStride : Nat
  outStride : Nat
  program : List Nat
  deriving Repr

/-- The operands of a SCAN_CHUNK. -/
def Cmd.scan (c : Cmd) : Scan :=
  let x := c.fld 35 1
  { mode := bitsOf x 0 2, maskMode := bitsOf x 2 2, outEn := bitOf x 4, sat := bitOf x 5, rnd := bitsOf x 6 2
    inFmt := bitsOf (c.fld 36 1) 0 4, outFmt := bitsOf (c.fld 36 1) 4 4, uFmt := bitsOf (c.fld 37 1) 0 4
    group := bitsOf (c.fld 37 1) 4 2, dual := bitOf (c.fld 37 1) 6, cluster := c.fld 38 2, first := c.fld 40 2
    count := c.fld 42 2, t := c.fld 44 2, tv := c.fld 46 2, col0 := c.fld 48 2, n := c.fld 50 1, nv := c.fld 51 1
    ninstr := bitsOf (c.fld 52 1) 0 4, a := c.ref 56, b := c.ref 64, out := c.ref 72, mask := c.ref 80
    inStride := c.fld 88 4, outStride := c.fld 92 4
    program := (List.range (min 8 (bitsOf (c.fld 52 1) 0 4))).map fun i => c.fld (96 + 4 * i) 4 }

/-- Gates per state element (GATED). -/
def Scan.gates (g : Scan) : Nat := 2 ^ g.group
/-- Whether a chunk is in GATED mode. -/
def Scan.gated (g : Scan) : Bool := g.mode == 1
/-- Elements of an input row that are used. -/
def Scan.cols (g : Scan) : Nat := if g.gated then g.gates * g.n else g.nv
/-- A chunk that reads and writes nothing (R222). -/
def Scan.isEmpty (g : Scan) : Bool := g.tv == 0 || g.nv == 0
/-- Row `t` of stream `i` (counted from the first) of a, b or X (R221). -/
def Scan.inRow (g : Scan) (r : ORef) (i t : Nat) : ORef := r.add ((i * g.t + t) * g.inStride)
/-- Output row `t` of stream `i` (R221). -/
def Scan.outRowAt (g : Scan) (i t : Nat) : ORef := g.out.add ((i * g.t + t) * g.outStride)
/-- Rows of an operand from its origin to the last used one. -/
def Scan.rowSpan (g : Scan) : Nat := if g.isEmpty then 0 else (g.count - 1) * g.t + g.tv
/-- The state of column `col0` of a stream; `second`: of its second vector (R208, R221). -/
def Scan.stateAt (g : Scan) (x : Stream) (second : Bool) : ORef :=
  (ORef.of x.stateRef.toNat).add (4 * (g.col0 + (if second then x.stateWords.toNat else 0)))
/-- The initial state of column `col0`; none: zero (R222). -/
def Scan.initAt (g : Scan) (x : Stream) (second : Bool) : Option ORef :=
  if x.initRef = 0 then none else
  some ((ORef.of x.initRef.toNat).add (4 * (g.col0 + (if second then x.stateWords.toNat else 0))))

/-- Whether a word of a GATED program has an op and sources that it may have (R226). -/
def Scan.okWord (g : Scan) (w : Nat) : Bool :=
  (wickUses (wOp w)).isSome && wOp w != 0x0E && wOp w != 0x0F && wOp w != 0x10
    && (wickSources w).all fun i => decide (i < g.gates) || i == 4 || (i == 5 && g.dual) || decide (11 ≤ i)

/-- The objects that a SCAN_CHUNK writes. -/
def State.scanDests (s : State) (p : Nat) (g : Scan) : List Nat :=
  (if g.outEn then [g.out.handle] else []) ++ (List.range g.count).map fun i => (s.stream p (g.first + i)).handle

/-- The checks of a SCAN_CHUNK in the order of R228; 0: all pass. An instruction's reserved bits and unused fields, and the words beyond its
last, are reserved or unused fields of R85; its destinations are the output and the states of its streams (R178). -/
def scanCheck (s : State) (p : Nat) (c : Cmd) (bank : Bool) : W16 :=
  let g := c.scan
  let xs := (List.range g.count).map fun i => s.stream p (g.first + i)
  let inB := if g.inFmt = 0 then 4 else 2
  let live (n : Nat) := if g.isEmpty then 0 else n
  if decide ((s.part p).ctl.streamCap.toNat < g.first + g.count) then Cause.badStreamId
  else if xs.any (fun x => x.state == .empty || x.state == .faulted) then Cause.streamState
  else if xs.any (fun x => x.state == .broken) then Cause.streamBroken
  else if decide (1 < g.mode) || g.maskMode == 3 || decide (1 < g.rnd) || g.group == 3
      || (!g.gated && (g.uFmt != 0 || g.group != 0 || bitsOf (c.fld 52 1) 0 4 != 0 || !zeroAt c.desc 96 32))
      || (g.gated && (g.ninstr == 0 || decide (8 < g.ninstr) || g.program.any (fun w => !g.okWord w)
        || decide (64 < g.gates * g.n)
        || !(g.uFmt == 1 || g.uFmt == 3 || g.uFmt == 4)))
      || decide (1 < g.inFmt) || decide (4 < g.outFmt) || (g.maskMode == 0) != g.mask.isZero
      || (!g.outEn && (!g.out.isZero || g.outFmt != 0)) then Cause.scanMode
  else if xs.any (fun x => decide (x.stateWords.toNat < g.col0 + g.n) || (g.gated && x.stateWords.toNat != g.n) || x.dual != g.dual) then
    Cause.streamShape
  else if g.program.any (fun w => (wOp w == 0x09 || wOp w == 0x0A) && !(s.part p).ltn.has bank (wFn w)) then Cause.lanternEmpty
  else if g.count == 0 || decide (1024 < g.count) || g.t == 0 || decide (256 < g.t) || decide (g.t < g.tv) || g.n == 0
      || decide (64 < g.n) || decide (g.n < g.nv) || (g.gated && g.nv != g.n) then Cause.badExtent
  else if !(okRows g.inFmt g.b.off g.inStride g.rowSpan g.cols && okRows (if g.gated then g.uFmt else g.inFmt) g.a.off
        (if g.gated then fmtBytes g.uFmt g.cols else g.inStride) (if g.gated then live g.n else g.rowSpan) g.cols
      && (!g.outEn || okRows g.outFmt g.out.off g.outStride g.rowSpan g.nv)) then Cause.badAlign
  else if (s.relCluster p g.cluster).isNone then Cause.badCluster
  else if bitOf (c.fld 37 1) 7 || bitsOf (c.fld 52 1) 4 4 != 0 || !zeroAt c.desc 53 3 || (g.gated && g.col0 != 0)
      || (!g.outEn && g.outStride != 0)
      || (g.gated && (g.program.any (fun w => !okWickWord w) || !zeroAt c.desc (96 + 4 * g.ninstr) (32 - 4 * g.ninstr)))
      || !s.inObj p g.a (if g.gated then live (fmtBytes g.uFmt (g.n * g.cols)) else live (spanBytes g.rowSpan g.inStride (inB * g.cols)))
      || !s.inObj p g.b (live (spanBytes g.rowSpan g.inStride (inB * g.cols)))
      || (g.outEn && !s.inObj p g.out (live (spanBytes g.rowSpan g.outStride (fmtBytes g.outFmt g.nv))))
      || (g.maskMode != 0 && !s.inObj p g.mask (live (if g.maskMode = 2 then 32 * g.count else 32)))
      || xs.any (fun x => !s.inObj p (ORef.of x.stateRef.toNat) x.bytesOfState
        || (x.initRef != 0 && !s.inObj p (ORef.of x.initRef.toNat) x.bytesOfState)) then Cause.badOperand
  else if (s.scanDests p g).any (fun h => s.destCheck p h != 0) then
    ((s.scanDests p g).findSome? fun h => if s.destCheck p h = 0 then none else some (s.destCheck p h)).getD 0
  else if xs.any (fun x => s.stateAway p x && !s.swapPending p x.handle) then Cause.streamSwapinFail
  else 0

/-- The mask of stream `i` of a chunk (R221). -/
def State.scanMask (s : State) (p : Nat) (g : Scan) (i : Nat) : List Byte :=
  match g.maskMode with
  | 0 => []
  | 1 => (s.peekO p g.mask 32).bytes
  | _ => (s.peekO p (g.mask.add (32 * i)) 32).bytes

/-- Whether position `t` of a stream resets (R222). -/
def scanResets (mask : List Byte) (x : Stream) (t : Nat) : Bool :=
  bitOf (fieldAt mask (t / 8) 1) (t % 8) || (t == 0 && x.reset)

/-- FP32 values of `n` columns from a reference. -/
def State.words32 (s : State) (p : Nat) (r : ORef) (n : Nat) : List Num :=
  let bs := (s.peekO p r (4 * n)).bytes
  (List.range n).map fun i => Fmt.fp32.decode (fieldAt bs (4 * i) 4)

/-- The declared initial state of `n` columns (R222). -/
def State.scanInit (s : State) (p : Nat) (g : Scan) (x : Stream) (second : Bool) (n : Nat) : List Num :=
  match g.initAt x second with
  | none => List.replicate n .zero
  | some r => s.words32 p r n

/-- One fused multiply-add of Wick: one rounding, to nearest even (R223). -/
def fma (x y z : Num) : Num := rn ((x.mul y).add z)

/-- Stage 1 of R223 on one block of positions: the pairs (A, B) after each. -/
def scanBlock (a b : Nat → Num) (reset : Nat → Bool) (init : Num) (ts : List Nat) : List (Num × Num) :=
  (ts.foldl (fun (r : (Num × Num) × List (Num × Num)) t =>
    let (ca, cb) := r.1
    let y := if reset t then (Num.zero, fma (a t) init (b t)) else (rn ((a t).mul ca), fma (a t) cb (b t))
    (y, r.2 ++ [y])) ((Num.ofInt 1, Num.zero), [])).2

/-- One column of a LINEAR chunk (R223): h at every valid position. -/
def scanLinear (a b : Nat → Num) (reset : Nat → Bool) (hIn init : Num) (tv : Nat) : List Num :=
  let blocks := (List.range 16).map fun j =>
    let ts := ((List.range 16).map (16 * j + ·)).filter (decide <| · < tv)
    scanBlock a b reset init ts
  (blocks.foldl (fun (r : Num × List Num) ys =>
    let last := ys.getLast?.getD (Num.ofInt 1, Num.zero)
    (fma last.1 r.1 last.2, r.2 ++ ys.map fun y => fma y.1 r.1 y.2)) (hIn, [])).2

/-- The rows of results of one stream of a LINEAR chunk: position by position, column by column. -/
def State.linearStream (s : State) (p : Nat) (g : Scan) (i : Nat) : List (List Num) :=
  let x := s.stream p (g.first + i)
  let mask := s.scanMask p g i
  let row (r : ORef) (t : Nat) : List Byte := (s.peekO p (g.inRow r i t) (fmtBytes g.inFmt g.nv)).bytes
  let ra := (List.range g.tv).map (row g.a)
  let rb := (List.range g.tv).map (row g.b)
  let h := s.words32 p (g.stateAt x false) g.nv
  let init := s.scanInit p g x false g.nv
  let cols := (List.range g.nv).map fun j =>
    scanLinear (fun t => rowElem g.inFmt (nth [] ra t) j) (fun t => rowElem g.inFmt (nth [] rb t) j) (scanResets mask x)
      (nth .zero h j) (nth .zero init j) g.tv
  (List.range g.tv).map fun t => cols.map fun c => nth .zero c t

/-- A GATED program on one element: T0 and T1 (R226). -/
def gatedRun (l : Lantern) (bank : Bool) (prog : List Nat) (src : Nat → Num) : Num × Num :=
  let ts := prog.foldl (fun (ts : List Num) w =>
    let v (k : Nat) : Num := if k ≤ 10 then src k else if k = 15 then .zero else nth .zero ts (k - 11)
    setNth ts (wDst w) fun _ => wickAlu l bank w (v (wSrc w 0)) (v (wSrc w 1)) (v (wSrc w 2)) .zero)
    [.zero, .zero, .zero, .zero]
  (nth .zero ts 0, nth .zero ts 1)

/-- One step of a GATED chunk for one stream: the new h and c (R226). -/
def State.gatedStep (s : State) (p : Nat) (g : Scan) (bank : Bool) (u : List (List Num)) (x : List Num) (h c : List Num) :
    List Num × List Num :=
  let l := (s.part p).ltn
  let hb := h.map Fmt.bf16.round
  let pre := (List.range (g.gates * g.n)).map fun k =>
    rn ((accumulate (2 ^ 42 + g.uFmt + 16 * g.n) ((hb.zip u).map fun (v, row) => v.mul (nth .zero row k))).add (nth .zero x k))
  let ys := (List.range g.n).map fun j => gatedRun l bank g.program fun k =>
    match k with
    | 4 => nth .zero h j
    | 5 => nth .zero c j
    | k => if k < g.gates then nth .zero pre (g.gates * j + k) else .zero
  (ys.map (·.1), if g.dual then ys.map (·.2) else c)

/-- The rows of results of one stream of a GATED chunk, (h, c) position by position. -/
def State.gatedStream (s : State) (p : Nat) (g : Scan) (bank : Bool) (i : Nat) : List (List Num × List Num) :=
  let x := s.stream p (g.first + i)
  let mask := s.scanMask p g i
  let ub := (List.range g.n).map fun r =>
    let bs := (s.peekO p (g.a.add (fmtBytes g.uFmt (r * g.cols))) (fmtBytes g.uFmt g.cols)).bytes
    (List.range g.cols).map fun k => rowElem g.uFmt bs k
  let second (r : List Num) : List Num := if g.dual then r else []
  let start := (s.words32 p (g.stateAt x false) g.n, second (s.words32 p (g.stateAt x true) g.n))
  let init := (s.scanInit p g x false g.n, second (s.scanInit p g x true g.n))
  ((List.range g.tv).foldl (fun (r : (List Num × List Num) × List (List Num × List Num)) t =>
    let hc := if scanResets mask x t then init else r.1
    let bs := (s.peekO p (g.inRow g.b i t) (fmtBytes g.inFmt g.cols)).bytes
    let y := s.gatedStep p g bank ub ((List.range g.cols).map fun k => rowElem g.inFmt bs k) hc.1 hc.2
    (y, r.2 ++ [y])) (start, [])).2

/-- The ranges that a chunk reads, each with the unit (stream in LINEAR mode, step in GATED mode) that needs it first. -/
def State.scanReads (s : State) (p : Nat) (g : Scan) : List (Nat × ORef × Nat) :=
  if g.isEmpty then [] else
  let state := (List.range g.count).flatMap fun i =>
    let x := s.stream p (g.first + i)
    let u := if g.gated then 0 else i
    let any := (List.range g.tv).any (scanResets (s.scanMask p g i) x)
    (u, g.stateAt x false, 4 * g.nv) :: (if g.gated && g.dual then [(u, g.stateAt x true, 4 * g.nv)] else [])
      ++ (if any then (g.initAt x false).toList.map fun r => (u, r, 4 * g.nv) else [])
      ++ (if any && g.gated && g.dual then (g.initAt x true).toList.map fun r => (u, r, 4 * g.nv) else [])
  (if g.maskMode = 0 then [] else [(0, g.mask, if g.maskMode = 2 then 32 * g.count else 32)]) ++
  (if g.gated then
    (0, g.a, fmtBytes g.uFmt (g.n * g.cols)) :: state ++ (List.range g.tv).flatMap fun t =>
      (List.range g.count).map fun i => (t, g.inRow g.b i t, fmtBytes g.inFmt g.cols)
  else (state ++ (List.range g.count).flatMap fun i => (List.range g.tv).flatMap fun t =>
    [(i, g.inRow g.a i t, fmtBytes g.inFmt g.nv), (i, g.inRow g.b i t, fmtBytes g.inFmt g.nv)]))

/-- The work of a SCAN_CHUNK (R221 to R230): its output rows, unit by unit, then every state, which it writes only where no row was
refused (R212, R229). -/
def State.scanWork (s : State) (p : Nat) (c : Cmd) (k : Nat) : Work :=
  let g := c.scan
  let bank := c.bank.getD false
  if g.isEmpty then { detail := 524288 * b2n c.waitedSwap, fixed := 524288 * b2n c.waitedSwap } else
  let res : List (List (List Num × List Num)) := (List.range g.count).map fun i =>
    if g.gated then s.gatedStream p g bank i else (s.linearStream p g i).map fun h => (h, [])
  let out (i t : Nat) : List Byte × OutStat := outRow g.outFmt g.rnd 0 g.sat t (nth ([], []) (nth [] res i) t).1
  let units : List (List (Nat × Nat)) :=
    if g.gated then (List.range g.tv).map fun t => (List.range g.count).map fun i => (i, t)
    else (List.range g.count).map fun i => (List.range g.tv).map fun t => (i, t)
  let rows := units.map fun l => if g.outEn then l.map fun (i, t) => Wr.store (g.outRowAt i t) (out i t).1 else []
  let st := if g.outEn then units.flatten.foldl (fun (a : OutStat) e => a.join (out e.1 e.2).2) {} else {}
  let states := (List.range g.count).flatMap fun i =>
    let x := s.stream p (g.first + i)
    let last := nth ([], []) (nth [] res i) (g.tv - 1)
    let w (r : ORef) (l : List Num) : Wr := .store r (l.flatMap fun v => leBytes 4 (w32 v).toNat)
    w (g.stateAt x false) last.1 :: (if g.gated && g.dual then [w (g.stateAt x true) last.2] else [])
  let lk := g.program.foldl (fun n w => n + (if wOp w = 0x09 ∨ wOp w = 0x0A then (s.part p).ltn.lookups bank (wFn w) else 0)) 0
  let rd := s.scanReads p g
  let reset := (List.range g.count).any fun i => (List.range g.tv).any (scanResets (s.scanMask p g i) (s.stream p (g.first + i)))
  { rows := rows, last := states, reads := rd.map (·.2), poison := s.firstPoison p rd
    beats := if g.gated then 2 * g.tv * (g.count + 130 + s.spares k) else 0
    wick := if g.gated then 2 * g.tv * g.count * max (ceilDiv g.ninstr 4) (lk * ceilDiv g.n 16) else 2 * g.count * (2 * g.tv + 24)
    weight := if g.gated then 2 else 0
    lookups := g.tv * g.count * g.n * lk
    detail := st.bits + 262144 * b2n reset + 524288 * b2n c.waitedSwap
    fixed := 524288 * b2n c.waitedSwap, counts := if reset then 524288 else 262144 }

/-- SCAN_CHUNK (R220 to R230). -/
def State.scanChunk (s : State) (p id : Nat) (ecc : List EccHit) : State :=
  onStarted s p id 0 0x19 fun c =>
    s.onCluster p c (s.scanDests p c.scan) ecc (s.scanWork p c) none fun s k =>
      let s := s.runWork p c.id (some k) (s.scanWork p c k)
      if c.scan.gated && !c.scan.isEmpty then s.setStationary k 0 none else s

/-- Runs SCAN_CHUNK `id` of partition `p`. -/
def execScanChunk (p : PartId) (id : Nat) (ecc : List EccHit) (s : State) : Res := .next (s.scanChunk p.val id ecc)

/-- The operand checks of STREAM_CHUNK (Table 6.3, R218); 0: all pass. -/
def streamChunkCheck (s : State) (p : Nat) (c : Cmd) : W16 :=
  let op := c.fld 35 1
  let img := op == 0 || op == 1
  let n := c.fld 40 2
  if !(s.part p).seq.started then Cause.seqNotRunning
  else if decide (4 < op) || bitsOf (c.fld 36 1) 1 7 != 0 || (op != 3 && c.fld 36 1 != 0) || c.fld 37 1 != 0 || n == 0 || decide (16384 < n)
      || c.fld 42 2 != 0 || (!img && !zeroAt c.desc 44 12) || !c.zeroFrom 56
      || (img && ((c.ref 48).off % 64 != 0 || !s.inObj p (c.ref 48) 64)) then Cause.badOperand
  else if decide ((s.part p).ctl.streamCap.toNat < c.fld 38 2 + n) then Cause.badStreamId
  else 0

/-- The streams that a STREAM_CHUNK names. -/
def Cmd.chunkIds (c : Cmd) : List Nat := (List.range (c.fld 40 2)).map (c.fld 38 2 + ·)

/-- The sequences and streams that a SEQ command names. -/
def State.seqNames (s : State) (p : Nat) (c : Cmd) : List Nat × List Nat :=
  let id := c.fld 36 2
  match c.op with
  | 0x11 =>
    let k := c.fld 44 2
    let e := s.seqEntry p id
    (id :: (List.range k).map (c.fld 40 2 + ·), if e.streamEn then e.stream.toNat :: (List.range k).map (c.fld 96 4 + ·) else [])
  | 0x12 =>
    let e := s.seqEntry p id
    ([id], if bitOf (c.fld 35 1) 0 && e.streamEn then [e.stream.toNat] else [])
  | 0x16 => ([], c.chunkIds)
  | _ => ([id], [])

/-- Whether the pool objects of a partition touch a die whose traffic has stopped, or where it waits for credits (R270, R312). -/
def State.seqStopped (s : State) (p : Nat) : Bool :=
  let q := (s.part p).seq
  q.started && [q.pool, q.metaObj, q.pl, q.content].any fun x =>
    s.stoppedO p ⟨x.toNat, 0⟩ (s.object p x.toNat).size.toNat

/-- Whether a SEQ command may act now (R169, R218): every SEQ command that started before it has ended, but for those that
wait and name nothing that it names. -/
def State.seqTurn (s : State) (p : Nat) (c : Cmd) : Bool :=
  let mine := s.seqNames p c
  !s.seqStopped p && (s.part p).cmd.cmds.all fun d =>
    !(d.phase == .started && d.engine == 2 && decide (0x10 ≤ d.op) && d.op != 0x13 && decide (d.order < c.order))
      || (d.stage == 1 && (let his := s.seqNames p d
        his.1.all (fun i => !mine.1.contains i) && his.2.all fun i => !mine.2.contains i))

/-- A command that begins to wait (R169, R219). -/
def State.waits (s : State) (p id : Nat) : State := s.modCmd p id fun c => { c with stage := 1 }

/-- A reference's offset advanced (R219). -/
def refAdd (r : W64) (n : Nat) : W64 := if r = 0 then 0 else BitVec.ofNat 64 (r.toNat % 2 ^ 20 + 2 ^ 20 * (r.toNat / 2 ^ 20 + n))

/-- Whether an image's fields that OPEN and UPDATE take are in order for one entry (R219). -/
def State.streamRangesOk (s : State) (p : Nat) (x : Stream) : Bool :=
  (ORef.of x.stateRef.toNat).off % 4 == 0 && s.inObj p (ORef.of x.stateRef.toNat) x.bytesOfState
    && (x.initRef == 0 || s.inObj p (ORef.of x.initRef.toNat) x.bytesOfState)

/-- The lines of the entries of the open streams among `ids`, as a command reads them. -/
def State.streamReads (s : State) (p : Nat) (ids : List Nat) : List Finder :=
  (ids.filter fun i => (s.stream p i).open').flatMap fun i =>
    s.tableReads p Cause.streamPoison (128 * (s.part p).ctl.seqCap.toNat + 64 * i) 64

/-- What STREAM_CHUNK reads: the entries of its range and, for OPEN and UPDATE, its image. -/
def State.chunkReads (p : Nat) (s : State) (c : Cmd) : List Finder :=
  if !s.seqTurn p c then [] else
  s.streamReads p c.chunkIds ++ (if c.fld 35 1 < 2 then [Finder.reads p Cause.operandPoison (c.ref 48) 64] else [])

/-- An operation of STREAM_CHUNK on a started command: its turn, the poisoned entries it reads (not for FAULTED ones), the
states it accepts, then its effect on the whole range (R213, R218, R219). -/
def State.onChunk (s : State) (p id op : Nat) (ok : Stream → Bool) (quiet : Bool) (f : Cmd → State → State) : State :=
  onStarted s p id 2 0x16 fun c =>
    if c.fld 35 1 ≠ op || !s.seqTurn p c then s else
    let (t, bad) := s.readStreams p c.chunkIds
    match bad with
    | some q => t.finishBy p id Cause.streamPoison (some q)
    | none =>
      if c.chunkIds.any fun i => !ok (s.stream p i) then s.skip p id Cause.streamState
      else if quiet && c.chunkIds.any (fun i => (s.stream p i).pending != 0) then s.waits p id
      else f c s

/-- The image of an OPEN or UPDATE applied to entry `i` of the range, which is `old` (R219); the chunks counted against it stay counted
(R210). -/
def chunkEntry (img : Stream) (stride i : Nat) (isOpen : Bool) (old : Stream) : Stream :=
  let sr := refAdd img.stateRef (i * stride)
  let ir := refAdd img.initRef (i * stride)
  if isOpen then { img with state := .live, stateRef := sr, initRef := ir, pending := old.pending }
  else { old with stateRef := sr, initRef := ir, seq := img.seq, resTok := img.resTok }

/-- A stream entry written whole, which clears the poison of its line (R213, R260). -/
def State.writeStream (s : State) (p i : Nat) (x : Stream) : State :=
  (s.modStream p i fun _ => x).clearTable p (128 * (s.part p).ctl.seqCap.toNat + 64 * i) 64

/-- OPEN and UPDATE: the image read, checked and written to the range (R219, R505). -/
def State.chunkWrite (s : State) (p : Nat) (c : Cmd) (isOpen : Bool) : State :=
  let rd := s.peekO p (c.ref 48) 64
  let s := s.countO p (c.ref 48) 64
  match rd.fault with
  | some q => s.finishBy p c.id Cause.operandPoison (some q)
  | none =>
    let h := fieldAt rd.bytes 0 4
    let img := Stream.ofBytes rd.bytes .live
    let xs := c.chunkIds.zipIdx.map fun (n, i) => (n, chunkEntry img (c.fld 44 4) i isOpen (s.stream p n))
    let badImage := (isOpen && (bitsOf h 0 7 != 0 || bitsOf h 9 23 != 0 || fieldAt rd.bytes 6 2 != 0 || !zeroAt rd.bytes 24 8
        || !zeroAt rd.bytes 38 26 || img.stateWords == 0 || decide (16384 < img.stateWords.toNat)))
      || fieldAt rd.bytes 37 1 / 16 != 0
    if badImage || xs.any (fun x => !s.streamRangesOk p x.2) then s.skip p c.id Cause.streamInit
    else (xs.foldl (fun s x => if isOpen then s.writeStream p x.1 x.2 else s.modStream p x.1 fun _ => x.2) s).done p c.id xs.length

/-- STREAM_CHUNK OPEN (R219). -/
def State.chunkOpen (s : State) (p id : Nat) : State :=
  s.onChunk p id 0 (·.state == .empty) false fun c s => s.chunkWrite p c true

/-- Runs STREAM_CHUNK OPEN `id` of partition `p`. -/
def execStreamChunkOpen (p : PartId) (id : Nat) (s : State) (ecc : List EccHit := []) : Res := .next ((s.eccRead p.val id (fun c => c.runs 2 0x16 && c.fld 35 1 == 0) (State.chunkReads p.val) ecc).chunkOpen p.val id)

/-- STREAM_CHUNK UPDATE (R219): waits until no entry has a chunk pending. -/
def State.chunkUpdate (s : State) (p id : Nat) : State :=
  s.onChunk p id 1 Stream.open' true fun c s => s.chunkWrite p c false

/-- Runs STREAM_CHUNK UPDATE `id` of partition `p`. -/
def execStreamChunkUpdate (p : PartId) (id : Nat) (s : State) (ecc : List EccHit := []) : Res := .next ((s.eccRead p.val id (fun c => c.runs 2 0x16 && c.fld 35 1 == 1) (State.chunkReads p.val) ecc).chunkUpdate p.val id)

/-- The entries of a STREAM_CHUNK's range changed, and the command ended with their number. -/
def State.chunkEach (s : State) (p : Nat) (c : Cmd) (f : Stream → Stream) : State :=
  (c.chunkIds.foldl (fun s i => s.modStream p i f) s).done p c.id c.chunkIds.length

/-- STREAM_CHUNK RESET (R219). -/
def State.chunkReset (s : State) (p id : Nat) : State :=
  s.onChunk p id 2 Stream.open' false fun c s => s.chunkEach p c fun x => { x with reset := true }

/-- Runs STREAM_CHUNK RESET `id` of partition `p`. -/
def execStreamChunkReset (p : PartId) (id : Nat) (s : State) (ecc : List EccHit := []) : Res := .next ((s.eccRead p.val id (fun c => c.runs 2 0x16 && c.fld 35 1 == 2) (State.chunkReads p.val) ecc).chunkReset p.val id)

/-- STREAM_CHUNK CLEAR (R219): BROKEN entries become LIVE; reset_too sets their reset. -/
def State.chunkClear (s : State) (p id : Nat) : State :=
  s.onChunk p id 3 (·.state == .broken) false fun c s => s.chunkEach p c fun x =>
    { x with state := .live, brokenCause := 0, brokenWm := 0, reset := x.reset || bitOf (c.fld 36 1) 0 }

/-- Runs STREAM_CHUNK CLEAR `id` of partition `p`. -/
def execStreamChunkClear (p : PartId) (id : Nat) (s : State) (ecc : List EccHit := []) : Res := .next ((s.eccRead p.val id (fun c => c.runs 2 0x16 && c.fld 35 1 == 3) (State.chunkReads p.val) ecc).chunkClear p.val id)

/-- A stream entry released: EMPTY, and the poison of its line cleared; chunks counted against it stay counted (R210). -/
def State.releaseStream (s : State) (p i : Nat) : State := s.writeStream p i { pending := (s.stream p i).pending }

/-- STREAM_CHUNK CLOSE (R219): waits until no entry has a chunk pending, then releases the range; a FAULTED entry too. -/
def State.chunkClose (s : State) (p id : Nat) : State :=
  s.onChunk p id 4 (fun x => x.state != .empty) true fun c s =>
    (c.chunkIds.foldl (fun s i => s.releaseStream p i) s).done p c.id c.chunkIds.length

/-- Runs STREAM_CHUNK CLOSE `id` of partition `p`. -/
def execStreamChunkClose (p : PartId) (id : Nat) (s : State) (ecc : List EccHit := []) : Res := .next ((s.eccRead p.val id (fun c => c.runs 2 0x16 && c.fld 35 1 == 4) (State.chunkReads p.val) ecc).chunkClose p.val id)

end Sys2Proof.Machine
end

