-- ==== Sys2Proof/Machine/Pool.lean ====
section
/-!
DEFINITION. The KV pool, page lists and prefix tree of a partition (R175 to R186), and the poisoned lines that the SEQ engine
reads (R205).
-/

namespace Sys2Proof.Machine

/-- Bytes of an input record (Table 5.17). -/
def Seq.recBytes (q : Seq) : Nat := 4 * (bitsOf q.cfg.toNat 21 6 + 1)
/-- Planes of a block (R175). -/
def Seq.planes (q : Seq) : Nat := bitsOf q.cfg.toNat 13 8 + 1
/-- Blocks that a sequence may hold. -/
def Seq.maxBlocks (q : Seq) : Nat := bitsOf q.cfg.toNat 0 13
/-- Block slots of the pool. -/
def Seq.nblocks (q : Seq) : Nat := bitsOf q.blocks.toNat 0 23
/-- Block slot `b`. -/
def Seq.block (q : Seq) (b : Nat) : Block := tget {} q.pool' b
/-- A sequence's block `j` as its page list names it. -/
def Seq.entry (q : Seq) (i j : Nat) : Option Nat := tget none q.lists (4096 * i + j)
/-- The id of a node (R179). -/
def Seq.nodeId (q : Seq) (b : Nat) : W64 := BitVec.ofNat 64 (2 ^ 32 * (q.block b).gen.toNat + b)
/-- The root's id (R179). -/
def rootId : W64 := 0xFFFFFFFFFFFFFFFF#64
/-- The sequences whose page lists name a block, with its place there: its references (R177). -/
def Seq.refs (q : Seq) (b : Nat) : List (Nat × Nat) :=
  q.lists.filterMap fun e => if e.2 = some b then some (e.1 / 4096, e.1 % 4096) else none
/-- The blocks of a sequence: place and slot, in rising place. -/
def Seq.blocksOf (q : Seq) (i : Nat) : List (Nat × Nat) :=
  q.lists.filterMap fun e => if e.1 / 4096 = i then e.2.map fun b => (e.1 % 4096, b) else none
/-- The slots in a state. -/
def Seq.slots (q : Seq) (st : BlockState) : List Nat := (List.range q.nblocks).filter fun b => (q.block b).state == st
/-- A leaf: no other node's parent (R182). -/
def Seq.isLeaf (q : Seq) (b : Nat) : Bool :=
  !q.pool'.any fun e => e.1 != b && e.2.state == .sealed && e.2.parent == q.nodeId b
/-- Blocks with a nonzero pin count. -/
def Seq.pinned (q : Seq) : Nat := q.pool'.countP fun e => e.2.pins != 0
/-- KVP_FREE and KVP_CACHED. -/
def Seq.cached (q : Seq) : Nat := (q.slots .sealed).countP fun b => (q.refs b).isEmpty

/-- The SEQ state of a partition with block slot `b` changed. -/
def Seq.modBlock (q : Seq) (b : Nat) (f : Block → Block) : Seq := { q with pool' := tmod {} q.pool' b f }

/-- The line of KVP_META that holds the record of slot `b` (log entry 28). -/
def Seq.recordLine (q : Seq) (b : Nat) : Nat := Config.metaLine b % max 1 (72 * q.nblocks / 64)
/-- The page of KVP_META with the record of slot `b` marked for the next delta (R406). -/
def State.dirtyBlock (s : State) (p b : Nat) : State :=
  let q := (s.part p).seq
  s.dirtyRange p q.metaObj.toNat (64 * q.recordLine b) 64
/-- The record of block slot `b` of partition `p` changed. -/
def State.modBlock (s : State) (p b : Nat) (f : Block → Block) : State := (s.modSeq p fun q => q.modBlock b f).dirtyBlock p b

/-- The reference of the page-list entry of plane `pl`, block `j` of sequence `i` (R176). -/
def Seq.listRef (q : Seq) (i pl j : Nat) : ORef :=
  ⟨q.pl.toNat, 4 * (i * q.maxBlocks * q.planes + pl * q.maxBlocks + j)⟩

/-- A page-list entry written in every plane (R176): its slot, or 0xFFFF_FFFF where the block is missing. -/
def State.setPage (s : State) (p i j : Nat) (b : Option Nat) : State :=
  let q := (s.part p).seq
  let s := s.modSeq p fun q => { q with
    lists := match b with
      | some b => tset q.lists (4096 * i + j) (some b)
      | none => tfilter (fun k => k != 4096 * i + j) q.lists }
  let s := (List.range q.planes).foldl (fun s pl =>
    (s.pokeHeld p (q.listRef i pl j) (leBytes 4 (match b with
      | some b => b * q.planes + pl
      | none => 0xFFFFFFFF))).1) s
  s.markDirty p (.seqE i)

/-- What a search of R182 has dropped so far. -/
structure Drops where
  tier1 : Nat := 0
  tier2 : Nat := 0
  marked : List Nat := []
  deriving DecidableEq, Repr

/-- Whether a search has dropped anything. -/
def Drops.any (d : Drops) : Bool := d.tier1 != 0 || d.tier2 != 0

/-- Two counts of drops together. -/
def Drops.join (a b : Drops) : Drops := { tier1 := a.tier1 + b.tier1, tier2 := a.tier2 + b.tier2, marked := a.marked ++ b.marked }

/-- Dropped blocks counted in KVP_DROPS (R185). -/
def State.countDrops (s : State) (p : Nat) (d : Drops) : State :=
  s.modSeq p fun q => { q with drops := wrapAdd q.drops (d.tier1 + d.tier2) }
/-- The one KV_DROP event of a command that dropped blocks (R185). -/
def State.dropEvent (s : State) (p : Nat) (wm : W32) (d : Drops) : State :=
  if !d.any then s else
  s.raisePart p Cause.kvDrop ⟨0x06, p % 2⟩ wm
    (leBytes 4 0 ++ leBytes 4 d.tier1 ++ leBytes 2 d.tier2 ++ leBytes 2 d.marked.eraseDups.length)
/-- The drops of a command counted and reported (R185). -/
def State.reportDrops (s : State) (p : Nat) (wm : W32) (d : Drops) : State :=
  if !d.any then s else (s.countDrops p d).dropEvent p wm d

/-- The recompute range of a sequence that loses block `j` to a tier-2 drop (R183). -/
def SeqEntry.lose (e : SeqEntry) (j : Nat) : SeqEntry :=
  { e with
    recompute := true, rcStart := BitVec.ofNat 32 (64 * j)
    rcEnd := if e.recompute then e.rcEnd else if e.tailMissing then e.pos else BitVec.ofNat 32 (64 * (j + 1)) }

/-- A block slot made FREE. -/
def State.freeBlock (s : State) (p b : Nat) : State :=
  s.modBlock p b fun x => { x with state := .free, pins := 0, hash := none }

/-- A SEALED leaf dropped (R183): its page-list entries go, its sequences are marked for recompute. Answers those newly marked. -/
def State.dropBlock (s : State) (p b : Nat) : State × List Nat :=
  let rs := ((s.part p).seq.refs b)
  let fresh := (rs.map (·.1)).filter fun i => !(s.seqEntry p i).recompute
  let s := rs.foldl (fun s r => (s.setPage p r.1 r.2 none).modSeqEntry p r.1 fun e => e.lose r.2) s
  (s.freeBlock p b, fresh)

/-- The block that a search takes next (R182): a FREE one, a tier-1 leaf, a tier-2 leaf whose sequences all have a lower
priority; with the tier. -/
def Seq.pick (q : Seq) (u pr : Nat) (tier2 : Bool) : Option (Nat × Nat) :=
  match minBy (Config.blockKey u) (q.slots .free) with
  | some b => some (b, 0)
  | none =>
    let leaves := (q.slots .sealed).filter fun b => q.isLeaf b && (q.block b).pins == 0
    let oldest (l : List Nat) : List Nat :=
      match minBy (fun b => (q.block b).stamp.toNat) l with
      | some m => l.filter fun b => (q.block b).stamp == (q.block m).stamp
      | none => []
    match minBy (Config.blockKey u) (oldest (leaves.filter fun b => (q.refs b).isEmpty)) with
    | some b => some (b, 1)
    | none =>
      if !tier2 then none else
      let ok (b : Nat) : Bool := !(q.refs b).isEmpty && (q.refs b).all fun r =>
        let e := tget {} q.table r.1
        (e.state == .idle || e.state == .finished) && decide (e.priority.toNat < pr)
      ((oldest (leaves.filter ok)).head?).map fun b => (b, 2)

/-- One block taken for a requester of priority `pr`: it stands allocated as OPEN with a new generation (R177, R182). -/
def State.takeBlock (s : State) (p pr : Nat) (tier2 : Bool) (d : Drops) : State × Option Nat × Drops :=
  match (s.part p).seq.pick s.free pr tier2 with
  | none => (s, none, d)
  | some (b, t) =>
    let (s, marked) := if t = 0 then (s, []) else s.dropBlock p b
    let d := match t with
      | 0 => d
      | 1 => { d with tier1 := d.tier1 + 1 }
      | _ => { d with tier2 := d.tier2 + 1, marked := d.marked ++ marked }
    let now := (s.part p).seq.steps
    ((s.modBlock p b fun x => { x with state := .open', gen := x.gen + 1, pins := 0, hash := none, stamp := now }).useFree, some b, d)

/-- Blocks for the missing places `js` of a sequence, each with its place; none: the search ran short, and what it took is FREE again
(R184). -/
def State.supply (s : State) (p pr : Nat) (tier2 : Bool) : List Nat → Drops → State × Option (List (Nat × Nat)) × Drops
  | [], d => (s, some [], d)
  | j :: js, d =>
    match s.takeBlock p pr tier2 d with
    | (s, none, d) => (s, none, d)
    | (s, some b, d) =>
      match s.supply p pr tier2 js d with
      | (s, some l, d) => (s, some ((j, b) :: l), d)
      | (s, none, d) => (s.freeBlock p b, none, d)

/-- Supplied blocks entered into a sequence's page list. -/
def State.placeBlocks (s : State) (p i : Nat) (l : List (Nat × Nat)) : State := l.foldl (fun s e => s.setPage p i e.1 (some e.2)) s
/-- Supplied blocks that are not used after all are FREE again (R184). -/
def State.returnBlocks (s : State) (p : Nat) (l : List (Nat × Nat)) : State := l.foldl (fun s e => s.freeBlock p e.2) s

/-- A sequence loses its blocks from place `j` on (R205): their entries go, OPEN ones among them are FREE, and the recompute
range reaches from there to pos. Answers the number of blocks lost. -/
def State.loseFrom (s : State) (p i j : Nat) : State × Nat :=
  let bs := ((s.part p).seq.blocksOf i).filter fun e => decide (j ≤ e.1)
  let s := bs.foldl (fun s e =>
    let wasOpen := ((s.part p).seq.block e.2).state == .open'
    let s := s.setPage p i e.1 none
    if wasOpen then s.freeBlock p e.2 else s) s
  (s.modSeqEntry p i fun e => { e with
    recompute := true
    rcStart := BitVec.ofNat 32 (if e.recompute then min e.rcStart.toNat (64 * j) else 64 * j)
    rcEnd := e.pos, tailMissing := e.tailMissing || e.pos.toNat % 64 != 0 }, bs.length)

/-- SEQ_POISON raised for a poisoned table, page-list or metadata line (R205). -/
def State.seqPoison (s : State) (p : Nat) (q : W64) (wm : W32) : State :=
  let n := p % 2
  ({ s with seqs := tmod {} s.seqs n fun x => { x with poison := satAdd x.poison 1 } } : State).raiseIn p q Cause.seqPoison ⟨0x06, n⟩ wm []

/-- The page-list lines of a sequence that are poisoned: line of the object, fault, and the lowest block it describes. -/
def State.badListLines (s : State) (p i : Nat) : List (Nat × W64 × Nat) :=
  let q := (s.part p).seq
  let r := q.listRef i 0 0
  let n := 4 * q.maxBlocks * q.planes
  let pl := (s.object p r.handle).src
  (lineSegs r.off n).filterMap fun (o, k) =>
    (s.peek p pl o k).fault.map fun f =>
      (o / 64, f, ((List.range (k / 4)).map fun x => ((o - r.off) / 4 + x) % q.maxBlocks).foldl min (q.maxBlocks - 1))

/-- The poisoned page-list lines of a sequence, as a command reads them (R205): SEQ_POISON for each, and the blocks they
describe lost. -/
def State.readLists (s : State) (p i : Nat) (wm : W32) (d : Drops) : State × Drops :=
  (s.badListLines p i).foldl (fun (r : State × Drops) b =>
    let q := (r.1.part p).seq
    let t := (r.1.seqPoison p b.2.1 wm)
    let marked := !(t.seqEntry p i).recompute
    let (t, n) := t.loseFrom p i b.2.2
    let x := t.phys p (t.object p q.pl.toNat).src (64 * b.1)
    (t.modMem fun m => m.clearPoison x.space (x.addr / 64),
      { r.2 with tier2 := r.2.tier2 + n, marked := if marked then r.2.marked ++ [i] else r.2.marked })) (s, d)

/-- The fault of the line of KVP_META that holds the record of slot `b` (log entry 28). -/
def State.recordPoison (s : State) (p b : Nat) : Option (Nat × W64) :=
  let q := (s.part p).seq
  let o := s.object p q.metaObj.toNat
  let line := q.recordLine b
  (s.peek p o.src (64 * line) 64).fault.map fun f => (line, f)

/-- A slot described by a poisoned record line (R205): out of the tree, lost to every sequence that names it, then FREE. -/
def State.loseSlot (s : State) (p b : Nat) (d : Drops) : State × Drops :=
  let rs := (s.part p).seq.refs b
  let (s, d) := rs.foldl (fun (r : State × Drops) e =>
    let marked := !(r.1.seqEntry p e.1).recompute
    let (t, n) := r.1.loseFrom p e.1 e.2
    (t, { r.2 with tier2 := r.2.tier2 + n, marked := if marked then r.2.marked ++ [e.1] else r.2.marked })) (s, d)
  (s.freeBlock p b, d)

/-- The records of a sequence's blocks, as a command reads them (R205). -/
def State.readRecords (s : State) (p i : Nat) (wm : W32) (d : Drops) : State × Drops :=
  ((s.part p).seq.blocksOf i).foldl (fun (r : State × Drops) e =>
    match r.1.recordPoison p e.2 with
    | none => r
    | some (line, f) =>
      let q := (r.1.part p).seq
      let lost := (List.range q.nblocks).filter fun b => q.recordLine b == line
      let t := r.1.seqPoison p f wm
      let (t, d) := lost.foldl (fun (r : State × Drops) b => r.1.loseSlot p b r.2) (t, r.2)
      let x := t.phys p (t.object p q.metaObj.toNat).src (64 * line)
      (t.modMem fun m => m.clearPoison x.space (x.addr / 64), d)) (s, d)

/-- The page list and block records of a sequence read by a command (R205). -/
def State.readBlocks (s : State) (p i : Nat) (wm : W32) (d : Drops) : State × Drops :=
  let (s, d) := s.readLists p i wm d
  s.readRecords p i wm d

/-- A live sequence whose entry line is poisoned goes FAULTED when it is read (R174, R205); its fault. -/
def State.readEntry (s : State) (p i : Nat) : State × Option W64 :=
  let st := (s.seqEntry p i).state
  if st == .empty || st == .faulted then (s, none) else
  match s.seqEntryPoison p i with
  | none => (s, none)
  | some q =>
    ((({ s with seqs := tmod {} s.seqs (p % 2) fun x => { x with poison := satAdd x.poison 1 } } : State)).modSeqEntry p i
      fun e => { e with state := .faulted }, some q)

/-- The lines of sequence entry `i`, as a command reads them. -/
def State.entryReads (s : State) (p i : Nat) : List Finder :=
  let st := (s.seqEntry p i).state
  if st == .empty || st == .faulted then [] else s.tableReads p Cause.seqPoison (128 * i) 128
/-- The page list and the block records of a sequence, as a command reads them. -/
def State.blockReads (s : State) (p i : Nat) : List Finder :=
  let q := (s.part p).seq
  Finder.reads p Cause.seqPoison (q.listRef i 0 0) (4 * q.maxBlocks * q.planes) :: (q.blocksOf i).map fun e =>
    Finder.place p 0 Cause.seqPoison (s.object p q.metaObj.toNat).src (64 * q.recordLine e.2) 64

/-- The 64 records of block `j` of a sequence; none: they cannot be read in full (R179). -/
def State.records (s : State) (p i j : Nat) : Option (List Byte) :=
  let q := (s.part p).seq
  let r := (ORef.of (s.seqEntry p i).inRef.toNat).add (64 * j * q.recBytes)
  let n := 64 * q.recBytes
  if !s.inObj p r n then none else
  let rd := s.peekO p r n
  if rd.fault.isSome then none else some rd.bytes

/-- The four words of SipHash's state. -/
structure Sip where
  a : W64
  b : W64
  c : W64
  d : W64

/-- One round of SipHash. -/
def Sip.round (v : Sip) : Sip :=
  let a := v.a + v.b
  let b := v.b.rotateLeft 13 ^^^ a
  let a := a.rotateLeft 32
  let c := v.c + v.d
  let d := v.d.rotateLeft 16 ^^^ c
  let a := a + d
  let d := d.rotateLeft 21 ^^^ a
  let c := c + b
  let b := b.rotateLeft 17 ^^^ c
  ⟨a, b, c.rotateLeft 32, d⟩

/-- SipHash takes in one word: two rounds. -/
def Sip.word (v : Sip) (m : W64) : Sip :=
  let v := ({ v with d := v.d ^^^ m } : Sip).round.round
  { v with a := v.a ^^^ m }

/-- SipHash-2-4 of a byte string under a 128-bit key (R179): two rounds a word, the last of which holds the rest of the bytes and their number, and
four rounds at the end. -/
def sipHash (key : BitVec 128) (bs : List Byte) : W64 :=
  let k0 : W64 := key.setWidth 64
  let k1 : W64 := BitVec.ofNat 64 (key.toNat / 2 ^ 64)
  let v : Sip := ⟨k0 ^^^ 0x736f6d6570736575#64, k1 ^^^ 0x646f72616e646f6d#64, k0 ^^^ 0x6c7967656e657261#64, k1 ^^^ 0x7465646279746573#64⟩
  let n := bs.length
  let v := (List.range (n / 8)).foldl (fun v i => v.word (word64 bs (8 * i))) v
  let v := v.word (BitVec.ofNat 64 (leNat (bs.drop (8 * (n / 8))) + 2 ^ 56 * (n % 256)))
  let v := ({ v with c := v.c ^^^ 0xff#64 } : Sip).round.round.round.round
  v.a ^^^ v.b ^^^ v.c ^^^ v.d

/-- The prefix key of a partition (R179): its own, or on a twin the primary's (R405). -/
def Seq.key (q : Seq) : BitVec 128 := q.givenKey.getD (Config.prefixKey q.prefixKey)
/-- The hash of a candidate block (R179). -/
def Seq.hashOf (q : Seq) (parent : W64) (recs : List Byte) : W64 := sipHash q.key (leBytes 8 parent.toNat ++ recs)

/-- The node that is a hit for (parent, records) (R180): equal hash, parent and stored records. -/
def State.hit (s : State) (p : Nat) (parent : W64) (recs : List Byte) : Option Nat :=
  let q := (s.part p).seq
  let h := q.hashOf parent recs
  (q.slots .sealed).find? fun b =>
    (q.block b).hash == some h && (q.block b).parent == parent
      && (s.peekO p ⟨q.content.toNat, 64 * q.recBytes * b⟩ (64 * q.recBytes)).bytes == recs

/-- The id of the node before block `j` of a sequence, or the root. -/
def Seq.parentOf (q : Seq) (i j : Nat) : W64 :=
  if j = 0 then rootId else
  match q.entry i (j - 1) with
  | some b => q.nodeId b
  | none => rootId

/-- The OPEN block at place `j` of a sequence seals (R177, R179). -/
def State.sealBlock (s : State) (p i j b : Nat) : State :=
  let q := (s.part p).seq
  let parent := q.parentOf i j
  let close (h : Option W64) (s : State) : State :=
    s.modBlock p b fun x => { x with state := .sealed, parent := parent, hash := h }
  match s.records p i j with
  | none => close none s
  | some recs =>
    let s := s.countO p ((ORef.of (s.seqEntry p i).inRef.toNat).add (64 * j * q.recBytes)) recs.length
    let hit := s.hit p parent recs
    let s := (s.pokeHeld p ⟨q.content.toNat, 64 * q.recBytes * b⟩ recs).1
    match hit with
    | some d => ((s.freeBlock p b).setPage p i j (some d)).modSeq p fun q => { q with hits := q.hits + 1 }
    | none => close (some (q.hashOf parent recs)) s

/-- The OPEN blocks of a sequence seal in rising order, up to the first that may not (R195 step 5); `n` places are looked
at. -/
def State.sealUpTo (s : State) (p i : Nat) : Nat → Nat → State
  | 0, _ => s
  | n + 1, j =>
    let q := (s.part p).seq
    let e := s.seqEntry p i
    if e.pos.toNat < 64 * (j + 1) then s else
    match q.entry i j with
    | none => s
    | some b =>
      match (q.block b).state with
      | .sealed => s.sealUpTo p i n (j + 1)
      | .open' =>
        if e.recompute && decide (e.rcStart.toNat < 64 * (j + 1)) && decide (64 * j < e.rcEnd.toNat) then s
        else (s.sealBlock p i j b).sealUpTo p i n (j + 1)
      | .free => s

/-- PREFIX_LOOKUP's loop (R181): blocks matched, at most `n`. -/
def State.lookupLoop (s : State) (p i : Nat) : Nat → Nat → State × Nat
  | 0, k => (s, k)
  | n + 1, k =>
    let e := s.seqEntry p i
    let j := e.pos.toNat / 64
    let q := (s.part p).seq
    if e.pend.toNat < 64 then (s, k) else
    match s.records p i j with
    | none => (s, k)
    | some recs =>
      match s.hit p (q.parentOf i j) recs with
      | none => (s, k)
      | some b =>
        let s := ((s.setPage p i j (some b)).modBlock p b fun x => { x with stamp := q.steps }).modSeq p fun q => { q with hits := q.hits + 1 }
        (s.modSeqEntry p i fun e => { e with pos := e.pos + 64, pend := e.pend - 64 }).lookupLoop p i n (k + 1)

/-- What the lookups between `s` and `t` read for sequence `i`: the records of each block that they looked for, and those stored for each that they
found (R180, R181). -/
def State.lookReads (s t : State) (p i : Nat) : List Finder :=
  let q := (t.part p).seq
  let found := (q.blocksOf i).filter fun e => !((s.part p).seq.blocksOf i).contains e
  let n := 64 * q.recBytes
  let last := (t.seqEntry p i).pos.toNat / 64
  (List.range (found.length + 1)).map (fun k =>
      Finder.reads p 0 ((ORef.of (t.seqEntry p i).inRef.toNat).add ((last - found.length + k) * n)) n)
    ++ found.map fun e => Finder.reads p 0 ⟨q.content.toNat, e.2 * n⟩ n

/-- Whether a sequence has an OPEN block. -/
def Seq.hasOpen (q : Seq) (i : Nat) : Bool := (q.blocksOf i).any fun e => (q.block e.2).state == .open'

/-- What PREFIX_LOOKUP asks of its sequence (R181). -/
def State.lookupReady (s : State) (p i : Nat) : Bool :=
  let e := s.seqEntry p i
  e.state == .idle && e.pos.toNat % 64 == 0 && !(s.part p).seq.hasOpen i && !e.recompute && decide (64 ≤ e.pend.toNat)

/-- The blocks of a sequence released (R202): every reference goes, OPEN blocks are FREE; answers how many. -/
def State.releaseBlocks (s : State) (p i : Nat) : State × Nat :=
  let bs := (s.part p).seq.blocksOf i
  (bs.foldl (fun s e =>
    let wasOpen := ((s.part p).seq.block e.2).state == .open'
    let s := s.setPage p i e.1 none
    if wasOpen then s.freeBlock p e.2 else s) s, bs.length)

/-- A sequence entry written as a whole, which clears the poison of its lines (R202, R260). -/
def State.setSeqEntry (s : State) (p i : Nat) (e : SeqEntry) : State := (s.modSeqEntry p i fun _ => e).clearTable p (128 * i) 128

/-- A sequence released as SEQ_END releases it (R202): its blocks, then its entry, written whole. -/
def State.releaseSeq (s : State) (p i : Nat) : State × Nat :=
  let (s, n) := s.releaseBlocks p i
  (s.setSeqEntry p i {}, n)

end Sys2Proof.Machine
end

