-- ==== Sys2Proof/Machine/SeqOps.lean ====
section
/-!
DEFINITION. The SEQ commands that change the sequence table one at a time (R169 to R206): SEQ_ADD, SEQ_END, SEQ_FORK,
PREFIX_LOOKUP, PAGE_PIN, and START and STOP of the SEQ page.
-/

namespace Sys2Proof.Machine

/-- The SEQ instance of a partition (R171). -/
def srcSeq (p : Nat) : Src := ⟨0x06, p % 2⟩

/-- The operand checks of the SEQ engine's commands but STREAM_CHUNK at their start; 0: all pass (R203, R206). -/
def seqCheck (s : State) (p : Nat) (c : Cmd) : W16 :=
  let q := (s.part p).seq
  let idOk := decide (c.fld 36 2 < (s.part p).ctl.seqCap.toNat)
  if !q.started then Cause.seqNotRunning
  else match c.op with
  | 0x10 =>
    if bitsOf (c.fld 35 1) 2 6 != 0 || c.fld 38 2 != 0 || !c.zeroFrom 48 || (c.ref 40).off % 64 != 0 || !s.inObj p (c.ref 40) 128 then
      Cause.badOperand
    else if !idOk then Cause.badSeqId else 0
  | 0x11 =>
    if bitsOf (c.fld 35 1) 2 6 != 0 || c.fld 38 2 != 0 || c.fld 42 2 != 0 || c.fld 46 2 != 0 || c.fld 84 4 != 0 || !c.zeroFrom 116
        || (c.fld 64 8 != 0 && !s.inObj p (c.ref 64) (8 * c.fld 44 2)) then Cause.badOperand
    else if !idOk then Cause.badSeqId else 0
  | 0x12 =>
    if bitsOf (c.fld 35 1) 1 7 != 0 || c.fld 38 2 != 0 || !c.zeroFrom 40 then Cause.badOperand
    else if !idOk then Cause.badSeqId else 0
  | 0x14 =>
    if c.fld 35 1 != 0 || c.fld 38 2 != 0 || !c.zeroFrom 44 then Cause.badOperand
    else if !idOk then Cause.badSeqId else 0
  | 0x15 =>
    if decide (1 < c.fld 35 1) || c.fld 38 2 != 0 || !c.zeroFrom 48 || decide (q.maxBlocks ≤ c.fld 40 4) || c.fld 44 4 == 0
        || decide (4096 < c.fld 44 4) then Cause.badOperand
    else if !idOk then Cause.badSeqId else 0
  | _ => 0

/-- A SEQ command on sequence `i` at its turn (R169): the entry is read (R205); in INSTEP it waits; else `f`. -/
def State.onSeq (s : State) (p id op : Nat) (waits : Bool) (f : Cmd → Nat → State → State) : State :=
  onStarted s p id 2 op fun c =>
    if !s.seqTurn p c then s else
    let i := c.fld 36 2
    let (t, bad) := s.readEntry p i
    match bad with
    | some q => t.finishBy p id Cause.seqPoison (some q)
    | none => if waits && (s.seqEntry p i).state == .inStep then s.waits p id else f c i s

/-- Whether an entry's fields are in order (R201): those a SEQ_ADD leaves. -/
def SeqEntry.ok (e : SeqEntry) (maxPos : Nat) : Bool :=
  decide (e.kind.toNat ≤ 1) && decide (1 ≤ e.rows.toNat) && decide (e.rows.toNat ≤ if e.guide then 32767 else 65535)
    && !(e.guide && e.kind == 0) && !(e.kind == 1 && (e.target == 0 || e.schedRef == 0))
    && e.streamEn == (e.stream != 0xFFFFFFFF#32) && decide (e.pos.toNat + e.pend.toNat + e.rows.toNat ≤ maxPos)

/-- The entry that SEQ_ADD in UPDATE mode makes: the fields of Table 5.2 marked upd, from the image. -/
def SeqEntry.update (e img : SeqEntry) : SeqEntry :=
  { e with
    priority := img.priority, hold := img.hold, autoEnd := img.autoEnd, endCheck := img.endCheck, gateEn := img.gateEn
    pend := img.pend, target := img.target, inRef := img.inRef, outRef := img.outRef, sampleRef := img.sampleRef
    endValue := img.endValue, condVec := img.condVec, uncondVec := img.uncondVec, guideW := img.guideW, gateTok := img.gateTok
    endTok := img.endTok, gateBase := img.gateBase, user0 := img.user0, user1 := img.user1 }

/-- The dev and reserved fields of an image (Table 5.2) are zero. -/
def addImageZero (bs : List Byte) : Bool :=
  let h := fieldAt bs 0 4
  bitsOf h 0 3 == 0 && bitsOf h 13 2 == 0 && bitsOf h 16 16 == 0 && zeroAt bs 8 4 && zeroAt bs 16 4 && zeroAt bs 92 20

/-- What a SEQ command on sequence `i` reads first: its entry. -/
def State.onSeqReads (s : State) (p : Nat) (c : Cmd) (rest : Nat → List Finder) : List Finder :=
  if !s.seqTurn p c then [] else
  let i := c.fld 36 2
  s.entryReads p i ++ (if (s.readEntry p i).2.isSome then [] else rest i)

/-- SEQ_ADD (R201). -/
def State.seqAdd (s : State) (p id : Nat) : State :=
  s.onSeq p id 0x10 false fun c i s =>
    let upd := bitOf (c.fld 35 1) 0
    let e := s.seqEntry p i
    if e.state ≠ (if upd then .idle else .empty) then s.skip p id Cause.seqState else
    let rd := s.peekO p (c.ref 40) 128
    let s := s.countO p (c.ref 40) 128
    match rd.fault with
    | some q => s.finishBy p id Cause.operandPoison (some q)
    | none =>
      let img := SeqEntry.ofBytes rd.bytes .idle false
      let e' := if upd then e.update img else { img with parent := 0xFFFFFFFF#32 }
      let endTok := fieldAt rd.bytes 82 2
      if (!upd && !addImageZero rd.bytes) || !e'.ok (64 * (s.part p).seq.maxBlocks) || decide (0x1000 ≤ endTok) && decide (endTok ≤ 0xFFFE)
          || decide (0x1000 ≤ fieldAt rd.bytes 80 2) then s.skip p id Cause.seqInit
      else
        let s := s.setSeqEntry p i e'
        if !bitOf (c.fld 35 1) 1 then s.done p id i else
        let (s, d) := s.readBlocks p i c.wm {}
        let (s, n) := if s.lookupReady p i then s.lookupLoop p i 4096 0 else (s, 0)
        (s.reportDrops p c.wm d).done p id (i + 65536 * n)

/-- What SEQ_ADD reads. -/
def State.seqAddReads (p : Nat) (s : State) (c : Cmd) : List Finder :=
  s.onSeqReads p c fun _ =>
    let i := c.fld 36 2
    Finder.reads p Cause.operandPoison (c.ref 40) 128 ::
      (if bitOf (c.fld 35 1) 1 then s.blockReads p i ++ s.lookReads (s.seqAdd p c.id) p i else [])

/-- Runs SEQ_ADD `id` of partition `p`. -/
def execSeqAdd (p : PartId) (id : Nat) (s : State) (ecc : List EccHit := []) : Res := .next ((s.eccRead p.val id (·.runs 2 0x10) (State.seqAddReads p.val) ecc).seqAdd p.val id)

/-- SEQ_END (R202): the blocks released, the stream closed where asked, the entry EMPTY; a FAULTED entry is not read. -/
def State.seqEnd (s : State) (p id : Nat) : State :=
  s.onSeq p id 0x12 true fun c i s =>
    let e := s.seqEntry p i
    match e.state with
    | .empty => s.skip p id Cause.seqState
    | _ =>
      let str := if e.state != .faulted && bitOf (c.fld 35 1) 0 && e.streamEn then [e.stream.toNat] else []
      let (s, bad) := s.readStreams p str
      match bad with
      | some q => s.finishBy p id Cause.streamPoison (some q)
      | none =>
        if str.any fun x => (s.stream p x).open' && (s.stream p x).pending != 0 then s.waits p id else
        let (s, d) := s.readBlocks p i c.wm {}
        let (s, n) := s.releaseSeq p i
        let s := str.foldl (fun s x => if (s.stream p x).open' then s.releaseStream p x else s) s
        (s.reportDrops p c.wm d).done p id n

/-- What SEQ_END reads. -/
def State.seqEndReads (p : Nat) (s : State) (c : Cmd) : List Finder :=
  s.onSeqReads p c fun _ =>
    let e := s.seqEntry p (c.fld 36 2)
    (if e.state != .faulted && bitOf (c.fld 35 1) 0 && e.streamEn then s.streamReads p [e.stream.toNat] else [])
      ++ (if e.state == .empty then [] else s.blockReads p (c.fld 36 2))

/-- Runs SEQ_END `id` of partition `p`. -/
def execSeqEnd (p : PartId) (id : Nat) (s : State) (ecc : List EccHit := []) : Res := .next ((s.eccRead p.val id (·.runs 2 0x12) (State.seqEndReads p.val) ecc).seqEnd p.val id)

/-- PREFIX_LOOKUP (R181). -/
def State.prefixLookup (s : State) (p id : Nat) : State :=
  s.onSeq p id 0x14 true fun c i s =>
    let (s, d) := s.readBlocks p i c.wm {}
    if !s.lookupReady p i then (s.reportDrops p c.wm d).skip p id Cause.seqState else
    let n := c.fld 40 4
    let (s, k) := s.lookupLoop p i (if n = 0 then 4096 else min n 4096) 0
    (s.reportDrops p c.wm d).done p id k

/-- What PREFIX_LOOKUP reads. -/
def State.prefixLookupReads (p : Nat) (s : State) (c : Cmd) : List Finder :=
  s.onSeqReads p c fun _ =>
    s.blockReads p (c.fld 36 2) ++ (if s.lookupReady p (c.fld 36 2) then s.lookReads (s.prefixLookup p c.id) p (c.fld 36 2) else [])

/-- Runs PREFIX_LOOKUP `id` of partition `p`. -/
def execPrefixLookup (p : PartId) (id : Nat) (s : State) (ecc : List EccHit := []) : Res := .next ((s.eccRead p.val id (·.runs 2 0x14) (State.prefixLookupReads p.val) ecc).prefixLookup p.val id)

/-- PAGE_PIN (R186): all or nothing. -/
def State.pagePin (s : State) (p id : Nat) : State :=
  s.onSeq p id 0x15 true fun c i s =>
    let st := (s.seqEntry p i).state
    if st != .idle && st != .finished then s.skip p id Cause.seqState else
    let (s, d) := s.readBlocks p i c.wm {}
    let s := s.reportDrops p c.wm d
    let q := (s.part p).seq
    let bs := (List.range (c.fld 44 4)).map fun j => if c.fld 40 4 + j < q.maxBlocks then q.entry i (c.fld 40 4 + j) else none
    let slots := bs.filterMap fun b => b
    let unpin := c.fld 35 1 == 1
    if bs.any (·.isNone) || slots.any (fun b => (q.block b).state != .sealed) then s.skip p id Cause.pinHole
    else if unpin && slots.any (fun b => (q.block b).pins == 0) then s.skip p id Cause.pinUnderflow
    else
      let q' := slots.foldl (fun q b => q.modBlock b fun x =>
        { x with pins := if unpin then x.pins - 1 else satAdd x.pins 1 }) q
      if !unpin && decide (bitsOf q.pinLimit.toNat 0 23 < q'.pinned) then s.skip p id Cause.pinLimit
      else (slots.foldl (fun s b => s.dirtyBlock p b) (s.modSeq p fun _ => q')).done p id q'.pinned

/-- What PAGE_PIN reads. -/
def State.pagePinReads (p : Nat) (s : State) (c : Cmd) : List Finder :=
  s.onSeqReads p c fun _ =>
    let st := (s.seqEntry p (c.fld 36 2)).state
    if st == .idle || st == .finished then s.blockReads p (c.fld 36 2) else []

/-- Runs PAGE_PIN `id` of partition `p`. -/
def execPagePin (p : PartId) (id : Nat) (s : State) (ecc : List EccHit := []) : Res := .next ((s.eccRead p.val id (·.runs 2 0x15) (State.pagePinReads p.val) ecc).pagePin p.val id)

/-- Bytes copied within a partition's memory, line by line (R199, R231, R244): a poisoned source line is carried over as poisoned.
Answers the fault of the first such line, and the first fault that refused a write (R260, R262). -/
def State.copyBytes (s : State) (p : Nat) (src dst : ORef) (n : Nat) : State × Option W64 × Option W64 :=
  (lineSegs src.off n).foldl (fun (r : State × Option W64 × Option W64) e =>
    let s := r.1
    let d := dst.add (e.1 - src.off)
    let rd := s.peekO p ⟨src.handle, e.1⟩ e.2
    let s := s.countO p ⟨src.handle, e.1⟩ e.2
    match rd.fault with
    | none =>
      let t := s.pokeHeld p d rd.bytes
      (t.1, r.2.1, r.2.2.orElse fun _ => t.2)
    | some q =>
      ((lineSegs d.off e.2).foldl (fun s x =>
        let y := s.phys p (s.object p d.handle).src x.1
        (s.modMem fun m => m.addPoison y.space (y.addr / 64) q).countLine p y.space y.addr) s, r.2.1.orElse fun _ => some q, r.2.2))
    (s, none, none)

/-- A child's seed (R200). -/
def forkSeed (parent : W64) (i : Nat) : W64 :=
  let w := 2 ^ 64
  let z := (parent.toNat + (i + 1) * 0xD1B54A32D192ED03) % w
  let z := ((z ^^^ (z / 2 ^ 30)) * 0xBF58476D1CE4E5B9) % w
  let z := ((z ^^^ (z / 2 ^ 27)) * 0x94D049BB133111EB) % w
  BitVec.ofNat 64 (z ^^^ (z / 2 ^ 31))

/-- A reference's offset advanced, whatever its handle. -/
def refPlus (r : Nat) (n : Nat) : W64 := BitVec.ofNat 64 (r % 2 ^ 20 + 2 ^ 20 * (r / 2 ^ 20 + n))

/-- A child's entry (R199 step 1): a copy of the parent's with its own references, seed, tokens and stream. -/
def Cmd.childEntry (c : Cmd) (e : SeqEntry) (i : Nat) (seed : W64) : SeqEntry :=
  { e with
    inRef := refPlus (c.fld 48 8) (i * c.fld 56 4), outRef := refPlus (c.fld 88 8) (i * c.fld 60 4)
    sampleRef := refPlus (c.fld 72 8) (i * c.fld 80 4), seed := seed, parent := BitVec.ofNat 32 (c.fld 36 2)
    hold := e.hold || bitOf (c.fld 35 1) 1
    endTok := if c.fld 112 2 = 0xFFFF then e.endTok else BitVec.ofNat 16 (c.fld 112 2 + i)
    gateTok := if c.fld 114 2 = 0xFFFF then e.gateTok else BitVec.ofNat 12 (c.fld 114 2 + i)
    stream := if e.streamEn then BitVec.ofNat 32 (c.fld 96 4 + i) else e.stream }

/-- A child without a tail (R199 step 3). -/
def SeqEntry.noTail (e : SeqEntry) : SeqEntry :=
  { e with
    tailMissing := true, recompute := true
    rcStart := if e.recompute then e.rcStart else BitVec.ofNat 32 (64 * (e.pos.toNat / 64)), rcEnd := e.pos }

/-- What a fork has done so far: tail copies, children without one, a poisoned line carried over, a write refused, blocks dropped. -/
structure ForkRun where
  s : State
  copies : Nat := 0
  marked : Nat := 0
  poison : Option W64 := none
  refused : Option W64 := none
  drops : Drops := {}

/-- A child's entry where the parent has OPEN blocks below its tail: they reach it as missing, within a recompute range (log entry 29). -/
def SeqEntry.without (e : SeqEntry) (below : List Nat) : SeqEntry :=
  match below with
  | [] => e
  | j :: _ =>
    { e with
      recompute := true, rcEnd := e.pos
      rcStart := BitVec.ofNat 32 (if e.recompute then min e.rcStart.toNat (64 * j) else 64 * j) }

/-- The positions of a sequence's OPEN blocks below position `tail`. -/
def Seq.openBelow (q : Seq) (i tail : Nat) : List Nat :=
  ((q.blocksOf i).filter fun b => (q.block b.2).state == .open' && decide (b.1 < tail)).map (·.1)

/-- One child's sealed blocks, tail and entry (R199 steps 1 to 3). -/
def ForkRun.child (r : ForkRun) (p : Nat) (c : Cmd) (parent : SeqEntry) (i : Nat) (seed : W64) : ForkRun :=
  let q := (r.s.part p).seq
  let pid := c.fld 36 2
  let kid := c.fld 40 2 + i
  let tail := parent.pos.toNat / 64
  let hasTail := parent.pos.toNat % 64 != 0 && !parent.tailMissing
  let e := (c.childEntry parent i seed).without (q.openBelow pid tail)
  let s := (q.blocksOf pid).foldl (fun s b => if (q.block b.2).state == .sealed then s.setPage p kid b.1 (some b.2) else s) r.s
  if !hasTail then { r with s := s.setSeqEntry p kid e } else
  match s.takeBlock p parent.priority.toNat true r.drops with
  | (s, none, d) => { r with s := s.setSeqEntry p kid e.noTail, drops := d, marked := r.marked + 1 }
  | (s, some b, d) =>
    match q.entry pid tail with
    | none => { r with s := (s.freeBlock p b).setSeqEntry p kid e.noTail, drops := d, marked := r.marked + 1 }
    | some t =>
      let n := 65536 * q.planes
      let (s, bad, no) := s.copyBytes p ⟨q.pool.toNat, n * t⟩ ⟨q.pool.toNat, n * b⟩ n
      let s := s.modSeq p fun q => { q with copyBytes := wrapAdd q.copyBytes n }
      { r with
        s := (s.setPage p kid tail (some b)).setSeqEntry p kid e
        copies := r.copies + 1, poison := r.poison.orElse (fun _ => bad), refused := r.refused.orElse (fun _ => no), drops := d }

/-- Child 0 of a fork with retire_parent takes the parent's references and its tail block (R199 steps 2 and 3); the parent's other OPEN
blocks become FREE with it (log entry 29). -/
def State.adopt (s : State) (p : Nat) (c : Cmd) (parent : SeqEntry) (seed : W64) : State :=
  let q := (s.part p).seq
  let pid := c.fld 36 2
  let kid := c.fld 40 2
  let tail := parent.pos.toNat / 64
  let hasTail := parent.pos.toNat % 64 != 0 && !parent.tailMissing
  let s := (q.blocksOf pid).foldl (fun s b =>
    let s := s.setPage p pid b.1 none
    if (q.block b.2).state == .sealed || (hasTail && b.1 == tail) then s.setPage p kid b.1 (some b.2) else s.freeBlock p b.2) s
  s.setSeqEntry p kid ((c.childEntry parent 0 seed).without (q.openBelow pid tail))

/-- The streams of a fork's children (R231): entries and copies of the parent's state; the fault of a poisoned line of it, and that of a
refused write. DESIGN CHOICE (log entry 89): a chunk counted against a child's entry before the fork stays counted (R210). -/
def State.forkStreams (s : State) (p : Nat) (c : Cmd) (parent : SeqEntry) : State × Option W64 × Option W64 :=
  if !parent.streamEn then (s, none, none) else
  let x := s.stream p parent.stream.toNat
  let k := c.fld 44 2
  let r := (List.range k).foldl (fun (r : State × Option W64 × Option W64) i =>
    let dst := refPlus (c.fld 100 8) (i * c.fld 108 4)
    let (s, bad, no) := r.1.copyBytes p (ORef.of x.stateRef.toNat) (ORef.of dst.toNat) x.bytesOfState
    let n := c.fld 96 4 + i
    let s := s.writeStream p n
      { x with stateRef := dst, seq := BitVec.ofNat 32 (c.fld 40 2 + i), pending := (s.stream p n).pending }
    (s.modStr p fun y => { y with copyBytes := wrapAdd y.copyBytes x.bytesOfState }, r.2.1.orElse fun _ => bad, r.2.2.orElse fun _ => no))
    (s, none, none)
  if bitOf (c.fld 35 1) 0 then (r.1.releaseStream p parent.stream.toNat, r.2) else r

/-- Whether a fork's streams are available (R231). -/
def State.forkStreamOk (s : State) (p : Nat) (c : Cmd) (parent : SeqEntry) : Bool :=
  !parent.streamEn ||
  (let x := s.stream p parent.stream.toNat
   x.state == .live && (List.range (c.fld 44 2)).all fun i =>
    decide (c.fld 96 4 + i < (s.part p).ctl.streamCap.toNat) && (s.stream p (c.fld 96 4 + i)).state == .empty
      && s.inObj p (ORef.of (refPlus (c.fld 100 8) (i * c.fld 108 4)).toNat) x.bytesOfState)

/-- SEQ_FORK (R198 to R200, R231). -/
def State.seqFork (s : State) (p id : Nat) : State :=
  s.onSeq p id 0x11 true fun c i s =>
    let e := s.seqEntry p i
    let k := c.fld 44 2
    let base := c.fld 40 2
    let tokBad (b : Nat) : Bool := b != 0xFFFF && decide (4095 < b + k - 1)
    if e.state ≠ .idle then s.skip p id Cause.seqState
    else if k = 0 ∨ 256 < k ∨ (s.part p).ctl.seqCap.toNat < base + k
        ∨ ((List.range k).any fun j => (s.seqEntry p (base + j)).state != .empty) ∨ tokBad (c.fld 112 2) ∨ tokBad (c.fld 114 2) then
      s.skip p id Cause.forkIds
    else if !e.streamEn && c.fld 96 4 != 0 then s.skip p id Cause.badOperand
    else
      let str := if e.streamEn then [e.stream.toNat] else []
      let (t, bad) := s.readStreams p str
      match bad with
      | some q => t.finishBy p id Cause.streamPoison (some q)
      | none =>
        if !s.forkStreamOk p c e then s.skip p id Cause.forkStream
        else if e.streamEn && s.destCheck p (bitsOf (c.fld 100 8) 0 20) != 0 then s.skip p id (s.destCheck p (bitsOf (c.fld 100 8) 0 20))
        else if str.any fun x => (s.stream p x).pending != 0
            || s.anyMoving p [(s.stream p x).handle, bitsOf (c.fld 100 8) 0 20] then s.waits p id
        else
          let rd := s.peekO p (c.ref 64) (8 * k)
          let derived := c.fld 64 8 == 0
          match if derived then none else rd.fault with
          | some q => s.finishBy p id Cause.operandPoison (some q)
          | none =>
            let s := if derived then s else s.countO p (c.ref 64) (8 * k)
            let seed (j : Nat) : W64 := if derived then forkSeed e.seed j else word64 rd.bytes (8 * j)
            let (s, d) := s.readBlocks p i c.wm {}
            let e := s.seqEntry p i
            let retire := bitOf (c.fld 35 1) 0
            let kids := if retire then (List.range (k - 1)).map (· + 1) else List.range k
            let r := kids.foldl (fun (r : ForkRun) j => r.child p c e j (seed j)) { s := s, drops := d }
            let s := if retire then (r.s.adopt p c e (seed 0)).setSeqEntry p i {} else r.s
            let (s, bad, no) := s.forkStreams p c e
            let s := s.reportDrops p c.wm r.drops
            let detail := r.copies + 65536 * r.marked
            match r.poison.orElse fun _ => bad with
            | none => s.finishWrites p id (r.refused.orElse fun _ => no) detail
            | some q => s.finishBy p id Cause.movePoison (some q) detail

/-- What SEQ_FORK reads. -/
def State.seqForkReads (p : Nat) (s : State) (c : Cmd) : List Finder :=
  s.onSeqReads p c fun _ =>
    let e := s.seqEntry p (c.fld 36 2)
    let q := (s.part p).seq
    let x := s.stream p e.stream.toNat
    let tail := if e.pos.toNat % 64 = 0 ∨ e.tailMissing then none else q.entry (c.fld 36 2) (e.pos.toNat / 64)
    if e.state != .idle then [] else
    (if e.streamEn then s.streamReads p [e.stream.toNat] ++ [Finder.reads p Cause.movePoison (ORef.of x.stateRef.toNat) x.bytesOfState] else [])
      ++ (if c.fld 64 8 = 0 then [] else [Finder.reads p Cause.operandPoison (c.ref 64) (8 * c.fld 44 2)])
      ++ s.blockReads p (c.fld 36 2)
      ++ (tail.map fun b => Finder.reads p Cause.movePoison ⟨q.pool.toNat, 65536 * q.planes * b⟩ (65536 * q.planes)).toList

/-- Runs SEQ_FORK `id` of partition `p`. -/
def execSeqFork (p : PartId) (id : Nat) (s : State) (ecc : List EccHit := []) : Res := .next ((s.eccRead p.val id (·.runs 2 0x11) (State.seqForkReads p.val) ecc).seqFork p.val id)

/-- Whether a START finds the configuration of the SEQ page in order (R203, Tables 5.5, 5.16, 5.17). -/
def State.seqConfigOk (s : State) (p : Nat) : Bool :=
  let q := (s.part p).seq
  let cap := (s.part p).ctl.seqCap.toNat
  let ok (h : BitVec 20) (homes : List Home) (n : Nat) : Bool :=
    let o := s.object p h.toNat
    o.usable && homes.contains o.src.home && decide (n ≤ o.size.toNat)
  decide (1 ≤ q.maxBlocks) && decide (q.maxBlocks ≤ 4096) && decide (1 ≤ q.nblocks) && decide (q.nblocks * q.planes ≤ 4194304)
    && decide (2 * bitsOf q.pinLimit.toNat 0 23 ≤ q.nblocks)
    && ok q.pool [.h, .l] (q.nblocks * q.planes * 65536) && ok q.metaObj [.c, .h, .l] (q.nblocks * 72)
    && ok q.pl [.c, .h, .l] (cap * q.maxBlocks * q.planes * 4) && ok q.content [.h, .l] (q.nblocks * 64 * q.recBytes)

/-- Every entry of every page list written as missing (R176). -/
def State.blankLists (s : State) (p : Nat) : State :=
  let q := (s.part p).seq
  (s.pokeHeld p ⟨q.pl.toNat, 0⟩ (List.replicate ((s.part p).ctl.seqCap.toNat * q.maxBlocks * q.planes * 4) 0xFF)).1

/-- START of the SEQ page (R203, R491): refused with SEQ_CONFIG, or started; after a change of configuration the pool is all
FREE and the tree empty. -/
def State.seqPageStart (s : State) (p : Nat) : State :=
  let q := (s.part p).seq
  if q.started then s
  else if !s.seqConfigOk p || (q.changed && q.table.any fun e => e.2.state != .empty) then
    s.rejectVf p 0x15 0x008 errStart Cause.seqConfig 1
  else if q.changed then
    ((s.modSeq p fun q => { q with started := true, changed := false, pool' := [], lists := [] }).blankLists p).dirtyRange p q.metaObj.toNat 0
      (72 * q.nblocks)
  else s.modSeq p fun q => { q with started := true }

/-- STOP of the SEQ page (R203, R491): refused with SEQ_BUSY while a SEQ command is outstanding. -/
def State.seqPageStop (s : State) (p : Nat) : State :=
  if !(s.part p).seq.started then s
  else if (s.part p).cmd.cmds.any fun c => c.engine == 2 then s.rejectVf p 0x15 0x008 errStop Cause.seqBusy 2
  else s.modSeq p fun q => { q with started := false }

end Sys2Proof.Machine
end

