-- ==== Sys2Proof/Machine/BatchStep.lean ====
section
/-!
DEFINITION. The batch step (R187 to R197): the plan, collection of members, the workspace, the generated list calls, and the
completion actions of STEP_COMMIT and STEP_PHASE_FAIL.
-/

namespace Sys2Proof.Machine

/-- A step plan's header and phases (R188). -/
structure Plan where
  nphase : Nat
  maxRows : Nat
  maxMembers : Nat
  chunk : Nat
  phases : List Phase

/-- Where the regions of a workspace start (Table 5.11). -/
def wsRM (r : Nat) : Nat := roundUp (8 * r) 64
/-- The conditioning table. -/
def wsCT (r : Nat) : Nat := wsRM r + roundUp (2 * r) 64
/-- The member list. -/
def wsML (r m : Nat) : Nat := wsCT r + 64 * m
/-- The call blocks. -/
def wsCB (r m : Nat) : Nat := wsML r m + roundUp (32 * m) 64
/-- The size of a workspace. -/
def wsSize (r m : Nat) : Nat := wsCB r m + 256 * 832

/-- A phase entry read (Table 5.10); none: a field outside its range. -/
def parsePhase (bs : List Byte) : Option Phase :=
  let rm := fieldAt bs 1 1
  if 1 < fieldAt bs 0 1 ∨ 7 < rm ∨ rm = 0 ∨ rm = 5 ∨ !zeroAt bs 2 6 ∨ !zeroAt bs 37 27 then none else
  some { perSeq := fieldAt bs 0 1 == 1, rowmask := BitVec.ofNat 3 rm, callRef := word64 bs 8, fillRef := word64 bs 16
         callBytes := slice bs 24 13 }

/-- The plan that a STEP's operands name (R188, R189): its bytes' fault, or the plan, or none where BAD_PLAN holds. -/
def State.readPlan (s : State) (p : Nat) (c : Cmd) : Option (Option W64 × Option Plan) :=
  let r := c.ref 40
  let ws := c.ref 48
  if bitsOf (c.fld 35 1) 1 7 ≠ 0 ∨ 4096 ≤ c.fld 36 2 ∨ c.fld 38 2 ≠ 0 ∨ !c.zeroFrom 56 ∨ r.off % 64 ≠ 0 ∨ ws.off % 64 ≠ 0
      ∨ !s.inObj p r 64 then none else
  let hd := s.peekO p r 64
  match hd.fault with
  | some q => some (some q, none)
  | none =>
    let n := fieldAt hd.bytes 0 1
    let rows := fieldAt hd.bytes 4 4
    let mem := fieldAt hd.bytes 8 4
    let chunk := fieldAt hd.bytes 12 4
    if n = 0 ∨ 32 < n ∨ !zeroAt hd.bytes 1 3 ∨ rows = 0 ∨ 65535 < rows ∨ mem = 0 ∨ 4096 < mem ∨ chunk % 64 ≠ 0 ∨ chunk < 64
        ∨ 16384 < chunk ∨ !zeroAt hd.bytes 16 48 ∨ 4095 < c.fld 36 2 + n - 1 ∨ !s.inObj p r (64 + 64 * n)
        ∨ !s.inObj p ws (wsSize rows mem) then none else
    let body := s.peekO p (r.add 64) (64 * n)
    match body.fault with
    | some q => some (some q, none)
    | none =>
      match (List.range n).mapM fun i => parsePhase (slice body.bytes (64 * i) 64) with
      | none => none
      | some ph => some (none, some { nphase := n, maxRows := rows, maxMembers := mem, chunk := chunk, phases := ph })

/-- What a candidate contributes (R191). -/
def SeqEntry.contribution (e : SeqEntry) (i chunk : Nat) : Member :=
  let mk (kind f n : Nat) (rc : Bool) : Member :=
    { seq := i, kind := kind, guide := e.guide && kind == 2, recompute := rc, first := f, count := n
      rows := if e.guide && kind == 2 then 2 * n else n, row0 := 0 }
  if e.recompute then mk 0 e.rcStart.toNat (min (e.rcEnd.toNat - e.rcStart.toNat) chunk) true
  else if e.pend ≠ 0 then mk 0 e.pos.toNat (min e.pend.toNat chunk) false
  else if e.kind = 0 then mk 1 e.pos.toNat e.rows.toNat false
  else mk 2 e.pos.toNat e.rows.toNat false

/-- Whether a candidate is runnable but for its blocks (R173). -/
def State.runnable (s : State) (p : Nat) (e : SeqEntry) : Bool :=
  e.state == .idle && !e.hold && (!e.gateEn || waitMet (s.token p e.gateTok.toNat).val (e.gateBase + e.step + 1))

/-- The order of candidates (R190): priority, then earliest last_step_wm under R23, seen from waymark `wm`, then id. -/
def stepKey (wm : W32) (i : Nat) (e : SeqEntry) : Nat :=
  ((7 - e.priority.toNat) * 2 ^ 34 + (if e.stepped then (2 ^ 31 - (wm - e.lastStepWm).toInt).toNat else 0)) * 2 ^ 17 + i

/-- A collection in progress. -/
structure Collect where
  s : State
  drops : Drops := {}
  members : List Member := []
  rows : Nat := 0
  starved : List Nat := []
  passed : Bool := false

/-- A sequence that ends goes FINISHED and signals end_tok (R195 step 7). -/
def State.endSeq (s : State) (p i : Nat) : State :=
  let e := s.seqEntry p i
  let s := s.modSeqEntry p i fun e => { e with state := .finished }
  if e.endTok = 0xFFFF then s else s.signal p e.endTok.toNat false

/-- The places of the blocks that a contribution still needs (R191). -/
def Seq.missing (q : Seq) (m : Member) : List Nat :=
  if m.kind = 2 ∨ m.count = 0 then [] else
  ((List.range ((m.first + m.count - 1) / 64 + 1 - m.first / 64)).map (m.first / 64 + ·)).filter fun j => (q.entry m.seq j).isNone

/-- One candidate taken up by a collection (R190, R191, R184): one that gets its blocks and does not fit gives them back. -/
def Collect.take (x : Collect) (p : Nat) (wm : W32) (pl : Plan) (noTier2 : Bool) (i : Nat) : Collect :=
  if !x.s.runnable p (x.s.seqEntry p i) then x else
  let (s, d) := x.s.readBlocks p i wm x.drops
  let e := s.seqEntry p i
  let m := e.contribution i pl.chunk
  let q := (s.part p).seq
  if m.kind = 1 ∧ 64 * q.maxBlocks < e.pos.toNat + e.rows.toNat then
    { x with s := (s.endSeq p i).raisePart p Cause.seqCapacity (srcSeq p) wm, drops := d }
  else
    match s.supply p e.priority.toNat (!noTier2) (q.missing m) d with
    | (s, none, d) => { x with s := s, drops := d, starved := x.starved ++ [i] }
    | (s, some l, d) =>
      if pl.maxRows < x.rows + m.rows ∨ pl.maxMembers ≤ x.members.length then { x with s := s.returnBlocks p l, drops := d, passed := true }
      else
        { x with
          s := (s.placeBlocks p i l).modSeqEntry p i fun e => { e with state := .inStep }
          drops := d, members := x.members ++ [m], rows := x.rows + m.rows }

/-- The members in the order of the batch, with their first rows (R192). -/
def layOut (ms : List Member) : List Member :=
  let ord := (ms.filter (·.kind == 0)) ++ (ms.filter (·.kind == 1)) ++ (ms.filter (·.kind == 2))
  (ord.foldl (fun (r : List Member × Nat) m => (r.1 ++ [{ m with row0 := r.2 }], r.2 + m.rows)) ([], 0)).1

/-- The schedule entry of a member's step: t and σ; a missing entry gives zeros (R193). -/
def State.schedule (s : State) (p : Nat) (e : SeqEntry) : Rd :=
  let r := (ORef.of e.schedRef.toNat).add (8 * e.step.toNat)
  if s.inObj p r 8 then s.peekO p r 8 else { bytes := List.replicate 8 0 }

/-- The schedule entries that a STEP's members read, counted (R245). -/
def State.countSchedule (s : State) (p : Nat) (ms : List Member) : State :=
  (ms.filter (·.kind == 2)).foldl (fun s m =>
    let e := s.seqEntry p m.seq
    let r := (ORef.of e.schedRef.toNat).add (8 * e.step.toNat)
    if s.inObj p r 8 then s.countO p r 8 else s) s

/-- A conditioning entry (Table 3.5, R193). -/
def condEntry (a b c vec : W32) (seed : W64) (step : W32) : List Byte :=
  leBytes 4 a.toNat ++ leBytes 4 b.toNat ++ leBytes 4 c.toNat ++ leBytes 4 vec.toNat ++ leBytes 8 seed.toNat ++ leBytes 4 step.toNat
    ++ leBytes 4 0

/-- The conditioning entries 2m and 2m + 1 of a member (R193). -/
def State.condOf (s : State) (p : Nat) (m : Member) : List Byte :=
  let e := s.seqEntry p m.seq
  let sc := (s.schedule p e).bytes
  let (a, b, c) := if m.kind = 2 then (word32 sc 0, word32 sc 4, e.guideW)
    else (w32 (rn (Num.ofInt e.step.toNat)), 0#32, 0#32)
  condEntry a b c e.condVec e.seed e.step
    ++ (if m.guide then condEntry a b c e.uncondVec e.seed e.step else List.replicate 32 0)

/-- kv_len of a member (Table 5.12). -/
def Member.kvLen (m : Member) : Nat := if m.kind = 2 then m.first else m.first + m.count

/-- The workspace that a step writes (Tables 5.11, 5.12, R192, R193): reference and bytes of each piece. -/
def State.workspace (s : State) (p : Nat) (ws : ORef) (maxRows maxMem : Nat) (ms : List Member) : List (ORef × List Byte) :=
  ms.zipIdx.flatMap fun (m, k) =>
    let e := s.seqEntry p m.seq
    let adv := m.kind != 0
    let row (i : Nat) : List Byte × List Byte :=
      let pos := if m.guide then m.first + i / 2 else m.first + i
      let un := m.guide && i % 2 == 1
      (leBytes 4 pos ++ leBytes 2 m.seq ++ [BitVec.ofNat 8 (m.kind + 4 * b2n un), 0], leBytes 2 (2 * k + b2n un))
    let rows := (List.range m.rows).map row
    [(ws.add (8 * m.row0), rows.flatMap (·.1)), (ws.add (wsRM maxRows + 2 * m.row0), rows.flatMap (·.2)),
      (ws.add (wsCT maxRows + 64 * k), s.condOf p m),
      (ws.add (wsML maxRows maxMem + 32 * k),
        leBytes 2 m.seq ++ [BitVec.ofNat 8 m.kind, BitVec.ofNat 8 (b2n m.guide + 2 * b2n adv)] ++ leBytes 4 m.row0 ++ leBytes 4 m.rows
          ++ leBytes 4 m.first ++ leBytes 4 m.kvLen ++ leBytes 4 (2 * k) ++ leBytes 4 e.step.toNat ++ leBytes 4 0)]

/-- A reference as its 64 bits (R84). -/
def ORef.bits (r : ORef) : Nat := r.handle + 2 ^ 20 * (r.off % 2 ^ 44)

/-- The members a phase selects, with their index (R194). -/
def StepRun.selected (r : StepRun) (ph : Phase) : List (Nat × Member) :=
  (r.members.zipIdx.filter fun (m, _) => bitOf ph.rowmask.toNat m.kind).map fun (m, k) => (k, m)

/-- P[0] to P[13] of a generated call (Table 5.13), and P[14] and P[15] of a per-sequence one, which are its user words (Table 5.2, log entry
89): `one` is its member, none in a BATCH phase. -/
def State.callParams (s : State) (p : Nat) (r : StepRun) (wm : W32) (sel : List (Nat × Member)) (one : Option (Nat × Member)) : List Nat :=
  let ws := ORef.of r.wsRef.toNat
  let q := (s.part p).seq
  match one with
  | none =>
    let (k, m) := sel.headD (0, { seq := 0, kind := 0, guide := false, recompute := false, first := 0, count := 0, rows := 0, row0 := 0 })
    [sel.foldl (fun n e => n + e.2.rows) 0, (ws.add (8 * m.row0)).bits, (ws.add (wsRM r.maxRows + 2 * m.row0)).bits,
      (ws.add (wsCT r.maxRows)).bits, sel.length, (ws.add (wsML r.maxRows r.maxMembers + 32 * k)).bits, wm.toNat, r.totalRows,
      0, 0, 0, 0, 0, 0]
  | some (k, m) =>
    let e := s.seqEntry p m.seq
    [m.rows, m.row0, m.first, m.kvLen, (q.listRef m.seq 0 0).bits, ceilDiv m.kvLen 64, m.seq, 2 * k, e.step.toNat, e.inRef.toNat,
      e.outRef.toNat, e.sampleRef.toNat, m.kind + 256 * b2n m.guide, k, e.user0.toNat, e.user1.toNat]

/-- The template call block of a phase as it is copied (R194): what lies past its object reads as zero. -/
def State.template (s : State) (p : Nat) (ph : Phase) : Rd :=
  let r := ORef.of ph.callRef.toNat
  let o := s.object p r.handle
  let n := if o.usable then min 832 (o.size.toNat - r.off) else 0
  let rd := s.peekO p r n
  { rd with bytes := slice rd.bytes 0 832 }

/-- The fill table that a STEP reads for a phase (R196): none where the call has no fills of its own. -/
def State.phaseFills (s : State) (p : Nat) (ph : Phase) : Option W64 :=
  let n := fieldAt ph.callBytes 7 2
  if n = 0 then none else (s.peekO p (ORef.of ph.fillRef.toNat) (16 * n)).fault

/-- The lines of a phase's fill table and template that issuing a call reads (R245). -/
def State.countPhase (s : State) (p : Nat) (ph : Phase) : State :=
  (s.countO p (ORef.of ph.callRef.toNat) 832).countO p (ORef.of ph.fillRef.toNat) (16 * fieldAt ph.callBytes 7 2)

/-- The descriptor of a generated LIST_CALL (R194). -/
def callDesc (wm : W32) (wait : Option (Nat × W32)) (sig : Nat) (callBytes : List Byte) (callRef : Nat) (fillRef : W64) : List Byte :=
  leBytes 4 (0x18 * 8 + (if wait.isSome then 2 ^ 14 else 0) + 2 ^ 16) ++ leBytes 4 wm.toNat
    ++ (match wait with
      | some (t, v) => leBytes 4 v.toNat ++ leBytes 2 t ++ leBytes 2 0
      | none => List.replicate 8 0)
    ++ List.replicate 16 0 ++ leBytes 2 sig ++ [0] ++ slice callBytes 0 13 ++ leBytes 8 callRef ++ leBytes 8 fillRef.toNat

/-- The wait of phase `i`'s calls: on the nearest earlier phase that issued any (R194). -/
def StepRun.waitOf (r : StepRun) (i : Nat) : Option (Nat × W32) :=
  ((List.range i).reverse.find? fun j => nth 0 r.issued j != 0).map fun j =>
    (r.tokBase + j, nth 0 r.sampled j + BitVec.ofNat 32 (nth 0 r.issued j))

/-- The running STEP of a partition changed. -/
def State.modRun (s : State) (p : Nat) (f : StepRun → StepRun) : State :=
  s.modSeq p fun q => { q with run := q.run.map f }

/-- What comes of trying to issue the next call. -/
inductive Issue where
  | issued (s : State)
  | blocked
  | ended (s : State)

/-- One list call issued (R194): blocked while the CMP queue of the context is full or its call block is still in use, or its object moves (R242 step 4). -/
def State.issueOne (s : State) (p : Nat) (c : Cmd) (r : StepRun) (i : Nat) (ph : Phase) (sel : List (Nat × Member))
    (one : Option (Nat × Member)) : Issue :=
  let y := (s.part p).cmd
  let slot := r.cbNext % 256
  let busy := 256 ≤ r.cbNext && ((r.calls[r.cbNext - 256]?).bind fun e => s.cmd? p e.1).any fun d => d.phase == .queued
  if y.queueFull 0 c.ctx || busy || s.anyMoving p [(ORef.of r.wsRef.toNat).handle] then .blocked else
  let seqNo := (one.map fun e => e.2.seq).getD 0xFFFF
  let tp := s.template p ph
  if tp.fault.isSome || (s.phaseFills p ph).isSome then
    .ended ((s.countPhase p ph).modRun p fun r => { r with failed := r.failed.orElse fun _ => some (i, seqNo, Cause.operandPoison), allIssued := true })
  else
    let ws := ORef.of r.wsRef.toNat
    let cb := ws.add (wsCB r.maxRows r.maxMembers + 832 * slot)
    let params := (s.callParams p r c.wm sel one).flatMap (leBytes 8)
    let (s, bad) := s.pokeO p cb (slice tp.bytes 0 64 ++ params ++ slice tp.bytes (64 + params.length) (768 - params.length))
    let s := s.countPhase p ph
    let d := callDesc c.wm (r.waitOf i) (r.tokBase + i) ph.callBytes cb.bits ph.fillRef
    let (s, id) := s.addCmd p { desc := d, ring := c.ring, ctx := c.ctx, parent := some c.id, unit := some .cmp }
    let s := s.modSys p fun y => y.modQueue 0 c.ctx (· ++ [id])
    .issued (s.modRun p fun r => { r with
      cbNext := r.cbNext + 1, calls := r.calls ++ [(id, i, seqNo)], issued := setNth r.issued i (· + 1)
      refused := r.refused.orElse fun _ => bad })

/-- Calls issued in the order of the plan until one is blocked, the plan is done or a call has failed (R194, R196); at most
`n` attempts. -/
def State.issueCalls (s : State) (p : Nat) (c : Cmd) : Nat → State
  | 0 => s
  | n + 1 =>
    match (s.part p).seq.run with
    | none => s
    | some r =>
      if r.failed.isSome || r.snuffed then s.modRun p fun r => { r with allIssued := true } else
      match r.phases[r.phase]? with
      | none => s.modRun p fun r => { r with allIssued := true }
      | some ph =>
        let sel := r.selected ph
        let next (s : State) : State := s.modRun p fun r => { r with phase := r.phase + 1, nextMember := 0 }
        if sel.isEmpty then (next s).issueCalls p c n
        else if !ph.perSeq then
          match s.issueOne p c r r.phase ph sel none with
          | .issued s => (next s).issueCalls p c n
          | .blocked => s
          | .ended s => s
        else
          match sel.find? fun e => decide (r.nextMember ≤ e.1) with
          | none => (next s).issueCalls p c n
          | some e =>
            match s.issueOne p c r r.phase ph sel (some e) with
            | .issued s => (s.modRun p fun r => { r with nextMember := e.1 + 1 }).issueCalls p c n
            | .blocked => s
            | .ended s => s

/-- The most attempts that issuing a plan can take. -/
def StepRun.fuel (r : StepRun) : Nat := r.phases.length * (r.members.length + 2) + 1

/-- The completion detail of STEP (R197). -/
def StepRun.detail (r : StepRun) : Nat :=
  r.totalRows % 65536 + 65536 * (r.members.length % 8192) + 2 ^ 29 * b2n r.dropped + 2 ^ 30 * b2n r.starved + 2 ^ 31 * b2n r.passedOver

/-- The members of a step that are still INSTEP return to IDLE (R196). -/
def State.membersIdle (s : State) (p : Nat) (ms : List Member) : State :=
  ms.foldl (fun s m => s.modSeqEntry p m.seq fun e => if e.state = .inStep then { e with state := .idle } else e) s

/-- A STEP counted as completed (R204). -/
def State.countStep (s : State) (p : Nat) : State :=
  ({ s with seqs := tmod {} s.seqs (p % 2) fun x => { x with steps := x.steps + 1 } } : State).modSeq p fun q => { q with steps := q.steps + 1 }

/-- A STEP ends DONE, with the cause `c` of a fault where it is one: it counts as completed (R196, R203, R204, R205). -/
def State.stepPoisoned (s : State) (p id : Nat) (c : W16) (q : W64) (detail : Nat) : State := (s.countStep p).finishBy p id c (some q) detail

/-- The entries of some sequences read (R205): the fault of the first poisoned one is the command's to report, and each further one raises
SEQ_POISON of its own (Table 5.3). -/
def State.readEntries (s : State) (p : Nat) (wm : W32) (is : List Nat) : State × Option W64 :=
  is.foldl (fun (a : State × Option W64) i =>
    match a.1.readEntry p i, a.2 with
    | (s, none), bad => (s, bad)
    | (s, some q), none => (s, some q)
    | (s, some q), some q0 => (s.raiseIn p q Cause.seqPoison (srcSeq p) wm [], some q0)) (s, none)

/-- The blocks dropped before a STEP's calls were issued. -/
def StepRun.drops (r : StepRun) : Drops := { tier1 := r.drop1, tier2 := r.drop2, marked := r.marked }

/-- A STEP's collection and layout (R190 to R193). -/
def State.collect (s : State) (p : Nat) (c : Cmd) (pl : Plan) : State :=
  let tokBase := c.fld 36 2
  let sampled := (List.range pl.nphase).map fun i => (s.token p (tokBase + i)).val
  let live := ((s.part p).seq.table.filter fun e => e.2.state != .empty && e.2.state != .faulted).map (·.1)
  let (t, bad) := s.readEntries p c.wm live
  match bad with
  | some q => t.stepPoisoned p c.id Cause.seqPoison q 0
  | none =>
    let order := sortBy (fun i => stepKey c.wm i (s.seqEntry p i)) live
    let x := order.foldl (fun (x : Collect) i => x.take p c.wm pl (bitOf (c.fld 35 1) 0) i) { s := s }
    let s := x.s.countDrops p x.drops
    let s := match x.starved with
      | [] => s
      | i :: _ => s.raisePart p Cause.kvStarved (srcSeq p) c.wm (leBytes 4 0 ++ leBytes 2 i ++ leBytes 2 x.starved.length)
    let ms := layOut x.members
    let run : StepRun := {
      id := c.id, members := ms, phases := pl.phases, maxRows := pl.maxRows, maxMembers := pl.maxMembers, wsRef := word64 c.desc 48
      tokBase := tokBase, sampled := sampled, issued := List.replicate pl.nphase 0, dropped := x.drops.any
      starved := !x.starved.isEmpty, passedOver := x.passed, totalRows := x.rows
      drop1 := x.drops.tier1, drop2 := x.drops.tier2, marked := x.drops.marked }
    if ms.isEmpty then ((s.dropEvent p c.wm x.drops).countStep p).done p c.id run.detail else
    let s := s.countSchedule p ms
    match ms.findSome? fun m => if m.kind = 2 then (s.schedule p (s.seqEntry p m.seq)).fault else none with
    | some q => ((s.dropEvent p c.wm x.drops).membersIdle p ms).stepPoisoned p c.id Cause.operandPoison q run.detail
    | none =>
      let (s, bad) := s.pokeAll p (s.workspace p (c.ref 48) pl.maxRows pl.maxMembers ms)
      match bad with
      | some q => ((s.dropEvent p c.wm x.drops).membersIdle p ms).stepPoisoned p c.id Cause.poisonWrite q run.detail
      | none => (((s.modSeq p fun q => { q with run := some run }).modCmd p c.id fun c => { c with stage := 1 })).issueCalls p c run.fuel

/-- STEP (R178, R187 to R194, R240): at its start the plan is read and the members collected; then, and whenever it is taken up again, its
list calls are issued as far as the CMP queue and its call blocks allow. It waits where its workspace moves (R242 step 4). -/
def State.stepCmd (s : State) (p id : Nat) : State :=
  onStarted s p id 2 0x13 fun c =>
    if c.stage = 0 then
      if !(s.object p (c.ref 40).handle).usable || !(s.object p (c.ref 48).handle).usable then s.skip p id Cause.badOperand else
      match s.readPlan p c with
      | none => s.skip p id Cause.badPlan
      | some (some q, _) => s.stepPoisoned p id Cause.operandPoison q 0
      | some (none, none) => s.skip p id Cause.badPlan
      | some (none, some pl) =>
        if s.destCheck p (c.ref 48).handle ≠ 0 then s.skip p id (s.destCheck p (c.ref 48).handle)
        else if s.anyMoving p [(c.ref 48).handle] then s
        else (s.countO p (c.ref 40) (64 + 64 * pl.nphase)).collect p c pl
    else
      match (s.part p).seq.run with
      | some r => if r.id = id && !r.allIssued then s.issueCalls p c r.fuel else s
      | none => s

/-- The template and the fill table of a phase, as issuing a call reads them. -/
def State.phaseReads (s : State) (p : Nat) (ph : Phase) : List Finder :=
  let r := ORef.of ph.callRef.toNat
  [Finder.reads p Cause.operandPoison r (min 832 ((s.object p r.handle).size.toNat - r.off)),
    Finder.reads p Cause.operandPoison (ORef.of ph.fillRef.toNat) (16 * fieldAt ph.callBytes 7 2)]

/-- What the collection of a STEP reads: the entries of the live sequences, the blocks of the runnable ones, the schedule entries of the members it
takes. -/
def State.collectReads (s t : State) (p : Nat) (c : Cmd) : List Finder :=
  let live := ((s.part p).seq.table.filter fun e => e.2.state != .empty && e.2.state != .faulted).map (·.1)
  live.flatMap (s.entryReads p ·)
    ++ (if live.any fun i => (s.readEntry p i).2.isSome then [] else
      (live.filter fun i => s.runnable p (s.seqEntry p i)).flatMap (s.blockReads p ·))
    ++ (((((t.part p).seq.run.filter fun r => r.id == c.id).map (·.members)).getD []).filter fun m => m.kind == 2).map fun m =>
      let e := s.seqEntry p m.seq
      Finder.reads p Cause.operandPoison ((ORef.of e.schedRef.toNat).add (8 * e.step.toNat)) 8

/-- What STEP reads as its row runs: its plan, then what it collects and what it issues. -/
def State.stepReads (p : Nat) (s : State) (c : Cmd) : List Finder :=
  let t := s.stepCmd p c.id
  let now := if c.stage = 0 then none else (s.part p).seq.run
  let before := (now.map fun r => r.calls.length).getD 0
  let calls := match (t.part p).seq.run with
    | some r => if r.id != c.id then [] else
      ((r.calls.drop before).map (·.2.1) ++ (if (now.bind (·.failed)).isSome then [] else (r.failed.map (·.1)).toList)).flatMap fun i =>
        (r.phases[i]?).toList.flatMap (s.phaseReads p ·)
    | none => []
  if c.stage ≠ 0 then calls else
  let n := fieldAt (s.peekO p (c.ref 40) 64).bytes 0 1
  [Finder.reads p Cause.operandPoison (c.ref 40) 64, Finder.reads p Cause.operandPoison (c.ref 40) (64 + 64 * n)]
    ++ (match s.readPlan p c with
      | some (none, some _) => s.collectReads t p c ++ calls
      | _ => [])

/-- Whether every call that a STEP issued is terminal. -/
def State.callsOver (s : State) (p : Nat) (r : StepRun) : Bool := r.calls.all fun e => (s.cmd? p e.1).isNone

/-- The sample word ends an AR sequence (R195 step 3): a missing or poisoned word does not. -/
def State.sampleEnds (s : State) (p : Nat) (e : SeqEntry) : Bool :=
  let r := ORef.of e.sampleRef.toNat
  s.inObj p r 8 && (let rd := s.peekO p r 8; rd.fault.isNone && word32 rd.bytes 0 == e.endValue)

/-- The sample word of a member that the end of its step reads, counted (R195 step 3, R245). -/
def State.countSample (s : State) (p : Nat) (m : Member) : State :=
  let e := s.seqEntry p m.seq
  let r := ORef.of e.sampleRef.toNat
  if m.kind = 1 ∧ e.endCheck ∧ ¬ (e.target ≠ 0 ∧ e.step + 1 = e.target) ∧ s.inObj p r 8 then s.countO p r 8 else s

/-- The completion actions of one member (R195). -/
def State.commitMember (s : State) (p : Nat) (c : Cmd) (m : Member) : State :=
  let e := s.seqEntry p m.seq
  let (e', ends) :=
    match m.kind with
    | 0 =>
      if m.recompute then
        let st := e.rcStart + BitVec.ofNat 32 m.count
        if e.rcEnd.toNat ≤ st.toNat then ({ e with rcStart := st, recompute := false, tailMissing := false }, false)
        else ({ e with rcStart := st }, false)
      else ({ e with pos := e.pos + BitVec.ofNat 32 m.count, pend := e.pend - BitVec.ofNat 32 m.count }, false)
    | 1 =>
      let e' := { e with pos := e.pos + BitVec.ofNat 32 m.count, step := e.step + 1 }
      (e', (e.target != 0 && e'.step == e.target) || (e.endCheck && s.sampleEnds p e))
    | _ => ({ e with step := e.step + 1 }, e.step + 1 == e.target)
  let s := (s.countSample p m).modSeqEntry p m.seq fun _ => { e' with state := .idle }
  let s := s.sealUpTo p m.seq (s.part p).seq.maxBlocks 0
  let s := s.modSeqEntry p m.seq fun e => { e with lastStepWm := c.wm, stepped := true }
  let now := (s.part p).seq.steps
  let s := ((s.part p).seq.blocksOf m.seq).foldl (fun s b => s.modBlock p b.2 fun x => { x with stamp := now }) s
  if !ends then s else
  let s := s.endSeq p m.seq
  if e.autoEnd then (s.releaseSeq p m.seq).1 else s

/-- The end of a STEP whose calls are terminal with cause 0 (R195): the members' completion actions. -/
def State.stepCommit (s : State) (p id : Nat) : State :=
  onStarted s p id 2 0x13 fun c =>
    match (s.part p).seq.run with
    | none => s
    | some r =>
      if r.id ≠ id || !r.allIssued || r.failed.isSome || r.snuffed || !s.callsOver p r then s else
      let (t, bad) := s.readEntries p c.wm (r.members.map (·.seq))
      match bad with
      | some q =>
        (((t.membersIdle p r.members).modSeq p fun q => { q with run := none }).dropEvent p c.wm r.drops).stepPoisoned p id Cause.seqPoison q
          r.detail
      | none =>
        let (s, d) := r.members.foldl (fun (a : State × Drops) m => a.1.readBlocks p m.seq c.wm a.2) (s, {})
        let s := s.countStep p
        let s := r.members.foldl (fun s m => s.commitMember p c m) s
        let all := r.drops.join d
        (((s.countDrops p d).dropEvent p c.wm all).modSeq p fun q => { q with run := none }).finishWrites p id r.refused
          ({ r with dropped := all.any } : StepRun).detail

/-- The end of a STEP one of whose calls failed, or that was snuffed (R196): no member advances. -/
def State.stepPhaseFail (s : State) (p id : Nat) : State :=
  onStarted s p id 2 0x13 fun c =>
    match (s.part p).seq.run with
    | none => s
    | some r =>
      if r.id ≠ id || !s.callsOver p r then s else
      let complete (s : State) : State := ((s.membersIdle p r.members).modSeq p fun q => { q with run := none }).dropEvent p c.wm r.drops
      if r.snuffed then (complete s).finish p id .snuffed 0 r.detail r.wrote else
      match r.failed with
      | none => s
      | some (ph, sq, cause) =>
        (((complete s).countStep p).finish p id .done Cause.stepPhaseFail r.detail).modCmd p id fun c =>
          { c with evDetail := some ([BitVec.ofNat 8 ph, 0, 0, 0] ++ leBytes 2 sq ++ leBytes 2 cause.toNat) }

/-- What the end of a STEP reads (R195): the entries and the blocks of its members, and the sample words that it looks at. -/
def State.commitReads (p : Nat) (s : State) (c : Cmd) : List Finder :=
  match (s.part p).seq.run with
  | none => []
  | some r =>
    if r.id ≠ c.id || !r.allIssued || r.failed.isSome || r.snuffed || !s.callsOver p r then [] else
    r.members.flatMap fun m =>
      let e := s.seqEntry p m.seq
      s.entryReads p m.seq ++ s.blockReads p m.seq
        ++ (if m.kind = 1 ∧ e.endCheck ∧ ¬ (e.target ≠ 0 ∧ e.step + 1 = e.target) then [Finder.reads p 0 (ORef.of e.sampleRef.toNat) 8] else [])

/-- What the end of a failed STEP reads (R196): the entries of its members, which it writes back IDLE. -/
def State.failReads (p : Nat) (s : State) (c : Cmd) : List Finder :=
  match (s.part p).seq.run with
  | some r => if r.id = c.id && s.callsOver p r && (r.snuffed || r.failed.isSome) then r.members.flatMap fun m => s.entryReads p m.seq else []
  | none => []

/-- Runs the end of the failed STEP `id` of partition `p`. -/
def execStepPhaseFail (p : PartId) (id : Nat) (s : State) (ecc : List EccHit := []) : Res := .next ((s.eccRead p.val id (·.runs 2 0x13) (State.failReads p.val) ecc).stepPhaseFail p.val id)

end Sys2Proof.Machine
end

