-- ==== Sys2Proof/Machine/Lists.lean ====
section
/-!
DEFINITION. The common commands (R22, R34 to R38) but SNUFF, and list slots (R52 to R56).
-/

namespace Sys2Proof.Machine

/-- The next state of a common command with opcode `op` that has started, whatever its engine (R22). -/
def onCommon (s : State) (p id op : Nat) (f : Cmd → State) : State :=
  match s.cmd? p id with
  | some c => if c.phase == .started && c.op == op then f c else s
  | none => s

/-- The commands that a FENCE covers (R36): fetched commands of its context that have been routed, with a smaller number than
`before`; scope ENGINE: those of its engine. What ends at its fetch is routed to none. -/
def State.fenceCovers (s : State) (p ctx engine scope before : Nat) : List Nat :=
  ((s.part p).cmd.cmds.filter fun d =>
    d.ctx == ctx && d.parent.isNone && d.autoTok.isNone && d.unit.isSome && d.phase != .held && !endsAtFetch d.desc && decide (d.id < before)
      && (scope != 0 || d.engine == engine)).map (·.id)

/-- The operand checks of FENCE, WAIT and SIGNAL (R34, R36, R38); 0: all pass. -/
def commonCheck (c : Cmd) : W16 :=
  let x := c.fld 35 1
  let bad :=
    match c.op with
    | 0x01 => decide (2 < x) || !c.zeroFrom 36
    | 0x02 => decide (1 < x) || !c.zeroFrom 36
    | 0x03 => decide (1 < x) || decide (4095 < c.fld 36 2) || c.fld 38 1 == 0 || decide (64 < c.fld 38 1)
        || decide (4096 < c.fld 36 2 + c.fld 38 1) || c.fld 39 1 != 0 || !c.zeroFrom 44
    | _ => false
  if bad then Cause.badOperand else 0

/-- FENCE (R36, R37): done once every command it covers has its terminal record; all writes of the model are visible to the
host at once (log entry 19). -/
def State.fence (s : State) (p id : Nat) : State :=
  onCommon s p id Op.fence fun c => if c.covers.all fun i => (s.cmd? p i).isNone then s.done p id else s

/-- Runs FENCE `id` of partition `p`. -/
def execFence (p : PartId) (id : Nat) (s : State) : Res := .next (s.fence p.val id)

/-- WAIT (R38): its waits were satisfied when it started. -/
def State.wait (s : State) (p id : Nat) : State := onCommon s p id Op.wait fun _ => s.done p id

/-- Runs WAIT `id` of partition `p`. -/
def execWait (p : PartId) (id : Nat) (s : State) : Res := .next (s.wait p.val id)

/-- SIGNAL (R34): its range of tokens; its own signal follows with its terminal record. -/
def State.signalCmd (s : State) (p id : Nat) : State :=
  onCommon s p id Op.signal fun c =>
    (s.signalRange p (c.fld 36 2) (c.fld 38 1) (if c.fld 35 1 = 1 then some (word32 c.desc 40) else none)).rearm p |>.done p id

/-- Runs SIGNAL `id` of partition `p`. -/
def execSignal (p : PartId) (id : Nat) (s : State) : Res := .next (s.signalCmd p.val id)

/-- List slot `n` of partition `p`. -/
def State.listSlot (s : State) (p n : Nat) : ListSlot := tget {} (s.part p).cmd.lists n
/-- The state with list slot `n` of partition `p` changed. -/
def State.modList (s : State) (p n : Nat) (f : ListSlot → ListSlot) : State :=
  s.modSys p fun y => { y with lists := tmod {} y.lists n f }
/-- The active buffer of a slot. -/
def ListSlot.current (l : ListSlot) : List Byte := if l.active then l.buf1 else l.buf0
/-- The slot with its inactive buffer written. -/
def ListSlot.setInactive (l : ListSlot) (bs : List Byte) : ListSlot := if l.active then { l with buf0 := bs } else { l with buf1 := bs }

/-- The descriptors of a list from 64-byte slot `k` on, with the slots where they start (R54); at most `n`. -/
def splitList : Nat → Nat → List Byte → List (Nat × List Byte)
  | 0, _, _ => []
  | n + 1, k, bs =>
    if bs.isEmpty then [] else
    let size := if dExt bs then 128 else 64
    (k, slice bs 0 size) :: splitList n (k + size / 64) (bs.drop size)

/-- The descriptors of a list. -/
def listDescs (bs : List Byte) : List (Nat × List Byte) := splitList (bs.length / 64) 0 bs

/-- Whether a list passes the validation of R54 step 3: the fetch checks but the waymark checks, zero waymarks, and no
descriptor beyond the length. -/
def listValid (g : Grade) (bs : List Byte) : Bool :=
  (listDescs bs).all fun (k, d) =>
    headerCheck g d == 0 && zeroAt d 4 4 && decide (64 * k + (if dExt d then 128 else 64) ≤ bs.length)

/-- The source of a LIST_LOAD (Table 1.14). -/
def Cmd.listSource (c : Cmd) : ORef := ⟨c.fld 40 4, c.fld 44 8⟩

/-- The operand checks of LIST_LOAD (R54); 0: all pass. -/
def listLoadCheck (s : State) (p : Nat) (c : Cmd) : W16 :=
  let n := c.fld 36 4
  if decide (63 < c.fld 35 1) || n == 0 || decide (2 ^ 20 ≤ c.fld 40 4) || c.fld 44 8 % 64 != 0 || !c.zeroFrom 52 then Cause.badOperand
  else if n % 64 != 0 || decide (4096 * (s.part p).ctl.listCap.toNat < n) then Cause.listTooLarge
  else if !s.inObj p c.listSource n then Cause.badOperand
  else 0

/-- Where a buffer of a list slot lies in its partition's area (R303, log entry 92). -/
def State.bufferAt (s : State) (p n : Nat) (second : Bool) : Nat := 4096 * (s.part p).ctl.listCap.toNat * (2 * n + b2n second)

/-- LIST_LOAD, steps 1 to 3 (R54, R303, R505): waits while an earlier load of the slot has not switched; copies the source into the
inactive buffer and validates it. No other command holds a buffer from one step of the model to the next (log entry 19). -/
def State.listLoad (s : State) (p id : Nat) : State :=
  onCommon s p id Op.listLoad fun c =>
    let n := c.fld 35 1
    let l := s.listSlot p n
    if c.stage = 1 then s
    else if l.loaded.isSome then
      s.modList p n fun l => { l with loadWaiting := addTo l.loadWaiting id }
    else
      let s := s.modList p n fun l => { l with loadWaiting := l.loadWaiting.filter (· != id) }
      let len := c.fld 36 4
      let rd := s.peekO p c.listSource len
      let s := (s.countO p c.listSource len).countArea p (s.bufferAt p n (!l.active)) len
      match rd.fault with
      | some q => s.finishBy p id Cause.operandPoison (some q)
      | none =>
        if !listValid s.fuse.grade rd.bytes then s.skip p id Cause.listInvalid
        else (s.modList p n fun l => { l.setInactive rd.bytes with loaded := some id }).modCmd p id fun c => { c with stage := 1 }

/-- What LIST_LOAD reads. -/
def State.listReads (p : Nat) (s : State) (c : Cmd) : List Finder :=
  if c.stage = 1 || (s.listSlot p (c.fld 35 1)).loaded.isSome then [] else [Finder.reads p Cause.operandPoison c.listSource (c.fld 36 4)]

/-- Runs steps 1 to 3 of LIST_LOAD `id` of partition `p`. -/
def execListLoad (p : PartId) (id : Nat) (s : State) (ecc : List EccHit := []) : Res := .next ((s.eccRead p.val id (fun c => c.phase == .started && c.op == Op.listLoad) (State.listReads p.val) ecc).listLoad p.val id)

/-- LIST_LOAD, step 4 (R54): the new buffer becomes active and the generation counts. -/
def State.listSwitch (s : State) (p id : Nat) : State :=
  onCommon s p id Op.listLoad fun c =>
    let n := c.fld 35 1
    if c.stage ≠ 1 || (s.listSlot p n).loaded ≠ some id then s else
    let s := s.modList p n fun l => { l with active := !l.active, gen := l.gen + 1, loaded := none }
    s.done p id (s.listSlot p n).gen.toNat

/-- Runs step 4 of LIST_LOAD `id` of partition `p`. -/
def execListGenerationSwitch (p : PartId) (id : Nat) (s : State) : Res := .next (s.listSwitch p.val id)

end Sys2Proof.Machine
end

