-- ==== Sys2Proof/Machine/Calls.lean ====
section
/-!
DEFINITION. LIST_CALL (R140 to R153, R506): the call block, fills, FIXED and SHARED calls, participants and replay.
-/

namespace Sys2Proof.Machine

/-- A LIST_CALL as its operands state it (Table 4.1). -/
structure CallOps where
  slot : Nat
  shared : Bool
  bucketSel : Bool
  reset : Bool
  group : Nat
  base : Nat
  count : Nat
  nfill : Nat
  nbucket : Nat
  ext : Nat
  block : ORef
  fill : Nat
  deriving Repr

/-- The operands of a LIST_CALL. -/
def Cmd.call (c : Cmd) : CallOps :=
  let m := c.fld 36 1
  { slot := c.fld 35 1, shared := bitOf m 0, bucketSel := bitOf m 1, reset := bitOf m 2, group := c.fld 37 1, base := c.fld 38 2
    count := c.fld 40 2, nfill := c.fld 42 2, nbucket := c.fld 44 1, ext := c.fld 45 1, block := c.ref 48, fill := c.fld 56 8 }

/-- The clusters of partition `p`. -/
def State.clusterCount (s : State) (p : Nat) : Nat := 10 * (s.part p).ctl.quads.toNat

/-- The checks of a LIST_CALL's own operands (R140, R141, R149); 0: all pass. -/
def callCheck (s : State) (p : Nat) (c : Cmd) : W16 :=
  let g := c.call
  if decide (63 < g.slot) || bitsOf (c.fld 36 1) 3 5 != 0 || c.fld 46 2 != 0 || decide (4096 < g.nfill) || (g.nfill == 0 && g.fill != 0)
      || (g.bucketSel && (g.slot != 0 || g.group != 0 || g.nfill != 0 || g.fill != 0 || g.nbucket == 0 || decide (16 < g.nbucket)
        || decide (63 < g.ext)))
      || (!g.bucketSel && (g.nbucket != 0 || g.ext != 0))
      || (g.shared && !g.bucketSel && (g.group == 0 || decide (4 < g.group)))
      || (g.shared && g.count == 0)
      || (!g.shared && (g.group != 0 || g.count != 0 || g.reset)) then Cause.badOperand
  else if g.shared && decide (s.clusterCount p < g.base + g.count) then Cause.badCluster
  else if g.block.off % 64 != 0 then Cause.badAlign
  else if !s.inObj p g.block (if g.bucketSel then 832 else 576) then Cause.badOperand
  else 0

/-- A bucket entry (Table 4.3). -/
structure Bucket where
  maxExtent : Nat
  slot : Nat
  group : Nat
  nfill : Nat
  fill : Nat
  deriving Repr

/-- Bucket entry `b` of a call block. -/
def bucketAt (blk : List Byte) (b : Nat) : Bucket :=
  let o := 576 + 16 * b
  ⟨fieldAt blk o 4, fieldAt blk (o + 4) 1, fieldAt blk (o + 5) 1, fieldAt blk (o + 6) 2, fieldAt blk (o + 8) 8⟩

/-- Whether a bucket table is in order (R141). -/
def bucketsOk (shared : Bool) (bs : List Bucket) : Bool :=
  bs.all (fun b => decide (b.slot ≤ 63) && decide (b.nfill ≤ 4096)
    && (if shared then decide (1 ≤ b.group) && decide (b.group ≤ 4) else b.group == 0))
  && (bs.zip (bs.drop 1)).all fun e => decide (e.1.maxExtent < e.2.maxExtent)

/-- The bucket table of a call block. -/
def CallOps.table (g : CallOps) (b : List Byte) : List Bucket := (List.range g.nbucket).map (bucketAt b)
/-- The bucket that a LIST_CALL takes, with its number: the first whose max_extent holds the call's, or what the descriptor says where it selects
none (R142). -/
def CallOps.bucketOf (g : CallOps) (b : List Byte) : Option (Nat × Bucket) :=
  if g.bucketSel then ((g.table b).findIdx? fun e => decide (fieldAt b (64 + 8 * g.ext) 8 ≤ e.maxExtent)).map fun i => (i, bucketAt b i)
  else some (0, ⟨0, g.slot, g.group, g.nfill, g.fill⟩)

/-- A number as a signed 64-bit one (R143). -/
def signed64 (x : Int) : Int := ofTwos 64 (toTwos 64 x)

/-- The result of a fill operation (Table 4.5); none: reserved. -/
def fillValue (op f param : Nat) (imm : Int) : Option Int :=
  let p := ofTwos 64 param
  match op with
  | 0 => some (p + imm)
  | 1 => some ((f : Int) + p * imm)
  | 2 => some (min (max (signed64 (p - imm)) 0) (ofTwos 64 f))
  | _ => none

/-- One fill entry applied to an instance (R143); none: FILL_RANGE. `starts`: the slots where descriptors start. -/
def applyFill (starts : List (Nat × List Byte)) (params : Nat → Nat) (inst e : List Byte) : Option (List Byte) :=
  let off := bitsOf (fieldAt e 2 1) 0 7
  let w := fieldAt e 3 1
  let n := 2 ^ bitsOf w 0 2
  match starts.find? (·.1 == fieldAt e 0 2) with
  | none => none
  | some (k, d) =>
    if off < 35 ∨ d.length < off + n ∨ bitOf (fieldAt e 2 1) 7 ∨ bitsOf w 5 3 ≠ 0 ∨ 63 < fieldAt e 4 1 ∨ !zeroAt e 5 3 ∨ !zeroAt e 12 4 then none
    else
      let a := 64 * k + off
      (fillValue (bitsOf w 2 3) (fieldAt inst a n) (params (fieldAt e 4 1)) (ofTwos 32 (fieldAt e 8 4))).map fun v =>
        inst.take a ++ leBytes n (toTwos 64 v) ++ inst.drop (a + n)

/-- The CMP opcodes that carry a cluster field and may stand in a list (R144). -/
def clusterOp (op : Nat) : Bool := op == 0x10 || op == 0x11 || op == 0x12 || op == 0x13 || op == 0x16 || op == 0x17 || op == 0x19

/-- Whether the inner commands of a call are ones it may hold (R144). -/
def listContentOk (shared : Bool) (group : Nat) (ds : List (Nat × List Byte)) : Bool :=
  (!shared || ds.length % group == 0) && ds.zipIdx.all fun ((_, d), i) =>
    let op := dOpcode d
    dEngine d == 0 && (clusterOp op || op == Op.wait || op == Op.signal || (op == Op.fence && fieldAt d 35 1 == 0))
      && (!shared || (dNwait d == 0 && !dSigEn d && (!clusterOp op || zeroAt d 38 2)
        && (op != 0x11 || (i % group == 0 && bitsOf (fieldAt d 47 1) 0 1 == 0 && zeroAt d 112 4 && zeroAt d 120 8))))

/-- A list cut into tile groups. -/
def groupsOf {α : Type} (n : Nat) : Nat → List α → List (List α)
  | 0, _ => []
  | k + 1, l => if l.isEmpty then [] else l.take n :: groupsOf n k (l.drop n)

/-- A descriptor with `n` bytes at `i` written. -/
def putField (d : List Byte) (i n v : Nat) : List Byte := d.take i ++ leBytes n v ++ d.drop (i + n)

/-- An inner command of call `c` (R145, R146): it carries the call's waymark and writes no record. -/
def Cmd.inside (c : Cmd) (slot : Nat) (d : List Byte) (tile : Option Nat) : Cmd :=
  { desc := putField d 4 4 c.wm.toNat, ring := c.ring, ctx := c.ctx, parent := some c.id, slot := slot, inner := true
    tile := tile, unit := some .cmp }

/-- The cluster field of a FIXED inner command with cluster_base added (R145): a sum past the field's range names no cluster
either, and stands there as the field's largest value. -/
def addBase (base : Nat) (d : List Byte) : List Byte :=
  if clusterOp (dOpcode d) then putField d 38 2 (min 0xFFFF (fieldAt d 38 2 + base)) else d

/-- Inner commands of a call put into the list of outstanding commands, in list order; chunks are counted against their streams
as the instance stands after its fills (R210, log entry 30). A FENCE covers what was routed before the call and what stands
before it in its list or tile group. -/
def State.addInner (s : State) (p : Nat) (c : Cmd) (tile : Option Nat) (ds : List (Nat × List Byte)) : State × List Nat :=
  ds.foldl (fun (r : State × List Nat) (x : Nat × List Byte) =>
    let covers := if dOpcode x.2 = Op.fence then r.1.fenceCovers p c.ctx 0 0 c.id ++ r.2 else []
    let (s, id) := r.1.addCmd p { c.inside x.1 x.2 tile with covers := covers }
    (if dOpcode x.2 = 0x19 then s.countChunk p id else s, r.2 ++ [id])) (s, [])

/-- Commands that will not run removed; chunks among them no longer count (R210). -/
def State.dropCmds (s : State) (p : Nat) (ids : List Nat) : State :=
  let s := ids.foldl (fun s i =>
    match s.cmd? p i with
    | some d => if d.counted then (s.scanStreams p d).foldl (fun s k => s.modStream p k fun x => { x with pending := x.pending - 1 }) s else s
    | none => s) s
  s.modSys p fun y => { y with cmds := y.cmds.filter fun d => !ids.contains d.id, queues := y.queues.map fun e => (e.1, e.2.filter fun i => !ids.contains i) }

/-- The first failing inner command in list order: slot, cause and fault. -/
def Call.firstFail (k : Call) : Option (Nat × W16 × Option W64) := k.causes.head?

/-- The completion detail of a call (Table 4.6). -/
def Call.detail (k : Call) : Nat :=
  ((k.firstFail.map (·.1)).getD 0xFFFF) % 65536 + 65536 * sat 8 k.replays + 2 ^ 24 * (k.bucket % 16) + 2 ^ 28 * b2n (!k.lost.isEmpty)
    + 2 ^ 29 * b2n k.removed

/-- Whether indices remain that no participant has taken (R153). Where the counter's line is poisoned, those of tiles that no participant
has run (log entry 30). -/
def State.indicesRemain (s : State) (p : Nat) (k : Call) : Bool :=
  !k.replay.isEmpty || (!k.exhausted && (let rd := s.peekO p (ORef.of k.counterRef.toNat) 8
    if rd.fault.isSome then !k.waiting.isEmpty else decide (leNat rd.bytes < k.groups.length)))

/-- Whether a call is over: no inner command runs and, in a SHARED call, every participant has left or been removed. -/
def Call.over (k : Call) : Bool := k.open'.isEmpty && (!k.shared || k.snuffed || k.participants.all fun x => x.left || x.removed)

/-- A call that is over ends with the cause that R147 or R506 gives it; commands of tiles that never ran go. It has written where an inner
command has. -/
def State.callSettle (s : State) (p id : Nat) : State :=
  match s.call? p id with
  | none => s
  | some k =>
    if !k.over then s else
    let rest := s.indicesRemain p k
    let s := s.dropCmds p (k.waiting.flatMap (·.2) ++ k.participants.flatMap (·.rest))
    let s := (s.modSys p fun y => { y with calls := y.calls.filter fun e => e.1 != id }).modCmd p id fun c => { c with wrote := k.wrote }
    if k.snuffed then s.finish p id .snuffed 0 k.detail k.wrote
    else if k.shared && rest then s.finish p id .done Cause.noParticipant k.detail
    else if !k.lost.isEmpty then s.finishBy p id Cause.tileLost k.lostSeq k.detail
    else match k.refused with
    | some q => s.finishBy p id Cause.poisonWrite (some q) k.detail
    | none =>
      match k.firstFail with
      | some (_, cause, q) => s.finishBy p id cause q k.detail
      | none => s.done p id k.detail

/-- The largest CLU_WATCH_LIMIT of the clusters of partition `p` from `base` on. -/
def State.maxWatch (s : State) (p base count : Nat) : Nat :=
  (List.range count).foldl (fun n i => max n (((s.relCluster p (base + i)).map fun k => (s.cluster k).watchLimit.toNat).getD 0)) 0

/-- tile_watch as it applies to a call (Table 4.2, R483). -/
def State.tileWatch (s : State) (p : Nat) (g : CallOps) (t : Nat) : Nat :=
  let w := s.maxWatch p g.base g.count
  min (max (if t = 0 then 4 * w else t) (ceilDiv (5 * w) 2)) (2 * (s.part p).wdg.limit.toNat / 5)

/-- Whether a SHARED call's counter and claim bitmap are where they must be (R149). -/
def State.sharedHome (s : State) (p : Nat) (counter claim : ORef) (ntiles : Nat) : Bool :=
  let inC (r : ORef) (n : Nat) : Bool := s.inObj p r n && (s.object p r.handle).src.home == .c && r.off % 8 == 0
  inC counter 8 && inC claim (8 * ceilDiv ntiles 64)

/-- The counter and the claim bits of `n` tiles zeroed (R149); poisoned lines stay as they are, and the fault of the first is answered
(R260). -/
def State.zeroClaims (s : State) (p : Nat) (counter claim : ORef) (n : Nat) : State × Option W64 :=
  let whole := n / 8
  let r := claim.add whole
  let b := leNat (s.peekO p r 1).bytes
  s.applyWrs p ([.store counter (List.replicate 8 0), .store claim (List.replicate whole 0)]
    ++ if n % 8 = 0 then [] else [.store r [BitVec.ofNat 8 (b / 2 ^ (n % 8) * 2 ^ (n % 8))]])

/-- A call whose list stands: its inner commands are made, and take the call's place at the head of its queue (FIXED, R146) or
wait for participants (SHARED, R149). -/
def State.openCall (s : State) (p : Nat) (c : Cmd) (group : Nat) (k : Call) (ds : List (Nat × List Byte)) : State :=
  let g := c.call
  let s := s.modCmd p c.id fun c => { c with stage := 1 }
  if !g.shared then
    let (s, ids) := s.addInner p c none (ds.map fun x => (x.1, addBase g.base x.2))
    s.modSys p fun y => { y.modQueue 0 c.ctx (ids ++ ·) with calls := y.calls ++ [(c.id, { k with open' := ids })] }
  else
    let gs := groupsOf group ds.length ds
    let (s, ws) := gs.zipIdx.foldl (fun (r : State × Tbl (List Nat)) x =>
      let (s, ids) := r.1.addInner p c (some x.2) x.1
      (s, r.2 ++ [(x.2, ids)])) (s, [])
    let (s, bad) := if g.reset then s.zeroClaims p (ORef.of k.counterRef.toNat) (ORef.of k.claimRef.toNat) gs.length else (s, none)
    s.modSys p fun y => { y with
      calls := y.calls ++ [(c.id,
        { k with groups := gs, waiting := ws, participants := List.replicate g.count {}, refused := bad })] }

/-- The objects that a SHARED call writes: those of its counter and of its claim bitmap (R149, R178). -/
def counterDests (counter claim : W64) : List Nat := [(ORef.of counter.toNat).handle, (ORef.of claim.toNat).handle]

/-- Whether an inner command's end is that of a refused claim that loses its tile: the record of its fault is then that of TILE_LOST, the
outermost cause (R473, R506). -/
def State.losesTile (s : State) (p : Nat) (d : Cmd) : Bool :=
  d.inner && d.engine == 0 && d.op == 0x11 && d.stage == 2 && d.faultSeq.isSome &&
    match d.parent.bind (s.call? p ·), d.participant, d.tile with
    | some k, some _, some i => !k.lost.contains i
    | _, _, _ => false

/-- LIST_CALL (R140 to R145, R149): the call block, the bucket, the instance, its fills and its content. The call block of a FIXED call has no
tile_watch: DEDUCED (log entry 30): one that is not zero is a nonzero unused field, as counter_ref and claim_ref are. A call that would zero a counter
and bitmap whose object moves waits for the move (R242 step 4). -/
def State.listCall (s0 : State) (p id : Nat) : State :=
  onStarted s0 p id 0 0x18 fun c =>
    let s := s0
    if c.stage ≠ 0 then s else
    let g := c.call
    let n := if g.bucketSel then 832 else 576
    let blk := s.peekO p g.block n
    let s := s.countO p g.block n
    match blk.fault with
    | some q => s.finishBy p id Cause.operandPoison (some q) 0xFFFF
    | none =>
      let b := blk.bytes
      let counter := word64 b 0
      let claim := word64 b 8
      let params (i : Nat) : Nat := fieldAt b (64 + 8 * i) 8
      if !zeroAt b 20 44 || (!g.shared && !zeroAt b 0 20) then s.skip p id Cause.badOperand
      else if g.bucketSel && !bucketsOk g.shared (g.table b) then s.skip p id Cause.badBucketTable
      else
        match g.bucketOf b with
        | none => s.skip p id Cause.noBucket
        | some (i, e) =>
          let list := (s.listSlot p e.slot).current
          let starts := listDescs list
          let fr := ORef.of e.fill
          let s := s.countArea p (s.bufferAt p e.slot (s.listSlot p e.slot).active) list.length
          if list.isEmpty then s.skip p id Cause.listEmpty
          else if e.nfill ≠ 0 && !s.inObj p fr (16 * e.nfill) then s.skip p id Cause.badOperand
          else
            let fills := s.peekO p fr (16 * e.nfill)
            let s := s.countO p fr (16 * e.nfill)
            match if e.nfill = 0 then none else fills.fault with
            | some q => s.finishBy p id Cause.operandPoison (some q) 0xFFFF
            | none =>
              match (List.range e.nfill).foldl (fun (x : Option (List Byte)) j =>
                  x.bind fun inst => applyFill starts params inst (slice fills.bytes (16 * j) 16)) (some list) with
              | none => s.skip p id Cause.fillRange
              | some inst =>
                let ds := listDescs inst
                if !listContentOk g.shared e.group ds then s.skip p id Cause.listContent
                else if g.shared && !s.sharedHome p (ORef.of counter.toNat) (ORef.of claim.toNat) (ds.length / e.group) then
                  s.skip p id Cause.counterHome
                else if g.shared && (counterDests counter claim).any (fun h => s.destCheck p h != 0) then
                  s.skip p id (((counterDests counter claim).map (s.destCheck p ·)).foldl (fun a b => if a = 0 then b else a) 0)
                else if g.shared && g.reset && s.anyMoving p (counterDests counter claim) then s0
                else
                  s.openCall p c e.group
                    { shared := g.shared, clusterBase := g.base, counterRef := counter, claimRef := claim
                      tileWatch := s.tileWatch p g (fieldAt b 16 4), bucket := i, computes := ds.any fun d => clusterOp (dOpcode d.2) } ds

/-- What LIST_CALL reads as it starts: its call block; where that is in order, its list and its fill table. -/
def State.callReads (p : Nat) (s : State) (c : Cmd) : List Finder :=
  if c.stage ≠ 0 then [] else
  let g := c.call
  let n := if g.bucketSel then 832 else 576
  let blk := s.peekO p g.block n
  Finder.reads p Cause.operandPoison g.block n ::
    (match if blk.fault.isSome then none else g.bucketOf blk.bytes with
    | none => []
    | some (_, e) => [Finder.area p (s.bufferAt p e.slot (s.listSlot p e.slot).active) (s.listSlot p e.slot).current.length,
        Finder.reads p Cause.operandPoison (ORef.of e.fill) (16 * e.nfill)])

/-- Runs LIST_CALL `id` of partition `p`. -/
def execListCall (p : PartId) (id : Nat) (s : State) (ecc : List EccHit := []) : Res := .next ((s.eccRead p.val id (·.runs 0 0x18) (State.callReads p.val) ecc).listCall p.val id)

/-- The first 64-byte slot and descriptor of the commands of tile `i`. -/
def Call.tileGroup (k : Call) (i : Nat) : List (Nat × List Byte) := nth [] k.groups i
/-- Whether tile `i` is reduced by a REDUCE_INTO. -/
def Call.reduces (k : Call) (i : Nat) : Bool := (k.tileGroup i).any fun d => dOpcode d.2 == 0x11

/-- Participant `n` of a call changed. -/
def Call.modPpt (k : Call) (n : Nat) (f : Participant → Participant) : Call := { k with participants := setNth k.participants n f }

/-- TILE_LOST or TILE_REPLAY of tile `i` raised by the control core (R151, R152); `q`: the fault it is a consequence of. -/
def State.tileEvent (s : State) (p : Nat) (c : Cmd) (cause : W16) (i : Nat) (q : Option W64) : State :=
  let d := leBytes 4 0 ++ leBytes 4 i
  match q with
  | none => s.raisePart p cause (srcCore p) c.wm d
  | some q => s.raiseIn p q cause (srcCore p) c.wm d

/-- Tile `i` of a call is lost, once (R151, R152, R506). -/
def State.loseTile (s : State) (p : Nat) (c : Cmd) (i : Nat) (q : Option W64) : State :=
  match s.call? p c.id with
  | none => s
  | some k =>
    if k.lost.contains i then s else
    let seq := q.getD s.ev.seq
    (s.tileEvent p c Cause.tileLost i q).modCall p c.id fun k =>
      { k with lost := k.lost ++ [i], lostSeq := k.lostSeq.orElse fun _ => some seq, replay := k.replay.filter (· != i) }

/-- Tile `i` of a call has failed: replayed twice, then lost (R151). -/
def State.failTile (s : State) (p : Nat) (c : Cmd) (i : Nat) : State :=
  match s.call? p c.id with
  | none => s
  | some k =>
    let n := tget 0 k.failures i + 1
    let s := s.modCall p c.id fun k => { k with failures := tset k.failures i n }
    if 2 < n then s.loseTile p c i none
    else (s.tileEvent p c Cause.tileReplay i none).modCall p c.id fun k => { k with replay := k.replay ++ [i], replays := k.replays + 1 }

/-- The commands of participant `n`'s group that have not started do not run. -/
def State.dropRest (s : State) (p id n : Nat) : State :=
  match (s.call? p id).bind (·.participants[n]?) with
  | none => s
  | some x =>
    (s.dropCmds p x.rest).modCall p id fun k =>
      { k.modPpt n (fun y => { y with rest := [], run := y.run.filter fun i => !x.rest.contains i }) with
        open' := k.open'.filter fun i => !x.rest.contains i }

/-- Participant `n` of a call leaves it. -/
def State.leaveCall (s : State) (p id n : Nat) : State := s.modCall p id fun k => k.modPpt n fun x => { x with left := true }

/-- Participant `n` on cluster `cl` takes up the group of tile `i` (R150): a REDUCE_INTO gets its claim fields. -/
def State.takeGroup (s : State) (p : Nat) (c : Cmd) (n i cl : Nat) : State :=
  match s.call? p c.id with
  | none => s
  | some k =>
    let (s, ids) := match tget [] k.waiting i with
      | [] => s.addInner p c (some i) (k.tileGroup i)
      | ids => (s, ids)
    let patch (d : List Byte) : List Byte :=
      let d := if clusterOp (dOpcode d) then putField d 38 2 cl else d
      if dOpcode d = 0x11 then
        putField (putField (putField d 47 1 (fieldAt d 47 1 / 2 * 2 + 1)) 112 4 i) 120 8 k.claimRef.toNat
      else d
    let s := ids.foldl (fun s j => s.modCmd p j fun d => { d with desc := patch d.desc, participant := some n }) s
    s.modCall p c.id fun k =>
      { k.modPpt n (fun x => { x with index := some i, rest := ids, run := ids, claimed := false, failed := false }) with
        waiting := tfilter (· != i) k.waiting, open' := k.open' ++ ids }

/-- PARTICIPANT_TAKE_INDEX (R150, R151, R506): participant `n`, whose group is over and whose halves are IDLE, takes the next
index, and claims it where its group is a store group and no replay; a FETCH_ADD or OR on an object that moves waits (R242 step 4). -/
def State.takeIndex (s : State) (p id n : Nat) : State :=
  match s.cmd? p id, s.call? p id with
  | some c, some k =>
    match k.participants[n]?, s.relCluster p (k.clusterBase + n) with
    | some x, some phys =>
      let cl := s.cluster phys
      if x.left || x.removed || k.snuffed || !x.run.isEmpty || cl.l.state == .selfCheck || cl.r.state == .selfCheck
          || (k.replay.isEmpty && s.anyMoving p (counterDests k.counterRef k.claimRef)) then s
      else if cl.l.state == .offline || cl.r.state == .offline then (s.leaveCall p id n).callSettle p id
      else
        match k.replay with
        | i :: rest =>
          let s := s.modCall p id fun k => { k with replay := rest }
          s.takeGroup p c n i (k.clusterBase + n)
        | [] =>
          let (s, i, bad) := s.memOp p .fetchAdd (ORef.of k.counterRef.toNat) 1
          match bad with
          | some q =>
            ((s.leaveCall p id n).modCall p id fun k => { k with refused := k.refused.orElse fun _ => some q }).callSettle p id
          | none =>
            if k.groups.length ≤ i then ((s.leaveCall p id n).modCall p id fun k => { k with exhausted := true }).callSettle p id
            else if k.reduces i then s.takeGroup p c n i (k.clusterBase + n)
            else
              match s.claimBit p (ORef.of k.claimRef.toNat) i with
              | (s, .lost) => s
              | (s, .won) => s.takeGroup p c n i (k.clusterBase + n)
              | (s, .refused q) => ((s.loseTile p c i (some q)).leaveCall p id n).callSettle p id
    | _, _ => s
  | _, _ => s

/-- The lines that a participant's FETCH_ADD and its claim add to (R150, R259). -/
def State.takeFinder (s : State) (p id : Nat) : Finder :=
  Finder.of p Cause.poisonWrite [] (((s.call? p id).map fun k => (List.range k.groups.length).map fun i =>
    Wr.red .or ((ORef.of k.claimRef.toNat).add (8 * (i / 64))) 0).getD []
    ++ ((s.call? p id).map fun k => Wr.red .fetchAdd (ORef.of k.counterRef.toNat) 1).toList)

/-- Participant `k` of the SHARED call `id` of partition `p` takes an index. -/
def execParticipantTakeIndex (p : PartId) (id k : Nat) (s : State) (ecc : List EccHit := []) : Res :=
  .next ((s.eccWrite p.val id (fun _ => s.takeFinder p.val id) ecc).takeIndex p.val id k)

/-- TILE_WATCH_EXPIRY (R151): participant `n`, whose group is not over, is removed; its index fails; its group runs on. -/
def State.tileWatchExpiry (s : State) (p id n : Nat) : State :=
  match s.cmd? p id, s.call? p id with
  | some c, some k =>
    match k.participants[n]? with
    | some x =>
      match x.index with
      | some i =>
        if x.left || x.removed || x.run.isEmpty || k.snuffed then s else
        let s := s.modCall p id fun k => { k.modPpt n (fun x => { x with removed := true, failed := true }) with removed := true }
        ((if x.failed then s else s.failTile p c i)).callSettle p id
      | none => s
    | none => s
  | _, _ => s

/-- The watch of participant `k` of the SHARED call `id` of partition `p` expires. -/
def execTileWatchExpiry (p : PartId) (id k : Nat) (s : State) : Res := .next (s.tileWatchExpiry p.val id k)

/-- The causes after which a store group is replayed (R151). -/
def replayable (cause : W16) : Bool :=
  cause == Cause.arrayFault || cause == Cause.arrayTimeout || cause == Cause.wickFault || cause == Cause.halfOffline

/-- What the end of inner command `d` of a SHARED call does to its participant and its tile (R150 to R152, R506). Only a lost or refused claim
keeps the rest of its group from running. -/
def State.participantTerminal (s : State) (p : Nat) (c d : Cmd) : State :=
  match d.participant, d.tile, s.call? p c.id with
  | some n, some i, some k =>
    match k.participants[n]? with
    | none => s
    | some x =>
      let red := k.reduces i
      let claim := d.engine == 0 && d.op == 0x11
      let won := x.claimed || (claim && d.stage == 1 && !bitOf d.detail.toNat 21)
      let s := s.modCall p c.id fun k => k.modPpt n fun x => { x with run := x.run.filter (· != d.id), claimed := won }
      if claim && d.stage == 2 then
        ((s.dropRest p c.id n).loseTile p c i d.faultSeq).leaveCall p c.id n
      else if claim && bitOf d.detail.toNat 21 && d.cause == 0 then s.dropRest p c.id n
      else if d.cause == Cause.operandPoison then s.loseTile p c i none
      else if replayable d.cause then
        if red && won then s.loseTile p c i none
        else if x.failed then s
        else (s.modCall p c.id fun k => k.modPpt n fun x => { x with failed := true }).failTile p c i
      else s
  | _, _, _ => s

/-- What the terminal record of inner command `d` of call `c` does to the call (R147, R151); `q`: the fault that its cause is or
follows from. A command that ended with a cause counts although its tile was replayed (R506). -/
def State.innerTerminal (s : State) (p : Nat) (c d : Cmd) (q : Option W64) : State :=
  let s := s.modCall p c.id fun k => { k with
    open' := k.open'.filter (· != d.id)
    wrote := k.wrote || d.partialDone || d.wrote
    causes := if d.cause = 0 || k.causes.any (·.1 == d.slot) then k.causes else tset k.causes d.slot (d.cause, q) }
  (s.participantTerminal p c d).callSettle p c.id

end Sys2Proof.Machine
end

