-- ==== Sys2Proof/Machine/FaultRows.lean ====
section
/-!
DEFINITION. Faults of the array and of Wick, and the self-check of a half (R94 to R96, R134).
-/

namespace Sys2Proof.Machine

/-- The work of a started command on its cluster, whatever its opcode. -/
def State.workOf (s : State) (p : Nat) (c : Cmd) (k : Nat) : Work :=
  match c.op with
  | 0x10 => s.gemmWork p c k
  | 0x11 => s.reduceWork p c k
  | 0x12 => s.wickWork p c (s.wickIn0 p c.wick)
  | 0x13 => s.normWork p c
  | 0x16 => s.convWork p c k
  | 0x17 => s.attnWork p c k
  | _ => s.scanWork p c k

/-- The objects that a started command on a cluster writes. -/
def State.destsOf (s : State) (p : Nat) (c : Cmd) : List Nat :=
  match c.op with
  | 0x10 => [c.gemm.d.handle]
  | 0x11 => c.gemm.d.handle :: if c.gemm.claimEn then [c.gemm.claim.handle] else []
  | 0x12 => c.wick.dests
  | 0x13 => [c.norm.out.handle]
  | 0x16 => [c.conv.out.handle]
  | 0x17 => [if c.attn.final then c.attn.out.handle else c.attn.acc.handle]
  | _ => s.scanDests p c.scan

/-- Whether a command's work passes through the array, and whether it passes through Wick (R94, R134). -/
def Cmd.usesArray (c : Cmd) : Bool :=
  c.op == 0x10 || c.op == 0x11 || c.op == 0x16 || c.op == 0x17 || (c.op == 0x19 && c.scan.gated)
/-- Whether a command's work passes through Wick or a Lantern bank. -/
def Cmd.usesWick (c : Cmd) (bound : Bool) : Bool :=
  c.op == 0x12 || c.op == 0x13 || c.op == 0x17 || c.op == 0x19 || (c.op == 0x10 && bound)

/-- The halves that a command occupies. -/
def Cmd.occupies (c : Cmd) : HalfSel := if c.left && c.right then .full else if c.left then .left else .right
/-- The code of a half operand in an event's detail (R96). -/
def halfCode : HalfSel → Nat
  | .full => 0
  | .left => 1
  | .right => 2
/-- Whether a half operand takes in the left half. -/
def hasLeft (h : HalfSel) : Bool := h != .right
/-- Whether a half operand takes in the right half. -/
def hasRight (h : HalfSel) : Bool := h != .left

/-- The halves of a cluster changed by `f`. -/
def State.modHalves (s : State) (k : Nat) (h : HalfSel) (f : Half → Half) : State :=
  s.modCluster k fun c =>
    { c with
      l := if hasLeft h then f c.l else c.l
      r := if hasRight h then f c.r else c.r }

/-- The page number of the CLU page of a physical cluster (R98). -/
def cluPage (k : Nat) : Nat := 0x1000 + 0x80 * (k / 42) + 5 + k % 42

/-- The command of partition `p` that runs on exactly the halves `h` of a cluster (R71): at its turn, and no armed WICK_OP. -/
def State.runningOn (s : State) (p k : Nat) (h : HalfSel) : Option Cmd :=
  ((s.cluster k).buffer.filterMap (s.cmd? p ·)).find? fun c =>
    c.phase == .started && !c.armed && !(c.op == 0x12 && c.wick.chain) && c.occupies == h && s.mayRun p c
      && !(s.cluster k).anyHalf c .offline

/-- What a fault was: its cause, kind (R96, R134) and place. -/
structure FaultNote where
  cause : W16
  kind : Nat
  row : Nat
  column : Nat
  deriving Repr

/-- What a command that a fault stops has to show (R95 step 2, R109): the state with its writes made and its work metered, the number of rows
written, and the parts of the details that stand. -/
structure Short where
  state : State
  rows : Nat := 0
  detail : Nat := 0
  pairDetail : Nat := 0

/-- A piece of work cut after the array advanced `beats` beats (R72, R96). -/
def Work.cutAt (w : Work) (u beats : Nat) : Work := { w.cut u with beats := w.weight * beats }

/-- What a command that stops in mid-course leaves (R95 step 2, R109): a command that accumulates writes nothing, another its first
rows, at most `rows`. A bound pair has the rows of D, where it writes D, and the rows of Wick that they complete; a fault of Wick
(`inWick`) can come while an accumulator's rows pass. The array's advances are the event's `beats`; what else the meters count is free. -/
def State.cutShort (s : State) (p k : Nat) (c : Cmd) (w : Option Cmd) (beats rows : Nat) (inWick : Bool) : Short :=
  let u := s.free
  match w with
  | some x =>
    let (g, ww) := s.pairWork p c x k
    let n := if (g.accum && !inWick) || s.anyMoving p (s.destsOf p c ++ x.wick.dests) then 0 else min rows c.gemm.mv
    let out := pairRows g ww x.wick n ww.rows.length
    let t := ((s.useFrees 12).countWork p k (g.cutAt u beats)).countWork p k (ww.cut (u + 6))
    let t := ((t.applyFor p c.id (if g.accum then [] else out.1)).1.applyFor p x.id out.2).1
    { state := t, rows := if x.wick.replace || g.accum then min (n / x.wick.span) ww.rows.length else n
      detail := g.fixed, pairDetail := ww.fixed }
  | none =>
    let own := s.workOf p c k
    let n := if own.accum || s.anyMoving p (s.destsOf p c) then 0 else min rows own.rows.length
    { state := (((s.useFrees 6).countWork p k (own.cutAt u beats)).applyFor p c.id (own.take n)).1, rows := n, detail := own.fixed }

/-- The WICK_OP bound to a GEMM_TILE, if the command is one. -/
def State.partner (s : State) (p k : Nat) (c : Cmd) : Option Cmd := (s.bound? p c k).filter fun _ => c.op == 0x10

/-- A command and its bound partner end with a cause, of fault `q`, with the detail of R96; their completion details keep what does not count
outputs (R90, R95 step 2, R118). -/
def State.faultEnds (s : State) (p : Nat) (c : Cmd) (w : Option Cmd) (cause : W16) (q : W64) (d : List Byte) (own pair : Nat) : State :=
  let complete (s : State) (id detail : Nat) : State :=
    ((s.finishBy p id cause (some q) detail).scanPartial p id).modCmd p id fun c => { c with evDetail := some d }
  let s := complete s c.id own
  match w with
  | some x => complete s x.id pair
  | none => s

/-- A fault of a running command (R95 steps 1, 2 and 4): it ends DONE with the cause; its halves forget their block and enter
SELF_CHECK. A bound pair ends as one (R109). -/
def State.faultOn (s : State) (p k : Nat) (h : HalfSel) (n : FaultNote) (beats rows : Nat) (c : Cmd) : State :=
  let w := s.partner p k c
  let cut := s.cutShort p k c w beats rows (n.cause == Cause.wickFault)
  let (q, s) := cut.state.newFault
  let s := s.faultEnds p c w n.cause q
    ([BitVec.ofNat 8 (halfCode h), BitVec.ofNat 8 n.kind, BitVec.ofNat 8 n.row, BitVec.ofNat 8 n.column] ++ leBytes 4 beats
      ++ leBytes 2 cut.rows) cut.detail cut.pairDetail
  let s := s.modHalves k h fun x => { x with state := .selfCheck, stationary := none, fromWick := n.cause == Cause.wickFault }
  s.modCluster k fun x => { x with lastFault := BitVec.ofNat 32 (n.kind + 256 * halfCode h + 65536 * n.row + 2 ^ 24 * n.column) }

/-- A fault of the command that runs on the halves `h` of physical cluster `k`, if one does that it can befall. A REDUCE_INTO has
taken its claim before it feeds (R92). -/
def State.faultRunning (s : State) (k : Nat) (h : HalfSel) (n : FaultNote) (beats rows : Nat) (ok : Cmd → Bool → Bool) : State :=
  match s.clusterOwner k with
  | none => s
  | some (p, _) =>
    match s.runningOn p k h with
    | none => s
    | some c =>
      if !ok c (c.op == 0x10 && (s.bound? p c k).isSome) then s
      else if c.op == 0x11 && c.gemm.claimEn then
        match s.claimBit p c.gemm.claim c.gemm.seed with
        | (t, .won) => (t.modCmd p c.id fun c => { c with stage := 1 }).faultOn p k h n beats rows c
        | _ => s
      else (s.modCmd p c.id fun c => if c.op = 0x11 then { c with stage := 1 } else c).faultOn p k h n beats rows c

/-- The kind code of an array failure (R96). -/
def arrayKindCode : ArrayKind → Nat
  | .operandParity => 1
  | .stationaryParity => 2
  | .drainTag => 3

/-- ARRAY_FAULT (R94 to R96, R99). -/
def State.arrayFault (s : State) (k : Nat) (h : HalfSel) (kind : ArrayKind) (row column : Byte) (beats rows : Nat) : State :=
  let t := s.faultRunning k h ⟨Cause.arrayFault, arrayKindCode kind, row.toNat, column.toNat⟩ beats rows fun c _ => c.usesArray
  if t.ev.seq == s.ev.seq then t
  else t.modPfHdr (cluPage k) fun x => x.setBits (b2n (hasLeft h) + 2 * b2n (hasRight h))

/-- An array failure on physical cluster `cluster`. -/
def execArrayFault (cluster : Nat) (half : HalfSel) (kind : ArrayKind) (row column : Byte) (beats : W32) (rowsWritten : W16)
    (s : State) : Res := .next (s.arrayFault cluster half kind row column beats.toNat rowsWritten.toNat)

/-- ARRAY_TIMEOUT (R94 to R96, R99). -/
def State.arrayTimeout (s : State) (k : Nat) (h : HalfSel) (beats rows : Nat) : State :=
  let t := s.faultRunning k h ⟨Cause.arrayTimeout, 4, 0xFF, 0xFF⟩ beats rows fun _ _ => true
  if t.ev.seq == s.ev.seq then t else t.modPfHdr (cluPage k) fun x => x.setBits 4

/-- The watch of physical cluster `cluster` expires. -/
def execArrayTimeout (cluster : Nat) (half : HalfSel) (beats : W32) (rowsWritten : W16) (s : State) : Res :=
  .next (s.arrayTimeout cluster half beats.toNat rowsWritten.toNat)

/-- A slot of a Lantern bank marked damaged (R134). -/
def Lantern.damage (l : Lantern) (bank : Bool) (slot : Nat) : Lantern :=
  l.setBank bank ((l.bank bank).map fun e => if e.1 = slot then (e.1, { e.2 with damaged := true }) else e)

/-- WICK_FAULT (R134): as an array fault, with the lane or the Lantern unit and slot; a slot of a bank is damaged for the whole
partition. -/
def State.wickFaultOn (s : State) (k : Nat) (h : HalfSel) (kind : WickKind) (beats rows : Nat) : State :=
  let n : FaultNote := match kind with
    | .stage lane => ⟨Cause.wickFault, 5, 0xFF, lane.toNat⟩
    | .bank _ unit slot => ⟨Cause.wickFault, 6, slot.toNat, unit.toNat⟩
  let t := s.faultRunning k h n beats rows fun c bound => c.usesWick bound
  if t.ev.seq == s.ev.seq then t else
  match kind, s.clusterOwner k with
  | .bank b _ slot, some (p, _) => t.modLtn p fun l => l.damage b slot.toNat
  | _, _ => t

/-- A Wick or Lantern failure on physical cluster `cluster`. -/
def execWickFault (cluster : Nat) (half : HalfSel) (kind : WickKind) (beats : W32) (rowsWritten : W16) (s : State) : Res :=
  .next (s.wickFaultOn cluster half kind beats.toNat rowsWritten.toNat)

/-- One half after its self-check (R95 steps 5 and 6): IDLE, and its fault counted, or OFFLINE. A WICK_FAULT counts in both
counters (log entry 31). -/
def Half.checked (h : Half) (pass : Bool) : Half :=
  if h.state ≠ .selfCheck then h
  else if pass then
    { h with state := .idle, faults := satAdd h.faults 1, wickFaults := if h.fromWick then satAdd h.wickFaults 1 else h.wickFaults }
  else { h with state := .offline }

/-- Where HALF_OFFLINE is reported: the partition's ring while the cluster has one, else the PF ring. -/
def State.raiseHalfOffline (s : State) (k : Nat) : State :=
  match s.clusterOwner k with
  | some (p, r) => s.raisePart p Cause.halfOffline ⟨0x02, r⟩
  | none => s.raisePf Cause.halfOffline ⟨0x02, k⟩

/-- Halves of a physical cluster have gone OFFLINE, each set bit of ERR_STATUS saying which (R99): one event (R100). -/
def State.wentOffline (s : State) (k : Nat) (l r : Bool) : State :=
  if !(l || r) then s else (s.modPfHdr (cluPage k) fun x => x.setBits (8 * b2n l + 16 * b2n r)).raiseHalfOffline k

/-- SELF_CHECK ends (R95 steps 5 and 6, R99) for the halves of `h` that are in SELF_CHECK. DEDUCED (log entry 97): the beats of the pattern test
count neither in CLU_BEATS nor for the partition, since no command runs in them. -/
def State.selfCheckEnds (s : State) (k : Nat) (h : HalfSel) (pass : Bool) : State :=
  let c := s.cluster k
  let l := hasLeft h && c.l.state == .selfCheck
  let r := hasRight h && c.r.state == .selfCheck
  if !(l || r) then s else
  (s.modHalves k h (·.checked pass)).wentOffline k (!pass && l) (!pass && r)

/-- The self-check of a half of physical cluster `cluster` ends. -/
def execSelfCheck (cluster : Nat) (half : HalfSel) (pass : Bool) (s : State) : Res := .next (s.selfCheckEnds cluster half pass)

end Sys2Proof.Machine
end

