-- ==== Sys2Proof/Machine/Objects.lean ====
section
/-!
DEFINITION. The object table (R234, R235, R238 to R241): ranges, DEFINE, RELEASE, MARK, and what owns an object.
-/

namespace Sys2Proof.Machine

/-- The H space that the device reserves for the object table (R235). -/
def PartCtl.objBytes (c : PartCtl) : Nat := roundUp (64 * c.objCap.toNat) 1048576

/-- The size of a partition's space of a home at a place; none: the partition has no such place (R235). -/
def State.spaceBytes (s : State) (p : Nat) (hm : Home) (place : Nat) : Option Nat :=
  let c := (s.part p).ctl
  match hm with
  | .s => if place < s.clusterCount p then some sramBytes else none
  | .c => if place < 20 && !(c.hamperShare place).isEmpty then some (hamperGranule * (c.hamperShare place).length) else none
  | .h => if place = 0 then some (gib * c.hmap.length) else none
  | .l => if place = 0 then some (gib * c.lmap.length) else none

/-- The regions of a space that the device reserves: start and end (R235). -/
def State.reservedIn (s : State) (p : Nat) (hm : Home) (place : Nat) : List (Nat × Nat) :=
  let x := s.part p
  let c := x.ctl
  match hm with
  | .c =>
    if c.tableTile = some place then
      let top := hamperGranule * (c.hamperShare place).length
      [(top - c.tableBytes, top)]
    else []
  | .h =>
    let top := gib * c.hmap.length
    (0, c.objBytes) :: (if x.mir.enable && x.mir.standby then [(top - 1048576 * x.mir.stageMib.toNat, top)] else [])
  | _ => []

/-- The first address at or after `a` and below `b` that a list of regions holds. -/
def firstMeet (a b : Nat) (rs : List (Nat × Nat)) : Option Nat :=
  (minBy id) (rs.filterMap fun r => if max a r.1 < min b r.2 then some (max a r.1) else none)

/-- The partition address of the first retired page that a range of H or L covers (R263). -/
def State.retiredIn (s : State) (p : Nat) (hm : Home) (a n : Nat) : Option Nat :=
  let map := if hm = .h then (s.part p).ctl.hmap else (s.part p).ctl.lmap
  (minBy id) (s.flash.retired.filterMap fun e =>
    if e.1 ≠ hm then none else
    (map.findIdx? (· == e.2.toNat * 65536 / gib)).bind fun i =>
      let x := gib * i + e.2.toNat * 65536 % gib
      if x < a + n ∧ a < x + 65536 then some x else none)

/-- The checks of a range as DEFINE makes them (R239 steps 3 to 5): cause and offending address; 0: the range is good. -/
def State.rangeCheck (s : State) (p : Nat) (hm : Home) (place addr size : Nat) : W16 × Nat :=
  match s.spaceBytes p hm place with
  | none => (Cause.badHome, 0)
  | some top =>
    let align := if hm = .h ∨ hm = .l then 4096 else 64
    if size = 0 ∨ size % 64 ≠ 0 ∨ addr % align ≠ 0 then (Cause.destRange, addr)
    else
      match firstMeet addr (addr + size) ((top, addr + size) :: s.reservedIn p hm place) with
      | some a => (Cause.destRange, a)
      | none =>
        if hm = .h ∨ hm = .l then
          match s.retiredIn p hm addr size with
          | some a => (Cause.retiredPage, a)
          | none => (0, 0)
        else (0, 0)

/-- OBJ_RESULT written; a range failure shows its address too. -/
def State.objResult (s : State) (p : Nat) (cause : W16) (addr : Nat) : State :=
  s.modObjs p fun y => { y with
    result := cause
    failAddr := if cause = Cause.destRange ∨ cause = Cause.retiredPage then BitVec.ofNat 64 addr else y.failAddr }

/-- The object's entry changed; a mirrored partition notes a change of a mirrored object (R406). -/
def State.setObject (s : State) (p h : Nat) (f : Obj → Obj) : State := (s.modObject p h f).markDirty p (.objE h)

/-- OBJ_CMD DEFINE (R239). -/
def State.objDefine (s : State) (p h : Nat) (hm : Home) (mirror : Bool) : State :=
  let y := (s.part p).obj
  if h = 0 ∨ (s.part p).ctl.objCap.toNat ≤ h then s.objResult p Cause.objDefine 0
  else if (s.object p h).state ≠ .free then s.objResult p Cause.objBusy 0
  else
    let (cause, a) := s.rangeCheck p hm y.defPlace.toNat y.defAddr.toNat y.defSize.toNat
    if cause ≠ 0 then s.objResult p cause a
    else (s.setObject p h fun _ =>
      { state := .present, src := { home := hm, place := y.defPlace, addr := y.defAddr }, size := y.defSize, mirror := mirror }).objResult p 0 0

/-- The objects that back a ring, completion ring or event ring that is not STOPPED (R239, R243). -/
def State.ringObject (s : State) (p h : Nat) : Bool :=
  ((List.range 16).any fun n =>
    let r := s.ring p n
    r.state != .stopped && ((r.inDevice && (baseRef r.base).handle == h) || (r.cplInDevice && (baseRef r.cplBase).handle == h)))
  || (let e := (s.part p).evt
      e.state != .stopped && bitOf e.cfg.toNat 8 && (baseRef e.base).handle == h)

/-- The handle that a MOV command names. -/
def Cmd.movHandle (c : Cmd) : Nat := bitsOf (c.fld (if c.op = 0x14 ∨ c.op = 0x15 then 36 else 40) 4) 0 20

/-- Whether a routed MOV command that is not terminal names an object. -/
def State.movNames (s : State) (p h : Nat) : Bool :=
  (s.part p).cmd.cmds.any fun c => c.engine == 1 && decide (0x10 ≤ c.op) && decide (c.op ≤ 0x15) && c.phase != .held && c.movHandle == h

/-- Whether an object holds the state or the initial state of a stream entry that is not EMPTY. -/
def State.streamObject (s : State) (p h : Nat) : Bool :=
  (s.part p).str.table.any fun e =>
    e.2.state != .empty && (e.2.handle == h || (e.2.initRef != 0 && (ORef.of e.2.initRef.toNat).handle == h))

/-- OBJ_CMD RELEASE (R239, R277): the FREE entry keeps the range it last held, which a command that has started goes on with (R240). -/
def State.objRelease (s : State) (p h : Nat) : State :=
  let o := s.object p h
  if h = 0 || decide ((s.part p).ctl.objCap.toNat ≤ h) || o.state == .free then s.objResult p Cause.objDefine 0
  else if o.state == .moving || s.movNames p h || s.ringObject p h || s.seqOwns p h || s.streamObject p h then s.objResult p Cause.objBusy 0
  else if s.sessionOwns p h then s.objResult p Cause.sessionObjectBusy 0
  else (s.setObject p h fun o => { src := o.src, size := o.size }).objResult p 0 0

/-- OBJ_CMD MARK (R239). -/
def State.objMark (s : State) (p h : Nat) (mirror : Bool) : State :=
  if h = 0 || decide ((s.part p).ctl.objCap.toNat ≤ h) || (s.object p h).state == .free then s.objResult p Cause.objDefine 0
  else (s.setObject p h fun o => { o with mirror := mirror }).objResult p 0 0

/-- OBJ_CMD as it reads after a write: go reads 0 (Table 7.5). -/
def objCmdWord (op : Nat) (mirror : Bool) (home handle : Nat) : W32 :=
  BitVec.ofNat 32 (handle + 2 ^ 25 * home + 2 ^ 27 * b2n mirror + 2 ^ 28 * op)

/-- A write of OBJ_CMD with go (R239, R241); a page that takes no write discards it (R309). -/
def State.objCmd (s : State) (p op : Nat) (mirror : Bool) (home handle : Nat) : State :=
  if !s.vfRw p then s else
  let s := s.modObjs p fun y => { y with cmd := objCmdWord op mirror home handle }
  match op with
  | 0 => s.objDefine p handle (Home.ofCode home) mirror
  | 1 => s.objRelease p handle
  | 2 => s.objMark p handle mirror
  | _ => s.objResult p Cause.objDefine 0

end Sys2Proof.Machine
end

