-- ==== Sys2Proof/Machine/Moves.lean ====
section
/-!
DEFINITION. The MOV engine (R242 to R249, R214, R215): moves of objects, FILL and SCRUB.

A move is cut in two commands of the block: the first carries out steps 1 to 3 of R242, MOVE_COMMIT steps 4 to 6. `Cmd.stage` says
how far it has come: 0 not begun (or deferred), 1 it waits for an earlier move of the object, 2 the object is MOVING.
-/

namespace Sys2Proof.Machine

/-- The force bit of a move. -/
def Cmd.mvForce (c : Cmd) : Bool := bitOf (c.fld 35 1) 0
/-- The origin bit of a move. -/
def Cmd.mvOrigin (c : Cmd) : Bool := bitOf (c.fld 35 1) 1
/-- needed_by of a PREFETCH. -/
def Cmd.neededBy (c : Cmd) : W32 := word32 c.desc 44

/-- The destination of a move (Table 7.7, R247). -/
def Cmd.mvDest (c : Cmd) (o : Obj) : Place :=
  if c.mvOrigin then o.origin
  else { home := Home.ofCode (c.fld 36 1), place := BitVec.ofNat 16 (c.fld 38 2), addr := BitVec.ofNat 64 (c.fld 48 8) }

/-- Whether Table 7.6 lets an opcode move an object from a home. -/
def moveFrom (op : Nat) (hm : Home) : Bool := if op = 0x12 then hm.near else if op = 0x13 then !hm.near else true
/-- Whether Table 7.6 lets an opcode move an object to a home. -/
def moveTo (op : Nat) (hm : Home) : Bool := if op = 0x12 then !hm.near else if op = 0x13 then hm.near else true

/-- What a move needs of its object's home and origin as they stand at the end of step 1 (R243, R247, Table 7.6); 0: all is well. -/
def moveHome (c : Cmd) (o : Obj) : W16 :=
  if !moveFrom c.op o.src.home then Cause.badHome
  else if c.mvOrigin && !o.originValid then Cause.swapOrigin
  else if !moveTo c.op (c.mvDest o).home then Cause.badHome
  else 0

/-- The checks of a MOV command at its start (R240, R246 to R248, Tables 7.6 to 7.8); 0: all pass. What depends on where an earlier move
leaves the object is checked at the end of step 1 (`moveHome`). -/
def moveCheck (s : State) (p : Nat) (c : Cmd) : W16 :=
  let o := s.object p c.movHandle
  if c.op = 0x14 ∨ c.op = 0x15 then
    let scrub := c.op == 0x15
    let align := if scrub then 64 else 8
    let off := c.fld 40 8
    let len := c.fld 48 8
    if bitsOf (c.fld 35 1) 1 7 != 0 || (c.mvForce && !scrub) || bitsOf (c.fld 36 4) 20 12 != 0 || (scrub && !c.zeroFrom 56)
        || !o.usable then Cause.badOperand
    else if len == 0 || off % align != 0 || len % align != 0 || decide (o.size.toNat < off + len) then Cause.movRange
    else s.destCheck p c.movHandle
  else if bitsOf (c.fld 35 1) 2 6 != 0 || (c.mvForce && c.op != 0x12) || (c.mvOrigin && c.op != 0x13) || bitsOf (c.fld 36 1) 2 6 != 0
      || c.fld 37 1 != 0 || bitsOf (c.fld 40 4) 20 12 != 0 || (c.op != 0x11 && c.fld 44 4 != 0) || !c.zeroFrom 56 || !o.usable then
    Cause.badOperand
  else if c.mvOrigin && (c.fld 36 1 != 0 || c.fld 38 2 != 0 || c.fld 48 8 != 0) then Cause.swapOrigin
  else if c.op == 0x11 && !later c.neededBy c.wm then Cause.prefetchDeadline
  else 0

/-- Whether a stream that an object backs has chunks pending (R214). -/
def State.chunksPending (s : State) (p h : Nat) : Bool :=
  (s.part p).str.table.any fun e => e.2.open' && e.2.handle == h && e.2.pending != 0

/-- Whether a move that started earlier has yet to move the object (R242 step 1); a deferred one stands at the head of its queue (R214). -/
def State.moveBefore (s : State) (p : Nat) (c : Cmd) : Bool :=
  (s.part p).cmd.cmds.any fun d =>
    d.engine == 1 && d.phase == .started && (d.stage == 1 || (d.stage == 0 && !d.deferred)) && d.movHandle == c.movHandle && decide (d.order < c.order)
      && decide (0x10 ≤ d.op) && decide (d.op ≤ 0x13)

/-- The bits of a move's completion detail that do not depend on the copy (R249). -/
def Cmd.mvBits (c : Cmd) : Nat := 2 ^ 29 * b2n c.deferred + 2 ^ 30 * b2n c.forced

/-- R242 steps 1 to 3 at the object's turn: the destination checked (R243), the move to the same place, the mark. -/
def State.markMove (s : State) (p : Nat) (c : Cmd) : State :=
  let h := c.movHandle
  let o := s.object p h
  let d := c.mvDest o
  let (cause, a) := if moveHome c o ≠ 0 then (moveHome c o, 0) else s.rangeCheck p d.home d.place.toNat d.addr.toNat o.size.toNat
  let bad (cause : W16) (a : Nat) : State :=
    (if cause = Cause.badHome ∨ cause = Cause.swapOrigin then s else s.modObjs p fun y => { y with failAddr := BitVec.ofNat 64 a }).skip p c.id cause
  if cause ≠ 0 then bad cause a
  else if d = o.src then s.done p c.id (2 ^ 28 + c.mvBits)
  else if d.home = o.src.home ∧ d.place = o.src.place ∧ d.addr.toNat < o.src.addr.toNat + o.size.toNat
      ∧ o.src.addr.toNat < d.addr.toNat + o.size.toNat then bad Cause.destRange (max d.addr.toNat o.src.addr.toNat)
  else
    (s.setObject p h fun o => { o with state := .moving, dst := d, moveWm := c.wm }).modCmd p c.id
      fun c => { c with stage := 2 }

/-- A move as far as its mark (R242 steps 1 to 3, R243, R214). DESIGN CHOICE (log entry 89): a deferred move holds the head of its MOV queue
and takes none of the queue's 256 entries. -/
def State.beginMove (s : State) (p : Nat) (c : Cmd) : State :=
  let h := c.movHandle
  let o := s.object p h
  let away := (c.mvDest o).home != .c && c.op != 0x13
  let waits := o.state == .moving || s.moveBefore p c
  if c.stage = 2 then s
  else if s.ringObject p h then s.skip p c.id Cause.ringObjectBusy
  else if s.destCheck p h ≠ 0 then s.skip p c.id (s.destCheck p h)
  else if !waits && moveHome c o ≠ 0 then s.skip p c.id (moveHome c o)
  else if c.stage == 0 && away && s.chunksPending p h && !c.mvForce then
    if c.deferred then s
    else (s.modCmd p c.id fun c => { c with deferred := true }).raisePart p Cause.streamSwapDeferred ⟨0x06, p % 2⟩ c.wm
  else
    let s := if c.mvForce && s.chunksPending p h then s.modCmd p c.id fun c => { c with forced := true } else s
    if waits then s.modCmd p c.id fun c => { c with stage := 1 }
    else s.markMove p ((s.cmd? p c.id).getD c)

/-- MOVE, PREFETCH, SWAP_OUT and SWAP_IN as far as their mark. -/
def State.moveRow (s : State) (p id op : Nat) : State := onStarted s p id 1 op fun c => s.beginMove p c

/-- Steps 1 to 3 of MOVE `id`. -/
def execMove (p : PartId) (id : Nat) (s : State) : Res := .next (s.moveRow p.val id 0x10)
/-- Steps 1 to 3 of PREFETCH `id`. -/
def execPrefetch (p : PartId) (id : Nat) (s : State) : Res := .next (s.moveRow p.val id 0x11)
/-- Steps 1 to 3 of SWAP_OUT `id`. -/
def execSwapOut (p : PartId) (id : Nat) (s : State) : Res := .next (s.moveRow p.val id 0x12)
/-- Steps 1 to 3 of SWAP_IN `id`. -/
def execSwapIn (p : PartId) (id : Nat) (s : State) : Res := .next (s.moveRow p.val id 0x13)

/-- The first `n` lines of an object copied to its destination (R242 step 4, R244): a poisoned line is carried over; answers the fault of
the first. -/
def State.copyLines (s : State) (p : Nat) (o : Obj) (n : Nat) : State × Option W64 :=
  (List.range n).foldl (fun (r : State × Option W64) i =>
    let rd := r.1.peek p o.src (64 * i) 64
    let s := r.1.countRange p o.src (64 * i) 64
    match rd.fault with
    | none => ((s.poke p o.dst (64 * i) rd.bytes).1, r.2)
    | some q =>
      let x := s.phys p o.dst (64 * i)
      ((s.modMem fun m => m.addPoison x.space (x.addr / 64) q).countLine p x.space x.addr, r.2.orElse fun _ => some q)) (s, none)

/-- The effect of a write of DOORBELL[n] (R14, R15, R308, R309): while its partition is DRAINING or STOPPED it updates RING_TAIL only
(log entry 42). -/
def State.ringBell (s : State) (p n : Nat) (v : W32) : State :=
  if !s.vfRw p then s else
  let r := s.ring p n
  if !r.started || (s.part p).ctl.state != .running then s.modRing p n fun r => { r with tail := v }
  else if decide (r.slots < (v - r.head).toNat) || later r.tail v then s.ringError p n Cause.ringOverrun 0 0
  else s.modRing p n fun r => { r with tail := v, state := if r.state = .idle ∧ v ≠ r.head then .fetching else r.state }

/-- Whether a command is a RECV_POST whose slots hold byte `off` of object `h`. -/
def Cmd.receivesAt (c : Cmd) (h off : Nat) : Bool :=
  c.engine == 4 && c.op == 0x11 && (c.ref 48).handle == h && decide ((c.ref 48).off ≤ off)
    && decide (off < (c.ref 48).off + c.fld 40 4 * c.fld 44 4)

/-- A held write met a poisoned line when it was applied (R242, R260): the RECV_POST that made it ends with POISON_WRITE, or has ended with
it. -/
def State.heldRefused (s : State) (p h off : Nat) (q : W64) : State :=
  let mine := ((s.part p).cmd.cmds.filter fun c => c.receivesAt h off).map (·.id)
  let mark (r : Recv) : Recv := if mine.contains r.id then { r with refused := r.refused.orElse fun _ => some q } else r
  let s := s.modNet p fun y => { y with recvs := y.recvs.map mark }
  mine.foldl (fun s i => s.modCmd p i fun c =>
    if c.phase == .ended && c.status == .done && c.cause == 0 then { c with cause := Cause.poisonWrite, faultSeq := some q } else c) s

/-- The writes that a move held applied to the object's home (R242 step 5); the DOORBELL writes that waited for the last of the
VF's BAR2 writes take effect (R364). -/
def State.releaseHeld (s : State) (p h : Nat) (ws : List (Nat × List Byte)) : State :=
  let s := ws.foldl (fun s w =>
    match s.pokeO p ⟨h, w.1⟩ w.2 with
    | (s, none) => s
    | (s, some q) => s.heldRefused p h w.1 q) s
  let s := s.flushPart p 64
  s.modVf p fun x => { x with aprHeld := x.aprHeld.filter (· != h) }

/-- `n` bytes copied by MOV[p mod 8] (R268). -/
def State.countMoved (s : State) (p n : Nat) : State :=
  { s with movs := tmod {} s.movs (p % 8) fun x => { x with bytes := wrapAdd x.bytes n } }

/-- What a move's completion detail says of `n` bytes copied (R249): KiB, and whether poisoned lines were carried. -/
def copiedBits (n : Nat) (bad : Bool) : Nat := sat 28 (ceilDiv n 1024) + 2 ^ 31 * b2n bad

/-- A move given up (R242, R244): some lines copied and abandoned, the object PRESENT in its source, the held writes released. Answers what
its completion detail says of the copy. -/
def State.abandonMove (s : State) (p h : Nat) : State × Nat :=
  let o := s.object p h
  let n := Config.freeNat s.free % (o.size.toNat / 64 + 1)
  let (s, bad) := s.useFree.copyLines p o n
  (((s.setObject p h fun o => { o with state := .present, dst := {}, moveWm := 0, held := [] }).releaseHeld p h o.held).countMoved p (64 * n),
    copiedBits (64 * n) bad.isSome)

/-- Whether a move's destination lies on a channel that satisfies `q` (R244). -/
def State.destOn (s : State) (p : Nat) (o : Obj) (q : Nat → Bool) : Bool := s.anyChannel p o.dst 0 o.size.toNat q

/-- The fault of the first FAILED channel that holds a destination line of a move. -/
def State.destFailed (s : State) (p : Nat) (o : Obj) : Option W64 :=
  if o.dst.home.near then none else
  (lineSegs 0 o.size.toNat).findSome? fun e =>
    let x := s.phys p o.dst e.1
    (chanOf x.space x.addr).bind fun k => if (s.chan k).state = .failed then some (s.chan k).failSeq else none

/-- A move ended by the failure of a channel that holds destination lines (R244). -/
def State.failMove (s : State) (p : Nat) (c : Cmd) (q : W64) : State :=
  let t := s.abandonMove p c.movHandle
  t.1.finishBy p c.id Cause.channelFail (some q) (t.2 + c.mvBits)

/-- The commit of a move and what follows it (R242 steps 5 and 6, R215, R245, R249, Table 7.3). -/
def State.commitMove (s : State) (p : Nat) (c : Cmd) : State :=
  let h := c.movHandle
  let o := s.object p h
  let n := o.size.toNat
  let out := c.op == 0x12
  let (s, bad) := s.copyLines p o (n / 64)
  let s := s.setObject p h fun o =>
    { o with
      state := .present, src := o.dst, dst := {}, moveWm := 0, held := [], poisoned := o.poisoned || bad.isSome
      originValid := out, origin := if out then o.src else o.origin }
  let s := s.dirtyRange p h 0 n
  let s := ((s.releaseHeld p h o.held).count p 8 (if out || c.op == 0x13 then n else 0)).countMoved p n
  let detail := copiedBits n bad.isSome + c.mvBits
  let s := match bad with
    | none => s.done p c.id detail
    | some q => s.finishBy p c.id Cause.movePoison (some q) detail
  if out && c.mvForce && s.chunksPending p h && !s.swapPending p h then
    match (s.part p).cmd.cmds.find? fun d => d.counted && (s.scanStreams p d).any fun i => (s.stream p i).open' && (s.stream p i).handle == h with
    | some d => s.callSwap p h d
    | none => s
  else s

/-- MOVE_COMMIT (R242 steps 4 to 6) of the move `id`. -/
def State.moveCommit (s : State) (p id : Nat) (ecc : List EccHit) : State :=
  match s.cmd? p id with
  | none => s
  | some c =>
    if c.phase != .started || c.engine != 1 || c.op < 0x10 || 0x13 < c.op || c.stage != 2 then s else
    let o := s.object p c.movHandle
    if s.stoppedAt p o.src 0 o.size.toNat || s.stoppedAt p o.dst 0 o.size.toNat then
      (s.waitAt p o.src 0 o.size.toNat).waitAt p o.dst 0 o.size.toNat else
    match s.destFailed p o with
    | some q => s.failMove p c q
    | none => (s.eccHits p c (Finder.place p 2 Cause.movePoison o.src 0 o.size.toNat) ecc).commitMove p c

/-- The MOV commands of a partition that have started and have not ended (R246). -/
def State.movRunning (s : State) (p : Nat) : Nat :=
  (s.part p).cmd.cmds.countP fun c => c.phase == .started && c.engine == 1 && decide (0x10 ≤ c.op)

/-- The descriptor of an automatic SWAP_IN: a SWAP_IN with origin of the object, with the chunk's waymark (R215). -/
def autoDesc (wm : W32) (h : Nat) : List Byte :=
  leBytes 4 (1 + 8 * 0x13) ++ leBytes 4 wm.toNat ++ List.replicate 27 0 ++ [2] ++ List.replicate 4 0 ++ leBytes 4 h
    ++ List.replicate 20 0

/-- AUTOMATIC_SWAP_IN (R215): the pending swap-in of object `h` starts ahead of every queued MOV command, or goes on once it
waited. -/
def State.automaticSwapIn (s : State) (p h : Nat) : State :=
  match (s.part p).str.swaps.find? (·.handle == h) with
  | none => s
  | some a =>
    match a.move with
    | some id => s.moveRow p id 0x13
    | none =>
      let st := (s.part p).ctl.state
      if !(st == .running || st == .draining) || (s.part p).vf.flr != 0 || decide (8 ≤ s.movRunning p) then s else
      let n := (s.part p).cmd.startClock
      let (s, id) := s.addCmd p {
        desc := autoDesc a.waymark h, ring := a.ring, ctx := a.ctx, unit := some .mov, phase := .started, order := n
        autoTok := some a.tok }
      let s := (s.modSys p fun y => { y with startClock := n + 1 }).modStr p fun y => { y with
        swaps := y.swaps.map fun x => if x.handle = h then { x with move := some id } else x }
      match s.cmd? p id with
      | none => s
      | some c =>
        let o := s.object p h
        let cause := moveCheck s p c
        if cause ≠ 0 ∨ ¬ o.usable then s.skip p id cause else s.beginMove p c

/-- Starts the automatic SWAP_IN of object `handle`. -/
def execAutomaticSwapIn (p : PartId) (handle : Nat) (s : State) : Res := .next (s.automaticSwapIn p.val handle)

/-- `n` bytes of an 8-byte pattern from offset `off` of an object (R248). -/
def patternBytes (pat : List Byte) (off n : Nat) : List Byte := (List.range n).map fun j => nth 0 pat ((off + j) % 8)

/-- The range of a FILL or SCRUB written line by line: the lines written, and the first fault that refused one (R248, R260, R262). -/
def State.fillLines (s : State) (p : Nat) (c : Cmd) (segs : List (Nat × Nat)) : State × Nat × Option W64 :=
  segs.foldl (fun (r : State × Nat × Option W64) e =>
    let t := r.1.pokeO p ⟨c.movHandle, e.1⟩ (patternBytes (slice c.desc 56 8) e.1 e.2)
    (t.1, r.2.1 + b2n t.2.isNone, r.2.2.orElse fun _ => t.2)) (s, 0, none)

/-- The lines of a FILL's or SCRUB's range. -/
def Cmd.fillSegs (c : Cmd) : List (Nat × Nat) := lineSegs (c.fld 40 8) (c.fld 48 8)

/-- A started FILL or SCRUB whose object is not MOVING and whose dies take traffic (R242 step 4, R248). -/
def State.onFill (s : State) (p id op : Nat) (f : Cmd → State) : State :=
  onStarted s p id 1 op fun c =>
    let o := s.object p c.movHandle
    if o.state == .moving then s
    else if s.stoppedAt p o.src (c.fld 40 8) (c.fld 48 8) then s.waitAt p o.src (c.fld 40 8) (c.fld 48 8) else f c

/-- FILL (R248). -/
def State.fill (s : State) (p id : Nat) : State :=
  s.onFill p id 0x14 fun c =>
    let (s, n, bad) := s.fillLines p c c.fillSegs
    s.finishWrites p id bad (sat 32 n)

/-- Runs FILL `id` of partition `p`. -/
def execFill (p : PartId) (id : Nat) (s : State) (ecc : List EccHit := []) : Res :=
  .next ((s.eccWrite p.val id (fun c => Finder.partly p.val ⟨c.movHandle, c.fld 40 8⟩ (c.fld 48 8)) ecc).fill p.val id)

/-- The lines of a SCRUB that do not read back as zero: each becomes poisoned with a POISON record, found by SCRUB verify; answers the
fault of the first (R248, R259). -/
def State.verifyLines (s : State) (p : Nat) (c : Cmd) (bad : List Nat) : State × Option W64 :=
  bad.foldl (fun (r : State × Option W64) i =>
    let s := r.1
    let x := s.phys p (s.object p c.movHandle).src (c.fld 40 8 + 64 * i)
    if c.fld 48 8 / 64 ≤ i ∨ s.mem.chanFailed x.space x.addr then r else
    let t := s.poisonFound x.space (x.addr / 64) 4 c.wm none
    (t, r.2.orElse fun _ => t.mem.poisonAt x.space (x.addr / 64))) (s, none)

/-- SCRUB (R248): zero over whole lines, which clears their poison; with verify each line is read back. -/
def State.scrub (s : State) (p id : Nat) (bad : List Nat) : State :=
  s.onFill p id 0x15 fun c =>
    let (s, n, refused) := s.fillLines p c c.fillSegs
    if !c.mvForce then s.finishWrites p id refused (sat 32 n) else
    let (s, q) := (s.countO p ⟨c.movHandle, c.fld 40 8⟩ (c.fld 48 8)).verifyLines p c bad
    match q with
    | some q => s.finishBy p id Cause.scrubVerify (some q) (sat 32 n)
    | none => s.finishWrites p id refused (sat 32 n)

/-- Runs SCRUB `id` of partition `p`; `bad` are the lines of its range that do not read back as zero. -/
def execScrub (p : PartId) (id : Nat) (bad : List Nat) (s : State) : Res := .next (s.scrub p.val id bad)

end Sys2Proof.Machine
end

