-- ==== Sys2Proof/Machine/Channels.lean ====
section
/-!
DEFINITION. What befalls the memories of themselves (R257 to R262, R270): patrol scrub, the failure of a channel, the failure of a die's
encryption engine.
-/

namespace Sys2Proof.Machine

/-- The number of a channel: HBM 0 to 255, LPDDR 256 to 319. -/
def chanNo : ChannelId → Nat
  | .hbm c => c.val
  | .lpddr c => 256 + c.val

/-- The DPA of inner address `x` of HBM channel `k` (R236, inverted). -/
def hbmAddr (k x : Nat) : Nat :=
  let up := 2 ^ 16 * (x / 256)
  up + 256 * (k ^^^ xorFields up 16 8 4) + x % 256
/-- The DPA of inner address `x` of LPDDR channel `k` (R237, inverted). -/
def lpddrAddr (k x : Nat) : Nat :=
  let up := 2 ^ 13 * (x / 128)
  up + 128 * (k ^^^ xorFields up 13 6 6) + x % 128

/-- Lines of an HBM channel, of an LPDDR channel, of an SRAM bank, of a Hamper bank. -/
def hbmLines : Nat := 16777216
/-- Lines of an LPDDR channel. -/
def lpddrLines : Nat := 134217728
/-- Lines of one of the 64 banks of a cluster's SRAM. -/
def sramBankLines : Nat := 12288
/-- Lines of one of the 128 banks of a tile's Hamper. -/
def hamperBankLines : Nat := 16384

/-- Whether patrol runs on a channel: it has trained, has not failed, its interval is not 0 and its die takes traffic (R261). -/
def State.patrolOn (s : State) (k : Nat) : Bool :=
  let c := s.chan k
  c.patrolInterval != 0 && c.state != .off && c.state != .training && c.state != .failed && !(s.die (dieOf k)).cryptoFailed

/-- patrol_on (Table 7.12): patrol is set to run on a channel; it reads 1 after reset, before the channel has trained. -/
def State.patrolSet (s : State) (k : Nat) : Bool :=
  let c := s.chan k
  c.patrolInterval != 0 && c.state != .failed && !(s.die (dieOf k)).cryptoFailed

/-- The next line of a channel read by patrol. -/
def State.patrolChan (s : State) (k lines : Nat) (sp : Space) (addr : Nat) (f : EccFinding) : State :=
  if !s.patrolOn k then s else
  let s := s.modChan k fun c =>
    let n := c.patrolPos.toNat + 1
    { c with patrolPos := BitVec.ofNat 32 (n % lines), patrolPasses := wrapAdd c.patrolPasses (n / lines) }
  s.eccLine sp (addr / 64) 1 f 0 none

/-- Whole passes of a tile's Hamper: the least over its banks (log entry 33). -/
def Mem.hamperPasses (m : Mem) (t : Nat) : Nat :=
  ((List.range 128).map fun b => tget 0 m.patrolC (128 * t + b) / hamperBankLines).foldl min
    (tget 0 m.patrolC (128 * t) / hamperBankLines)

/-- Whether a power domain is ON (R445). -/
def State.domainOn (s : State) (d : Nat) : Bool := (tget {} s.pwr.domains d).state == .on
/-- Whether a cluster's domain is ON: one that is OFF holds nothing to patrol. -/
def State.clusterPowered (s : State) (k : Nat) : Bool := (s.logCluster k).any fun q => s.domainOn q.1

/-- PATROL_SCRUB (R261): one line of a channel or bank is read, with what error correction finds in it (R258, R259). -/
def State.patrol (s : State) (u : PatrolUnit) (f : EccFinding) : State :=
  match u with
  | .hbm c => s.patrolChan c.val hbmLines .hbm (hbmAddr c.val (64 * (s.chan c.val).patrolPos.toNat)) f
  | .lpddr c =>
    s.patrolChan (256 + c.val) lpddrLines .lpddr (lpddrAddr c.val (64 * (s.chan (256 + c.val)).patrolPos.toNat)) f
  | .sram k b =>
    if 840 ≤ k || 64 ≤ b || !s.clusterPowered k then s else
    let n := tget 0 s.mem.patrolS (64 * k + b)
    let line := sramBytes / 64 * k + Config.bankLine false b (n % sramBankLines) % (sramBytes / 64)
    (s.modMem fun m => { m with patrolS := tset m.patrolS (64 * k + b) (n + 1) }).eccLine .sram line 1 f 0 none
  | .hamper t b =>
    if 128 ≤ b || !s.domainOn (80 + t.val) then s else
    let n := tget 0 s.mem.patrolC (128 * t.val + b)
    let line := hamperBytes / 64 * t.val + Config.bankLine true b (n % hamperBankLines) % (hamperBytes / 64)
    let s := s.modMem fun m => { m with patrolC := tset m.patrolC (128 * t.val + b) (n + 1) }
    (s.modTile t.val fun x => { x with patrolPasses := BitVec.ofNat 32 (s.mem.hamperPasses t.val) }).eccLine .hamper line 1 f 0 none

/-- One line read by patrol scrub. -/
def execPatrolScrub (u : PatrolUnit) (finding : EccFinding) (s : State) : Res := .next (s.patrol u finding)

/-- The moves of partition `p` that have lines of their destination on channel `k` end (R244). -/
def State.failMoves (s : State) (p k : Nat) (q : W64) : State :=
  ((s.part p).cmd.cmds.filter fun c =>
    c.engine == 1 && c.phase == .started && c.stage == 2 && decide (c.op ≤ 0x13) && s.destOn p (s.object p c.movHandle) (· == k)).foldl
      (fun s c => s.failMove p c q) s

/-- The block of a channel in an event record (R472). -/
def srcChan (k : Nat) : Src := if k < 256 then ⟨0x0B, k⟩ else ⟨0x0C, k - 256⟩

/-- CHANNEL_FAIL (R262): once for a channel. -/
def State.channelFail (s : State) (k : Nat) : State :=
  if (s.chan k).state = .failed then s else
  let (q, s) := s.newFault
  let s := (s.modChan k fun c => { c with state := .failed, failSeq := q }).link q Cause.channelFail (srcChan k) none
  let s := s.useFree.recPf q Cause.channelFail 3 (srcChan k) none 0 [] (Config.freeBool s.free 0)
  (List.range 32).foldl (fun s p => s.failMoves p k q) s

/-- The last retry of an access of channel `c` fails. -/
def execChannelFail (c : ChannelId) (s : State) : Res :=
  .next ((if (s.chan (chanNo c)).state = .failed then s else s.modChan (chanNo c) fun x => { x with retries := satAdd x.retries 1 }).channelFail (chanNo c))

/-- CRYPTO_FAULT (R270): the die's traffic stops. -/
def State.cryptoFault (s : State) (d : Nat) : State :=
  if (s.die d).cryptoFailed then s else
  (s.modDie d fun x => { x with cryptoFailed := true }).raisePf Cause.cryptoFault ⟨0x0E, d⟩

/-- A parity check of the encryption engine of memory die `die` fails. -/
def execCryptoFault (die : Fin 4) (s : State) : Res := .next (s.cryptoFault die.val)

end Sys2Proof.Machine
end

