-- ==== Sys2Proof/Machine/Frames.lean ====
section
/-!
DEFINITION. Ethernet frames (R381 to R387): what the device puts on the wire and how it reads what comes from it.

A frame is its bytes from the destination MAC on. Fields that the spec does not give (IPv4 identification, DF and TTL, IPv6 flow label and
hop limit, padding) are free values (log entry 34). Addresses are their bytes in the order of the wire; a register holds the first in its
lowest bits (R5, log entry 34).
-/

namespace Sys2Proof.Machine

/-- Two bytes, most significant first, as the wire carries them. -/
def be2 (n : Nat) : List Byte := [BitVec.ofNat 8 (n / 256), BitVec.ofNat 8 n]
/-- Four bytes, most significant first. -/
def be4 (n : Nat) : List Byte := be2 (n / 65536 % 65536) ++ be2 (n % 65536)
/-- The number that two bytes of the wire spell. -/
def beAt (bs : List Byte) (i : Nat) : Nat := 256 * fieldAt bs i 1 + fieldAt bs (i + 1) 1

/-- The ones' complement sum of a byte string in 16-bit words, an odd byte padded with zero (RFC 1071). -/
def onesSum : List Byte → Nat
  | [] => 0
  | [a] => 256 * a.toNat
  | a :: b :: t => 256 * a.toNat + b.toNat + onesSum t
/-- A sum folded into 16 bits. -/
def fold16 (x : Nat) : Nat := if x = 0 then 0 else (x - 1) % 65535 + 1
/-- The Internet checksum of a byte string. -/
def checksum (bs : List Byte) : Nat := 65535 - fold16 (onesSum bs)

/-- One byte of the Ethernet FCS. -/
def crcByte (crc : Nat) (b : Byte) : Nat :=
  (List.range 8).foldl (fun c _ => if c % 2 = 1 then (c / 2) ^^^ 0xEDB88320 else c / 2) (crc ^^^ b.toNat)
/-- The FCS of a frame (IEEE 802.3). -/
def fcs (bs : List Byte) : List Byte := leBytes 4 (bs.foldl crcByte 0xFFFFFFFF ^^^ 0xFFFFFFFF)

/-- The MAC address of a virtual port. -/
def VPort.mac (v : VPort) : List Byte := leBytes 4 v.macLo.toNat ++ leBytes 2 v.macHi.toNat
/-- The IPv4 address of a virtual port. -/
def VPort.v4 (v : VPort) : List Byte := leBytes 4 v.ipv4.toNat
/-- The IPv6 addresses of a virtual port; A is number 0. -/
def VPort.v6 (v : VPort) (i : Nat) : List Byte := leBytes 16 (if i = 0 then v.ipv6a else v.ipv6b).toNat
/-- An address that is not given. -/
def noAddr (a : List Byte) : Bool := a.all (· == 0)
/-- Whether an address is one of a virtual port's. -/
def VPort.owns (v : VPort) (a : List Byte) : Bool :=
  !noAddr a && (a == v.v4 || a == v.v6 0 || a == v.v6 1)

/-- Virtual port `v` of partition `p`: 0 to 31 on NET[0], 32 to 63 on NET[1] (R383). -/
def State.vport (s : State) (p v : Nat) : VPort := tget {} (s.part p).net.vports v
/-- The Ethernet port of a virtual port. -/
def vportPort (v : Nat) : Nat := v / 32
/-- Ethernet port `n`. -/
def State.port (s : State) (n : Nat) : NetPort := tget {} s.nets n
/-- A counter of a virtual port on the VF NET page: 0 RX_NOBUF, 1 RX_REG_DROP, 2 BADCSUM, 3 SPOOF. -/
def State.countVport (s : State) (p v k : Nat) : State :=
  s.modNet p fun y => { y with ctrs := tmod 0 y.ctrs (4 * v + k) (satAdd · 1) }

/-- A frame put together: its VLAN tag, its padding to 60 bytes before the FCS, its FCS (Table 12.1, R386). -/
def VPort.frame (v : VPort) (u : Nat) (dst : List Byte) (etherType : Nat) (payload : List Byte) : List Byte :=
  let tag := if v.vid = 0 then [] else be2 0x8100 ++ be2 (v.pcp.toNat * 8192 + v.vid.toNat)
  let f := dst ++ v.mac ++ tag ++ be2 etherType ++ payload
  let f := f ++ (List.range (60 - f.length)).map fun i => Config.freeByte u (16 + i)
  f ++ fcs f

/-- A UDP datagram with its checksum over the pseudo-header `ph`. -/
def udpDatagram (ph : List Byte) (sp dp : Nat) (payload : List Byte) : List Byte :=
  let n := 8 + payload.length
  let c := checksum (ph ++ be2 n ++ be2 sp ++ be2 dp ++ be2 n ++ payload)
  be2 sp ++ be2 dp ++ be2 n ++ be2 (if c = 0 then 65535 else c) ++ payload

/-- An IPv4 packet that carries UDP. -/
def ipv4Packet (u dscp : Nat) (src dst : List Byte) (sp dp : Nat) (payload : List Byte) : List Byte :=
  let d := udpDatagram (src ++ dst ++ [0, 17]) sp dp payload
  let h (c : Nat) : List Byte :=
    [0x45, BitVec.ofNat 8 (4 * dscp)] ++ be2 (20 + d.length) ++ [Config.freeByte u 0, Config.freeByte u 1]
      ++ [if Config.freeBool u 0 then 0x40 else 0, 0, Config.freeByte u 2, 17] ++ be2 c ++ src ++ dst
  h (checksum (h 0)) ++ d

/-- An IPv6 packet that carries UDP. -/
def ipv6Packet (u dscp : Nat) (src dst : List Byte) (sp dp : Nat) (payload : List Byte) : List Byte :=
  let d := udpDatagram (src ++ dst ++ be2 0 ++ [0, 17]) sp dp payload
  let label := Config.freeNat u % 2 ^ 20
  be4 (6 * 2 ^ 28 + 4 * dscp * 2 ^ 20 + label) ++ be2 d.length ++ [17, Config.freeByte u 2] ++ src ++ dst ++ d

/-- Who a datagram goes to: MAC, IP (4 or 16 bytes), UDP port; and how: family, DSCP, source address and port. -/
structure Peer where
  mac : List Byte
  ip : List Byte
  port : Nat
  ipv6 : Bool
  dscp : Nat
  src : List Byte
  srcPort : Nat
  deriving Repr

/-- A UDP frame of a virtual port to a peer (R386, R387). -/
def VPort.udp (v : VPort) (u : Nat) (x : Peer) (payload : List Byte) : List Byte :=
  if x.ipv6 then v.frame u x.mac 0x86DD (ipv6Packet u x.dscp x.src x.ip x.srcPort x.port payload)
  else v.frame u x.mac 0x0800 (ipv4Packet u x.dscp x.src x.ip x.srcPort x.port payload)

/-- A frame that leaves port `n` for partition `p` (R393, R394): metered and counted. -/
def State.sendFrame (s : State) (p n : Nat) (f : List Byte) : State :=
  ((s.emit (.frame n f)).count p 7 f.length).modPort n fun x => { x with txFrames := wrapAdd x.txFrames 1 }

/-- A frame among those that wait: one of a LIVE session's binding goes ahead of the others (R393). -/
def enqueue (l : List TxFrame) (x : TxFrame) : List TxFrame :=
  if x.live then l.filter (·.live) ++ x :: l.filter (!·.live) else l ++ [x]
/-- The credits of a frame. -/
def TxFrame.cost (x : TxFrame) : Nat := ceilDiv x.bytes.length 64
/-- The state with other frames waiting; the regulators of the ports wait for the credits of those (R312). -/
def State.setHeld (s : State) (p : Nat) (l : List TxFrame) : State :=
  [0, 1].foldl (fun s n => s.modReg p (3 + n) fun g => { g with
    queue := setNth g.queue 0 fun _ => (l.filter (·.port == n)).map fun x => (x.cost, 1) }) (s.modNet p fun y => { y with txHeld := l })

/-- A frame handed to the MAC of its port for partition `p`: it takes its credits, or waits for them (R312, R393). -/
def State.transmit (s : State) (p : Nat) (x : TxFrame) : State :=
  let t := s.charge p (3 + x.port) 0 x.cost
  if s.regHolds p (3 + x.port) 0 x.cost then t.setHeld p (enqueue (s.part p).net.txHeld x) else t.sendFrame p x.port x.bytes

/-- The first `k` frames of port `n` that waited for credits leave (R312). -/
def State.sendHeld (s : State) (p n k : Nat) : State :=
  let mine := ((s.part p).net.txHeld.filter (·.port == n)).take k
  let s := s.modNet p fun y => { y with
    txHeld := y.txHeld.filter (·.port != n) ++ (y.txHeld.filter (·.port == n)).drop k }
  mine.foldl (fun s x => s.sendFrame p n x.bytes) s

/-- A received frame as the port reads it: VLAN, what follows the EtherType, without padding rules. -/
structure FrameView where
  dst : List Byte
  src : List Byte
  vid : Nat
  etherType : Nat
  body : List Byte
  deriving Repr

/-- The source IP address that a frame carries, and whether it is of IPv6 (R388). -/
def FrameView.source (x : FrameView) : Option (List Byte × Bool) :=
  if x.etherType = 0x0800 then some (slice x.body 12 4, false) else if x.etherType = 0x86DD then some (slice x.body 8 16, true) else none

/-- The view of a frame; one 802.1Q tag is read (Table 12.1). -/
def viewFrame (f : List Byte) : FrameView :=
  let tagged := beAt f 12 == 0x8100
  let o := if tagged then 16 else 12
  { dst := slice f 0 6, src := slice f 6 6, vid := if tagged then beAt f 14 % 4096 else 0, etherType := beAt f o, body := f.drop (o + 2) }

/-- The solicited-node multicast MAC of an IPv6 address. -/
def solicitedMac (a : List Byte) : List Byte := [0x33, 0x33, 0xFF] ++ slice a 13 3

/-- Whether a virtual port takes a frame (R385 step 2). -/
def VPort.takes (v : VPort) (x : FrameView) : Bool :=
  v.enable && v.vid.toNat == x.vid &&
    (x.dst == v.mac
      || (x.dst == List.replicate 6 0xFF && x.etherType == 0x0806 && beAt x.body 6 == 1 && slice x.body 24 4 == v.v4 && v.ipv4 != 0)
      || (x.etherType == 0x86DD && [0, 1].any fun i => !noAddr (v.v6 i) && x.dst == solicitedMac (v.v6 i)))

/-- A UDP datagram found in a frame: addresses, ports, payload, whether its checksums hold. -/
structure Datagram where
  ipv6 : Bool
  src : List Byte
  dst : List Byte
  srcPort : Nat
  dstPort : Nat
  payload : List Byte
  good : Bool
  deriving Repr

/-- The UDP datagram of an IPv4 packet without options or fragmentation, or of an IPv6 packet (R385 step 4, Table 12.1). -/
def FrameView.datagram (x : FrameView) : Option Datagram :=
  let b := x.body
  if x.etherType = 0x0800 then
    let len := beAt b 2
    if fieldAt b 0 1 != 0x45 || fieldAt b 9 1 != 17 || beAt b 6 % 16384 != 0 || decide (len < 28) || decide (b.length < len) then none else
    let src := slice b 12 4
    let dst := slice b 16 4
    let u := slice b 20 (len - 20)
    let n := beAt u 4
    if n < 8 ∨ u.length < n then none else
    let u := u.take n
    let okIp := fold16 (onesSum (b.take 20)) == 65535
    let okUdp := beAt u 6 == 0 || fold16 (onesSum (src ++ dst ++ [0, 17] ++ be2 n ++ u)) == 65535
    some { ipv6 := false, src := src, dst := dst, srcPort := beAt u 0, dstPort := beAt u 2, payload := u.drop 8, good := okIp && okUdp }
  else if x.etherType = 0x86DD then
    let len := beAt b 4
    if fieldAt b 0 1 / 16 != 6 || fieldAt b 6 1 != 17 || decide (len < 8) || decide (b.length < 40 + len) then none else
    let src := slice b 8 16
    let dst := slice b 24 16
    let u := slice b 40 len
    let n := beAt u 4
    if n < 8 ∨ u.length < n then none else
    let u := u.take n
    let ok := beAt u 6 != 0 && fold16 (onesSum (src ++ dst ++ be2 0 ++ be2 n ++ [0, 17] ++ u)) == 65535
    some { ipv6 := true, src := src, dst := dst, srcPort := beAt u 0, dstPort := beAt u 2, payload := u.drop 8, good := ok }
  else none

/-- Whether a RAW frame of a virtual port may be sent (R386). -/
def VPort.mayRaw (v : VPort) (f : List Byte) : Bool :=
  let t := beAt f 12
  slice f 6 6 == v.mac &&
    (if t = 0x0800 then v.owns (slice f 26 4)
    else if t = 0x86DD then v.owns (slice f 22 16)
    else if t = 0x0806 then v.owns (slice f 28 4)
    else false)

end Sys2Proof.Machine
end

