-- ==== Sys2Proof/Machine/Rtp.lean ====
section
/-!
DEFINITION. The RTP payloads of a coded frame (R392): HEVC as RFC 7798 carries it, AV1 as the AOM payload format does.

How a bitstream holds its NAL units or OBUs is not the spec's: the model takes (log entry 10) the byte stream of HEVC with its start codes, and the OBU
stream of AV1 with its sizes.
-/

namespace Sys2Proof.Machine

/-- A byte string in pieces of `n` bytes, the last with what is left. -/
def cutInto (n : Nat) (bs : List Byte) : List (List Byte) :=
  (List.range (ceilDiv bs.length n)).map fun i => (bs.drop (n * i)).take n

/-- A byte stream cut at its start codes 00 00 01; `acc`: the bytes since the last one, newest first. -/
def splitNal : List Byte → List Byte → List (List Byte)
  | [], acc => [acc.reverse]
  | b :: t, acc =>
    match acc with
    | z :: y :: rest => if b = 1 ∧ z = 0 ∧ y = 0 then rest.reverse :: splitNal t [] else splitNal t (b :: acc)
    | _ => splitNal t (b :: acc)
/-- The NAL units of an HEVC byte stream: none ends with a zero byte. -/
def nalUnits (bs : List Byte) : List (List Byte) :=
  ((splitNal bs []).map fun x => (x.reverse.dropWhile (· == 0)).reverse).filter fun x => !x.isEmpty

/-- The payloads of a NAL unit (RFC 7798): itself where it fits into `max` bytes, else fragmentation units, the first marked S and the last E. -/
def nalPayloads (max : Nat) (nal : List Byte) : List (List Byte) :=
  if nal.length ≤ max then [nal] else
  let h := fieldAt nal 0 1
  let parts := cutInto (max - 3) (nal.drop 2)
  let head (i : Nat) : List Byte :=
    [BitVec.ofNat 8 (128 * bitsOf h 7 1 + 2 * 49 + h % 2), BitVec.ofNat 8 (fieldAt nal 1 1),
      BitVec.ofNat 8 (128 * b2n (i == 0) + 64 * b2n (i + 1 == parts.length) + bitsOf h 1 6)]
  (List.range parts.length).map fun i => head i ++ nth [] parts i

/-- A number in LEB128, and what follows it. -/
def leb128 : Nat → List Byte → Nat × List Byte
  | 0, bs => (0, bs)
  | _, [] => (0, [])
  | k + 1, b :: t =>
    if bitOf b.toNat 7 then
      let r := leb128 k t
      (b.toNat % 128 + 128 * r.1, r.2)
    else (b.toNat, t)

/-- The OBUs of an AV1 bitstream, at most `n`, each as it is carried: without its size. -/
def obus : Nat → List Byte → List (List Byte)
  | 0, _ => []
  | _, [] => []
  | k + 1, h :: t =>
    let ext := if bitOf h.toNat 2 then 1 else 0
    let head := BitVec.ofNat 8 (h.toNat - 2 * bitsOf h.toNat 1 1) :: t.take ext
    let t := t.drop ext
    if bitOf h.toNat 1 then
      let r := leb128 8 t
      (head ++ r.2.take r.1) :: obus k (r.2.drop r.1)
    else [head ++ t]
/-- The type of an OBU. -/
def obuType (x : List Byte) : Nat := bitsOf (fieldAt x 0 1) 3 4

/-- The payloads of a temporal unit (AOM AV1 RTP payload format): temporal delimiters removed; W = 1, one OBU or fragment in each, Z and Y for
a fragment that continues or goes on, N on the first of a unit that begins a coded video sequence, with a sequence header. -/
def av1Payloads (max : Nat) (bs : List Byte) : List (List Byte) :=
  let xs := (obus bs.length bs).filter fun x => obuType x != 2
  let new := xs.any fun x => obuType x == 1
  (List.range xs.length).flatMap fun j =>
    let parts := cutInto (max - 1) (nth [] xs j)
    (List.range parts.length).map fun i =>
      BitVec.ofNat 8 (128 * b2n (i != 0) + 64 * b2n (i + 1 != parts.length) + 16 + 8 * b2n (new && i == 0 && j == 0)) :: nth [] parts i

/-- The RTP payloads of a frame's bitstream, each of at most `max` bytes (R392); codec 0 is AV1. -/
def rtpPayloads (av1 : Bool) (max : Nat) (bs : List Byte) : List (List Byte) :=
  if av1 then av1Payloads max bs else (nalUnits bs).flatMap (nalPayloads max)

end Sys2Proof.Machine
end

