-- ==== Sys2Proof/Machine/Net.lean ====
section
/-!
DEFINITION. The network ports and the NET engine (R382 to R397): SEND, RECV_POST, RTP_BIND, received frames, link changes.
-/

namespace Sys2Proof.Machine

/-- The NET port of a command. -/
def Cmd.netPort (c : Cmd) : Nat := dUnit c.desc
/-- The virtual port that a NET command names. -/
def Cmd.vp (c : Cmd) : Nat := bitsOf (c.fld (if c.op = 0x12 then 37 else 36) 1) 0 6

/-- Whether a virtual port is enabled and stands on port `n` (R387, R391). -/
def State.vportOk (s : State) (p v n : Nat) : Bool := (s.vport p v).enable && vportPort v == n

/-- What a NET command's sizes must be (Tables 12.3, 12.4). -/
def Cmd.netSizeOk (c : Cmd) (mtu : Nat) : Bool :=
  let len := c.fld 44 4
  if c.op = 0x11 then
    decide (1 ≤ c.fld 40 4) && decide (c.fld 40 4 ≤ 65536) && decide (64 ≤ len) && decide (len ≤ 16384) && len % 64 == 0
  else if bitOf (c.fld 35 1) 0 then c.fld 42 2 == 0 && decide (60 ≤ len) && decide (len ≤ mtu + 14)
  else
    let head := if bitOf (c.fld 35 1) 1 then 48 else 28
    decide (1 ≤ c.fld 42 2) && decide (c.fld 42 2 + head ≤ mtu) && decide (1 ≤ len) && decide (len ≤ 67108864)

/-- The checks of a NET command at its start (R391, Tables 12.3 to 12.5); 0: all pass. -/
def netCheck (s : State) (p : Nat) (c : Cmd) : W16 :=
  let v := c.vp
  let raw := bitOf (c.fld 35 1) 0
  let six := bitOf (c.fld 35 1) 1
  let size := c.netSizeOk (s.vport p v).mtu.toNat
  let down := !s.vportOk p v c.netPort
  match c.op with
  | 0x10 =>
    if bitsOf (c.fld 36 1) 6 2 != 0 || bitsOf (c.fld 37 1) 2 6 != 0 || (!raw && decide ((if six then 1 else 0) < c.fld 37 1))
        || (raw && !zeroAt c.desc 56 8) then Cause.badOperand
    else if down then Cause.vportDown
    else if !size then Cause.netSize
    else if !s.inObj p (c.ref 48) (c.fld 44 4) || (!raw && !s.inObj p (c.ref 56) 32) then Cause.badOperand
    else 0
  | 0x11 =>
    if bitsOf (c.fld 35 1) 1 7 != 0 || bitsOf (c.fld 36 1) 6 2 != 0 || c.fld 37 1 != 0 || (raw && c.fld 38 2 != 0) || !c.zeroFrom 60
        || c.fld 56 4 == 0 then Cause.badOperand
    else if down then Cause.vportDown
    else if !size then Cause.netSize
    else if !s.inObj p (c.ref 48) (c.fld 40 4 * c.fld 44 4) then Cause.badOperand
    else s.destCheck p (c.ref 48).handle
  | _ =>
    if decide (1 < c.fld 35 1) || (c.fld 35 1 == 0 && (decide (c.fld 38 1 < 96) || decide (127 < c.fld 38 1))) then Cause.rtpParam
    else if bitsOf (c.fld 37 1) 6 2 != 0 || bitOf (c.fld 39 1) 1 then Cause.badOperand
    else if down then Cause.vportDown
    else if c.fld 35 1 == 1 then 0
    else if !s.inObj p (c.ref 56) 32 then Cause.badOperand
    else 0

/-- Whether a peer entry names a unicast peer of the family asked for (R391, log entry 35). -/
def peerOk (bs : List Byte) (six : Bool) : Bool :=
  let ip := slice bs 8 16
  !zeroAt bs 0 6 && !bitOf (fieldAt bs 0 1) 0 && zeroAt bs 6 2 &&
    (if six then !zeroAt ip 4 12 && fieldAt ip 0 1 != 0xFF
    else !zeroAt ip 0 4 && zeroAt ip 4 12 && fieldAt ip 0 1 / 16 != 0xE)

/-- The peer that a peer entry names. -/
def peerOf (bs : List Byte) (six : Bool) (dscp sp dp : Nat) (src : List Byte) : Peer :=
  { mac := slice bs 0 6, ip := slice bs 8 (if six then 16 else 4), port := dp, ipv6 := six, dscp := dscp, src := src, srcPort := sp }

/-- The source address of a SEND: IPv6 A or B, or the IPv4 address (Table 12.3). -/
def VPort.source (v : VPort) (six : Bool) (i : Nat) : List Byte := if six then v.v6 i else v.v4

/-- A poisoned line that a NET command read ends it DONE with NET_POISON (R390, R505). -/
def State.netPoison (s : State) (p id : Nat) (q : W64) (sent : Nat) : State := s.finishBy p id Cause.netPoison (some q) sent

/-- A frame that a SEND sends. -/
def Cmd.txFrame (c : Cmd) (f : List Byte) : TxFrame := { port := c.netPort, vport := c.vp, cmd := c.id, bytes := f }

/-- The datagrams of a SEND from byte `off` of its payload on, with `n` frames sent before (R387, R390). -/
def State.sendFrom (s : State) (p : Nat) (c : Cmd) (v : VPort) (x : Peer) : Nat → Nat → Nat → State
  | 0, _, n => s.done p c.id n
  | k + 1, off, n =>
    let len := min (c.fld 42 2) (c.fld 44 4 - off)
    let r := (c.ref 48).add off
    let rd := s.peekO p r len
    let s := s.countO p r len
    match rd.fault with
    | some q => s.netPoison p c.id q n
    | none => (s.useFree.transmit p (c.txFrame (v.udp s.free x rd.bytes))).sendFrom p c v x k (off + len) (n + 1)

/-- A RAW SEND (R386): one frame with the virtual port's VLAN tag, or SPOOF. -/
def State.sendRaw (s : State) (p : Nat) (c : Cmd) (v : VPort) : State :=
  let rd := s.peekO p (c.ref 48) (c.fld 44 4)
  let s := s.countO p (c.ref 48) (c.fld 44 4)
  match rd.fault with
  | some q => s.netPoison p c.id q 0
  | none =>
    if !v.mayRaw rd.bytes then (s.countVport p c.vp 3).finish p c.id .done Cause.spoof
    else (s.useFree.transmit p (c.txFrame (v.frame s.free (slice rd.bytes 0 6) (beAt rd.bytes 12) (rd.bytes.drop 14)))).done p c.id 1

/-- SEND with its source and peer in order: its frames go to its port (R386, R387, R390). -/
def State.sendOut (s : State) (p : Nat) (c : Cmd) (peer : List Byte) : State :=
  let v := s.vport p c.vp
  let six := bitOf (c.fld 35 1) 1
  let src := v.source six (c.fld 37 1)
  if (s.port c.netPort).link ≠ .up then s.finish p c.id .done Cause.netLink
  else if !s.vportOk p c.vp c.netPort then s.finish p c.id .done Cause.vportDown
  else if bitOf (c.fld 35 1) 0 then s.sendRaw p c v
  else if noAddr src then (s.countVport p c.vp 3).finish p c.id .done Cause.spoof
  else
    let x := peerOf peer six (bitsOf (c.fld 35 1) 2 6) (c.fld 38 2) (c.fld 40 2) src
    s.sendFrom p c v x (ceilDiv (c.fld 44 4) (c.fld 42 2)) 0 0

/-- SEND (R386, R387, R390, R391): a peer entry that is not one skips it, whatever the port's link. Frames that wait for credits hold its terminal
record. -/
def State.send (s : State) (p id : Nat) : State :=
  onStarted s p id 4 0x10 fun c =>
    if s.stoppedO p (c.ref 48) (c.fld 44 4) then s.waitO p [(c.ref 48, c.fld 44 4)]
    else if bitOf (c.fld 35 1) 0 then s.sendOut p c []
    else
      let rd := s.peekO p (c.ref 56) 32
      let s := s.countO p (c.ref 56) 32
      match rd.fault with
      | some q => s.netPoison p id q 0
      | none => if !peerOk rd.bytes (bitOf (c.fld 35 1) 1) then s.skip p id Cause.netPeer else s.sendOut p c rd.bytes

/-- What SEND reads: the peer block of a UDP one, and its payload. -/
def State.sendReads (p : Nat) (s : State) (c : Cmd) : List Finder :=
  (if bitOf (c.fld 35 1) 0 then [] else [Finder.reads p Cause.netPoison (c.ref 56) 32])
    ++ (if (s.port c.netPort).link ≠ .up || !s.vportOk p c.vp c.netPort then [] else [Finder.reads p Cause.netPoison (c.ref 48) (c.fld 44 4)])

/-- Runs SEND `id` of partition `p`. -/
def execSend (p : PartId) (id : Nat) (s : State) (ecc : List EccHit := []) : Res := .next ((s.eccRead p.val id (·.runs 4 0x10) (State.sendReads p.val) ecc).send p.val id)

/-- RECV_POST (R388): it begins to wait for datagrams, in the order of the starts. -/
def State.recvPost (s : State) (p id : Nat) : State :=
  onStarted s p id 4 0x11 fun c =>
    if (s.part p).net.recvs.any (·.id == id) then s
    else if !s.vportOk p c.vp c.netPort then s.finish p id .done Cause.vportDown
    else s.modNet p fun y => { y with recvs := y.recvs ++ [{ id := id, order := y.recvClock }], recvClock := y.recvClock + 1 }

/-- Runs RECV_POST `id` of partition `p`. -/
def execRecvPost (p : PartId) (id : Nat) (s : State) : Res := .next (s.recvPost p.val id)

/-- A RECV_POST ends: it takes no further frames (R389). -/
def State.dropRecv (s : State) (p id : Nat) : State := s.modNet p fun y => { y with recvs := y.recvs.filter (·.id != id) }

/-- A RECV_POST ends DONE with its slots filled as detail (R388), or with POISON_WRITE (R260). -/
def State.endRecv (s : State) (p : Nat) (r : Recv) : State := (s.dropRecv p r.id).finishWrites p r.id r.refused r.filled

/-- RECV_IDLE (R388): idle ticks have passed after a datagram with no further one. -/
def State.recvIdle (s : State) (p id : Nat) : State :=
  match (s.part p).net.recvs.find? (·.id == id) with
  | some r => if r.filled = 0 then s else s.endRecv p r
  | none => s

/-- The idle time of RECV_POST `id` of partition `p` has passed. -/
def execRecvIdle (p : PartId) (id : Nat) (s : State) : Res := .next (s.recvIdle p.val id)

/-- The 32-byte header of a slot (R388); what a frame does not carry of the source fields is not stated (log entry 34). -/
def slotHeader (n : Nat) (cut : Bool) (d : Option Datagram) (ip : Option (List Byte × Bool)) (u : Nat) : List Byte :=
  let fb (i : Nat) : List Byte := (List.range i).map (Config.freeByte u ·)
  let port := (d.map fun d => leBytes 2 d.srcPort).getD (fb 2)
  let six := (ip.map (·.2)).getD (Config.freeBool u 0)
  leBytes 4 n ++ port ++ [BitVec.ofNat 8 (b2n cut + 2 * b2n six), 0] ++ (ip.map fun a => slice a.1 0 16).getD (fb 16) ++ List.replicate 8 0

/-- A frame or datagram put into the next slot of a RECV_POST (R388). -/
def State.fillSlot (s : State) (p : Nat) (c : Cmd) (r : Recv) (x : FrameView) (data : List Byte) (ecc : List EccHit) : State :=
  let size := c.fld 44 4
  let put := data.take (size - 32)
  let cut := decide (size - 32 < data.length)
  let bs := slotHeader put.length cut x.datagram x.source s.free ++ put
  let at' := (c.ref 48).add (size * r.filled)
  let (s, bad) := (s.useFree.eccHits p c (Finder.partly p at' bs.length) ecc).pokeHeld p at' bs
  let r := { r with filled := r.filled + 1, refused := r.refused.orElse fun _ => bad }
  let s := s.modNet p fun y => { y with recvs := (y.recvs.filter (·.id != r.id)) ++ [r] }
  if r.filled = c.fld 40 4 then s.endRecv p r else s

/-- What a started RECV_POST has taken. -/
def State.recvOf (s : State) (p id : Nat) : Recv := ((s.part p).net.recvs.find? (·.id == id)).getD { id := id, order := 0 }

/-- The RECV_POST that takes what came for virtual port `v` (R385 steps 4 and 5, R389): the one that started earliest. -/
def State.recvFor (s : State) (p v : Nat) (udp : Option Nat) : Option Cmd :=
  minBy (·.order) ((s.part p).cmd.cmds.filter fun c =>
    let raw := bitOf (c.fld 35 1) 0
    c.runs 4 0x11 && c.vp == v && (match udp with
      | some d => !raw && c.fld 38 2 == d
      | none => raw))

/-- A frame delivered to virtual port `v` (R385 steps 3 to 5, R394). -/
def State.deliver (s : State) (p v n : Nat) (f : List Byte) (x : FrameView) (ecc : List EccHit) : State :=
  let g := s.regulator p (3 + n)
  let bytes := f.length + 4
  let cost := ceilDiv bytes 64
  if g.cap ≠ 0 ∧ nth 0 g.bucket 0 < (cost : Int) then s.countVport p v 1 else
  let s := s.modReg p (3 + n) fun g => g.spend 0 cost 0
  let vp := s.vport p v
  let give (dest : Option Cmd) (data : List Byte) : State :=
    match dest with
    | none => s.countVport p v 0
    | some c =>
      ((s.count p 7 bytes).modPort n fun y => { y with rxFrames := wrapAdd y.rxFrames 1 }).fillSlot p c (s.recvOf p c.id) x data ecc
  match x.datagram with
  | some d =>
    if vp.owns d.dst then
      if d.good then give (s.recvFor p v (some d.dstPort)) d.payload else s.countVport p v 2
    else give (s.recvFor p v none) f
  | none => give (s.recvFor p v none) f

/-- The virtual ports of the live partitions on port `n`: partition and number. -/
def State.vportsOn (s : State) (n : Nat) : List (Nat × Nat) :=
  (List.range 32).flatMap fun p => if s.live p then (List.range 32).map fun v => (p, 32 * n + v) else []

/-- FRAME_RECEIVE (R382, R385): a frame on a port that is UP. -/
def State.frameReceive (s : State) (n : Nat) (f : List Byte) (check : FrameCheck) (ecc : List EccHit) : State :=
  if s.fuse.grade.ports ≤ n ∨ (s.port n).link ≠ .up then s else
  match check with
  | .badFcs => s.modPort n fun y => { y with fcs := satAdd y.fcs 1 }
  | .fecUncorrectable => s.modPort n fun y => { y with fcs := satAdd y.fcs 1, fecUncorr := satAdd y.fecUncorr 1 }
  | .good =>
    let x := viewFrame f
    if x.etherType = 0x8808 then s else
    match (s.vportsOn n).find? fun e => (s.vport e.1 e.2).takes x with
    | none => s.modPort n fun y => { y with noMatch := satAdd y.noMatch 1 }
    | some (p, v) => s.deliver p v n f x ecc

/-- A frame comes in on NET[n]. -/
def execFrameReceive (n : Fin 2) (frame : List Byte) (check : FrameCheck) (s : State) (ecc : List EccHit := []) : Res :=
  .next (s.frameReceive n.val frame check ecc)

/-- The codec session of an RTP_BIND: unit and session. -/
def Cmd.rtpSession (c : Cmd) : Nat × Nat := (bitsOf (c.fld 36 1) 0 2, bitsOf (c.fld 36 1) 2 6)

/-- The binding of a codec session. -/
def State.binding (s : State) (p u n : Nat) : Option Binding := (s.part p).net.binds.find? fun b => b.unit == u && b.session == n
/-- Codec session `n` of unit `u` of partition `p`. -/
def State.session (s : State) (p u n : Nat) : Session := tget {} (s.part p).cdc.sessions (64 * u + n)

/-- RTP_BIND with op BIND (R392). -/
def State.rtpBind (s : State) (p id : Nat) : State :=
  onStarted s p id 4 0x12 fun c =>
    if c.fld 35 1 ≠ 0 then s else
    let (u, n) := c.rtpSession
    let x := s.session p u n
    let six := bitOf (c.fld 39 1) 0
    if (s.binding p u n).isSome then s.skip p id Cause.rtpParam
    else if x.state != .open' || !x.encode || x.ctx != c.ctx || x.codec == 2 then s.skip p id Cause.rtpSession
    else if !s.vportOk p c.vp c.netPort then s.skip p id Cause.vportDown
    else
      let rd := s.peekO p (c.ref 56) 32
      let s := s.countO p (c.ref 56) 32
      match rd.fault with
      | some q => s.netPoison p id q 0
      | none =>
        if !peerOk rd.bytes six then s.skip p id Cause.netPeer else
        let b : Binding := {
          unit := u, session := n, ctx := c.ctx, vport := c.vp, pt := BitVec.ofNat 8 (c.fld 38 1), ipv6 := six
          dscp := BitVec.ofNat 6 (bitsOf (c.fld 39 1) 2 6), ssrc := word32 c.desc 40, seqNo := BitVec.ofNat 16 (c.fld 44 2)
          srcPort := BitVec.ofNat 16 (c.fld 46 2), tsBase := word32 c.desc 48, tsStep := word32 c.desc 52, frames := 0
          dstMac := slice rd.bytes 0 6, dstIp := slice rd.bytes 8 (if six then 16 else 4), dstPort := BitVec.ofNat 16 (fieldAt rd.bytes 24 2) }
        (s.modNet p fun y => { y with binds := y.binds ++ [b] }).done p id

/-- What RTP_BIND BIND reads: its peer block. -/
def State.bindReads (p : Nat) (_ : State) (c : Cmd) : List Finder :=
  if c.fld 35 1 = 0 then [Finder.reads p Cause.netPoison (c.ref 56) 32] else []

/-- Runs RTP_BIND BIND `id` of partition `p`. -/
def execRtpBind (p : PartId) (id : Nat) (s : State) (ecc : List EccHit := []) : Res :=
  .next ((s.eccRead p.val id (·.runs 4 0x12) (State.bindReads p.val) ecc).rtpBind p.val id)

/-- The binding of a session released (R384, R392). -/
def State.unbindRtp (s : State) (p u n : Nat) : State :=
  s.modNet p fun y => { y with binds := y.binds.filter fun b => !(b.unit == u && b.session == n) }

/-- RTP_BIND with op UNBIND (R392). -/
def State.rtpUnbind (s : State) (p id : Nat) : State :=
  onStarted s p id 4 0x12 fun c =>
    if c.fld 35 1 ≠ 1 then s else
    let (u, n) := c.rtpSession
    if (s.binding p u n).isNone then s.skip p id Cause.rtpParam else (s.unbindRtp p u n).done p id

/-- Runs RTP_BIND UNBIND `id` of partition `p`. -/
def execRtpUnbind (p : PartId) (id : Nat) (s : State) : Res := .next (s.rtpUnbind p.val id)

/-- One RTP packet of a binding, sent by command `id` (R392, R393, RFC 3550). -/
def State.rtpPacket (s : State) (p id : Nat) (b : Binding) (last : Bool) (body : List Byte) : State :=
  let v := s.vport p b.vport
  let now := ((s.binding p b.unit b.session).map (·.seqNo)).getD 0
  let hdr := [0x80, BitVec.ofNat 8 (128 * b2n last + b.pt.toNat)] ++ be2 now.toNat
    ++ be4 ((b.tsBase + BitVec.ofNat 32 b.frames * b.tsStep).toNat) ++ be4 b.ssrc.toNat
  let x : Peer := {
    mac := b.dstMac, ip := b.dstIp, port := b.dstPort.toNat, ipv6 := b.ipv6, dscp := b.dscp.toNat, src := v.source b.ipv6 0
    srcPort := b.srcPort.toNat }
  let f : TxFrame := {
    port := vportPort b.vport, vport := b.vport, cmd := id, live := (s.session p b.unit b.session).live, bytes := v.udp s.free x (hdr ++ body) }
  (s.useFree.transmit p f).modNet p fun y =>
    { y with binds := y.binds.map fun z => if z.unit = b.unit ∧ z.session = b.session then { z with seqNo := z.seqNo + 1 } else z }

/-- The bitstream of an ENCODE_FRAME that ends DONE sent as RTP (R392), the marker on its last packet. Nothing leaves a port that is not UP, or a
virtual port that is not enabled or has no address of the family (log entry 10). -/
def State.sendRtp (s : State) (p id u sess : Nat) (bs : List Byte) : State :=
  match s.binding p u sess with
  | none => s
  | some b =>
    let v := s.vport p b.vport
    let s' := if (s.port (vportPort b.vport)).link != .up || !v.enable || noAddr (v.source b.ipv6 0) then s else
      let l := rtpPayloads ((s.session p u sess).codec == 0) (v.mtu.toNat - (if b.ipv6 then 60 else 40)) bs
      (List.range l.length).foldl (fun s i => s.rtpPacket p id b (i + 1 == l.length) (nth [] l i)) s
    s'.modNet p fun y => { y with binds := y.binds.map fun z => if z.unit = u ∧ z.session = sess then { z with frames := z.frames + 1 } else z }

/-- The end of a command whose last `n` frames are discarded: of a SEND with the cause and the frames it sent (R384, R390); of an ENCODE_FRAME,
whose RTP it was, with the cause where it has none. -/
def Cmd.cutFrames (c : Cmd) (cause : W16) (n : Nat) : Cmd :=
  if c.engine = 4 then { c with status := .done, cause := cause, faultSeq := none, detail := c.detail - BitVec.ofNat 32 n }
  else if c.status = .done ∧ c.cause = 0 then { c with cause := cause } else c

/-- The waiting frames that `f` names discarded; with a cause, what the commands that send them end with (R384, R390). -/
def State.dropFrames (s : State) (p : Nat) (cause : Cmd → Option W16) (f : TxFrame → Bool) : State :=
  let l := (s.part p).net.txHeld
  let gone := l.filter f
  let s := s.setHeld p (l.filter fun x => !f x)
  let s := [0, 1].foldl (fun s n => s.modReg p (3 + n) fun g => { g with
    given := setNth g.given 0 (· + ((gone.filter (·.port == n)).map TxFrame.cost).foldl (· + ·) 0) }) s
  (gone.map (·.cmd)).eraseDups.foldl (fun s id => s.modCmd p id fun c =>
    match cause c with
    | some w => c.cutFrames w (gone.filter (·.cmd == id)).length
    | none => c) s

/-- What disabling virtual port `v` ends (R384): its RECV_POSTs, with the slots they filled, its SENDs and its RTP transmissions, with the frames
not yet sent, its bindings. -/
def State.vportDown (s : State) (p v : Nat) : State :=
  let cs := (s.part p).cmd.cmds.filter fun c => (c.runs 4 0x10 || c.runs 4 0x11) && c.vp == v
  let s := cs.foldl (fun s c => (s.dropRecv p c.id).finish p c.id .done Cause.vportDown (s.recvOf p c.id).filled) s
  (s.dropFrames p (fun _ => some Cause.vportDown) (·.vport == v)).modNet p fun y => { y with binds := y.binds.filter (·.vport != v) }

/-- What the link of a port that is no longer UP ends (R390): the frames that wait there are discarded, and their SENDs end with NET_LINK. That an
RTP transmission ends without a cause is the model's (log entry 10): R390 speaks of SEND. -/
def State.portLost (s : State) (n : Nat) : State :=
  if (s.port n).link = .up then s else
  (List.range 32).foldl (fun s p => s.dropFrames p (fun c => if c.engine = 4 then some Cause.netLink else none) (·.port == n)) s

/-- The block of a port in an event record. -/
def srcNet (n : Nat) : Src := ⟨0x09, n⟩

/-- The partitions with an enabled virtual port on port `n`. -/
def State.netParts (s : State) (n : Nat) : List Nat :=
  (List.range 32).filter fun p => s.live p && (List.range 32).any fun v => (s.vport p (32 * n + v)).enable

/-- A link change reported on the PF ring and on the ring of each partition with a virtual port there (R397). -/
def State.reportLink (s : State) (n : Nat) (q : W64) : State :=
  let s := (s.link q Cause.netLinkChange (srcNet n) none).recPf q Cause.netLinkChange 0 (srcNet n) none 0 []
  (s.netParts n).foldl (fun s p => s.recPart p q Cause.netLinkChange 0 (srcNet n) 0 []) s

/-- NET_LINK_CHANGE (R397): the state of an enabled port's link changes. -/
def State.netLinkChange (s : State) (n : Nat) (link : NetLink) : State :=
  let x := s.port n
  if s.fuse.grade.ports ≤ n || x.link == link || (link != .down && (!x.enable || x.failed)) then s else
  let (q, s) := ((s.modPort n fun y => { y with link := link }).portLost n).newFault
  s.reportLink n q

/-- The link of NET[n] changes. -/
def execNetLinkChange (n : Fin 2) (link : NetLink) (s : State) : Res := .next (s.netLinkChange n.val link)

/-- NET_FAULT (R397): a parity failure in a MAC; the port goes DOWN. -/
def State.netFault (s : State) (n : Nat) : State :=
  if s.fuse.grade.ports ≤ n then s else
  let up := (s.port n).link != .down
  let (q, s) := ((s.modPort n fun y => { y with link := .down, failed := true }).portLost n).newFault
  let s := (s.link q Cause.netFault (srcNet n) none).recPf q Cause.netFault 3 (srcNet n) none 0 []
  if up then s.reportLink n q else s

/-- The MAC of NET[n] fails its parity. -/
def execNetFault (n : Fin 2) (s : State) : Res := .next (s.netFault n.val)

end Sys2Proof.Machine
end

