-- ==== Sys2Proof/Machine/Codec.lean ====
section
/-!
DEFINITION. The video engines (chapter 8): sessions and their pools, DECODE_UNIT, ENCODE_FRAME, priorities, faults.

What a coded picture says, and what an encoder emits, is laid down by the coding standards and not by the spec: the samples, the
reference marks, the display order and the sizes are free values within the limits that the chapter gives (log entry 10).
-/

namespace Sys2Proof.Machine

/-- Bytes of a sample. -/
def Session.sampleBytes (x : Session) : Nat := if x.tenBit then 2 else 1
/-- The pitch of a plane (R277). -/
def Session.pitch (x : Session) : Nat := roundUp (x.width * x.sampleBytes) 256
/-- The bytes of a buffer's planes. -/
def Session.planeBytes (x : Session) : Nat := roundUp (x.pitch * x.height * 3 / 2) 4096
/-- Block columns and rows of a frame (R272). -/
def Session.blockCols (x : Session) : Nat := ceilDiv x.width 64
/-- Block rows of a frame. -/
def Session.blockRows (x : Session) : Nat := ceilDiv x.height 64
/-- The codec units of a frame. -/
def Session.units (x : Session) : Nat := x.blockCols * x.blockRows
/-- The bytes of a buffer: planes and side area. -/
def Session.bufBytes (x : Session) : Nat := x.planeBytes + 1024 * x.units
/-- Buffer `i` of the pool. -/
def Session.buf (x : Session) (i : Nat) : ORef := (ORef.of x.poolRef.toNat).add (i * x.bufBytes)
/-- The marks of buffer `i` (Table 8.8). -/
def Session.mark (x : Session) (i : Nat) : Nat := (tget 0 x.marks i).toNat
/-- The session with the marks of buffer `i` changed. -/
def Session.setMark (x : Session) (i : Nat) (f : Nat → Nat) : Session :=
  { x with marks := tset x.marks i (BitVec.ofNat 13 (f (x.mark i))) }
/-- A mark bit set or cleared. -/
def putBit (n i : Nat) (b : Bool) : Nat := if bitOf n i = b then n else if b then n + 2 ^ i else n - 2 ^ i
/-- Whether a buffer is free: all its marks are clear (R278). -/
def Session.isFree (x : Session) (i : Nat) : Bool := bitsOf (x.mark i) 0 12 == 0
/-- The free buffer of lowest index (R278). -/
def Session.freeBuf (x : Session) : Option Nat := (List.range x.nbuf).find? x.isFree
/-- Whether a buffer holds a reference. -/
def Session.isRef (x : Session) (i : Nat) : Bool := bitsOf (x.mark i) 0 10 != 0
/-- The compute marks that a release_mask clears (R278, R279). -/
def Session.release (x : Session) (mask : Nat) : Session :=
  (setBits mask x.nbuf).foldl (fun x i => x.setMark i fun m => putBit m 11 false) x

/-- Codec session changed. -/
def State.modSession (s : State) (p u n : Nat) (f : Session → Session) : State :=
  s.modCdc p fun y => { y with sessions := tmod {} y.sessions (64 * u + n) f }

/-- The unit and session of a CDC command. -/
def Cmd.cdcUnit (c : Cmd) : Nat := dUnit c.desc
/-- The session that a CDC command names. -/
def Cmd.sess (c : Cmd) : Nat := bitsOf (c.fld 36 1) 0 6
/-- The sessions of partition `p` that are not FREE on unit `u`. -/
def State.openSessions (s : State) (p u : Nat) : Nat :=
  (s.part p).cdc.sessions.countP fun e => decide (e.1 / 64 = u) && e.2.state != .free
/-- The sessions that partition `p` is granted on unit `u` (PRES_CDC_GRANT). -/
def State.cdcGrant (s : State) (p u : Nat) : Nat := bitsOf (s.part p).ctl.cdcGrant.toNat (8 * u) 7

/-- The session that a SESSION_OPEN asks for (Table 8.4). -/
def Cmd.newSession (c : Cmd) : Session :=
  let b := c.fld 35 1
  { state := .open', ctx := c.ctx, codec := BitVec.ofNat 2 b, encode := bitOf b 2, live := bitOf b 3, tenBit := bitOf b 4
    nbuf := c.fld 37 1, conv := BitVec.ofNat 2 (c.fld 38 1), level := c.fld 39 1, width := c.fld 40 2, height := c.fld 42 2
    poolRef := BitVec.ofNat 64 (c.fld 48 8), rcMode := BitVec.ofNat 2 (c.fld 56 1), qpMin := c.fld 57 1, qpMax := c.fld 58 1
    target := c.fld 60 4, frameCap := c.fld 64 4 }

/-- Whether a session's parameters lie within R271, R272 and R277 and go with its codec and direction (R295). -/
def Session.paramsOk (x : Session) : Bool :=
  let top := if x.codec = 1 then 51 else 255
  x.codec != 3 && (!x.encode || (x.codec != 2 && x.tenBit)) && !(x.codec == 2 && x.tenBit) && x.conv != 3
    && decide (1 ≤ x.nbuf) && decide (x.nbuf ≤ 32) && decide (x.level ≤ if x.codec = 2 then 52 else 61)
    && decide (64 ≤ x.width) && decide (x.width ≤ 8192) && x.width % 2 == 0
    && decide (64 ≤ x.height) && decide (x.height ≤ 4352) && x.height % 2 == 0
    && (if x.encode then decide (x.qpMin ≤ x.qpMax) && decide (x.qpMax ≤ top)
        && (if x.rcMode = 1 ∨ x.rcMode = 2 then x.target != 0 else x.target == 0)
      else x.rcMode == 0 && x.qpMin == 0 && x.qpMax == 0 && x.target == 0 && x.frameCap == 0)

/-- The checks of a CDC command at its start (R275, R276, R294, R295); 0: all pass. -/
def cdcCheck (s : State) (p : Nat) (c : Cmd) : W16 :=
  let x := s.session p c.cdcUnit c.sess
  let sess (enc : Bool) : W16 :=
    if x.state != .open' || x.encode != enc then Cause.sessionId else if x.ctx ≠ c.ctx then Cause.sessionContext else 0
  let b := c.fld 35 1
  if bitsOf (c.fld 36 1) 6 2 != 0 then Cause.badOperand else
  match c.op with
  | 0x10 =>
    let y := c.newSession
    let pool := s.object p (ORef.of y.poolRef.toNat).handle
    if bitsOf b 5 3 != 0 || decide (63 < c.fld 37 1) || bitsOf (c.fld 38 1) 2 6 != 0 || !zeroAt c.desc 44 4 || bitsOf (c.fld 56 1) 2 6 != 0
        || c.fld 59 1 != 0 || !c.zeroFrom 68 then Cause.badOperand
    else if x.state ≠ .free then Cause.sessionId
    else if !y.paramsOk || !s.inObj p (ORef.of y.poolRef.toNat) (y.nbuf * y.bufBytes) || pool.src.home.near then Cause.sessionParam
    else if s.destCheck p (ORef.of y.poolRef.toNat).handle ≠ 0 then s.destCheck p (ORef.of y.poolRef.toNat).handle
    else if s.cdcGrant p c.cdcUnit ≤ s.openSessions p c.cdcUnit then Cause.sessionQuota
    else 0
  | 0x11 =>
    let nr := c.fld 37 1
    let latent := bitOf b 1
    let len := c.fld 40 4
    if bitsOf b 2 6 != 0 || (if latent then nr == 0 || decide (64 < nr) else nr != 0 || !zeroAt c.desc 56 8) || c.fld 38 2 != 0
        || decide (67108864 < len) || (len == 0 && !zeroAt c.desc 48 8) || (len != 0 && !s.inObj p (c.ref 48) len)
        || (latent && !s.inObj p (c.ref 56) (16 * nr)) then Cause.badOperand
    else sess false
  | 0x12 =>
    let latent := bitOf b 1
    let nroi := c.fld 37 1
    if bitsOf b 2 6 != 0 || decide (16 < nroi) || c.fld 43 1 != 0 || !c.zeroFrom 76 || (latent && c.fld 41 1 != 0xFF)
        || (!latent && !zeroAt c.desc 48 8) || (nroi == 0 && !zeroAt c.desc 68 8) then Cause.badOperand
    else if sess true ≠ 0 then sess true
    else if (latent && !s.inObj p (c.ref 48) (32 * x.width * x.height)) || !s.inObj p (c.ref 56) (c.fld 64 4)
        || (nroi != 0 && !s.inObj p (c.ref 68) (8 * nroi)) then Cause.badOperand
    else s.destCheck p (c.ref 56).handle
  | _ =>
    if b != 0 || !c.zeroFrom 37 then Cause.badOperand
    else if x.state = .free then Cause.sessionId
    else if x.ctx ≠ c.ctx then Cause.sessionContext
    else 0

/-- The command that an engine runs, while it is started. -/
def State.engRuns (s : State) (u : Nat) : Option (Nat × Nat) :=
  (tget {} s.cdcs u).running.bind fun r =>
    if (s.cmd? r.1.val r.2).any fun c => c.phase == .started then some (r.1.val, r.2) else none
/-- The command that an engine holds suspended, while it is started (R289). -/
def State.engHolds (s : State) (u : Nat) : Option (Nat × Nat) :=
  (tget {} s.cdcs u).suspended.bind fun r =>
    if (s.cmd? r.1.val r.2).any fun c => c.phase == .started then some (r.1.val, r.2) else none

/-- A started CDC command that its engine runs. -/
def State.onCdc (s : State) (p id op : Nat) (f : Cmd → State) : State :=
  onStarted s p id 3 op fun c => if s.engRuns c.cdcUnit = some (p, id) then f c else s

/-- SESSION_OPEN (R276, R295). -/
def State.sessionOpen (s : State) (p id : Nat) : State :=
  s.onCdc p id 0x10 fun c =>
    if s.cdcGrant p c.cdcUnit ≤ s.openSessions p c.cdcUnit then s.skip p id Cause.sessionQuota else
    (s.modSession p c.cdcUnit c.sess fun _ => c.newSession).done p id

/-- Runs SESSION_OPEN `id` of partition `p`. -/
def execSessionOpen (p : PartId) (id : Nat) (s : State) : Res := .next (s.sessionOpen p.val id)

/-- SESSION_CLOSE (R276, R392). -/
def State.sessionClose (s : State) (p id : Nat) : State :=
  s.onCdc p id 0x13 fun c => ((s.modSession p c.cdcUnit c.sess fun _ => {}).unbindRtp p c.cdcUnit c.sess).done p id

/-- Runs SESSION_CLOSE `id` of partition `p`. -/
def execSessionClose (p : PartId) (id : Nat) (s : State) : Res := .next (s.sessionClose p.val id)

/-- A sample as its pool buffer holds it (R277). -/
def Session.store (x : Session) (v : Nat) : List Byte := if x.tenBit then leBytes 2 (64 * (v % 1024)) else [BitVec.ofNat 8 v]

/-- One row of a plane as a command writes it (R277, R292): free samples; a concealed block is the co-located one of `ref`, or
mid-grey; what pads the pitch is free. `plane` 0 luma, 1 chroma. -/
def Session.planeRow (x : Session) (u plane r : Nat) (concealed : Nat → Bool) (ref : Option (List Byte)) : List Byte :=
  let b := x.sampleBytes
  let blockRow := (if plane = 0 then r else 2 * r) / 64
  ((List.range x.width).flatMap fun c =>
    if concealed (blockRow * x.blockCols + c / 64) then
      match ref with
      | some bs => slice bs (b * c) b
      | none => x.store (if x.tenBit then 512 else 128)
    else
      let i := 2 * (r * x.width + c)
      x.store ((Config.decoded u plane i).toNat + 256 * (Config.decoded u plane (i + 1)).toNat))
  ++ (List.range (x.pitch - b * x.width)).map fun i => Config.decoded u (2 + plane) (r * x.pitch + i)

/-- The reads of concealment in row `r` of buffer `j`: the co-located blocks (R292, R297). -/
def State.countConcealed (s : State) (p : Nat) (x : Session) (j r blockRow : Nat) (concealed : Nat → Bool) : State :=
  ((List.range x.blockCols).filter fun k => concealed (blockRow * x.blockCols + k)).foldl (fun s k =>
    s.countO p ((x.buf j).add (r * x.pitch + 64 * k * x.sampleBytes)) (64 * x.sampleBytes)) s

/-- The first `n` block rows of the planes of buffer `i` written, and what the side area holds of them; answers the first fault that
refused a line. -/
def State.writeFrame (s : State) (p : Nat) (x : Session) (i u n : Nat) (concealed : Nat → Bool) (ref : Option Nat) :
    State × Option W64 :=
  let row (s : State) (r : Nat) : State × Option W64 :=
    let plane := if r < x.height then 0 else 1
    let rr := if r < x.height then r else r - x.height
    let old := ref.map fun j => (s.peekO p ((x.buf j).add (r * x.pitch)) x.pitch).bytes
    let s := match ref with
      | some j => s.countConcealed p x j r ((if plane = 0 then rr else 2 * rr) / 64) concealed
      | none => s
    s.pokeO p ((x.buf i).add (r * x.pitch)) (x.planeRow u plane rr concealed old)
  let rows := List.range (min (64 * n) x.height) ++ (List.range (min (32 * n) (x.height / 2))).map (x.height + ·)
  let t := rows.foldl (fun (t : State × Option W64) r =>
    let y := row t.1 r
    (y.1, t.2.orElse fun _ => y.2)) (s, none)
  let y := t.1.pokeO p ((x.buf i).add x.planeBytes) ((List.range (1024 * x.blockCols * min n x.blockRows)).map fun k => Config.decoded u 4 k)
  (y.1, t.2.orElse fun _ => y.2)

/-- An output region of the latent path (R282). -/
structure Region where
  dst : ORef
  x0 : Nat
  y0 : Nat
  w : Nat
  h : Nat
  deriving Repr

/-- The regions that a region table holds. -/
def regionsOf (bs : List Byte) (n : Nat) : List Region :=
  (List.range n).map fun j =>
    { dst := orefAt bs (16 * j), x0 := fieldAt bs (16 * j + 8) 2, y0 := fieldAt bs (16 * j + 10) 2, w := fieldAt bs (16 * j + 12) 2
      h := fieldAt bs (16 * j + 14) 2 }

/-- Whether a region lies within a frame and its object (R282). -/
def State.regionOk (s : State) (p : Nat) (x : Session) (g : Region) : Bool :=
  g.x0 % 2 == 0 && g.y0 % 2 == 0 && g.w % 2 == 0 && g.h % 2 == 0 && decide (2 ≤ g.w) && decide (2 ≤ g.h)
    && decide (g.x0 + g.w ≤ x.width) && decide (g.y0 + g.h ≤ x.height) && s.inObj p g.dst (32 * g.w * g.h)

/-- A conversion matrix: Kr, Kg and Kb in ten-thousandths: BT.709, or BT.2020 non-constant luminance (R283, log entry 37). -/
def matrixOf (conv : Nat) : Int × Int × Int := if conv = 1 then (2126, 7152, 722) else (2627, 6780, 593)

/-- The exact converted value of channel `ch` as numerator and denominator (R283). -/
def convExact (conv bits ch : Nat) (y cb cr : Int) : Int × Int :=
  if conv = 0 then
    let m : Int := ((2 ^ bits : Nat) : Int) - 1
    (2 * (if ch = 0 then y else if ch = 1 then cb else cr) - m, m)
  else
    let sc : Int := ((2 ^ (bits - 8) : Nat) : Int)
    let (kr, kg, kb) := matrixOf conv
    let yy := y - 64 * sc
    let b := cb - 512 * sc
    let r := cr - 512 * sc
    let d : Int := 876 * 896 * sc * 10000 * kg
    let base := yy * 896 * 10000 * kg
    let n := match ch with
      | 0 => base + 2 * (10000 - kr) * 876 * r * kg
      | 1 => base - 2 * kb * (10000 - kb) * 876 * b - 2 * kr * (10000 - kr) * 876 * r
      | _ => base + 2 * (10000 - kb) * 876 * b * kg
    let v := 2 * n - d
    (if v < -d then -d else if d < v then d else v, d)

/-- A converted value in BF16 (R283): what the FP32 computation comes to, rounded once, to nearest even. The order of its FP32 operations is
open; the rule bounds what they may add to the exact value by 2^−20, so that much is free (log entry 94). -/
def convValue (free : Nat) (n d : Int) : Nat :=
  let k : Int := (free % 2049 : Nat) - 1024
  let num : Int := n * ((2 ^ 30 : Nat) : Int) + k * d
  let m := num.natAbs * 2 ^ 50
  let q := 2 * (m / d.natAbs) + b2n (m % d.natAbs != 0)
  Fmt.bf16.encode (Fmt.bf16.round (.fin (decide (num < 0)) q (-81)))

/-- A sample of buffer `i` of a pool: plane 0 luma; chroma samples interleaved Cb, Cr. -/
def State.sample (s : State) (p : Nat) (x : Session) (i plane r c : Nat) : Int :=
  let row := if plane = 0 then r else x.height + r
  let v := leNat (s.peekO p ((x.buf i).add (row * x.pitch + x.sampleBytes * c)) x.sampleBytes).bytes
  ((if x.tenBit then v / 64 else v : Nat) : Int)

/-- The reads of the first `rows` rows of a region in buffer `i` (R297). -/
def State.countRegion (s : State) (p : Nat) (x : Session) (i : Nat) (g : Region) (rows : Nat) : State :=
  let b := x.sampleBytes
  ((List.range rows).map (g.y0 + ·) ++ (List.range ((rows + 1) / 2)).map (x.height + g.y0 / 2 + ·)).foldl (fun s r =>
    s.countO p ((x.buf i).add (r * x.pitch + g.x0 * b)) (g.w * b)) s

/-- The first `rows` rows of a frame delivered into one region (R282, R283): C16 layout, BF16, channels 3 to 15 zero. -/
def State.deliverRegion (s : State) (p : Nat) (x : Session) (i u : Nat) (g : Region) (rows : Nat) : State × Option W64 :=
  let bits := if x.tenBit then 10 else 8
  let px (r c : Nat) : List Byte :=
    let y := s.sample p x i 0 (g.y0 + r) (g.x0 + c)
    let cb := s.sample p x i 1 ((g.y0 + r) / 2) (2 * ((g.x0 + c) / 2))
    let cr := s.sample p x i 1 ((g.y0 + r) / 2) (2 * ((g.x0 + c) / 2) + 1)
    ((List.range 3).flatMap fun ch =>
      let e := convExact x.conv.toNat bits ch y cb cr
      let k := 2 * (3 * (r * g.w + c) + ch)
      leBytes 2 (convValue ((Config.decoded u 5 k).toNat + 256 * (Config.decoded u 5 (k + 1)).toNat) e.1 e.2)) ++ List.replicate 26 0
  (s.countRegion p x i g rows).pokeAll p ((List.range rows).map fun r => (g.dst.add (32 * g.w * r), (List.range g.w).flatMap (px r)))

/-- What remains of the short-term (1) and long-term (2) marks of an older buffer under the rules of the standard: free; a short-term
reference may be kept, dropped or made long-term (Table 8.2). -/
def keptRef (u i m : Nat) : Nat :=
  if m = 0 || Config.freeBool u (2 * i) then 0 else if bitOf m 0 && Config.freeBool u (2 * i + 1) then 2 else m

/-- The reference marks after a picture is decoded into buffer `b` (Table 8.2): free, as the picture's headers give them. -/
def Session.newRefs (x : Session) (u b : Nat) : Session :=
  if x.codec = 0 then
    let r := Config.freeNat u % 256
    let x := (List.range x.nbuf).foldl (fun x i => x.setMark i fun m => m - 4 * (bitsOf m 2 8 &&& r)) x
    x.setMark b fun m => m + 4 * r
  else
    let x := (List.range x.nbuf).foldl (fun x i => x.setMark i fun m => m - bitsOf m 0 2 + keptRef u i (bitsOf m 0 2)) x
    x.setMark b fun m => m + Config.freeNat (u + 1) % 3

/-- The frames that wait for output, with one put in at its place in display order (R281): an AV1 frame that is shown is ready at once, after
those before it; another stands at a free place behind those that are ready. -/
def Session.showFrame (x : Session) (u b : Nat) : Session :=
  let n := x.reorder.length
  let k := if x.codec = 0 then n else x.ready + Config.freeNat u % (n - x.ready + 1)
  ({ x with
    reorder := x.reorder.take k ++ b :: x.reorder.drop k
    ready := if x.codec = 0 then n + 1 else x.ready }).setMark b fun m => putBit m 10 true

/-- The session once a unit has said how many of the waiting frames are ready: a free number, those that were ready among them (R281). -/
def Session.readied (x : Session) (u : Nat) : Session :=
  { x with ready := x.ready + Config.freeNat u % (x.reorder.length - x.ready + 1) }

/-- The release_mask of a DECODE_UNIT or ENCODE_FRAME that starts: the compute marks that it clears, which the command notes (R279). -/
def State.releaseMask (s : State) (p : Nat) (c : Cmd) : State :=
  if c.engine ≠ 3 ∨ (c.op ≠ 0x11 ∧ c.op ≠ 0x12) then s else
  let x := s.session p c.cdcUnit c.sess
  let l := (setBits (c.fld 44 4) x.nbuf).filter fun i => bitOf (x.mark i) 11
  (s.modSession p c.cdcUnit c.sess fun x => x.release (c.fld 44 4)).modCmd p c.id fun c => { c with released := l }

/-- A command that is skipped leaves the session as it was: the compute marks that it cleared stand again (R39, R279). -/
def State.unrelease (s : State) (p : Nat) (c : Cmd) : State :=
  s.modSession p c.cdcUnit c.sess fun x => c.released.foldl (fun x i => x.setMark i fun m => putBit m 11 true) x
/-- A DECODE_UNIT or ENCODE_FRAME skipped by a check that its engine makes after its start. -/
def State.skipCdc (s : State) (p : Nat) (c : Cmd) (cause : W16) : State := (s.unrelease p c).skip p c.id cause

/-- The pool of a session. -/
def Session.pool (x : Session) : ORef × Nat := (ORef.of x.poolRef.toNat, x.nbuf * x.bufBytes)

/-- Why the regions of a DECODE_UNIT skip it (R282, R295): a destination that is no object, a region outside the frame or its object, a
destination that may not be named; 0: none does. -/
def State.regionCause (s : State) (p : Nat) (x : Session) (gs : List Region) : W16 :=
  if gs.any fun g => !(s.object p g.dst.handle).usable then Cause.badOperand
  else if gs.any fun g => !s.regionOk p x g then Cause.deliveryRange
  else (gs.findSome? fun g => if s.destCheck p g.dst.handle = 0 then none else some (s.destCheck p g.dst.handle)).getD 0

/-- The AV1 slots after frame `i` has been shown again (Table 8.2): a key frame is stored in every slot; whether it is one is free. -/
def Session.shownAgain (x : Session) (u i : Nat) : Session :=
  if !Config.freeBool u 0 then x else
  ((List.range x.nbuf).foldl (fun x j => x.setMark j fun m => m - 4 * bitsOf m 2 8) x).setMark i fun m => m + 4 * 255

/-- What a DECODE_UNIT has come to after decoding. -/
structure Decoded where
  s : State
  x : Session
  /-- the buffer decoded into, where there is one -/
  buf : Option Nat
  corrupt : Bool
  refCorrupt : Bool
  concealed : Nat
  cause : W16
  fault : Option W64
  refused : Option W64

/-- The last good reference (R292): the most recently decoded buffer that is not corrupt and still holds a mark. -/
def Session.goodRef (x : Session) : Option Nat :=
  (minBy (fun i => x.history - tget 0 x.decodedAt i)) ((List.range x.nbuf).filter fun i =>
    !bitOf (x.mark i) 12 && !x.isFree i && tget 0 x.decodedAt i != 0)

/-- A picture decoded into buffer `b` (R280, R292): free samples; with a cause the free blocks that were not reconstructed are
concealed. `forced` is the cause of a unit aborted at its work bound (R291). -/
def State.decodeInto (s : State) (p : Nat) (c : Cmd) (x : Session) (b : Nat) (forced : Option W16) : Decoded :=
  let u := s.free
  let s : State := { s with free := u + 8 + x.nbuf }
  let refs := (List.range x.nbuf).filter x.isRef
  let bits := s.peekO p (c.ref 48) (c.fld 40 4)
  let s := refs.foldl (fun s i => s.countO p (x.buf i) (Config.freeNat (u + 8 + i) % (x.planeBytes + 1))) (s.countO p (c.ref 48) (c.fld 40 4))
  let refBad := if Config.freeBool u 0 then refs.findSome? fun i => (s.peekO p (x.buf i) x.planeBytes).fault else none
  let fault := bits.fault.orElse fun _ => refBad
  let cause := if fault.isSome then Cause.cdcPoison else forced.getD (nth 0 [0, Cause.bitstreamError, Cause.streamUnsupported] (Config.freeNat u % 3))
  let corrupt := decide (cause ≠ 0)
  let hide (k : Nat) : Bool := corrupt && Config.freeBool (u + 1) k
  let n := (List.range x.units).countP hide
  let (s, refused) := s.writeFrame p x b (u + 2) x.blockRows hide x.goodRef
  let x' := (({ x with history := x.history + 1, decodedAt := tset x.decodedAt b (x.history + 1) }).newRefs (u + 3) b).setMark b
    fun m => putBit m 12 corrupt
  { s := s, buf := some b, corrupt := corrupt, concealed := n, cause := cause, fault := fault, refused := refused
    x := if corrupt || Config.freeBool (u + 5) 0 then x'.showFrame (u + 6) b else x'
    refCorrupt := Config.freeBool (u + 7) 0 && refs.any fun i => bitOf (x.mark i) 12 }

/-- The output of a DECODE_UNIT and its end (R281, R282, R292, R296, R297). -/
def Decoded.output (d : Decoded) (p : Nat) (c : Cmd) (gs : List Region) : State :=
  let u := d.s.free
  let x := if c.fld 40 4 = 0 then d.x else d.x.readied u
  let out := if c.fld 40 4 = 0 ∨ x.ready ≠ 0 then x.reorder.head? else none
  let s : State := { d.s with free := u + 2 }
  let toCompute := bitOf (c.fld 35 1) 0
  let latent := bitOf (c.fld 35 1) 1
  let x := match out with
    | some i => ({ x with reorder := x.reorder.drop 1, ready := x.ready - 1 }).setMark i fun m => putBit (putBit m 10 false) 11 (bitOf m 11 || toCompute)
    | none => x
  let outBad := if latent then out.bind fun i => (s.peekO p (x.buf i) x.planeBytes).fault else none
  let (s, bad) := match out, outBad with
    | some i, none =>
      if latent then gs.foldl (fun (r : State × Option W64) g =>
        let y := r.1.deliverRegion p x i (u + 1) g g.h
        (y.1, r.2.orElse fun _ => y.2)) (s, none) else (s, none)
    | _, _ => (s, none)
  let s := s.modSession p c.cdcUnit c.sess fun _ => x
  let n := if d.buf.isSome then x.units - d.concealed else 0
  let s := (s.count p 6 n).modEng c.cdcUnit fun e => { e with decUnits := wrapAdd e.decUnits n }
  let detail := d.buf.getD 0 + 32 * b2n out.isSome + 64 * out.getD 0 + 2048 * b2n d.corrupt + 4096 * b2n d.refCorrupt
    + 65536 * sat 13 d.concealed
  let cause := if outBad.isSome then Cause.cdcPoison else d.cause
  if cause ≠ 0 then s.finishBy p c.id cause (d.fault.orElse fun _ => outBad) detail
  else s.finishWrites p c.id (d.refused.orElse fun _ => bad) detail

/-- DECODE_UNIT (R279 to R283, R292); `forced`: it exceeds its work bound. It waits while an object that it writes is MOVING (R242). -/
def State.decode (s0 : State) (p : Nat) (c : Cmd) (forced : Option W16) : State :=
  let x := s0.session p c.cdcUnit c.sess
  let nr := c.fld 37 1
  let rd := s0.peekO p (c.ref 56) (16 * nr)
  let s := s0.countO p (c.ref 56) (16 * nr)
  match if nr = 0 then none else rd.fault with
  | some q => s.finishBy p c.id Cause.cdcPoison (some q)
  | none =>
    let gs := regionsOf rd.bytes nr
    if s.regionCause p x gs ≠ 0 then s.skipCdc p c (s.regionCause p x gs)
    else if s.anyMoving p (gs.map (·.dst.handle)) || (c.fld 40 4 != 0 && s.anyMoving p [x.pool.1.handle]) then s0
    else
      let none' : Decoded := {
        s := s, x := x, buf := none, corrupt := false, refCorrupt := false, concealed := 0, cause := 0, fault := none, refused := none }
      if c.fld 40 4 = 0 then none'.output p c gs
      else
        let slots := (List.range x.nbuf).filter fun i => bitsOf (x.mark i) 2 8 != 0
        if x.codec = 0 ∧ forced = none ∧ slots ≠ [] ∧ (s.peekO p (c.ref 48) (c.fld 40 4)).fault = none ∧ Config.freeBool s.free 1 then
          let i := nth 0 slots (Config.freeNat s.free % slots.length)
          let s' : State := { s with free := s.free + 3 }
          { none' with
            s := s'.countO p (c.ref 48) (c.fld 40 4), x := (x.shownAgain (s.free + 2) i).showFrame (s.free + 1) i }.output p c gs
        else
          match x.freeBuf with
          | none => s.skipCdc p c Cause.poolExhausted
          | some b => (s.decodeInto p c x b forced).output p c gs

/-- The pool of a session does not take or give its lines now (R270, R312). -/
def State.poolStopped (s : State) (p : Nat) (x : Session) : Bool := s.stoppedO p x.pool.1 x.pool.2

/-- DECODE_UNIT `id`. -/
def State.decodeUnit (s : State) (p id : Nat) : State :=
  s.onCdc p id 0x11 fun c =>
    let x := s.session p c.cdcUnit c.sess
    if s.poolStopped p x || s.stoppedO p (c.ref 48) (c.fld 40 4) then s.waitO p [x.pool, (c.ref 48, c.fld 40 4)] else s.decode p c none

/-- The planes of a buffer of a session, as a command reads them. -/
def Session.bufReads (x : Session) (p i : Nat) : Finder := Finder.reads p Cause.cdcPoison (x.buf i) x.planeBytes

/-- What DECODE_UNIT reads: its region table, its bitstream, its references, and a picture that it delivers. -/
def State.decodeReads (p : Nat) (s : State) (c : Cmd) : List Finder :=
  let x := s.session p c.cdcUnit c.sess
  if s.poolStopped p x || s.stoppedO p (c.ref 48) (c.fld 40 4) then [] else
  Finder.reads p Cause.cdcPoison (c.ref 56) (16 * c.fld 37 1) :: Finder.reads p Cause.cdcPoison (c.ref 48) (c.fld 40 4)
    :: ((List.range x.nbuf).filter fun i => (c.fld 40 4 != 0 && x.isRef i) || (bitOf (c.fld 35 1) 1 && x.reorder.contains i)).map (x.bufReads p ·)

/-- Runs DECODE_UNIT `id` of partition `p`. -/
def execDecodeUnit (p : PartId) (id : Nat) (s : State) (ecc : List EccHit := []) : Res := .next ((s.eccRead p.val id (·.runs 3 0x11) (State.decodeReads p.val) ecc).decodeUnit p.val id)

/-- UNIT_WORK_BOUND (R291): a running DECODE_UNIT with a picture exceeds its bound. -/
def State.unitWorkBound (s : State) (p id : Nat) : State :=
  s.onCdc p id 0x11 fun c => if c.fld 40 4 = 0 then s else s.decode p c (some Cause.unitWorkBound)

/-- Aborts DECODE_UNIT `id` of partition `p` at its work bound. -/
def execUnitWorkBound (p : PartId) (id : Nat) (s : State) : Res := .next (s.unitWorkBound p.val id)

/-- Whether an ROI entry is in order (R286, R295). -/
def Session.roiOk (x : Session) (e : List Byte) : Bool :=
  let f (i : Nat) : Nat := fieldAt e i 1
  let d := ofTwos 8 (f 4)
  decide (f 0 ≤ f 2) && decide (f 1 ≤ f 3) && decide (f 2 < x.blockCols) && decide (f 3 < x.blockRows) && decide (-20 ≤ d) && decide (d ≤ 20)
    && decide (f 6 ≤ f 5) && f 7 == 0

/-- The least bytes of a block row under a cap (R287). -/
def Session.minRow (x : Session) : Nat := x.blockCols + 16

/-- Whether an ENCODE_FRAME's references, source and cap are in order (R284, R295). -/
def Session.encodeOk (x : Session) (c : Cmd) (roi : List Byte) : Bool :=
  let key := bitOf (c.fld 35 1) 0
  let latent := bitOf (c.fld 35 1) 1
  let refs := [c.fld 38 1, c.fld 39 1].filter (· != 0xFF)
  (if key then refs.isEmpty else !refs.isEmpty) && refs.all (fun r => decide (r < x.nbuf) && x.isRef r)
    && (latent || (decide (c.fld 41 1 < x.nbuf) && bitOf (x.mark (c.fld 41 1)) 11))
    && (List.range (c.fld 37 1)).all (fun j => x.roiOk (slice roi (8 * j) 8))
    && (x.frameCap == 0 || decide (x.blockRows * x.minRow + 256 ≤ x.frameCap))

/-- The rows of a frame under a cap (R287): bytes used, and the first floor row with the bytes used at its entry. What a row costs is
free within its limit. -/
def Session.capRows (x : Session) (u : Nat) : Nat × Option (Nat × Nat) :=
  let rows := x.blockRows
  let rowMax := (if x.rcMode = 1 ∨ x.rcMode = 2 then 2 * x.target else x.frameCap) / rows
  (List.range rows).foldl (fun (a : Nat × Option (Nat × Nat)) r =>
    let floor := a.2.isSome || decide (x.frameCap < a.1 + rowMax + x.minRow * (rows - r - 1))
    let cost := Config.freeNat (u + r) % ((if floor then x.minRow else rowMax) + 1)
    (a.1 + cost, if floor then a.2.orElse (fun _ => some (r, a.1)) else none)) (0, none)

/-- How far a frame's deficit reduces its target (R287). -/
def Session.reduction (x : Session) : Nat := min x.deficit (x.target / 4)

/-- The target of a frame (R285, R287): that of the session, in VBR what the 64 frames up to this one leave of theirs, less the
reduction. -/
def Session.frameTarget (x : Session) : Nat :=
  (if x.rcMode = 2 then 64 * x.target - (x.window.take 63).foldl (· + ·) 0 else x.target) - x.reduction

/-- The QP of block `k` of a frame (R285, R286): that of rate control, the delta and the limits of the first ROI entry that covers the block,
and the session's limits. -/
def Session.blockQp (x : Session) (base : Nat) (roi : List (List Byte)) (u k : Nat) : Nat :=
  let rc := if x.rcMode = 1 ∨ x.rcMode = 2 then Config.rateQp u x.frameTarget k else base
  let col := k % x.blockCols
  let row := k / x.blockCols
  let f (e : List Byte) (i : Nat) : Nat := fieldAt e i 1
  let q := match roi.find? fun e => decide (f e 0 ≤ col) && decide (col ≤ f e 2) && decide (f e 1 ≤ row) && decide (row ≤ f e 3) with
    | some e => min (f e 5) (max (f e 6) ((rc : Int) + ofTwos 8 (f e 4)).toNat)
    | none => rc
  min x.qpMax (max x.qpMin q)

/-- The QPs of a frame's blocks (R286, R287): a floor row is coded at qp_max, and so is what is left of another row once it has spent its
bytes, from a free block on where there is a cap. -/
def Session.frameQps (x : Session) (base : Nat) (roi : List (List Byte)) (floor : Option Nat) (u : Nat) : List Nat :=
  (List.range x.units).map fun k =>
    let row := k / x.blockCols
    let spent := x.frameCap != 0 && decide (Config.freeNat (u + 1 + row) % (x.blockCols + 1) ≤ k % x.blockCols)
    if floor.any (· ≤ row) || spent then x.qpMax else x.blockQp base roi u k

/-- A number of a latent source as a multiple of 2^−140, clamped to [−1, 1] (R284); a NaN is a free number. -/
def latentFixed (v : Num) (u : Nat) : Int :=
  let one : Int := ((2 ^ 140 : Nat) : Int)
  match v with
  | .fin sgn m e =>
    let a : Nat := min (2 ^ 140) (if 0 ≤ e + 140 then m * 2 ^ (e + 140).toNat else 0)
    if sgn then -(a : Int) else a
  | .inf sgn => if sgn then -one else one
  | .nan => (Config.freeNat u % (2 ^ 141 + 1) : Nat) - one

/-- The 10-bit sample of channel `ch` (0 luma, 1 Cb, 2 Cr) at one position, rounded to nearest with ties up: the inverse of R283 at 10 bits
(R284, log entry 94). -/
def inverseSample (conv ch : Nat) (v : Nat → Int) : Nat :=
  let one : Int := ((2 ^ 140 : Nat) : Int)
  let up (n d : Int) : Nat := min 1023 ((2 * n + d) / (2 * d)).toNat
  if conv = 0 then up ((v ch + one) * 1023) (2 * one)
  else
    let (kr, kg, kb) := matrixOf conv
    let e (i : Nat) : Int := v i + one
    let y := kr * e 0 + kg * e 1 + kb * e 2
    match ch with
    | 0 => up (876 * 4 * y + 64 * 4 * 20000 * one) (20000 * one)
    | 1 => up (896 * 4 * (10000 * e 2 - y) + 512 * 4 * (4 * one * (10000 - kb))) (4 * one * (10000 - kb))
    | _ => up (896 * 4 * (10000 * e 0 - y) + 512 * 4 * (4 * one * (10000 - kr))) (4 * one * (10000 - kr))

/-- The samples of a latent source, luma then Cb and Cr (R284): each chroma sample the mean over its 2 × 2 positions, ties up. -/
def State.latentSamples (s : State) (p : Nat) (x : Session) (src : ORef) (u : Nat) : List Nat :=
  let bs := (s.peekO p src (32 * x.width * x.height)).bytes
  let at' (r c ch : Nat) : Nat := inverseSample x.conv.toNat ch fun i =>
    let k := 16 * (r * x.width + c) + i
    latentFixed (Fmt.bf16.decode (fieldAt bs (2 * k) 2)) (u + k)
  ((List.range x.height).flatMap fun r => (List.range x.width).map fun c => at' r c 0)
    ++ (List.range (x.height / 2)).flatMap fun r => (List.range (x.width / 2)).flatMap fun c => [1, 2].map fun ch =>
      (at' (2 * r) (2 * c) ch + at' (2 * r) (2 * c + 1) ch + at' (2 * r + 1) (2 * c) ch + at' (2 * r + 1) (2 * c + 1) ch + 2) / 4

/-- The samples of a pool buffer, luma then Cb and Cr. -/
def State.poolSamples (s : State) (p : Nat) (x : Session) (i : Nat) : List Nat :=
  ((List.range x.height).flatMap fun r => (List.range x.width).map fun c => (s.sample p x i 0 r c).toNat)
    ++ (List.range (x.height / 2)).flatMap fun r => (List.range x.width).map fun c => (s.sample p x i 1 r c).toNat

/-- The session after a frame of `n` bytes, reconstructed into buffer `b` (R284, R287, Table 8.6). -/
def Session.encoded (x : Session) (c : Cmd) (b n u : Nat) : Session :=
  let refresh := c.fld 40 1
  let x := if x.codec = 0 then
      ((List.range x.nbuf).foldl (fun x i => x.setMark i fun m => m - 4 * (bitsOf m 2 8 &&& refresh)) x).setMark b fun m => m + 4 * refresh
    else
      ((List.range x.nbuf).foldl (fun x i => x.setMark i fun m => m - bitsOf m 0 2 + keptRef u i (bitsOf m 0 2)) x).setMark b
        fun m => m + refresh % 4
  let rc := x.rcMode = 1 ∨ x.rcMode = 2
  { x with
    history := x.history + 1, decodedAt := tset x.decodedAt b (x.history + 1), window := (n :: x.window).take 64
    deficit := if rc then x.deficit - x.reduction + (n - x.target) else x.deficit }

/-- An ENCODE_FRAME that has its buffer, its source's samples and its ROI entries (R284 to R288, R296, R297, R392). -/
def State.encodeInto (s : State) (p : Nat) (c : Cmd) (x : Session) (b : Nat) (samples : List Nat) (roi : List (List Byte)) : State :=
  let u := s.free
  let rows := x.blockRows
  let s : State := { s with free := u + 2 * rows + 5 }
  let (n, floor) := if x.frameCap = 0 then (Config.freeNat u % (2 * x.width * x.height + 1), none) else x.capRows u
  let s := match floor with
    | some (r, used) =>
      s.raisePart p Cause.rcExhausted ⟨0x08, c.cdcUnit⟩ c.wm (leBytes 2 r ++ [0, 0] ++ leBytes 4 used ++ leBytes 4 x.reduction)
    | none => s
  if c.fld 64 4 < n then s.finish p c.id .done Cause.bitstreamFull else
  let qps := x.frameQps (c.fld 42 1) roi (floor.map (·.1)) (u + rows + 4)
  let (s, bad) := s.writeFrame p x b (u + rows) rows (fun _ => false) none
  let bits := (List.range n).map fun i => Config.encoded (u + rows + 1) samples qps i
  let (s, bad') := s.pokeO p (c.ref 56) bits
  let s := s.modSession p c.cdcUnit c.sess fun _ => x.encoded c b n (u + rows + 2)
  let s := (s.count p 6 x.units).modEng c.cdcUnit fun e => { e with encUnits := wrapAdd e.encUnits x.units }
  (s.sendRtp p c.id c.cdcUnit c.sess bits).finishWrites p c.id (bad.orElse fun _ => bad') (n % 2 ^ 26 + 2 ^ 26 * b + 2 ^ 31 * b2n floor.isSome)

/-- A pool buffer named as the source of an ENCODE_FRAME that its checks let through has its compute mark (Table 8.2, R295). -/
def State.nameSource (s : State) (p : Nat) (c : Cmd) : State :=
  s.modSession p c.cdcUnit c.sess fun x =>
    if bitOf (c.fld 35 1) 1 || decide (x.nbuf ≤ c.fld 41 1) then x else x.setMark (c.fld 41 1) fun m => putBit m 11 true

/-- ENCODE_FRAME (R284 to R288). -/
def State.encodeFrame (s : State) (p id : Nat) : State :=
  s.onCdc p id 0x12 fun c =>
    let x := s.session p c.cdcUnit c.sess
    if s.anyMoving p [(c.ref 56).handle, x.pool.1.handle] then s
    else if s.poolStopped p x || s.stoppedO p (c.ref 56) (c.fld 64 4) then s.waitO p [x.pool, (c.ref 56, c.fld 64 4)] else
    let nroi := c.fld 37 1
    let roi := s.peekO p (c.ref 68) (8 * nroi)
    let s := s.countO p (c.ref 68) (8 * nroi)
    match if nroi = 0 then none else roi.fault with
    | some q => s.finishBy p id Cause.cdcPoison (some q)
    | none =>
      if !x.encodeOk c roi.bytes then s.skipCdc p c Cause.rcParam else
      let s := s.nameSource p c
      let x' := s.session p c.cdcUnit c.sess
      match x'.freeBuf with
      | none => s.skipCdc p c Cause.poolExhausted
      | some b =>
        let (src, len) := if bitOf (c.fld 35 1) 1 then (c.ref 48, 32 * x.width * x.height) else (x.buf (c.fld 41 1), x.planeBytes)
        let refs := [c.fld 38 1, c.fld 39 1].filter (· != 0xFF)
        let fault := (s.peekO p src len).fault.orElse fun _ => refs.findSome? fun r => (s.peekO p (x.buf r) x.planeBytes).fault
        let u := s.free
        let s := refs.zipIdx.foldl (fun s r => s.countO p (x.buf r.1) (Config.freeNat (u + r.2) % (x.planeBytes + 1)))
          ({ s.countO p src len with free := u + 3 + 16 * x.width * x.height } : State)
        match fault with
        | some q => s.finishBy p id Cause.cdcPoison (some q)
        | none =>
          let samples := if bitOf (c.fld 35 1) 1 then s.latentSamples p x src (u + 3) else s.poolSamples p x (c.fld 41 1)
          s.encodeInto p c x' b samples ((List.range nroi).map fun j => slice roi.bytes (8 * j) 8)

/-- What ENCODE_FRAME reads: its ROI entries, its source and its references. -/
def State.encodeReads (p : Nat) (s : State) (c : Cmd) : List Finder :=
  let x := s.session p c.cdcUnit c.sess
  if s.anyMoving p [(c.ref 56).handle, x.pool.1.handle] || s.poolStopped p x || s.stoppedO p (c.ref 56) (c.fld 64 4) then [] else
  Finder.reads p Cause.cdcPoison (c.ref 68) (8 * c.fld 37 1)
    :: (if bitOf (c.fld 35 1) 1 then Finder.reads p Cause.cdcPoison (c.ref 48) (32 * x.width * x.height) else x.bufReads p (c.fld 41 1))
    :: ([c.fld 38 1, c.fld 39 1].filter (· != 0xFF)).map (x.bufReads p ·)

/-- Runs ENCODE_FRAME `id` of partition `p`. -/
def execEncodeFrame (p : PartId) (id : Nat) (s : State) (ecc : List EccHit := []) : Res := .next ((s.eccRead p.val id (·.runs 3 0x12) (State.encodeReads p.val) ecc).encodeFrame p.val id)

/-- The regions of a DECODE_UNIT with out_latent, where its table reads well and all are in order (R282); none: it writes nothing, neither a
region nor a plane. -/
def State.goodRegions (s : State) (p : Nat) (c : Cmd) (x : Session) : Option (List Region) :=
  let rd := s.peekO p (c.ref 56) (16 * c.fld 37 1)
  let gs := regionsOf rd.bytes (c.fld 37 1)
  if c.fld 37 1 = 0 then some []
  else if rd.fault.isSome || s.regionCause p x gs != 0 || s.anyMoving p (gs.map (·.dst.handle)) then none
  else some gs

/-- The block rows that a snuffed DECODE_UNIT may have written: fewer than all, since the start of the last is its commit point; a unit of length
0 has none (R46, R290). -/
def Cmd.topRows (c : Cmd) (x : Session) : Nat :=
  if c.op = 0x12 then x.blockRows else if c.fld 40 4 = 0 then 0 else x.blockRows - 1

/-- Whether a running DECODE_UNIT or ENCODE_FRAME may have begun to read and write its picture: none of its checks ends it, no object that it
writes is MOVING and its pool takes its lines. -/
def State.mayCode (s : State) (p : Nat) (c : Cmd) (x : Session) : Bool :=
  x.freeBuf.isSome && !s.anyMoving p [x.pool.1.handle] && !s.poolStopped p x
    && (if c.op = 0x12 then
        let roi := s.peekO p (c.ref 68) (8 * c.fld 37 1)
        (c.fld 37 1 == 0 || roi.fault.isNone) && x.encodeOk c roi.bytes && !s.anyMoving p [(c.ref 56).handle]
          && !s.stoppedO p (c.ref 56) (c.fld 64 4)
      else !s.stoppedO p (c.ref 48) (c.fld 40 4))

/-- What a snuffed DECODE_UNIT or ENCODE_FRAME has read (R245, R297): its table, and free amounts of its bitstream or source and of the
references. -/
def State.countPart (s : State) (p : Nat) (c : Cmd) (x : Session) (u : Nat) : State :=
  let part (i n : Nat) : Nat := Config.freeNat (u + i) % (n + 1)
  let refs := if c.op = 0x12 then [c.fld 38 1, c.fld 39 1].filter (· != 0xFF) else (List.range x.nbuf).filter x.isRef
  let s := if c.op = 0x12 then s.countO p (c.ref 68) (8 * c.fld 37 1) else s.countO p (c.ref 56) (16 * c.fld 37 1)
  let src : ORef × Nat := if c.op = 0x11 then (c.ref 48, c.fld 40 4)
    else if bitOf (c.fld 35 1) 1 then (c.ref 48, 32 * x.width * x.height) else (x.buf (c.fld 41 1), x.planeBytes)
  refs.foldl (fun s i => s.countO p (x.buf i) (part (1 + i) x.planeBytes)) (s.countO p src.1 (part 0 src.2))

/-- What a snuffed DECODE_UNIT or ENCODE_FRAME may have left (R287, R290): a free number of block rows in a free buffer, with RC_EXHAUSTED where
one of them went into floor mode; free numbers of rows of the latent regions, of a frame that was ready before the unit. Answers whether it wrote
any. -/
def State.partialFrame (s : State) (p : Nat) (c : Cmd) : State × Bool :=
  let x := s.session p c.cdcUnit c.sess
  match if c.op = 0x11 then s.goodRegions p c x else some [] with
  | none => (s, false)
  | some regions =>
    if x.state ≠ .open' then (s, false) else
    let u := s.free
    let s : State := { s with free := u + 104 + x.blockRows }
    let may := s.mayCode p c x
    let n := if may then Config.freeNat u % (c.topRows x + 1) else 0
    let s := if may && Config.freeBool (u + 3) 0 || n != 0 then s.countPart p c x (u + 70) else s
    let s := match x.freeBuf, if c.op = 0x12 ∧ x.frameCap ≠ 0 then (x.capRows (u + 104)).2 else none with
      | some _, some (r, used) =>
        if r < n then
          s.raisePart p Cause.rcExhausted ⟨0x08, c.cdcUnit⟩ c.wm (leBytes 2 r ++ [0, 0] ++ leBytes 4 used ++ leBytes 4 x.reduction)
        else s
      | _, _ => s
    let s := match x.freeBuf with
      | some b => if n = 0 then s else (s.writeFrame p x b (u + 1) n (fun _ => false) none).1
      | none => s
    let shown := if Config.freeBool (u + 2) 0 && (c.fld 40 4 == 0 || x.ready != 0) then x.reorder.head? else none
    let gs := regions.zipIdx
    let rows (g : Region × Nat) : Nat := Config.freeNat (u + 4 + g.2) % (g.1.h + 1)
    match shown with
    | some i => (gs.foldl (fun s g => (s.deliverRegion p x i (u + 3) g.1 (rows g)).1) s, n != 0 || gs.any fun g => rows g != 0)
    | none => (s, n != 0)

/-- Whether a CDC command is LIVE: its session is, or asks to be (R289). -/
def State.isLive (s : State) (p : Nat) (c : Cmd) : Bool :=
  if c.op = 0x10 then c.newSession.live else (s.session p c.cdcUnit c.sess).live

/-- A session goes FAULTED. -/
def State.faultSession (s : State) (p u n : Nat) : State := s.modSession p u n fun x => { x with state := .faulted }

/-- CDC_FAULT (R300): the running command ends, its session goes FAULTED, and a suspended command of the same session ends too. -/
def State.cdcFault (s : State) (u : Nat) : State :=
  match s.engRuns u with
  | none => s
  | some (p, id) =>
    match s.cmd? p id with
    | none => s
    | some c =>
      let held := (s.engHolds u).bind fun h => if h.1 = p then s.cmd? p h.2 else none
      let (q, s) := (s.modEng u fun e => { e with faults := satAdd e.faults 1 }).newFault
      let s := (s.faultSession p u c.sess).finishBy p id Cause.cdcFault (some q)
      match held with
      | some d => if d.sess = c.sess then s.finishBy p d.id Cause.cdcFault (some q) else s
      | none => s

/-- A parity failure of CDC[u]. -/
def execCdcFault (u : Fin 4) (s : State) : Res := .next (s.cdcFault u.val)

end Sys2Proof.Machine
end

