-- ==== Sys2Proof/Machine/Snuff.lean ====
section
/-!
DEFINITION. Reading the slots of a ring (R12 to R16), and SNUFF (R43 to R47): what ends, where it stops, what it leaves.

How far a running command has come when a snuff stops it is a free value (log entry 18).
-/

namespace Sys2Proof.Machine

/-- PCIe-only mode, as STRAP_LINK selects it (R354, R432). -/
def State.pcieOnly (s : State) : Bool := !bitOf s.pins.straps.toNat 2

/-- A host page whose translation the device caches for a VF in CXL mode (R358, R359). -/
def State.translate (s : State) (p a : Nat) : State :=
  if s.pcieOnly then s else
  let page := BitVec.ofNat 64 (a / 4096)
  s.modVf p fun v => if v.atc.contains page then v else { v with atc := v.atc ++ [page] }

/-- The cause that a failed access to host memory leaves in a ring's event (R360). -/
def hostCause : HostAccess → W16
  | .refusedTranslation => Cause.hostTranslation
  | _ => Cause.hostCompletion

/-- How an access to host memory ends as the device takes it: without translation none is refused (R359). -/
def State.hostIo (s : State) (io : HostAccess) : HostAccess := if s.pcieOnly && io == .refusedTranslation then .ok else io

/-- An access of VF `p + 1` to host memory ends as `io`: one without a successful completion is an advisory error of its AER (R376). -/
def State.hostAer (s : State) (p : Nat) (io : HostAccess) : State := if s.hostIo io == .failedCompletion then s.aerVf p else s

/-- The page of slot `i` of a ring in host memory translated, as its read asks (R358). -/
def State.slotPage (s : State) (p n i : Nat) (io : HostAccess) : State :=
  let r := s.ring p n
  if r.inDevice || s.hostIo io == .refusedTranslation then s else s.translate p (r.base.toNat + 64 * (i % r.slots))

/-- A slot of a ring as it is read: its 64 bytes, with the poisoned line of a device object that it met. -/
def State.slotAt (s : State) (p n i : Nat) : Rd :=
  let r := s.ring p n
  let off := 64 * (i % r.slots)
  if r.inDevice then s.peekO p ((baseRef r.base).add off) 64 else { bytes := s.hostBytes (r.base.toNat + off) 64 }

/-- `k` slots of a ring consumed by a descriptor (R14, R24, R245, R365, R484): `moves` says whether it moves the waymark baseline. -/
def State.consume (s : State) (p n k : Nat) (wm : W32) (moves : Bool) : State :=
  let r := s.ring p n
  let s := s.modRing p n fun r => { r with
    head := r.head + BitVec.ofNat 32 k, lastWm := wm, baseline := if moves then some wm else r.baseline }
  let s := if r.inDevice then (List.range k).foldl (fun s i =>
      s.countO p ((baseRef r.base).add (64 * ((r.head.toNat + i) % r.slots))) 64) s
    else s.countHost p (64 * k) false
  s.progress p

/-- Whether the last writeback of a call's inner commands has begun (R147): every one with a writeback has ended, and no further one will
run, since none is left to be taken up, replayed or handed out. -/
def State.callCommitted (s : State) (p : Nat) (k : Call) : Bool :=
  let done (i : Nat) : Bool := (s.cmd? p i).all fun d => d.phase == .ended || !clusterOp d.op
  k.computes && k.open'.all done && (!k.shared || (k.participants.all (fun x => x.rest.all done) && !s.indicesRemain p k))

/-- Whether a command has passed its commit point or ended (R44, R46, R147). -/
def State.committed (s : State) (p : Nat) (c : Cmd) : Bool :=
  c.phase == .ended ||
  (c.phase == .started &&
    (match c.op with
    | 0x01 => c.covers.all fun i => (s.cmd? p i).isNone
    | 0x02 | 0x03 => true
    | op =>
      match c.engine with
      | 0 => op == 0x18 && (s.call? p c.id).any (s.callCommitted p ·)
      | 3 => op == 0x10 || op == 0x13
      | 4 => op == 0x12 || (op == 0x11 && (s.part p).net.recvs.any fun r => r.id == c.id && r.filled != 0)
      | _ => false))

/-- A command ends SNUFFED; `part`: it wrote anything (R44, R45). -/
def State.snuffed (s : State) (p id : Nat) (part : Bool := false) (detail : Nat := ((s.cmd? p id).map Cmd.noDetail).getD 0) : State :=
  s.finish p id .snuffed 0 detail part
/-- A command ends SNUFFED, partial where it has written anything (R45). -/
def State.snuffedAs (s : State) (p id : Nat) (detail : Nat) : State := s.snuffed p id ((s.cmd? p id).any (·.wrote)) detail

/-- The half code of the halves that a command occupies. -/
def Cmd.halfOf (c : Cmd) : Nat := if c.left && c.right then 0 else if c.left then 1 else 2
/-- The detail of a command that stopped with `n` rows written: what stands however it ends; the counts of its outputs are free where it has
any (R90, R118, log entry 18). -/
def Work.stopDetail (w : Work) (u n : Nat) : Nat := w.fixed + (if n = 0 then 0 else Config.freeNat u % w.counts)

/-- A compute command stopped on its cluster (R89, R110, R229): the rows it has written, a free number short of its final
writeback; a command that accumulates has written none. DEDUCED (log entry 91): a claim bit that it has set does not count as
written. DEDUCED (log entry 97): it leaves no stationary block for keep_b, as a command that ends with OPERAND_POISON leaves none (R86). -/
def State.snuffWork (s : State) (p : Nat) (c : Cmd) (k : Nat) : State :=
  let running := s.mayRun p c && !c.armed && !(c.op == 0x12 && c.wick.chain) && !(s.cluster k).anyHalf c .offline
    && !s.anyMoving p (s.destsOf p c)
  let w := s.workOf p c k
  if !running || s.workStopped p w then s.snuffed p c.id false (s.standing c k) else
  let u := s.free
  let s := s.useFrees 9
  let s := if c.op = 0x11 ∧ c.gemm.claimEn ∧ Config.freeBool u 0 then (s.claimBit p c.gemm.claim c.gemm.seed).1 else s
  let top := min ((w.poison.map (·.1)).getD w.rows.length) (if c.op = 0x19 then w.rows.length else w.rows.length - 1)
  let n := if w.accum then 0 else Config.freeNat (u + 1) % (top + 1)
  let s := s.countWork p (some k) (w.cut (u + 2))
  let (s, _) := s.applyFor p c.id (w.take n)
  (s.setStationary k c.halfOf none).snuffedAs p c.id (w.stopDetail (u + 8) n)

/-- A bound pair stopped at a row boundary before its commit point, the write of Wick's last output row (R89, R109, R110): the rows that
have left the drain stand, a free number of them. -/
def State.snuffPair (s : State) (p : Nat) (c w : Cmd) (k : Nat) : State :=
  let (g, ww) := s.pairWork p c w k
  let held := (s.cluster k).anyHalf c .offline || s.anyMoving p (s.destsOf p c ++ w.wick.dests) || s.workStopped p g || s.workStopped p ww
  if held then (s.snuffed p c.id false (s.standing c k)).snuffed p w.id false ww.fixed else
  let u := s.free
  let last := min ((g.poison.map (·.1)).getD c.gemm.mv) ((ww.poison.map fun x => (x.1 + 1) * w.wick.span).getD c.gemm.mv)
  let n := if g.accum && g.poison.isSome then 0 else Config.freeNat u % (last + 1)
  let rows := pairRows g ww w.wick n (min ((ww.poison.map (·.1)).getD ww.rows.length) (ww.rows.length - 1))
  let s := s.pairStops p c w k g ww u 3 rows
  ((s.setStationary k c.halfOf none).snuffedAs p c.id (g.stopDetail (u + 1) rows.1.length)).snuffedAs p w.id
    (ww.stopDetail (u + 2) rows.2.length)

/-- The partner of a bound pair whose GEMM_TILE runs (R109). -/
def State.boundPartner (s : State) (p : Nat) (c : Cmd) (k : Nat) : Option Cmd :=
  if c.op = 0x10 then if s.mayRun p c then s.bound? p c k else none
  else if c.op = 0x12 ∧ c.wick.chain then
    ((s.cluster k).buffer.filterMap (s.cmd? p ·)).find? fun g =>
      g.op == 0x10 && s.mayRun p g && (s.bound? p g k).any fun w => w.id == c.id
  else none

/-- A list slot whose loads forget a command (R54). -/
def State.dropLoad (s : State) (p : Nat) (c : Cmd) : State :=
  s.modList p (c.fld 35 1) fun l =>
    { l with loadWaiting := l.loadWaiting.filter (· != c.id), loaded := if l.loaded = some c.id then none else l.loaded }

/-- A started command other than a LIST_CALL stopped at its stop point. -/
def State.stopBasic (s : State) (p : Nat) (c : Cmd) : State :=
  let id := c.id
  if c.op = 0x05 then (s.dropLoad p c).snuffed p id else
  match c.engine, c.cluster with
  | 0, some k =>
    match s.boundPartner p c k with
    | some d => if c.op = 0x10 then s.snuffPair p c d k else s.snuffPair p d c k
    | none => s.snuffWork p c k
  | 0, none =>
    (s.modLtn p fun l => { l with loadWaiting := l.loadWaiting.filter (· != id) }).snuffed p id
  | 1, _ =>
    if c.op = 0x14 ∨ c.op = 0x15 then
      let n := if (s.object p c.movHandle).state = .moving then 0 else Config.freeNat s.free % max 1 c.fillSegs.length
      let (s, wrote, _) := s.useFree.fillLines p c (c.fillSegs.take n)
      s.snuffed p id (wrote != 0) (sat 32 wrote)
    else if c.stage = 2 then
      let t := s.abandonMove p c.movHandle
      t.1.snuffed p id true (t.2 + c.mvBits)
    else s.snuffed p id false c.mvBits
  | 2, _ =>
    if c.op = 0x13 ∧ (s.part p).seq.run.any (·.id == id) then s.modRun p fun r => { r with snuffed := true, allIssued := true }
    else s.snuffed p id
  | 3, _ =>
    if (c.op = 0x11 ∨ c.op = 0x12) ∧ (s.engRuns c.cdcUnit = some (p, id) ∨ s.engHolds c.cdcUnit = some (p, id)) then
      let (s, wrote) := s.partialFrame p c
      s.snuffed p id wrote
    else s.snuffed p id
  | _, _ => (s.dropRecv p id).snuffed p id

/-- A running LIST_CALL snuffed (R147): no further inner command starts, those that run are snuffed, and the call ends SNUFFED with
them. Those of a FIXED call that never started end SNUFFED too; those of a SHARED call, which no participant had started, go
without a trace (log entry 30). -/
def State.snuffCall (s : State) (p : Nat) (c : Cmd) : State :=
  let inner := (s.part p).cmd.cmds.filter fun d => d.inner && d.parent == some c.id
  let rest := (inner.filter fun d => d.phase != .started && d.phase != .ended).map (·.id)
  let gone := if c.call.shared then rest else []
  let s := (s.dropCmds p gone).modCall p c.id fun k =>
    { k with
      snuffed := true, waiting := [], open' := k.open'.filter fun i => !gone.contains i
      participants := k.participants.map fun x => { x with rest := [], run := x.run.filter fun i => !gone.contains i } }
  let s := (inner.filter fun d => !gone.contains d.id).foldl (fun s d =>
    match s.cmd? p d.id with
    | some d =>
      if d.phase == .ended || (d.phase == .started && s.committed p d) then s
      else if d.phase == .started then s.stopBasic p d
      else s.snuffed p d.id
    | none => s) s
  s.callSettle p c.id

/-- One target of a snuff (R44): whether it is snuffed, and what that leaves. -/
def State.snuffOne (s : State) (p : Nat) (c : Cmd) : State × Bool :=
  if s.committed p c then (s, false)
  else if c.phase != .started then (s.snuffed p c.id, true)
  else if c.engine == 0 && c.op == 0x18 && (s.call? p c.id).isSome then (s.snuffCall p c, true)
  else (s.stopBasic p c, true)

/-- Whether a command may be the target of a snuff: the device did not generate it (R43). -/
def Cmd.isTarget (c : Cmd) : Bool := c.parent.isNone && c.autoTok.isNone

/-- Commands snuffed one by one; a pair snuffed as one counts each command once. Answers how many were snuffed and how many had
committed. DESIGN CHOICE (log entry 89): a target that has ended, in whatever way, and awaits its record counts as one that had passed its commit
point; no record of it is changed. -/
def State.snuffAll (s : State) (p : Nat) (ids : List Nat) : State × Nat × Nat :=
  ids.foldl (fun (r : State × Nat × Nat) id =>
    match r.1.cmd? p id with
    | none => r
    | some c =>
      if c.status == .snuffed then
        let before := (s.cmd? p id).any (·.status == .snuffed)
        (r.1, r.2.1 + b2n (!before), r.2.2 + b2n before)
      else
      let (s, b) := r.1.snuffOne p c
      (s, r.2.1 + b2n b, r.2.2 + b2n (!b))) (s, 0, 0)

/-- The targets of a snuff. -/
def State.targets (s : State) (p : Nat) (q : Cmd → Bool) : List Nat :=
  ((s.part p).cmd.cmds.filter fun c => c.isTarget && q c).map (·.id)

/-- A slot as drain_ring reads it: one that cannot be read puts its ring in ERROR, and its bytes are free (R15, R360, R504, log entry 88). How the
host ends each read of a drain is free. -/
def State.drainSlot (s : State) (p k i : Nat) : State × List Byte :=
  let r := s.ring p k
  let rd := s.slotAt p k i
  if r.inDevice then
    match rd.fault with
    | none => (s, rd.bytes)
    | some q => ((if r.state = .error then s else s.ringError p k Cause.ringFetchFault Cause.poison r.lastWm (some q)).useFree,
        (List.range 64).map (Config.freeByte s.free))
  else
    let io := s.hostIo (nth .ok [.ok, .refusedTranslation, .failedCompletion] (Config.freeNat s.free % 3))
    let t := if s.hostUp then s.useFree.slotPage p k i io else s.useFree
    if s.hostUp && io == .ok then (t, rd.bytes) else
    let cause := if s.hostUp then hostCause io else Cause.hostCompletion
    let t := if s.hostUp then t.hostAer p io else t
    (if r.state = .error then t else t.ringError p k Cause.ringFetchFault cause r.lastWm, (List.range 64).map (Config.freeByte s.free))

/-- The descriptors of a ring consumed with a SNUFFED record each (R43 drain_ring); at most `n` of them. Answers how many. DEDUCED (log entry 88): a
descriptor of 128 bytes of which only the first slot lies before RING_TAIL is consumed with that slot, with one record. -/
def State.drainSlots (s : State) (p k : Nat) : Nat → State × Nat
  | 0 => (s, 0)
  | n + 1 =>
    let r := s.ring p k
    if r.avail = 0 then (s, 0) else
    let (s, b) := s.drainSlot p k r.head.toNat
    let two := dExt b && decide (2 ≤ r.avail)
    let (s, b2) := if two then s.drainSlot p k (r.head.toNat + 1) else (s, [])
    let s := s.consume p k (if two then 2 else 1) (dWaymark b) true
    let c : Cmd := { desc := b ++ b2, ring := k, ctx := r.ctx, phase := .ended, status := .snuffed }
    let (s, _) := s.addCmd p { c with detail := BitVec.ofNat 32 c.noDetail }
    let t := s.drainSlots p k n
    (t.1, t.2 + 1)

/-- drain_ring of a context (R43): every ring of it that is not STOPPED and holds no more than its size. -/
def State.drainRings (s : State) (p ctx : Nat) : State × Nat :=
  (List.range 16).foldl (fun (r : State × Nat) k =>
    let x := r.1.ring p k
    if x.state == .stopped || x.ctx != ctx || decide (x.slots < x.avail) then r else
    let t := r.1.drainSlots p k x.avail
    let s := t.1.modRing p k fun y =>
      { y with state := if y.state = .error then .error else if y.avail = 0 then .idle else y.state }
    (s, r.2 + t.2)) (s, 0)

/-- A SNUFF of kind CONTEXT (R43): snuffed and committed commands. -/
def State.snuffContext (s : State) (p ctx : Nat) (drain : Bool) : State × Nat × Nat :=
  let t := s.snuffAll p (s.targets p fun c => c.ctx == ctx)
  if !drain then t else
  let d := t.1.drainRings p ctx
  (d.1, t.2.1 + d.2, t.2.2)

/-- Whether a SNUFF's operands are in order (Table 1.10). DESIGN CHOICE (log entry 89): the fields of the other kind must be zero, as reserved ones
must. -/
def Cmd.snuffOk (c : Cmd) : Bool :=
  let kind := c.fld 35 1
  let flags := c.fld 36 1
  c.engine == 0 && dUnit c.desc == 0 && zeroAt c.desc 38 2 && c.zeroFrom 44
    && (if kind = 0 then flags == 0 && c.fld 37 1 == 0
      else kind == 1 && decide (flags ≤ 1) && decide (c.fld 37 1 ≤ 15) && zeroAt c.desc 40 4)

/-- The outcome of a SNUFF as its record's detail (R47). -/
def snuffDetail (gone kept : Nat) : Nat :=
  (if gone = 0 then if kept = 0 then 2 else 1 else if kept = 0 then 0 else 3) + 256 * sat 24 gone

/-- A SNUFF carried out by the control core at its fetch (R43 to R47); `id` is the SNUFF itself. -/
def State.snuff (s : State) (p id : Nat) : State :=
  match s.cmd? p id with
  | none => s
  | some c =>
    if !c.snuffOk then s.skip p id Cause.badOperand else
    let t := if c.fld 35 1 = 0 then s.snuffAll p (s.targets p fun d => d.id != id && d.wm == word32 c.desc 40)
      else
        let t := s.snuffAll p (s.targets p fun d => d.id != id && d.ctx == c.fld 37 1)
        if bitOf (c.fld 36 1) 0 then
          let d := t.1.drainRings p (c.fld 37 1)
          (d.1, t.2.1 + d.2, t.2.2)
        else t
    (t.1.rearm p).done p id (snuffDetail t.2.1 t.2.2)

end Sys2Proof.Machine
end

