-- ==== Sys2Proof/Machine/Start.lean ====
section
/-!
DEFINITION. COMMAND_START (R10, R11, R33, R39, R40, R50, R71, R108, R169, R211, R246, R250 to R253, R289, R308) and the
suspension of codec engines.
-/

namespace Sys2Proof.Machine

/-- The objects that a command reads as operands, each with its kind (R250, R253): 0 A or input, 1 B or weights, 2 bias, 3 other; a CONV_TILE
reads no input where every tap falls into padding of zeros (R157). -/
def State.operandsOf (s : State) (p : Nat) (c : Cmd) : List (Nat × Nat) :=
  let on (b : Bool) (r : ORef) (k : Nat) : List (Nat × Nat) := if b then [(r.handle, k)] else []
  match c.engine, c.op with
  | 0, 0x10 | 0, 0x11 =>
    let g := c.gemm
    if g.isEmpty then [] else
    [(g.a.handle, 0), (g.b.handle, 1)] ++ on g.biasEn g.bias 2 ++ on (isMX g.aFmt) g.sa 3 ++ on (isMX g.bFmt) g.sb 3
  | 0, 0x12 =>
    let g := c.wick
    if g.isEmpty then [] else
    on (!g.chain) g.in0 0 ++ on (g.reads 1 && !g.paired) g.in1 0 ++ on (g.reads 2) g.in2 0 ++ on (g.reads 3) g.colv 3
      ++ on g.condEn g.rowMap 3 ++ on g.condEn g.cond 3 ++ on (g.reads 7 || g.reads 8) g.cvec 3
  | 0, 0x13 =>
    let g := c.norm
    if g.mv = 0 then [] else [(g.inp.handle, 0)] ++ on g.gainEn g.gain 1 ++ on g.biasEn g.bias 2 ++ on g.subEn g.sub 3
  | 0, 0x16 =>
    let g := c.conv
    on (!g.isEmpty && decide (0 < g.cinIn) && g.rows.any fun r => g.live.any fun k => (g.source (g.coord r.2 k)).isSome) g.x 0
      ++ on (!g.isEmpty) g.w 1 ++ on (g.biasEn && !g.rows.isEmpty && g.nv != 0) g.bias 2
  | 0, 0x17 =>
    let g := c.attn
    if g.mv = 0 then [] else [(g.q.handle, 0), (g.pool, 3), (g.list.handle, 3)] ++ on g.cont g.acc 3
  | 0, 0x19 =>
    let g := c.scan
    if g.isEmpty then [] else
    [(g.b.handle, 0), (g.a.handle, if g.gated then 1 else 0)] ++ on (g.maskMode != 0) g.mask 3
      ++ (s.scanStreams p c).map fun i => ((s.stream p i).handle, 3)
  | 3, 0x11 => on (c.fld 40 4 != 0) (c.ref 48) 0
  | 3, 0x12 => on (bitOf (c.fld 35 1) 1) (c.ref 48) 0
  | 4, 0x10 => [((c.ref 48).handle, 0)]
  | _, _ => []

/-- The late ones among the objects that a command reads, each once (R250). -/
def State.lateOf (s : State) (p : Nat) (c : Cmd) (ops : List (Nat × Nat)) : List LateObj :=
  (ops.map (·.1)).eraseDups.filterMap fun h =>
    let fs := (s.part p).cmd.cmds.filter fun d =>
      d.engine == 1 && d.op == 0x11 && d.phase != .held && d.movHandle == h && !later d.neededBy c.wm
    if fs.isEmpty then none else some ⟨h, (ops.filter (·.1 == h)).map (·.2), fs.map fun d => (d.id, d.wm)⟩

/-- The late objects of a command as it would run: where it takes the alternate operand (`altB`), its object too, which is no input, weight or
bias (R88, R250). -/
def State.late (s : State) (p : Nat) (c : Cmd) : List LateObj :=
  let l := s.lateOf p { c with altB := false } (s.operandsOf p { c with altB := false })
  if !c.altB then l else
  l ++ (s.lateOf p c ((s.operandsOf p c).filterMap fun e => if e.2 = 1 then some (e.1, 3) else none)).filter fun e =>
    !l.any (·.handle == e.handle)

/-- A DEADLINE_MISS of one late object (R253). DESIGN CHOICE (log entry 89): an object that several operands name is reported as the weights where
ALT replaced them, else as the first of its kinds; the waymark is that of the first PREFETCH. -/
def State.deadlineMiss (s : State) (p : Nat) (c : Cmd) (policy : Nat) (e : LateObj) : State :=
  let h := e.handle
  let k := if policy = 1 then 1 else e.kinds.headD 3
  let wm := (e.fetches.head?.map (·.2)).getD 0
  let kib := if e.fetches.any (fun f => (s.cmd? p f.1).all (·.stage == 2)) then sat 16 (Config.freeNat s.free % ((s.object p h).size.toNat / 1024 + 1)) else 0
  let s := s.useFree.raisePart p Cause.deadlineMiss ⟨0x07, p % 8⟩ c.wm
    (leBytes 4 h ++ leBytes 4 wm.toNat ++ [BitVec.ofNat 8 policy, BitVec.ofNat 8 k] ++ leBytes 2 kib)
  let s := (s.count p 9 1).modObjs p fun y => { y with misses := y.misses + 1 }
  { s with movs := tmod {} s.movs (p % 8) fun x => { x with misses := x.misses + 1 } }

/-- Whether an opcode defines an alternate operand (R88, R161, R252); ATTN_TILE's own checks refuse ALT. -/
def Cmd.mayAlt (c : Cmd) : Bool := c.engine == 0 && (c.op == 0x10 || c.op == 0x11 || c.op == 0x16 || c.op == 0x17)

/-- The Lantern bank that lookups of a command that starts now use (R125); none: it makes no lookups of its own. -/
def State.bankFor (s : State) (p : Nat) (c : Cmd) : Option Bool :=
  if c.engine = 0 ∧ (c.op = 0x12 ∨ c.op = 0x13 ∨ c.op = 0x17 ∨ (c.op = 0x19 ∧ c.scan.gated)) then some (s.part p).ltn.active else none

/-- The operand checks of a command at its start (R39); 0: all pass. -/
def State.opCheck (s : State) (p : Nat) (c : Cmd) : W16 :=
  let bank := c.bank.getD false
  if dFallback c.desc == 1 && !c.mayAlt then Cause.altMissing else
  match c.op with
  | 0x01 | 0x02 | 0x03 => commonCheck c
  | 0x05 => listLoadCheck s p c
  | op =>
    match c.engine with
    | 0 =>
      match op with
      | 0x10 => gemmCheck s p c false
      | 0x11 => gemmCheck s p c true
      | 0x12 => wickCheck s p c bank
      | 0x13 => normCheck s p c
      | 0x14 => lanternLoadCheck s p c
      | 0x15 => lanternSwitchCheck c
      | 0x16 => convCheck s p c
      | 0x17 => attnCheck s p c
      | 0x18 => callCheck s p c
      | _ => scanCheck s p c bank
    | 1 => moveCheck s p c
    | 2 => if op = 0x16 then streamChunkCheck s p c else seqCheck s p c
    | 3 => cdcCheck s p c
    | _ => netCheck s p c

/-- The halves that a command names: 0 both, 1 left, 2 right. -/
def Cmd.halfNo (c : Cmd) : Nat :=
  match c.op with
  | 0x10 | 0x11 => c.gemm.half
  | 0x12 => c.wick.half
  | 0x16 => c.conv.half
  | _ => 0

/-- Whether a command names a cluster that it runs on. -/
def Cmd.onACluster (c : Cmd) : Bool := c.engine == 0 && clusterOp c.op

/-- A command with the physical cluster and halves that it names. -/
def State.placed (s : State) (p : Nat) (c : Cmd) : Cmd :=
  if !c.onACluster then c else
  { c with cluster := s.relCluster p (c.fld 38 2), left := (halvesOf c.halfNo).1, right := (halvesOf c.halfNo).2 }

/-- Whether a GEMM_TILE would bind to an armed WICK_OP (R108, R308). -/
def State.wouldBind (s : State) (p : Nat) (c : Cmd) : Bool :=
  c.engine == 0 && c.op == 0x10 && (let d := s.placed p c; (d.cluster.bind fun k => s.bound? p d k).isSome)

/-- Whether a binding is that of an ISOLATED primary, whose STEPs the device does not start (R414). -/
def Mirror.alone (m : Mirror) : Bool := m.enable && !m.standby && m.state == .isolated

/-- Whether partition `p` lets a command start (R57, R60, R308, R309): its context is resident and the partition RUNNING, or it is one
that a started command needs. -/
def State.letStart (s : State) (p : Nat) (c : Cmd) : Bool :=
  let st := (s.ctx p c.ctx).state
  let own := c.parent.isSome
  (s.part p).vf.flr == 0 && !(c.engine == 2 && c.op == 0x13 && (s.part p).mir.alone) && (st == .resident || (st == .evicting && own))
    && ((s.part p).ctl.state == .running || ((s.part p).ctl.state == .draining && (own || s.wouldBind p c)))

/-- Whether an armed WICK_OP on the halves of a chained one belongs to a pair that runs: the new one then waits. -/
def State.pairRuns (s : State) (p : Nat) (c : Cmd) : Bool :=
  let d := s.placed p c
  match d.cluster with
  | none => false
  | some k =>
    let cl := s.cluster k
    ((if d.left then cl.l.armed.toList else []) ++ (if d.right then cl.r.armed.toList else [])).any fun i =>
      (s.cmd? p i).any fun w => (s.boundPartner p w k).isSome

/-- Whether the engine can take a command whose waits are satisfied, but for its cluster's buffer and the codec engines; `queued`: it
stands at the head of a queue (R10, R128, R142, R169, R211, R214, R216, R246). An automatic SWAP_IN that has been issued goes ahead of every
queued move (R215). -/
def State.engineReady (s : State) (p : Nat) (c : Cmd) (queued : Bool) : Bool :=
  let others := (s.part p).cmd.cmds
  (match c.unit with
  | some .cmp => !queued || !others.any fun d =>
      d.engine == 0 && ((d.op == 0x18 && d.stage == 0) || d.op == 0x15) && d.phase == .started && d.ctx == c.ctx
  | some .mov => !(s.part p).str.swaps.any (·.move.isNone)
      && !others.any fun d => d.engine == 1 && d.phase == .started && d.deferred && d.stage == 0 && d.ctx == c.ctx
  | _ => true) &&
  (decide (c.op < 0x10) ||
    (match c.engine, c.op with
    | 0, 0x12 => !c.wick.chain || !s.pairRuns p c
    | 0, 0x19 => s.scanTurn p c && !(s.scanStreams p c).any fun i => (s.stream p i).open' && s.swapPending p (s.stream p i).handle
    | 1, _ => decide (s.movRunning p < 8)
    | 2, 0x13 => !others.any fun d => d.engine == 2 && d.op == 0x13 && (d.phase == .started || d.phase == .ended)
    | _, _ => true))

/-- Whether a command's cluster has room in its buffer (R71). -/
def State.clusterRoom (s : State) (p : Nat) (c : Cmd) : Bool :=
  match (s.placed p c).cluster with
  | some k => decide ((s.cluster k).buffer.length < 4)
  | none => true

/-- Whether a command is one of CDC[u]'s own opcodes, which take the engine's turn (R289). -/
def Cmd.onCodec (c : Cmd) : Bool := c.engine == 3 && c.unit.isSome && decide (0x10 ≤ c.op)

/-- Whether a CDC head is startable (R289): also one that would be skipped, at the moment it would have started (R40). -/
def State.wantsEngine (s : State) (q : Nat) (d : Cmd) : Bool :=
  d.onCodec && s.letStart q d && s.waitsMet q d && s.canReserve q d
    && !(d.fallback == 3 && d.covers.any fun i => (s.cmd? q i).isSome)

/-- The heads of the queues of CDC[u] that would run, with their partition. -/
def State.cdcHeads (s : State) (u : Nat) : List (Nat × Cmd) :=
  (List.range 32).flatMap fun q => (List.range 16).filterMap fun c =>
    ((((s.part q).cmd.queue (3 + u) c).head?).bind (s.cmd? q ·)).bind fun d => if s.wantsEngine q d then some (q, d) else none

/-- Whether CDC[u] would serve a LIVE head now. -/
def State.liveWaits (s : State) (u : Nat) : Bool := (s.cdcHeads u).any fun e => s.isLive e.1 e.2

/-- Whether it is the turn of a command of partition `p` on its codec engine (R289): LIVE heads first, then the suspended command, then
BATCH heads, each class with its own round robin by partition. -/
def State.cdcTurn (s : State) (p : Nat) (c : Cmd) : Bool :=
  let u := c.cdcUnit
  let heads := s.cdcHeads u
  let live := heads.any fun e => s.isLive e.1 e.2
  let e := tget {} s.cdcs u
  let rr := if live then e.rrLive else e.rrPart
  let first := minBy (fun e : Nat × Cmd => (e.1 + 32 - rr) % 32) (heads.filter fun e => s.isLive e.1 e.2 == live)
  (s.engRuns u).isNone && (live || (s.engHolds u).isNone) && s.isLive p c == live && first.any (·.1 == p)

/-- A command leaves its queue and starts (R9, R484). -/
def State.begin (s : State) (p id : Nat) : State :=
  let n := (s.part p).cmd.startClock
  (((s.modSys p fun y => { y.unqueue id with startClock := n + 1 }).modCmd p id fun c =>
    { c with phase := .started, order := n })).progress p

/-- A started command handed to its cluster (R71) or its codec engine (R289). -/
def State.place (s : State) (p : Nat) (c : Cmd) : State :=
  if c.onACluster then
    let d := s.placed p c
    match d.cluster with
    | none => s
    | some k =>
      let s := (s.modCmd p c.id fun x => { x with cluster := some k, left := d.left, right := d.right }).modCluster k
        fun x => { x with buffer := x.buffer ++ [c.id] }
      if c.op = 0x12 ∧ c.wick.chain then s.armOrWait p d k else s
  else if c.engine = 3 ∧ 0x10 ≤ c.op then
    let live := s.isLive p c
    (s.releaseMask p c).modEng c.cdcUnit fun e => { e with
      running := some (Fin.ofNat 32 p, c.id)
      rrLive := if live then (p + 1) % 32 else e.rrLive
      rrPart := if live then e.rrPart else (p + 1) % 32 }
  else s

/-- What comes of an attempt to start a command: it cannot start; it holds its place under the WAIT policy; it has left its queue. -/
inductive Start where
  | no
  | hold (s : State)
  | yes (s : State)

/-- A command that starts and reads its parameter block or its streams' entries (R116, R213, R505): the fault of a poisoned line. -/
def State.startReads (s : State) (p : Nat) (c : Cmd) : State × Option (W16 × W64) :=
  if c.engine = 0 ∧ c.op = 0x12 ∧ ¬ c.wick.aux.isZero ∧ s.inObj p c.wick.aux 128 then
    (s.countO p c.wick.aux 128, ((s.peekO p c.wick.aux 128).fault).map fun q => (Cause.operandPoison, q))
  else if c.engine = 0 ∧ c.op = 0x19 then
    let t := s.readStreams p (s.scanStreams p c)
    (t.1, t.2.map fun q => (Cause.streamPoison, q))
  else (s, none)

/-- The command as it would start: its parameter block and its Lantern bank (R116, R125). -/
def State.prepared (s : State) (p : Nat) (c : Cmd) : Cmd :=
  let aux := if c.engine = 0 ∧ c.op = 0x12 ∧ ¬ c.wick.aux.isZero ∧ s.inObj p c.wick.aux 128 then (s.peekO p c.wick.aux 128).bytes else []
  { c with aux := aux, bank := s.bankFor p c }

/-- The start of a command that passes its checks (R33, R251, R253). -/
def State.go (s : State) (p : Nat) (c : Cmd) (late : List LateObj) (flagged : Bool) : State :=
  let s := late.foldl (fun s e => s.deadlineMiss p c (if c.altB && e.kinds.contains 1 then 1 else 0) e) s
  let fb := if c.fallback = 3 then 3 else if c.altB then 2 else if late.isEmpty then 0 else 1
  let c := { c with fallback := fb, consumedFlagged := flagged, covers := if c.op = 0x01 then c.covers else [] }
  let s := (s.modCmd p c.id fun x => { x with
    fallback := fb, altB := c.altB, consumedFlagged := flagged, aux := c.aux, bank := c.bank, covers := c.covers }).begin p c.id
  s.place p ((s.cmd? p c.id).getD c)

/-- Whether a command would take the alternate operand in place of its late ones (R88, R251). -/
def Cmd.takesAlt (c : Cmd) (late : List LateObj) : Bool :=
  dFallback c.desc == 1 && c.mayAlt && c.op != 0x17 && late.any fun e => e.kinds.contains 1

/-- The late objects of a command at the head of its queue, as it would run (R88, R250, R251). -/
def State.lateHere (s : State) (p : Nat) (c : Cmd) : List LateObj :=
  let c := { s.prepared p c with altB := false }
  let l := s.late p c
  if c.takesAlt l then s.late p { c with altB := true } else l

/-- The commands that stand at the head of a queue of partition `p`, of any engine unit and context, or next in a participant's group. -/
def State.allHeads (s : State) (p : Nat) : List Cmd :=
  let y := (s.part p).cmd
  ((y.queues.filterMap fun e => e.2.head?) ++ y.calls.flatMap fun e => e.2.participants.filterMap fun x => x.rest.head?).filterMap (s.cmd? p ·)

/-- The late objects found of every command that has come to the head of its queue with its waits satisfied (R250). It runs before
the set of outstanding PREFETCHes changes, on which alone they depend. -/
def State.judge (s : State) (p : Nat) : State :=
  ((s.allHeads p).filter fun c => c.judged.isNone && s.waitsMet p c).foldl (fun t c =>
    t.modCmd p c.id fun x => { x with judged := some (s.lateHere p c) }) s

/-- An attempt to start a command that may start, whose waits are satisfied and whose record has an entry (R33, R39, R40, R250 to R253). Under
WAIT it first holds its place until its late objects' PREFETCHes are terminal; a command that the fetch checks found bad reads no object, so
none is late for it. A fallback that the opcode does not define is found before the operands are read (R252). DESIGN CHOICE (log entry 89): a parameter
block or stream entry that reads poison comes before the other operand checks. -/
def State.attempt (s : State) (p : Nat) (c : Cmd) : Start :=
  let id := c.id
  let r := s.reserve p id
  if c.noted ≠ 0 then .yes ((r.begin p id).skip p id c.noted) else
  let held := c.fallback == 3
  if held && c.covers.any (fun i => (s.cmd? p i).isSome) then .no else
  let late := if held then [] else c.judged.getD (s.lateHere p c)
  if dFallback c.desc == 2 && !late.isEmpty then
    .hold ((late.foldl (fun s e => s.deadlineMiss p c 2 e) s).modCmd p id fun c => { c with
      fallback := 3, covers := late.flatMap fun e => e.fetches.map (·.1) })
  else
  let s := r
  let fl := s.flaggedWaits p c
  match fl, dAccept c.desc with
  | t :: _, false =>
    .yes (((s.begin p id).finish p id .flagged Cause.flaggedInput c.noDetail).modCmd p id fun c => { c with
      evDetail := some ([BitVec.ofNat 8 c.op, BitVec.ofNat 8 (c.engine + 8 * dUnit c.desc), BitVec.ofNat 8 c.ring, BitVec.ofNat 8 c.ctx]
        ++ leBytes 2 t) })
  | _, _ =>
    let c := s.prepared p c
    if dFallback c.desc == 1 && !c.mayAlt then .yes ((s.begin p id).skip p id Cause.altMissing) else
    let (t, bad) := s.startReads p c
    match bad with
    | some (cause, q) =>
      .yes (((t.begin p id).finishBy p id cause (some q) (524288 * b2n (c.bank == some true && c.op == 0x12))).modCmd p id fun c => { c with
        consumedFlagged := !fl.isEmpty })
    | none =>
      if s.opCheck p c ≠ 0 then .yes ((t.begin p id).skip p id (s.opCheck p c)) else
      let c := { c with altB := c.takesAlt late }
      if c.altB && s.opCheck p c != 0 then .yes ((t.begin p id).skip p id (s.opCheck p c))
      else .yes (t.go p c late (!fl.isEmpty))

/-- Whether a command's unit would start it now: a skip, too, takes effect at that moment (R40, R71, R289); a command without a unit waits
for its waits alone. -/
def State.unitReady (s : State) (p : Nat) (c : Cmd) (queued : Bool) : Bool :=
  c.unit.isNone || (s.engineReady p c queued && s.clusterRoom p c && (!c.onCodec || s.cdcTurn p c))

/-- Whether a command may be tried now: `queued` where it stands at the head of a queue. -/
def State.mayTry (s : State) (p : Nat) (c : Cmd) (queued : Bool) : Bool :=
  s.letStart p c && s.waitsMet p c && s.unitReady p c queued && s.canReserve p c

/-- An attempt to start a command: `queued` where it stands at the head of a queue. -/
def State.tryStart (s : State) (p : Nat) (c : Cmd) (queued : Bool) : Start := if s.mayTry p c queued then s.attempt p c else .no

/-- The key of the context pointer of engine unit `u` that a command moves: LIVE commands of a codec engine have one of their own (R289). -/
def State.rrKey (s : State) (p u : Nat) (c : Cmd) : Nat := if c.onCodec && s.isLive p c then 16 + u else u

/-- The queues' heads of engine unit `u` that may start, in the order of R11: the LIVE ones first, each class in its own round robin (R289). -/
def State.headsOf (s : State) (p u : Nat) : List Cmd :=
  let from' (last : Nat) (live : Bool) : List Cmd := ((List.range 16).map fun i => (last + 1 + i) % 16).filterMap fun c =>
    ((((s.part p).cmd.queue u c).head?).bind (s.cmd? p ·)).filter fun d => (s.rrKey p u d == 16 + u) == live
  let rr := (s.part p).cmd.rrCtx
  from' (tget 15 rr (16 + u)) true ++ from' (tget 15 rr u) false

/-- The first of some commands that starts; holds met on the way take effect. -/
def State.startFirst (s : State) (p : Nat) (queued : Bool) : List Cmd → State × Option Cmd
  | [] => (s, none)
  | c :: t =>
    match s.tryStart p c queued with
    | .no => s.startFirst p queued t
    | .hold s => s.startFirst p queued t
    | .yes s => (s, some c)

/-- Whether a REDUCE_INTO of a participant's group, other than command `i`, has no terminal record yet: the rest of the group then waits, since
it does not run where the claim is lost or refused (R150, R506, log entry 30). -/
def State.claimOpen (s : State) (p i : Nat) (x : Participant) : Bool :=
  x.run.any fun j => j != i && (s.cmd? p j).any fun d => d.engine == 0 && d.op == 0x11

/-- COMMAND_START (R10, R11, R40, R150). -/
def State.commandStart (s : State) (p : Nat) (slot : StartSlot) : State :=
  match slot with
  | .queue u =>
    match s.startFirst p true (s.headsOf p (unitNo u)) with
    | (t, some c) => t.modSys p fun y => { y with rrCtx := tset y.rrCtx (s.rrKey p (unitNo u) c) c.ctx }
    | (s, none) => s
  | .held => (s.startFirst p false ((s.part p).cmd.cmds.filter (·.phase == .held))).1
  | .participant id k =>
    match (s.call? p id).bind (·.participants[k]?) with
    | none => s
    | some x =>
    match x.rest.head? with
    | none => s
    | some i =>
      if s.claimOpen p i x then s else
      match s.startFirst p false ((s.cmd? p i).toList) with
      | (s, some _) => s.modCall p id fun y => y.modPpt k fun x => { x with rest := x.rest.filter (· != i) }
      | (s, none) => s

/-- The command that a COMMAND_START tries first. -/
def State.tried (s : State) (p : Nat) : StartSlot → Option Cmd
  | .queue u => (s.headsOf p (unitNo u)).find? (s.mayTry p · true)
  | .held => ((s.part p).cmd.cmds.filter (·.phase == .held)).find? (s.mayTry p · false)
  | .participant id k => (((s.call? p id).bind (·.participants[k]?)).bind (·.rest.head?)).bind (s.cmd? p ·)

/-- The findings in the lines that a command reads as it starts: its parameter block, or its stream entries (R39, R213, R259). -/
def State.eccStart (s : State) (p : Nat) (slot : StartSlot) (hits : List EccHit) : State :=
  match s.tried p slot with
  | some c => s.eccHits p c (Finder.first
      (if c.engine == 0 && c.op == 0x12 then [Finder.reads p Cause.operandPoison c.wick.aux 128]
      else if c.engine == 0 && c.op == 0x19 then s.streamReads p (s.scanStreams p c) else [])) hits
  | none => s

/-- The engine unit, control core or participant of partition `p` starts its next command. -/
def execCommandStart (p : PartId) (slot : StartSlot) (s : State) (ecc : List EccHit := []) : Res := .next ((s.eccStart p.val slot ecc).commandStart p.val slot)

/-- BATCH_SUSPEND (R289): a LIVE head is startable while a BATCH command runs. -/
def State.batchSuspend (s : State) (u : Nat) : State :=
  match s.engRuns u with
  | none => s
  | some (p, id) =>
    if (s.engHolds u).isSome || !s.liveWaits u || (s.cmd? p id).any (s.isLive p ·) then s else
    s.modEng u fun e => { e with running := none, suspended := e.running, preempts := wrapAdd e.preempts 1 }

/-- CDC[u] suspends its BATCH command. -/
def execBatchSuspend (u : Fin 4) (s : State) : Res := .next (s.batchSuspend u.val)

/-- BATCH_RESUME (R289): no LIVE head is startable and the engine is free. -/
def State.batchResume (s : State) (u : Nat) : State :=
  if (s.engHolds u).isNone || (s.engRuns u).isSome || s.liveWaits u then s else
  s.modEng u fun e => { e with running := e.suspended, suspended := none }

/-- CDC[u] resumes its suspended command. -/
def execBatchResume (u : Fin 4) (s : State) : Res := .next (s.batchResume u.val)

end Sys2Proof.Machine
end

