-- ==== Sys2Proof/Machine/Fetch.lean ====
section
/-!
DEFINITION. DESCRIPTOR_FETCH (R16 to R18, R24, R25, R36, R39, R40, R194, R210) and SNUFF as it is fetched; the registers of a ring page
that a tenant's driver writes: DOORBELL, START and STOP (R14, R15, R19, R504).
-/

namespace Sys2Proof.Machine

/-- Whether the running STEP of a partition issues calls into a context's CMP queue (R194). -/
def State.issuing (s : State) (p ctx : Nat) : Bool :=
  match (s.part p).seq.run with
  | some r => !r.allIssued && (s.cmd? p r.id).any (·.ctx == ctx)
  | none => false

/-- Whether a descriptor for engine unit `u` of a context can be routed (R18, R194). -/
def State.canRoute (s : State) (p ctx u : Nat) : Bool := !(s.part p).cmd.queueFull u ctx && !(u == 0 && s.issuing p ctx)

/-- Whether a partition's control core fetches (R308, R309, R374). -/
def State.fetches (s : State) (p : Nat) : Bool := (s.part p).ctl.state == .running && (s.part p).vf.flr == 0

/-- The engine unit that a stalled ring waits for. -/
def Ring.stallNo (r : Ring) : Nat := ((unitOf r.stallEngine.toNat r.stallUnit.toNat).map unitNo).getD 0

/-- Whether a ring has a descriptor that the control core may take up (R17, R18, R57). -/
def State.ringReady (s : State) (p n : Nat) : Bool :=
  let r := s.ring p n
  (s.ctx p r.ctx).state == .resident && r.avail != 0
    && (r.state == .fetching || (r.state == .stallQueue && s.canRoute p r.ctx r.stallNo))

/-- The ring whose turn it is (R17). -/
def State.ringTurn (s : State) (p : Nat) : Option Nat :=
  ((List.range 16).map fun i => ((s.part p).cmd.rrRing + i) % 16).find? (s.ringReady p ·)

/-- What reading the next descriptor of a ring comes to. -/
inductive Next where
  | got (d : List Byte)
  | half
  | failed (s : State)

/-- The next descriptor of a ring read (R13, R16, R360, R377, R504); without credits of its regulator the read waits (R312, R366). -/
def State.nextDesc (s : State) (p n : Nat) (io : HostAccess) : Next :=
  let r := s.ring p n
  let slot := (baseRef r.base).add (64 * (r.head.toNat % r.slots))
  if r.inDevice && s.stoppedO p slot 64 then .failed (s.waitO p [(slot, 64)])
  else if !r.inDevice && s.regHolds p 2 0 1 then .failed (s.modReg p 2 (·.wait 0))
  else if !r.inDevice && !s.hostUp then .failed (s.ringError p n Cause.ringFetchFault Cause.hostCompletion r.lastWm)
  else if !r.inDevice && s.hostIo io != .ok then .failed (((s.slotPage p n r.head.toNat io).hostAer p io).ringError p n Cause.ringFetchFault (hostCause io) r.lastWm)
  else
    let a := s.slotAt p n r.head.toNat
    let ext := dExt a.bytes
    let b := if ext && decide (2 ≤ r.avail) then s.slotAt p n (r.head.toNat + 1) else { bytes := [] }
    match a.fault.orElse fun _ => b.fault with
    | some q => .failed (s.ringError p n Cause.ringFetchFault Cause.poison r.lastWm (some q))
    | none => if ext && decide (r.avail < 2) then .half else .got (a.bytes ++ b.bytes)

/-- The waymark checks of a descriptor (R24, R25); 0: both pass. -/
def State.wmCheck (s : State) (p n : Nat) (d : List Byte) : W16 :=
  let wm := dWaymark d
  if (s.ring p n).baseline.any fun b => !later wm b then Cause.waymarkRegress
  else if (s.part p).cmd.cmds.any fun c => !withinSpan c.wm wm then Cause.waymarkSpan
  else 0

/-- The cause that the fetch checks note for a descriptor; 0: none. -/
def State.fetchCause (s : State) (p n : Nat) (d : List Byte) : W16 :=
  let c := headerCheck s.fuse.grade d
  if c ≠ 0 then c else s.wmCheck p n d

/-- A descriptor consumed and made an outstanding command. -/
def State.take (s : State) (p n : Nat) (d : List Byte) (cause : W16) (unit : Option EngineUnit) (phase : CmdPhase)
    (covers : List Nat) : State × Nat :=
  let ctx := (s.ring p n).ctx
  let s := s.consume p n (d.length / 64) (dWaymark d) (cause != Cause.waymarkRegress && cause != Cause.waymarkSpan)
  s.addCmd p { desc := d, ring := n, ctx := ctx, unit := unit, noted := cause, phase := phase, covers := covers }

/-- One descriptor of a ring taken up (R17, R18, R36, R39, R40, R210); none: the ring goes no further now. -/
def State.fetchOne (s : State) (p n : Nat) (io : HostAccess) : State × Bool :=
  let r := s.ring p n
  match s.nextDesc p n io with
  | .failed s => (s, false)
  | .half => ((s.slotPage p n r.head.toNat .ok).modRing p n fun r => { r with state := .idle }, false)
  | .got d =>
    let s := (List.range (d.length / 64)).foldl (fun s i => s.slotPage p n (r.head.toNat + i) .ok) s
    let cause := s.fetchCause p n d
    let after (s : State) : State := s.modRing p n fun r => { r with state := if r.avail = 0 then .idle else .fetching }
    let unit := (unitOf (dEngine d) (dUnit d)).filter fun u => s.fuse.grade.has u
    if endsAtFetch d then
      if !r.canReserve then (s.modRing p n fun r => { r with cplWait := true }, false) else
      let (s, id) := s.take p n d cause unit .started []
      let s := (after (s.reserve p id)).modRing p n fun r => { r with cplWait := false }
      ((if cause ≠ 0 then s.skip p id cause else s.snuff p id), true)
    else
      match unit with
      | none => (after (s.take p n d cause none .held []).1, true)
      | some u =>
        if !s.canRoute p r.ctx (unitNo u) then
          (s.modRing p n fun r => { r with
            state := .stallQueue, stallEngine := BitVec.ofNat 3 (unitEngine u), stallUnit := BitVec.ofNat 2 (unitField u) }, false)
        else
          let covers := if dOpcode d = Op.fence then s.fenceCovers p r.ctx (dEngine d) (fieldAt d 35 1) s.nextId else []
          let s := if dEngine d = 1 ∧ dOpcode d = 0x11 then s.judge p else s
          let (s, id) := s.take p n d cause (some u) .queued covers
          let s := s.modSys p fun y => y.modQueue (unitNo u) r.ctx (· ++ [id])
          let s := if dEngine d = 0 ∧ dOpcode d = 0x19 then s.countChunk p id else s
          (after s, true)

/-- Up to `k` descriptors of a ring taken up; it stops where the ring goes no further or is empty. -/
def State.fetchMany (s : State) (p n : Nat) (io : HostAccess) : Nat → State
  | 0 => s
  | k + 1 =>
    let t := s.fetchOne p n io
    if t.2 && ((t.1.ring p n).avail != 0) && (t.1.ring p n).started then t.1.fetchMany p n io k else t.1

/-- DESCRIPTOR_FETCH (R17): up to `count` descriptors of the ring whose turn it is; the turn passes on. -/
def State.descriptorFetch (s : State) (p count : Nat) (io : HostAccess) : State :=
  if !s.fetches p then s else
  match s.ringTurn p with
  | none => s
  | some n => (s.fetchMany p n io count).modSys p fun y => { y with rrRing := (n + 1) % 16 }

/-- The findings in the lines of the slots that the fetch to state `t` reads of the ring whose turn it is, in device memory: those it consumes, and
one more where it takes up fewer than `count` descriptors (R259, R504; log entry 48). -/
def State.eccSlots (s t : State) (p count : Nat) (hits : List EccHit) : State :=
  match s.ringTurn p with
  | some n =>
    let r := s.ring p n
    let used := ((t.ring p n).head - r.head).toNat
    let k := min r.avail (if t.nextId - s.nextId < count then used + 1 else used)
    if r.inDevice && s.fetches p then
      s.eccFinds p r.lastWm (srcCore p) (Finder.first ((List.range k).map fun i =>
        Finder.reads p Cause.ringFetchFault ((baseRef r.base).add (64 * ((r.head.toNat + i) % r.slots))) 64)) hits
    else s
  | none => s

/-- SNUFF (R43): the descriptor of the ring whose turn it is, where that is a SNUFF, fetched and carried out. -/
def State.snuffFetch (s : State) (p : Nat) (io : HostAccess) : State :=
  match s.ringTurn p with
  | none => s
  | some n =>
    match s.nextDesc p n io with
    | .got d => if dOpcode d = Op.snuff then s.descriptorFetch p 1 io else s
    | _ => s

/-- A ring whose RING_TAIL lies past its slots is in error (R15). -/
def Ring.overrun (r : Ring) : Bool := decide (r.slots < r.avail)

/-- A base and size that R504 accepts: `bytes` of memory at `base`, in a device object or in host memory. -/
def State.baseOk (s : State) (p : Nat) (base : W64) (device : Bool) (bytes : Nat) : Bool :=
  base.toNat % 4096 == 0 && (!device ||
    (let r := baseRef base
     let o := s.object p r.handle
     bitsOf base.toNat 60 4 == 0 && s.inObj p r bytes && (o.src.home == .h || o.src.home == .l)))

/-- Whether a ring and its completion ring may start (R504). -/
def State.ringConfigOk (s : State) (p n : Nat) : Bool :=
  let r := s.ring p n
  let okSize (c : W32) : Bool := decide (6 ≤ bitsOf c.toNat 0 5) && decide (bitsOf c.toNat 0 5 ≤ 16)
  okSize r.cfg && okSize r.cplCfg && s.baseOk p r.base r.inDevice (64 * r.slots) && s.baseOk p r.cplBase r.cplInDevice (16 * r.records)

/-- RING_START (R15, R19, R491, R504). -/
def State.ringStart (s : State) (p n : Nat) : State :=
  if !s.vfOpen p || (s.ring p n).state != .stopped then s else
  if !s.ringConfigOk p n then s.rejectVf p (1 + n) 0x008 errStart Cause.ringConfig 1 else
  let s := s.modRing p n fun r => { r with state := if r.avail = 0 then .idle else .fetching, waiting := [] }
  if (s.ring p n).overrun then s.ringError p n Cause.ringOverrun 0 0 else s

/-- RING_STOP (R19): a started ring, or one in ERROR, becomes STOPPED. -/
def State.ringStop (s : State) (p n : Nat) : State :=
  if s.vfOpen p then (s.modRing p n fun r => { r with state := .stopped }).rearm p else s

end Sys2Proof.Machine
end

