-- ==== Sys2Proof/Machine/Terminal.lean ====
section
/-!
DEFINITION. COMMAND_TERMINAL (R29, R30, R42, R44, R48 to R51, R59, R196, R210, R215, R216, R360, R374, R410): the terminal record of a
command that has ended, its event, its signal.
-/

namespace Sys2Proof.Machine

/-- The event record that R42 gives the end of a command: a skip, or a nonzero cause; none where it was snuffed. -/
def Cmd.writesEvent (c : Cmd) : Bool := c.status != .snuffed && (c.status != .done || c.cause != 0)

/-- The fault that the end of a command is or follows from (R473), with its event record written (R42); an automatic SWAP_IN that
fails, so that the object is not in C, reports STREAM_SWAPIN_FAIL as the outermost cause (R216), and a refused claim the TILE_LOST that its
call raises (R506). -/
def State.endEvent (s : State) (p : Nat) (c : Cmd) : State × Option W64 :=
  if !c.writesEvent then (s, none) else
  let (q, s) := match c.faultSeq with
    | some q => (q, s)
    | none => s.newFault
  let src := s.cmdSrc p c
  if c.autoTok.isSome && (s.object p c.movHandle).src.home != .c then
    ((s.link q c.cause src (some p)).raiseIn p q Cause.streamSwapinFail ⟨0x06, p % 2⟩ c.wm ([0, 0, 0, 0] ++ leBytes 4 c.movHandle), some q)
  else if s.losesTile p c then (s.link q c.cause src (some p), some q)
  else (s.raiseIn p q c.cause src c.wm (s.cmdDetail p c), some q)

/-- What comes of writing a completion record: it stands, or it cannot be written now. -/
inductive Recorded where
  | yes (s : State)
  | no (s : State)

/-- A record whose write failed: the ring enters ERROR, with an event that carries RING_LAST_WM (Table 1.13), and the record is written again after a restart (R360, R504). -/
def State.recordFails (s : State) (p : Nat) (c : Cmd) (inner : W16) (q : Option W64) : State :=
  (s.ringError p c.ring Cause.ringFetchFault inner (s.ring p c.ring).lastWm q).modRing p c.ring fun r => { r with waiting := addTo r.waiting c.id }

/-- The completion record of a command written to its completion ring, with its interrupt (R48, R49, R51, R245, R360, R377, R479, R504). -/
def State.writeRecord (s : State) (p : Nat) (c : Cmd) (io : HostAccess) : Recorded :=
  if !c.writesRecord || c.parent.isSome || c.autoTok.isSome then .yes s else
  let r := s.ring p c.ring
  let off := 16 * (r.cplTail.toNat % r.records)
  let after (s : State) : State :=
    let s := s.modRing p c.ring fun r => { r with cplTail := r.cplTail + 1 }
    if dIrq c.desc then s.msixVf p r.vector else s
  if r.waiting.contains c.id then .no s
  else if !c.reserved && !r.canReserve then .no s
  else if r.cplInDevice && s.notNow p ((baseRef r.cplBase).add off) 16 then .no (s.waitO p [((baseRef r.cplBase).add off, 16)])
  else if r.cplInDevice then
    match s.pokeO p ((baseRef r.cplBase).add off) c.record with
    | (s, none) => .yes (after s)
    | (_, some q) => .no (s.recordFails p c Cause.poisonWrite (some q))
  else if s.regHolds p 2 0 1 then .no (s.modReg p 2 (·.wait 0))
  else if !s.hostUp then .no s
  else if s.hostIo io != .ok then .no ((s.hostAer p io).recordFails p c (hostCause io) none)
  else
    let a := r.cplBase.toNat + off
    .yes (after (((s.translate p a).setHost a c.record).countHost p 16 false))

/-- A command leaves the outstanding ones; its reserved entry is used or released (R25, R50). -/
def State.retire (s : State) (p : Nat) (c : Cmd) : State :=
  let s := if c.reserved then s.modRing p c.ring fun r => { r with reserved := r.reserved - 1 } else s
  s.modSys p fun y => { y with cmds := y.cmds.filter fun d => d.id != c.id }

/-- The commands at the head of a CMP queue, or next in the group of a participant. -/
def State.cmpHeads (s : State) (p : Nat) : List Cmd :=
  let y := (s.part p).cmd
  (((List.range 16).filterMap fun c => (y.queue 0 c).head?)
    ++ y.calls.flatMap fun e => e.2.participants.filterMap fun x => x.rest.head?).filterMap (s.cmd? p ·)

/-- The waits of R216 kept by every SCAN_CHUNK at the head of its queue as the object's swap-in ends. -/
def State.swapWaits (s : State) (p : Nat) (a : AutoSwap) : State :=
  ((s.cmpHeads p).filter fun d => !(s.swapWaitsOf p d [a]).isEmpty).foldl (fun s d =>
    s.modCmd p d.id fun c => { c with extraWaits := c.extraWaits ++ s.swapWaitsOf p d [a], waitedSwap := true }) s

/-- The end of an automatic SWAP_IN: the chunks that wait for it, and its signal (R215, R216). -/
def State.swapTerminal (s : State) (p : Nat) (c : Cmd) : State :=
  match (s.part p).str.swaps.find? fun a => a.move == some c.id with
  | none => s
  | some a =>
    let s := s.swapWaits p a
    (s.modStr p fun y => { y with swaps := y.swaps.filter fun b => b.move != some c.id }).signal p a.tok (flagsSignal c.status c.cause)

/-- What the end of a call does to the STEP that issued it (R195, R196). -/
def State.callTerminal (s : State) (p step : Nat) (c : Cmd) : State :=
  s.modSeq p fun q => { q with run := q.run.map fun r =>
    if r.id ≠ step then r else
    let e := (r.calls.find? (·.1 == c.id)).getD (c.id, 0, 0xFFFF)
    { r with
      failed := if c.cause = 0 then r.failed else r.failed.orElse fun _ => some (e.2.1, e.2.2, c.cause)
      wrote := r.wrote || c.partialDone || c.wrote } }

/-- The terminal actions of a command once its record stands: signal, streams, the call or STEP above it (R29, R30, R59, R147, R210). -/
def State.terminalActions (s : State) (p : Nat) (c : Cmd) (q : Option W64) : State :=
  let s := if c.engine = 1 ∧ c.op = 0x11 then s.judge p else s
  let s := if c.engine = 0 ∧ c.op = 0x19 then s.scanTerminal p c else s
  let s := if dSigEn c.desc then s.signal p (dSignal c.desc) (flagsSignal c.status c.cause) else s
  let s := ((s.retire p c).progress p).rearm p
  let s := if c.autoTok.isSome then s.swapTerminal p c else s
  let s := match c.parent with
    | none => s
    | some i =>
      if c.inner then
        match s.cmd? p i with
        | some k => s.innerTerminal p k c q
        | none => s
      else s.callTerminal p i c
  if c.engine = 2 ∧ c.op = 0x13 ∧ c.unit.isSome then s.modSys p fun y => { y with boundary := true } else s

/-- The end of a command in an FLR (R374): no record, no event. -/
def State.terminalFlr (s : State) (p : Nat) (c : Cmd) : State :=
  let s := if c.status = .snuffed ∧ c.isTarget then s.modHst fun h => { h with flrSnuffed := satAdd h.flrSnuffed 1 } else s
  s.terminalActions p c none

/-- Whether writes of a command are still held at a MOVING object, so that no engine sees them yet (R30, R36, R242): those of a RECV_POST. -/
def State.writesHeld (s : State) (p : Nat) (c : Cmd) : Bool :=
  let o := s.object p (c.ref 48).handle
  o.state == .moving && o.held.any fun w => c.receivesAt (c.ref 48).handle w.1

/-- Whether frames of a command still wait to leave: the terminal record comes after them (R390, R392). -/
def State.framesWait (s : State) (p : Nat) (c : Cmd) : Bool := (s.part p).net.txHeld.any (·.cmd == c.id)

/-- COMMAND_TERMINAL (R44): the terminal record of the ended command `id`. -/
def State.terminal (s : State) (p id : Nat) (io : HostAccess) : State :=
  match s.cmd? p id with
  | none => s
  | some c =>
    if c.phase != .ended || (s.part p).mir.heldSteps.contains id || s.framesWait p c then s
    else if (s.part p).vf.flr ≠ 0 then s.terminalFlr p c
    else if !s.paid p c || s.writesHeld p c then s
    else
      match s.writeRecord p c io with
      | .no s => s
      | .yes s =>
        let (s, q) := s.endEvent p c
        s.terminalActions p c q

/-- The line of a completion ring in device memory that a command's record is a part of (R259, R504). -/
def State.recordFinder (s : State) (p : Nat) (c : Cmd) : Finder :=
  let r := s.ring p c.ring
  if r.cplInDevice && c.phase == .ended then Finder.partly p ((baseRef r.cplBase).add (16 * (r.cplTail.toNat % r.records))) 16
  else fun _ _ _ => none

/-- Command `id` of partition `p` receives its terminal record. -/
def execCommandTerminal (p : PartId) (id : Nat) (io : HostAccess) (s : State) (ecc : List EccHit := []) : Res :=
  .next ((s.eccWrite p.val id (fun c => s.recordFinder p.val c) ecc).terminal p.val id io)

end Sys2Proof.Machine
end

