-- ==== Sys2Proof/Machine/Contexts.lean ====
section
/-!
DEFINITION. Contexts (R57 to R63, R308): enabling, disabling, the batch-step boundary, saving and restoring an image.
-/

namespace Sys2Proof.Machine

/-- Whether a context occupies one of the four resident slots. -/
def CtxState.inSlot : CtxState → Bool
  | .resident | .evicting | .restoring => true
  | .free | .swapped => false

/-- The lowest resident slot that no context occupies (R57). -/
def State.freeSlot (s : State) (p : Nat) : Option Nat :=
  (List.range 4).find? fun k => !(List.range 16).any fun c => (s.ctx p c).state.inSlot && (s.ctx p c).slot.toNat == k

/-- A context enabled from FREE (R62). DEDUCED (log entry 63): the empty image that it gets where four are resident holds no byte, so that its
restore counts none. -/
def State.enableCtx (s : State) (p n : Nat) : State :=
  match s.freeSlot p with
  | some k => s.modCtx p n fun c => { c with enable := true, state := .resident, slot := BitVec.ofNat 2 k }
  | none =>
    (s.modCtx p n fun c => { c with enable := true, state := .swapped, image := 0, swappedAt := (s.part p).cmd.swapClock }).modSys p
      fun y => { y with swapClock := y.swapClock + 1 }

/-- Whether a context may be disabled: it has no outstanding command and no started ring (R62). -/
def State.ctxQuiet (s : State) (p n : Nat) : Bool :=
  !(s.part p).cmd.cmds.any (fun c => c.ctx == n) && !(List.range 16).any fun k => (s.ring p k).ctx == n && (s.ring p k).started

/-- CTX_CTRL[n] as it reads (Table 1.18). -/
def State.ctxCtrl (s : State) (p n : Nat) : Nat :=
  b2n (s.ctx p n).enable + 2 * b2n (s.ctx p n).pin + 16 * (s.ctx p n).priority.toNat

/-- A write of CTX_CTRL[n] (R62, R63, R309). DESIGN CHOICE (log entry 89): a write with enable 0 to a FREE context is no disable; it stores pin and
priority. -/
def State.ctxWrite (s : State) (p n : Nat) (enable pin : Bool) (priority : BitVec 3) : State :=
  if !s.vfRw p then s else
  let set (s : State) : State := s.modCtx p n fun c => { c with pin := pin, priority := priority }
  let st := (s.ctx p n).state
  if enable then if st = .free then set (s.enableCtx p n) else set s
  else if st = .free then set s
  else if (st == .resident || st == .swapped) && s.ctxQuiet p n then
    (set (s.modCtx p n fun c => { c with enable := false, state := .free, slot := 0, image := 0 })).rearm p
  else
    s.rejectVf p 0x12 (0x040 + 4 * n) errParam Cause.ctxBusy (BitVec.ofNat 64 (2 * b2n pin + 16 * priority.toNat)) (BitVec.ofNat 64 (s.ctxCtrl p n))

/-- Whether a ring holds a descriptor whose queue has room (R58). -/
def State.ringHasRoom (s : State) (p k : Nat) : Bool :=
  let r := s.ring p k
  if !r.started || r.avail = 0 then false else
  match s.nextDesc p k .ok with
  | .half => false
  | .failed _ => true
  | .got d =>
    match (unitOf (dEngine d) (dUnit d)).filter fun u => s.fuse.grade.has u with
    | some u => endsAtFetch d || s.canRoute p r.ctx (unitNo u)
    | none => true

/-- Whether a command can start now. -/
def State.canStart (s : State) (p : Nat) (c : Cmd) : Bool :=
  match s.tryStart p c true with
  | .yes _ => true
  | _ => false

/-- Whether a resident context is blocked (R58). -/
def State.ctxBlocked (s : State) (p n : Nat) : Bool :=
  (s.ctx p n).state == .resident && !(s.ctxHeads p n).any (s.canStart p ·)
    && !(List.range 16).any fun k => (s.ring p k).ctx == n && s.ringHasRoom p k

/-- Whether a context has a MOV or NET command in flight (R60). -/
def State.ctxInFlight (s : State) (p n : Nat) : Bool :=
  (s.part p).cmd.cmds.any fun c => c.ctx == n && (c.engine == 1 || c.engine == 4) && (c.phase == .started || c.phase == .ended)

/-- The victim of R60 step 2: lowest priority, then highest number. -/
def State.victim (s : State) (p : Nat) : Option Nat :=
  minBy (fun n => 16 * (s.ctx p n).priority.toNat + (15 - n)) ((List.range 16).filter fun n =>
    s.ctxBlocked p n && !(s.ctx p n).pin && !s.ctxInFlight p n)

/-- The context to swap in (R60 step 1): highest priority, then swapped out longest. -/
def State.candidate (s : State) (p : Nat) : Option Nat :=
  minBy (fun n => (7 - (s.ctx p n).priority.toNat) * ((s.part p).cmd.swapClock + 1) + (s.ctx p n).swappedAt)
    ((List.range 16).filter (s.ctxRunnable p ·))

/-- Whether the partition is at a batch-step boundary (R59). -/
def State.atBoundary (s : State) (p : Nat) : Bool :=
  let y := (s.part p).cmd
  y.boundary || (!(y.cmds.any fun c => c.engine == 2 && c.op == 0x13 && c.unit.isSome)
    && !(y.cmds.any fun c => c.unit == some .cmp && c.phase == .started))

/-- A context begins its swap-in in a slot. -/
def State.beginRestore (s : State) (p n k : Nat) : State :=
  (s.modCtx p n fun c => { c with state := .restoring, slot := BitVec.ofNat 2 k }).modSys p
    fun y => { y with starved := false, swapIn := none }

/-- CONTEXT_STARVED, once (R61). -/
def State.starve (s : State) (p : Nat) : State :=
  if (s.part p).cmd.starved then s else
  let pinned := (List.range 16).all fun n => (s.ctx p n).state != .resident || (s.ctx p n).pin
  (s.modSys p fun y => { y with starved := true }).raisePart p Cause.contextStarved (srcCore p) 0 [BitVec.ofNat 8 (b2n !pinned)]

/-- BATCH_STEP_BOUNDARY (R59 to R61, R308). -/
def State.batchStepBoundary (s : State) (p : Nat) : State :=
  if (s.part p).ctl.state != .running || (s.part p).vf.flr != 0 || (s.part p).cmd.swapIn.isSome || !s.atBoundary p then s else
  let s := s.modSys p fun y => { y with boundary := false }
  match s.candidate p with
  | none => s.modSys p fun y => { y with starved := false }
  | some n =>
    match s.freeSlot p with
    | some k => s.beginRestore p n k
    | none =>
      match s.victim p with
      | none => s.starve p
      | some v => (s.modCtx p v fun c => { c with state := .evicting }).modSys p fun y => { y with swapIn := some n }

/-- The control core of `p` acts on a batch-step boundary. -/
def execBatchStepBoundary (p : PartId) (s : State) : Res := .next (s.batchStepBoundary p.val)

/-- Where the image of context `n` lies in its partition's area: behind the list buffers, 256 KiB each (R303, log entry 92). -/
def State.imageAt (s : State) (p n : Nat) : Nat := 128 * 4096 * (s.part p).ctl.listCap.toNat + 2 ^ 18 * n

/-- CONTEXT_SAVE (R60 step 3, R62, R245, R303): the victim's image is written, and the candidate begins its swap-in. -/
def State.contextSave (s : State) (p n : Nat) : State :=
  let x := s.ctx p n
  let busy := (s.part p).cmd.cmds.any fun c =>
    c.ctx == n && (c.engine == 0 || c.engine == 2 || c.engine == 3) && (c.phase == .started || c.phase == .ended)
  if x.state != .evicting || busy || (s.part p).vf.flr != 0 then s else
  let bytes := BitVec.ofNat 32 (Config.freeNat s.free % (2 ^ 18 + 1))
  let clock := (s.part p).cmd.swapClock
  let s := (s.useFree.modCtx p n fun c => { c with state := .swapped, slot := 0, image := bytes, swappedAt := clock }).modSys p
    fun y => { y with swapClock := clock + 1, ctxSaveBytes := bytes }
  let s := (s.count p 8 bytes.toNat).countArea p (s.imageAt p n) bytes.toNat
  match (s.part p).cmd.swapIn with
  | some m =>
    if (s.part p).ctl.state == .running && (s.ctx p m).state == .swapped then s.beginRestore p m x.slot.toNat
    else s.modSys p fun y => { y with swapIn := none }
  | none => s

/-- The image of context `c` of partition `p` is saved. -/
def execContextSave (p : PartId) (c : Fin 16) (s : State) : Res := .next (s.contextSave p.val c.val)

/-- CONTEXT_RESTORE (R62, R245, R303): the image is loaded. -/
def State.contextRestore (s : State) (p n : Nat) : State :=
  let x := s.ctx p n
  if x.state != .restoring || (s.part p).vf.flr != 0 then s else
  ((s.modCtx p n fun c => { c with state := .resident }).count p 8 x.image.toNat).countArea p (s.imageAt p n) x.image.toNat

/-- The image of context `c` of partition `p` is loaded. -/
def execContextRestore (p : PartId) (c : Fin 16) (s : State) : Res := .next (s.contextRestore p.val c.val)

end Sys2Proof.Machine
end

