-- ==== Sys2Proof/Machine/Partitions.lean ====
section
/-!
DEFINITION. Partitions (chapter 9): the lifecycle of Table 9.2, COMMIT's checks and claims, drain, FORCE, teardown, snapshots,
regulators. The rows that write PART_CTRL and SNAP_CMD in a session go through the register pages (SessionRows.lean).
-/

namespace Sys2Proof.Machine

/-- What a register write comes to: the state, the cause of its rejection (0: none), and the bit of the partition's PCTL ERR_STATUS
that the rejection sets beside the common one (Table 9.10). -/
structure RegW where
  s : State
  cause : W16 := 0
  pctl : Option (Nat × Nat) := none

/-- A write rejected with a cause. -/
def RegW.no (s : State) (cause : W16) (pctl : Option (Nat × Nat) := none) : RegW := { s := s, cause := cause, pctl := pctl }

/-- The codes of the partition states (Table 9.9). -/
def PartState.code : PartState → Nat
  | .empty => 0
  | .configuring => 1
  | .stopped => 2
  | .running => 3
  | .draining => 4
  | .teardown => 5

/-- The PF page with number `k` (0 PCTL to 5 PATT) of partition `p` (R319). -/
def partPage (p k : Nat) : Nat := 0x100 + 8 * p + k

/-- A power domain put in a state (Table 15.11); a domain struck by a converter fault stays in FAULT until a cold reset (R468). -/
def State.setDomain (s : State) (i : Nat) (st : DomState) : State :=
  s.modPwr fun w => { w with domains := tmod {} w.domains i fun d =>
    if d.state = .fault then d else { d with state := st, current := if st = .on then d.current else 0, voltage := if st = .on then d.voltage else 0 } }

/-- What a half keeps without its supply: no check that ran on it goes on (R445). -/
def Half.unpowered (h : Half) : Half := { h with stationary := none, armed := none, state := if h.state = .selfCheck then .idle else h.state }

/-- A quad and its domain switched ON or OFF; an OFFLINE quad shows OFFLINE (R445, R446, Table 15.10); without its supply its halves hold no
state. -/
def State.powerQuad (s : State) (q : Nat) (on : Bool) : State :=
  let s := (s.modQuad q fun x => { x with state := if x.state = .offline then .offline else if on then .on else .off }).setDomain q (if on then .on else .off)
  if on then s else (s.quadClusters q).foldl (fun s k => s.modCluster k fun c => { c with l := c.l.unpowered, r := c.r.unpowered }) s

/-- A partition changes its state: journal entry, event on both rings, PF vector (R306, R335, R357); without its entry the change takes no effect (R337). -/
def State.partChange (s : State) (p : Nat) (new : PartState) : State :=
  if !s.journalOk then s.journalFails else
  let old := (s.part p).ctl.state
  let s := s.note { action := .partState, who := Writer.device, part := some p, detail := old.code + 256 * new.code }
  let s := (s.modCtl p fun c => { c with state := new }).raiseBoth p Cause.partStateChange (srcCore p) 0
    [BitVec.ofNat 8 old.code, BitVec.ofNat 8 new.code]
  s.msixPf (32 + p)

/-- Whether the self-test of a quad of a partition is held, and whether one runs (R462). -/
def State.testHeld (s : State) (p : Nat) : Bool := (s.quadsOf p).any fun q => (s.quad q).pending
/-- Whether a self-test runs on a quad of a partition. -/
def State.testRuns (s : State) (p : Nat) : Bool := (s.quadsOf p).any fun q => (s.quad q).state == .selftest

/-- The self-test of a quad begins (R462, R463): its domain is powered. -/
def State.beginTest (s : State) (q : Nat) : State :=
  (s.modQuad q fun x => { x with state := .selftest, pending := false, forced := false }).setDomain q .on

/-- The held self-tests of some quads begin. -/
def State.beginHeld (s : State) (qs : List Nat) : State :=
  qs.foldl (fun s q => if (s.quad q).pending then s.beginTest q else s) s

/-- A partition becomes STOPPED: the self-tests held for it begin (R462). -/
def State.partStopped (s : State) (p : Nat) : State := (s.partChange p .stopped).beginHeld (s.quadsOf p)

/-- HBM granules that no partition holds (R303, R305). -/
def State.hbmFree (s : State) : List Nat :=
  ((List.range 256).drop 1).filter fun g => !(List.range 32).any fun p => (s.part p).ctl.hmap.contains g
/-- Whether an LPDDR granule is exposed to the host (R367). -/
def State.exposed (s : State) (g : Nat) : Bool := decide (512 - s.hst.hdmGib.toNat ≤ g)
/-- LPDDR granules that no partition holds and that are not exposed (R305). -/
def State.lpddrFree (s : State) : List Nat :=
  (List.range 512).filter fun g => !s.exposed g && !(List.range 32).any fun p => (s.part p).ctl.lmap.contains g
/-- Hamper granules of a tile that no partition holds and that are not withheld (R316). -/
def State.hamperFree (s : State) (t : Nat) : List Nat :=
  (List.range 32).filter fun k => !(s.tile t).withheld.contains k && !(List.range 32).any fun p => (s.part p).ctl.hgran.contains (32 * t + k)

/-- The granules on tile `t` that PRES_HAMPER asks for. -/
def PartCtl.grant (c : PartCtl) (t : Nat) : Nat := (tget 0 c.hamper t).toNat
/-- The sessions granted on CDC[u]. -/
def PartCtl.cdcOn (c : PartCtl) (u : Nat) : Nat := bitsOf c.cdcGrant.toNat (8 * u) 7

/-- The regulator `r` of a partition. -/
def Meters.reg (m : Meters) (r : Nat) : Regulator := tget {} m.regs r
/-- Whether regulator settings are in range (R311). -/
def regOk (r weight period cap : Nat) : Bool :=
  decide (1 ≤ weight) && decide (weight ≤ 255) && decide (256 ≤ period) && decide (period ≤ 1048575) && (cap == 0 || decide (2 ≤ r) || decide (4 ≤ cap))

/-- Check 7 or 8 of Table 9.3 for a quota of `n` GiB of H or L: 0 where it passes. -/
def State.quotaCheck (s : State) (p : Nat) (hbm : Bool) (n : Nat) : Nat :=
  let c := (s.part p).ctl
  if hbm then
    if n = 0 ∨ 255 < n ∨ gib * n < c.objBytes ∨ s.hbmFree.length < n - c.hmap.length then 7 else 0
  else if 512 < n ∨ s.lpddrFree.length < n - c.lmap.length then 8 else 0

/-- A sum over the other partitions that hold their resources. -/
def State.sumOthers (s : State) (p : Nat) (f : PartCtl → Nat) : Nat :=
  (((List.range 32).filter fun q => q != p && s.live q).map fun q => f (s.part q).ctl).foldl (· + ·) 0

/-- The first position of PART_QUADMAP that breaks check 1 (Table 9.3). -/
def State.quadMapBad (s : State) (c : PartCtl) : Option Nat :=
  (List.range 80).find? fun k =>
    let q := c.quadAt k
    if k < c.quads.toNat then decide (s.fuse.grade.quads ≤ q) || (List.range k).any (fun j => c.quadAt j == q) else q != 0xFF

/-- The first quad of PART_QUADMAP that breaks check 2. -/
def State.quadBusy (s : State) (p : Nat) (c : PartCtl) : Option Nat :=
  (List.range c.quads.toNat).find? fun k =>
    let q := c.quadAt k
    (s.quadOwner q).any (· != p) || (s.quad q).state == .offline || (s.quad q).withheld

/-- COMMIT's checks in the order of Table 9.3 (R307): code and first offending index; code 0: all pass. -/
def State.commitCheck (s : State) (p : Nat) : Nat × Nat :=
  let x := s.part p
  let c := x.ctl
  let n := c.quads.toNat
  if n = 0 ∨ 80 < n then (1, 0) else
  match s.quadMapBad c with
  | some k => (1, k)
  | none =>
  match s.quadBusy p c with
  | some k => (2, k)
  | none =>
  match (List.range 20).find? fun t => decide (32 < c.grant t) || decide ((s.hamperFree t).length < c.grant t) with
  | some t => (3, t)
  | none =>
  match (List.range 20).find? fun t => c.grant t != 0 with
  | none => (4, 0)
  | some t =>
  if hamperGranule * c.grant t < c.tableBytes then (4, t)
  else if decide (65536 < c.seqCap.toNat) || decide (16384 < c.streamCap.toNat) || decide (c.objCap.toNat < 1024)
      || decide (1048576 < c.objCap.toNat) || decide (c.listCap.toNat < 1) || decide (256 < c.listCap.toNat)
      || decide (262144 < c.seqCap.toNat + s.sumOthers p fun d => d.seqCap.toNat) then (5, 0)
  else if 939524096 < 524288 * (c.listCap.toNat + s.sumOthers p fun d => d.listCap.toNat) then (6, 0)
  else if s.quotaCheck p true c.hbmGib.toNat ≠ 0 then (7, 0)
  else if s.quotaCheck p false c.lpddrGib.toNat ≠ 0 then (8, 0)
  else
  match (List.range 4).find? fun u => decide (64 < c.cdcOn u + s.sumOthers p (·.cdcOn u)) || decide (64 < c.cdcOn u)
      || (c.cdcOn u != 0 && decide (s.fuse.grade.codecs ≤ u)) with
  | some u => (9, u)
  | none =>
  match (List.range (3 + s.fuse.grade.ports)).find? fun r =>
      let g := x.mtr.reg r
      !regOk r g.weight.toNat g.period.toNat g.cap.toNat with
  | some r => (10, r)
  | none => if x.mtr.meshWeight = 0 then (10, 5) else (0, 0)

/-- What a tenant sees of its partition as COMMIT leaves it (Table 9.6 step 6, Table 11.4 step 7). -/
def Part.fresh (x : Part) : Part :=
  { x with
    cmd := {}, ltn := {}, seq := { prefixKey := x.seq.prefixKey }, str := {}, obj := {}, cdc := {}
    net := { x.net with binds := [], bindSel := 0, sel := 0, ctrs := [], recvs := [], txHeld := [] }, evt := {}
    vf := { x.vf with aprWin := [], aprRange := 0, atc := [], aprHeld := [], later := [], reads := [] }, wdg := { x.wdg with stalled := false, ticks := 0 }, hdr := [] }

/-- A new key: its number (R265). -/
def State.newKey (s : State) : Nat × State := (s.mem.keys + 1, s.modMem fun m => { m with keys := m.keys + 1 })

/-- A half after a reset of its quad. -/
def Half.idle (h : Half) : Half := { h with stationary := none, armed := none }

/-- The clusters of a partition without commands, armed halves and stationary blocks. -/
def State.resetClusters (s : State) (p : Nat) : State :=
  ((s.quadsOf p).flatMap s.quadClusters).foldl (fun s k =>
    s.modCluster k fun c => { c with buffer := [], l := c.l.idle, r := c.r.idle }) s

/-- The codec engines without commands of partition `p`. -/
def State.resetEngines (s : State) (p : Nat) : State :=
  (List.range 4).foldl (fun s u =>
    let own (e : Option (PartId × Nat)) : Option (PartId × Nat) := e.filter fun x => x.1.val != p
    s.modEng u fun e => { e with running := own e.running, suspended := own e.suspended }) s

/-- The lowest-numbered free granules taken until the quotas are met (R305). -/
def State.growQuota (s : State) (p : Nat) : State :=
  let c := (s.part p).ctl
  s.modCtl p fun y => { y with
    hmap := c.hmap ++ s.hbmFree.take (c.hbmGib.toNat - c.hmap.length)
    lmap := c.lmap ++ s.lpddrFree.take (c.lpddrGib.toNat - c.lmap.length) }

/-- COMMIT's claims (Table 9.2, R265, R303 to R305, R317, R446); the Hamper granules are the lowest free ones of each tile. -/
def State.commitClaim (s : State) (p : Nat) : State :=
  let hg := (List.range 20).flatMap fun t => ((s.hamperFree t).take ((s.part p).ctl.grant t)).map (32 * t + ·)
  let s := (s.modCtl p fun c => { c with hgran := hg, cfgFail := 0, cfgGen := c.cfgGen + 1 }).growQuota p
  let (k, s) := s.newKey
  let (j, s) := s.newKey
  let s := s.modPart p fun x =>
    { x with ctl := { x.ctl with key := k }, seq := { x.seq with prefixKey := j, givenKey := none }, cmd := { x.cmd with tokens := [] }, mtr := { x.mtr with counters := [] } }
  ((s.quadsOf p).foldl (fun s q => s.powerQuad q true) s).resetClusters p

/-- The value a counter capture takes (R318). -/
def State.capture (s : State) (p : Nat) (final : Bool) : State :=
  let (q, s) := s.newFault
  s.modMtr p fun m => { m with snap :=
    { busy := !final, final := final, state := BitVec.ofNat 3 (s.part p).ctl.state.code, seq := q, vals := (List.range 10).map (s.meter p) } }

/-- The bytes of a range of a memory zeroed and the poison of its lines cleared (R316, R374). -/
def State.zeroRange (s : State) (sp : Space) (a n : Nat) : State :=
  s.modMem fun m =>
    let m := m.setCells sp ((m.cells sp).filter fun e => decide (e.1 < a ∨ a + n ≤ e.1))
    { m with poison := m.poison.filter fun x => !(x.space == sp && decide (a / 64 ≤ x.line) && decide (x.line < (a + n) / 64)) }

/-- The SRAM of every cluster and the Hamper share of a partition zeroed (Table 9.6 steps 4 and 5). -/
def State.zeroShare (s : State) (p : Nat) : State :=
  let s := ((s.quadsOf p).flatMap s.quadClusters).foldl (fun s k => s.zeroRange .sram (sramBytes * k) sramBytes) s
  (s.part p).ctl.hgran.foldl (fun s g => s.zeroRange .hamper (hamperGranule * g) hamperGranule) s

/-- The lines of a 1 GiB slice. -/
def sliceLines : Nat := 16777216
/-- The address in device LPDDR of a line of the exposed range (R367). -/
def State.hdmAddr (s : State) (line : Nat) : Nat := gib * (512 - s.hst.hdmGib.toNat) + 64 * line
/-- The partition of a line's slice; 0xFF: none. -/
def State.hdmOwner (s : State) (line : Nat) : Nat := (tget (0xFF#8) s.hst.attr (line / sliceLines)).toNat
/-- The key that a line of the exposed range is under (R370). -/
def State.hdmKey (s : State) (line : Nat) : Nat :=
  if s.hdmOwner line < 32 then (s.part (s.hdmOwner line)).ctl.key else s.mem.hostKey
/-- Whether the die of a line of the exposed range has no traffic (R265). -/
def State.hdmDead (s : State) (line : Nat) : Bool := (s.die (dieOf (256 + lpddrChannel (s.hdmAddr line)))).cryptoFailed
/-- An access of the host to a line, counted: for the partition of its slice, and at its channel (R368). -/
def State.hdmCount (s : State) (line : Nat) : State :=
  let a := s.hdmAddr line
  if s.hdmOwner line < 32 then s.countLine (s.hdmOwner line) .lpddr a
  else s.modChan (256 + lpddrChannel a) fun c => { c with bytes := wrapAdd c.bytes 64 }
/-- Bytes that the host writes into a line, from byte `off` on (R368, R371). -/
def State.hdmWrite (s : State) (line off : Nat) (bs : List Byte) : State :=
  (s.hdmCount line).modMem fun m => (m.writeLine (s.hdmKey line) .lpddr (s.hdmAddr line + off) bs).1
/-- A tracked line back-invalidated (R370): where the host holds it modified, which is open, its data come back under the line's present key. -/
def State.lineBack (s : State) (line : Nat) : State :=
  let u := s.free
  let s := s.useFree.emit (.bisnpInv line)
  if Config.freeBool u 0 && !s.hdmDead line then s.hdmWrite line 0 ((List.range 64).map (Config.freeByte u)) else s

/-- The snoop filter's entries of HDM slice `k` back-invalidated (R369, R370). -/
def State.invalidateSlice (s : State) (k : Nat) : State :=
  let mine := s.hst.snoop.filter (· / sliceLines == k)
  let s := mine.foldl (fun s l => s.lineBack l) s
  s.modHst fun h => { h with snoop := h.snoop.filter (· / sliceLines != k), bisnp := wrapAdd h.bisnp mine.length }

/-- The HDM slices attributed to a partition attributed to none (R370). -/
def State.releaseSlices (s : State) (p : Nat) : State :=
  let mine := ((List.range 512).filter fun k => (tget (0xFF#8) s.hst.attr k).toNat == p)
  let s := mine.foldl (fun s k => s.invalidateSlice k) s
  s.modHst fun h => { h with attr := mine.foldl (fun t k => tset t k (0xFF#8)) h.attr }

/-- The key of a partition erased in every die (Table 9.6 step 3). -/
def State.eraseKey (s : State) (p : Nat) : State :=
  if (s.part p).ctl.key = 0 then s else
  (List.range 4).foldl (fun s d => s.modDie d fun x => { x with destroyed := x.destroyed + 1 }) (s.modCtl p fun c => { c with key := 0 })

/-- TEARDOWN as far as its scrubs (Table 9.2, Table 9.6 steps 1 to 3, R348, R370). -/
def State.beginTeardown (s : State) (p : Nat) : State :=
  let s := if (s.part p).vf.tdi = .unlocked then s else s.modVf p fun v => { v with tdi := .error }
  let s := (s.partChange p .teardown).capture p true
  let s := ((s.resetClusters p).resetEngines p).modPart p fun x => { x with cdc := {}, cmd := { x.cmd with cmds := [], queues := [], calls := [] } }
  let s := (s.modNet p fun n => { n with
    vports := (List.range 64).map fun v => (v, { mtu := 0 }), binds := [], recvs := [], txHeld := [] }).releaseSlices p
  let s := s.modMir p fun m => if m.enable ∧ ¬ m.standby then { m with
    enable := false, state := .none, dirty := [], sent := [], heldSteps := [] } else m
  (s.eraseKey p).modCtl p fun c => { c with tdStep := 4, restart := false }

/-- A PART_CTRL command carried out (R306, R307, R350, R411, R462); journaled as PART_CMD where it is accepted. -/
def State.partDo (s : State) (p cmd : Nat) (who : Writer) : RegW :=
  let x := s.part p
  let bad : RegW := RegW.no s Cause.partState (some (p, 0))
  let said : State := s.note { action := .partCmd, who := who, part := some p, detail := cmd }
  match cmd, x.ctl.state with
  | 1, .empty =>
    let s := said.modPart p fun x => { ({ x with
      ctl := { cfgGen := x.ctl.cfgGen }, mtr := {}, net := {} } : Part).fresh with mir := x.mir }
    let s := (List.range 6).foldl (fun s k => s.modPfHdr (partPage p k) fun h => { lock := h.lock }) s
    { s := s.partChange p .configuring }
  | 2, .configuring =>
    if s.sec.debug then RegW.no s Cause.debugActive else
    let (code, i) := s.commitCheck p
    if code ≠ 0 then RegW.no (s.modCtl p fun c => { c with cfgFail := BitVec.ofNat 32 (code + 65536 * i) }) Cause.partConfig
    else { s := (said.commitClaim p).partStopped p }
  | 3, .configuring => { s := said.partChange p .empty }
  | 4, .stopped =>
    if s.testRuns p then RegW.no s Cause.partBusy (some (p, 3))
    else if x.mir.state = .standbyEmpty ∨ x.mir.state = .standby then RegW.no s Cause.pairStandby
    else
      let s := (said.partChange p .running).progress p
      { s := (List.range 16).foldl (fun s n =>
          let r := s.ring p n
          if !r.started then s
          else if r.overrun then s.ringError p n Cause.ringOverrun 0 0
          else s.modRing p n fun r => { r with state := if r.avail = 0 then .idle else if r.state = .idle then .fetching else r.state }) s }
  | 5, .running => { s := (said.modCtl p fun c => { c with drainTimeout := false, forced := false }).partChange p .draining }
  | 6, .draining =>
    { s := ((List.range 16).filter fun c => (x.cmd.ctxs.any fun e => e.1 == c && e.2.enable)).foldl
        (fun s c => (s.snuffContext p c true).1) (said.modCtl p fun c => { c with forced := true }) }
  | 7, .stopped => { s := said.beginTeardown p }
  | 7, .draining => if x.ctl.drainTimeout then { s := said.beginTeardown p } else bad
  | _, _ => bad

/-- A write of PART_CTRL (R306, R375, R462): while an FLR of the VF is in progress the command waits, and a TEARDOWN waits for a
running self-test. -/
def State.partCtrl (s : State) (p cmd : Nat) (who : Writer) : RegW :=
  let s := s.modCtl p fun c => { c with restart := false }
  let x := s.part p
  if x.vf.flr != 0 || (cmd == 7 && s.testRuns p && (x.ctl.state == .stopped || (x.ctl.state == .draining && x.ctl.drainTimeout))) then
    { s := s.modVf p fun v => { v with heldCmds := v.heldCmds ++ [(cmd, who.cred)] } }
  else s.partDo p cmd who

/-- A rejected write flagged and journaled (R493, R494); `off` is its PF BAR0 offset. -/
def RegW.reject (w : RegW) (off : Nat) (who : Writer) (part : Option Nat) (value : W64) (old : W64 := 0) : State :=
  let bit := if w.cause = Cause.rwsRunning ∨ w.cause = Cause.partFixed then errRws else if w.cause = Cause.ownerDenied then errOwner else errParam
  let s := match w.pctl with
    | some (p, b) => w.s.modPfHdr (partPage p 0) fun h => h.setBits (2 ^ b)
    | none => w.s
  s.rejectPf off bit w.cause who part value old

/-- The PART_CTRL commands that waited, carried out in their order (R375). -/
def State.runHeld (s : State) (p : Nat) : State :=
  (s.part p).vf.heldCmds.foldl (fun s e =>
    let who : Writer := ⟨2, e.2⟩
    let w := if s.journalOk then s.partDo p e.1 who else RegW.no s.journalFails Cause.journalFail
    if w.cause = 0 then w.s else w.reject (4096 * partPage p 0 + 0x040) who (some p) (BitVec.ofNat 64 e.1))
    (s.modVf p fun v => { v with heldCmds := [] })

/-- Whether a drain is complete (R308). -/
def State.drained (s : State) (p : Nat) : Bool :=
  (s.part p).str.swaps.isEmpty && !(s.part p).cmd.cmds.any fun c =>
    c.phase == .started || (c.phase == .ended && (c.reserved || c.parent.isSome || c.autoTok.isSome))

/-- DRAIN_COMPLETE (R308). -/
def State.drainComplete (s : State) (p : Nat) : State :=
  if (s.part p).ctl.state == .draining && (s.part p).vf.flr == 0 && s.drained p then s.partStopped p else s

/-- The drain of partition `p` is complete. -/
def execDrainComplete (p : PartId) (s : State) : Res := .next (s.drainComplete p.val)

/-- DRAIN_TIMEOUT (R306): raised once in a drain that is not complete. -/
def State.drainTimeout (s : State) (p : Nat) : State :=
  let c := (s.part p).ctl
  if c.state != .draining || c.drainTimeout || s.drained p then s else
  let s := (s.modCtl p fun c => { c with drainTimeout := true }).raiseBoth p Cause.drainTimeout (srcCore p)
  s.msixPf (32 + p)

/-- PART_DRAIN_LIMIT ticks have passed without a drain of partition `p`. -/
def execDrainTimeout (p : PartId) (s : State) : Res := .next (s.drainTimeout p.val)

/-- A quad whose lines fail the verify of a teardown (R316): withheld, with an event on the PF ring. -/
def State.quadFault (s : State) (p q : Nat) : State :=
  let (t, j) := s.qloc q
  ((s.modQuad q fun x => { x with withheld := true }).modPfHdr (partPage p 0) fun h => h.setBits 64).raisePf
    Cause.teardownFault ⟨0x05, 4 * t + j⟩ none (leBytes 2 q)

/-- A Hamper granule whose lines fail the verify of a teardown (R316). -/
def State.granuleFault (s : State) (p t k : Nat) : State :=
  ((s.modTile t fun x => { x with withheld := addTo x.withheld k }).modPfHdr (partPage p 0) fun h => h.setBits 64).raisePf
    Cause.teardownFault ⟨0x03, t⟩

/-- What fails the verify of a partition's scrubs: of its quads and Hamper granules, those named (R316). -/
def State.verifyFails (s : State) (p : Nat) (badQuads : List Nat) (badGranules : List (Nat × Nat)) : State :=
  let hg := (s.part p).ctl.hgran
  let s := (badQuads.eraseDups.filter (s.quadsOf p).contains).foldl (fun s q => s.quadFault p q) s
  (badGranules.eraseDups.filter fun g => decide (g.2 < 32) && hg.contains (32 * g.1 + g.2)).foldl (fun s g => s.granuleFault p g.1 g.2) s

/-- TEARDOWN_COMPLETE (Table 9.6 steps 4 to 7, R306, R316): the PART_STATE_CHANGE of step 7 still goes to the partition's event ring in host memory, the ring
then standing as after reset; the final snapshot stays on the PMTR page. -/
def State.teardownComplete (s : State) (p : Nat) (badQuads : List Nat) (badGranules : List (Nat × Nat)) : State :=
  if (s.part p).ctl.state != .teardown || (s.part p).vf.flr != 0 then s else
  if !s.journalOk then s.journalFails else
  let qs := s.quadsOf p
  let s := (s.zeroShare p).verifyFails p badQuads badGranules
  let s := qs.foldl (fun s q => s.powerQuad q false) s
  let s := (s.note { action := .teardown, who := Writer.device, part := some p }).partChange p .empty
  (s.modPart p fun x => { x.fresh with
    ctl := { cfgGen := x.ctl.cfgGen }, mtr := { snap := x.mtr.snap }, seq := {} }).beginHeld qs

/-- The teardown of partition `p` has scrubbed its memories. -/
def execTeardownComplete (p : PartId) (badQuads : List Nat) (badGranules : List (Nat × Nat)) (s : State) : Res :=
  .next (s.teardownComplete p.val badQuads badGranules)

/-- A write of SNAP_CMD with go (R318). -/
def State.snapGo (s : State) (p : Nat) : RegW :=
  let x := s.part p
  if x.mtr.snap.busy then RegW.no s Cause.snapshotBusy (some (p, 4))
  else match x.ctl.state with
  | .stopped | .running | .draining => { s := s.capture p false }
  | _ => RegW.no s Cause.partState (some (p, 0))

/-- What a tick of the block's clocks does where no command waits: snapshots in progress complete (R318). -/
def State.tick (s : State) : State :=
  { s with parts := s.parts.map fun e => (e.1, { e.2 with mtr := { e.2.mtr with snap := { e.2.mtr.snap with busy := false } } }) }

/-- What `left` credits of a bucket of `size` let go of the transfers that wait, in their order: credits, transfers, and what waits on. The
first of them may take more than a full bucket holds (log entry 23). -/
def drainQueue (size : Nat) : Nat → List (Nat × Nat) → Nat × Nat × List (Nat × Nat)
  | _, [] => (0, 0, [])
  | left, (c, k) :: t =>
    let m := if c = 0 then k else if left = size ∧ size < c then 1 else min k (left / c)
    if m = k then
      let r := drainQueue size (left - c * m) t
      (c * m + r.1, m + r.2.1, r.2.2)
    else (c * m, m, (c, k - m) :: t)

/-- What a refill lets go at a bucket; an uncapped regulator lets everything go. -/
def Regulator.drained (g : Regulator) (r b : Nat) : Nat × Nat × List (Nat × Nat) :=
  let q := nth [] g.queue b
  if g.cap = 0 then ((q.map fun x => x.1 * x.2).foldl (· + ·) 0, (q.map (·.2)).foldl (· + ·) 0, [])
  else drainQueue (bucketSize r g.cap.toNat) (bucketSize r g.cap.toNat) q

/-- A bucket at its period boundary (R312): full, less what the waiting transfers take of it. The buckets of a regulator share their period:
REG_HELD counts it once, at the first bucket in which traffic waited. -/
def Regulator.refill (g : Regulator) (r b : Nat) : Regulator :=
  let d := g.drained r b
  let again := nth false g.seen b
  let before := !again && g.counted
  let waited := nth false g.waited b
  { g with
    bucket := setNth g.bucket b fun _ => max 0 ((bucketSize r g.cap.toNat : Int) - (d.1 : Int))
    last := setNth g.last b fun _ => nth 0 g.taken b
    taken := setNth g.taken b fun _ => d.1
    held := if waited && !before then satAdd g.held 1 else g.held
    waited := setNth g.waited b fun _ => !d.2.2.isEmpty
    queue := setNth g.queue b fun _ => d.2.2
    given := setNth g.given b (· + d.1)
    seen := setNth (if again then [false, false, false, false] else g.seen) b fun _ => true
    counted := before || waited }

/-- REGULATOR_REFILL (R311, R312): a period boundary of a bucket; the transfers that it lets go are metered, and frames leave. -/
def State.regulatorRefill (s : State) (p r b : Nat) : State :=
  if !s.live p || (2 ≤ r && b ≠ 0) || 3 + s.fuse.grade.ports ≤ r then s else
  let d := (s.regulator p r).drained r b
  let s := (s.modReg p r (·.refill r b)).meterCredits p r d.1
  if r < 3 then s.flushPart p 64 else s.sendHeld p (r - 3) d.2.1

end Sys2Proof.Machine
end

