-- ==== Sys2Proof/Machine/Sessions.lean ====
section
/-!
DEFINITION. SPDM sessions (R327 to R329, R345, R349, R495): who holds one, and what its end takes with it.
-/

namespace Sys2Proof.Machine

/-- The codes of the roles (Table 10.4). -/
def Role.code : Role → Nat
  | .maker => 0
  | .installer => 1
  | .operator => 2

/-- The session, or handshake, with number `sid`. -/
def State.session? (s : State) (sid : Nat) : Option SpdmSession := tget none s.sec.sessions sid
/-- The open session with number `sid`: FINISH has completed it. -/
def State.open? (s : State) (sid : Nat) : Option SpdmSession := (s.session? sid).filter (·.established)
/-- The sessions and handshakes that the device holds. -/
def State.sessionCount (s : State) : Nat := (s.sec.sessions.filter fun e => e.2.isSome).length

/-- The device's identity key, derived from its unique secret (R341). -/
def State.identityKey (s : State) : List Byte := Config.identityKey s.fuse.secret
/-- An ML-DSA-44 signature under the identity key (R341): 2,420 bytes that the model does not compute (log entry 13). -/
def State.signature (s : State) (u : Nat) : List Byte := (List.range 2420).map (Config.signed s.identityKey u)

/-- Who a session writes as. -/
def SpdmSession.writer (x : SpdmSession) : Writer := ⟨x.role.code, x.cred⟩

/-- A page's LOCK released where session `sid` holds it (R495). -/
def PageHdr.unlock (h : PageHdr) (sid : Nat) : PageHdr := { h with lock := h.lock.filter fun l => l.1 != sid }

/-- Session `sid` ends (R329): its locks are released (R495), and an image it was staging stays invalid (R345). -/
def State.endSession (s : State) (sid : Nat) : State :=
  let s := s.modSec fun x => { x with sessions := tset x.sessions sid none, staging := x.staging.filter fun g => g.1 != sid }
  { s with hdr := s.hdr.map fun e => (e.1, e.2.unlock sid) }

/-- The sessions that `f` names end. -/
def State.endSessions (s : State) (f : SpdmSession → Bool) : State :=
  (s.sec.sessions.filterMap fun e => if e.2.any f then some e.1 else none).foldl (fun s i => s.endSession i) s

end Sys2Proof.Machine
end

