-- ==== Sys2Proof/Machine/Power.lean ====
section
/-!
DEFINITION. Power, thermal limits, start-up, resets, self-tests, calibration (chapter 15, R430, R434, R337, R344).
-/

namespace Sys2Proof.Machine

/-- The block of the power page (R472). -/
def srcPower : Src := ⟨0x11, 0⟩

/-- Whether the management core has power (Table 15.4). -/
def State.powered (s : State) : Bool :=
  match s.pwr.stage with
  | .boot | .fwStart | .ready | .recovery => true
  | _ => false

/-- Everything that a loss of power, or a module reset, leaves: flash and fuses, the pins, the host's memory, and the model's own
counters (R445, R456, R461). -/
def State.blank (s : State) : State :=
  { pending := s.pending, free := s.free, nextId := s.nextId, out := s.out, fuse := s.fuse, flash := s.flash, pins := s.pins
    mem := { host := s.mem.host, keys := s.mem.keys }
    pwr := { stage := .off, domains := [] } }

/-- The module without power: PWR_GOOD low (R430, R434). -/
def State.powerOff (s : State) : State := { s.blank with pins := { s.pins with pwrGood := false } }

/-- Domain 100 and the flash powered (Table 15.4). -/
def State.powerUp (s : State) : State :=
  if s.pwr.stage = .off ∧ s.pins.pwrEn ∧ s.pins.j1Ok then s.modPwr fun w => { w with stage := .powering, domains := ({} : Power).domains } else s

/-- PWR_EN_RISE (R456). -/
def State.pwrEnRise (s : State) (j1 : Bool) : State :=
  if s.pins.pwrEn then s else { s with pins := { s.pins with pwrEn := true, j1Ok := j1 } }.powerUp

/-- PWR_EN rises; `j1`: J1 is in its window. -/
def execPwrEnRise (j1 : Bool) (s : State) : Res := .next (s.pwrEnRise j1)

/-- The credential store written to both flash devices and sealed (R322). -/
def Flash.setCreds (f : Flash) (t : Tbl (List Byte)) : Flash := { f with creds := t, credsB := t, credSeal := t }
/-- Whether a copy of the credential store passes its MAC (R322, R323). -/
def Flash.storeGood (f : Flash) : Bool := f.creds == f.credSeal || f.credsB == f.credSeal

/-- The module's Hot-Join request (R439): sent once the sideband is ready, while the module has no dynamic address. -/
def State.hotJoin (s : State) : State :=
  if s.flash.hotJoin && s.pins.pwrGood && s.pins.resetN && s.mgmt.hjEn && !s.mgmt.dynValid && !s.mgmt.hjPending then
    (s.modMgmt fun m => { m with hjPending := true }).emit .hotJoin else s

/-- The host link begins to train where its signals let it (R424, R425, R460). -/
def State.linkStarts (s : State) : State :=
  if s.pins.pwrGood && s.pins.perstN && s.pins.resetN && s.hst.link == .down then s.modHst fun h => { h with link := .training } else s

/-- After an FW_STAGE in recovery, a power cycle starts the staged image (R442): as an FW_ACTIVATE does (log entry 98). -/
def Flash.staged (f : Flash) : Flash := if f.stagedNext then { f with activeB := !f.activeB, stagedNext := false } else f

/-- POWER_GOOD (R456): straps sampled, the credential store checked (R323); `storeOk`: a flash device gave back a copy as it was written. -/
def State.powerGood (s : State) (straps : BitVec 9) (storeOk : Bool) : State :=
  if s.pwr.stage ≠ .powering then s else
  let s := ({ s with pins := { s.pins with pwrGood := true, straps := straps } }.modPwr fun w => { w with stage := .boot, resetKind := 0 }).modSec fun x =>
    { x with lockedOut := !(storeOk && s.flash.storeGood) }
  ((s.modMgmt fun m => { m with pid := some s.flash.pidLo }).modFlash Flash.staged).hotJoin.linkStarts

/-- Domain 100 and flash are stable. -/
def execPowerGood (straps : BitVec 9) (storeOk : Bool) (s : State) : Res := .next (s.powerGood straps storeOk)

/-- PWR_EN_FALL (R456): the module is off; THERM_N is released. -/
def State.pwrEnFall (s : State) : State :=
  if s.pins.pwrEn then { s with pins := { s.pins with pwrEn := false } }.powerOff else s

/-- PWR_EN falls. -/
def execPwrEnFall (s : State) : Res := .next s.pwrEnFall

/-- J1 leaves its window (R430): PWR_GOOD falls whatever PWR_EN says. After a thermal shutdown the module stays where it is. -/
def State.j1Exit (s : State) : State :=
  let s := { s with pins := { s.pins with j1Ok := false } }
  if s.pwr.stage = .off ∨ s.pwr.stage = .shutdown then s else s.powerOff

/-- J1 leaves its window. -/
def execJ1WindowExit (s : State) : Res := .next s.j1Exit

/-- J1 is back in its window: with PWR_EN high the module starts as if PWR_EN had just risen (R430). -/
def State.j1Back (s : State) : State := { s with pins := { s.pins with j1Ok := true } }.powerUp

/-- J1 returns inside its window. -/
def execJ1BackInWindow (s : State) : Res := .next s.j1Back

/-- What a module reset leaves of the power page: the input stage's state and the conditions of Table 15.3, which last until they clear
(R434, R454, R461), and the domains in FAULT, which a cold reset ends (R468). -/
def Power.afterReset (w : Power) : Power :=
  let x : Power := {
    stage := .boot, resetKind := 1, inputLow := w.inputLow, critical := w.critical, throttle := w.throttle, hbmWarm := w.hbmWarm
    coolantFlow := w.coolantFlow, coolantHigh := w.coolantHigh, coolantLow := w.coolantLow
    domains := (w.domains.filter (·.2.state == .fault)).foldl (fun t e => tset t e.1 e.2) ({} : Power).domains }
  if w.critical then { x with vcore := 600, duty := 16, vhub := 650 } else x

/-- A module reset (R461): what it keeps is PWR_GOOD, the straps, the dynamic address and the endpoint id, the debug state and the
trust state that the credential store gave, and what R434 has last. -/
def State.moduleReset (s : State) : State :=
  { s.blank with
    pwr := s.pwr.afterReset
    mgmt := { dynValid := s.mgmt.dynValid, dynAddr := s.mgmt.dynAddr, eid := s.mgmt.eid, pid := s.mgmt.pid }
    sec := { debug := s.sec.debug, lockedOut := s.sec.lockedOut } }

/-- RESET_N (R434, R461): ignored while PWR_GOOD is low. -/
def State.resetLow (s : State) : State :=
  let s := { s with pins := { s.pins with resetN := false } }
  if s.pins.pwrGood then s.moduleReset else s

/-- RESET_N has been low for 10 µs. -/
def execResetN (s : State) : Res := .next s.resetLow

/-- RESET_N rises: the module reset ends, and the sideband and the host port are ready again (R439, R460). -/
def State.resetRise (s : State) : State := { s with pins := { s.pins with resetN := true } }.hotJoin.linkStarts

/-- RESET_N rises. -/
def execResetNRise (s : State) : Res := .next s.resetRise

/-- PERST_N rises (R424, R460). -/
def execPerstNRise (s : State) : Res := .next { s with pins := { s.pins with perstN := true } }.linkStarts

/-- What a firmware reset leaves of a partition that is EMPTY: its configuration generation, its VF's configuration space, its mirror binding. -/
def Part.bare (x : Part) : Part :=
  let v := x.vf
  { ({} : Part) with
    ctl := { cfgGen := x.ctl.cfgGen }
    vf := {
      enabled := v.enabled, tdi := v.tdi, aer := v.aer, msixOn := v.msixOn, msixMask := v.msixMask, msix := v.msix, msixPend := v.msixPend }
    mir := x.mir }

/-- A firmware reset (R461): the management core, the control cores and the PF pages; no partition exists. -/
def State.firmwareReset (s : State) : State :=
  State.hotJoin { s with
    pwr := { s.pwr with stage := .boot, resetKind := 2 }
    mgmt := { dynValid := s.mgmt.dynValid, dynAddr := s.mgmt.dynAddr, eid := s.mgmt.eid, hjEn := s.mgmt.hjEn, ibiEn := s.mgmt.ibiEn, pid := s.mgmt.pid }
    sec := { debug := s.sec.debug, lockedOut := s.sec.lockedOut }
    ev := {
      seq := s.ev.seq, aer := s.ev.aer, ras := s.ev.ras, msixOn := s.ev.msixOn, msixMask := s.ev.msixMask, msix := s.ev.msix
      msixPend := s.ev.msixPend }
    hdr := []
    parts := s.parts.map fun e => (e.1, e.2.bare) }

/-- The two images of the flash: the one its boot record names active, and the other. -/
def Flash.active (f : Flash) : Image := if f.activeB then f.imageB else f.imageA
/-- The image that is not active. -/
def Flash.inactive (f : Flash) : Image := if f.activeB then f.imageA else f.imageB

/-- The cause with which the boot ROM rejects an image (R343, R344): its key's slot revoked, its signature or the digest of its body wrong, or
its SVN below the fused one; 0: it passes. -/
def State.imageCause (s : State) (i : Image) (c : ImageCheck) : W16 :=
  if c == .badSignature || !i.valid || (!i.slot1 && s.fuse.revoked) then Cause.fwSignature
  else if c == .rollback || decide (i.svn.toNat < s.flash.fusedSvn.toNat) then Cause.fwRollback else 0
/-- Whether an image passes R344. -/
def State.imageOk (s : State) (i : Image) (c : ImageCheck) : Bool := s.imageCause i c == 0

/-- The journal at a start: its two copies compared and one repaired (R337), and the event counter set past its newest entry (R458). -/
def State.journalStart (s : State) : State :=
  let s := s.modFlash Flash.repaired
  s.modEv fun e => { e with seq := (s.flash.journal.head?.map (·.seq)).getD 0 + 16777216#64 }

/-- The firmware starts an image (Table 15.5 step 6): FW_START is journaled, and a start from another image than the first raises FW_FALLBACK. -/
def State.fwStart (s : State) (img : Image) (fallback : Bool) : State :=
  let old := s.flash.running.digest
  let s := (s.modPwr fun w => { w with stage := .fwStart }).modFlash fun f => { f with running := img }
  let s := s.note { action := .fwStart, who := Writer.device, detail := img.svn.toNat, old := old, new := img.digest }
  if fallback then s.raisePf Cause.fwFallback ⟨0x12, 0⟩ else s

/-- An image that the boot ROM rejects: the journal entry of the refusal (R335, R353; log entry 98). -/
def State.rejects (s : State) (i : Image) (cause : W16) : State :=
  s.note { action := .refused, who := Writer.device, cause := cause, detail := i.svn.toNat, new := i.digest }

/-- The device goes into RECOVERY: it serves sessions of the maker and installer only (R442). -/
def State.recovers (s : State) : State := (s.modPwr fun w => { w with stage := .recovery }).endSessions fun x => x.role == .operator

/-- The boot ROM's choice (R344, R456) among the images in the order in which it tries them, with what its check of each finds; its Hot-Join
request is sent by then (Table 15.5 step 4). Every start of a locked-out device, one that ends in RECOVERY too, raises CRED_STORE_BAD (R323). -/
def State.boots (s : State) (l : List (Image × ImageCheck)) : State :=
  let s := s.hotJoin.journalStart
  let bad := l.takeWhile fun e => !s.imageOk e.1 e.2
  let t := bad.foldl (fun t e => t.rejects e.1 (s.imageCause e.1 e.2)) s
  let t := match l.drop bad.length with
    | [] => t.recovers
    | e :: _ => t.fwStart e.1 (!bad.isEmpty)
  if t.sec.lockedOut then t.raisePf Cause.credStoreBad ⟨0x12, 0⟩ else t

/-- IMAGE_VERIFIED (R344): boot from module flash. -/
def State.imageVerified (s : State) (a o : ImageCheck) : State :=
  if s.pwr.stage ≠ .boot ∨ !bitOf s.pins.straps.toNat 8 ∨ !s.pins.resetN then s else
  s.boots [(s.flash.active, a), (s.flash.inactive, o)]

/-- The boot ROM has verified the images in flash. -/
def execImageVerified (active other : ImageCheck) (s : State) : Res := .next (s.imageVerified active other)

/-- HOST_PUSH_IMAGE (R344, R353): boot by host push; its cause, 0 where the pushed image passes, is the response. The check of the pushed image
covers its key. -/
def State.hostPush (s : State) (svn : BitVec 6) (digest : BitVec 256) (check flash other : ImageCheck) : State :=
  if s.pwr.stage ≠ .boot ∨ bitOf s.pins.straps.toNat 8 ∨ !s.pins.resetN then s else
  let i : Image := { valid := true, svn := svn, digest := digest, slot1 := true }
  ((s.boots [(i, check), (s.flash.active, flash), (s.flash.inactive, other)]).answer { cause := s.imageCause i check }).msixPf 1

/-- The host has pushed an image over the PF DOE mailbox; `flash` and `other`: what the checks of the active and the inactive flash image find. -/
def execHostPushImage (svn : BitVec 6) (digest : BitVec 256) (check : ImageCheck) (flash : ImageCheck) (s : State) (other : ImageCheck := flash) : Res :=
  .next (s.hostPush svn digest check flash other)

/-- Whether the halves of a test's result include one of cluster `k`, on a side. -/
def halfBad (bad : List (Nat × HalfSel)) (k : Nat) (left : Bool) : Bool :=
  bad.any fun e => e.1 == k && (if left then hasLeft e.2 else hasRight e.2)

/-- What the test of a quad finds: where a converter fault has struck its domain, no half has its supply, so every half fails (R468, R470). -/
def State.testFinds (s : State) (q : Nat) (bad : List (Nat × HalfSel)) : List (Nat × HalfSel) :=
  if (tget {} s.pwr.domains q).state = .fault then (s.quadClusters q).map fun k => (k, HalfSel.full) else bad

/-- The test of a quad's clusters ends: the halves that fail are OFFLINE, with HALF_OFFLINE where they were not before (R95, R99, R100, R459);
in a quad that passes the OFFLINE ones are IDLE again; no half holds a stationary block (R463, R464). -/
def State.testClusters (s : State) (q : Nat) (bad : List (Nat × HalfSel)) : State :=
  let pass := (s.quadClusters q).all fun k => !halfBad bad k true && !halfBad bad k false
  let f (b : Bool) (h : Half) : Half :=
    { h with stationary := none, state := if b then .offline else if h.state = .selfCheck ∨ h.state = .offline ∧ pass then .idle else h.state }
  (s.quadClusters q).foldl (fun s k =>
    let c := s.cluster k
    let l := halfBad bad k true
    let r := halfBad bad k false
    (s.modCluster k fun c => { c with l := f l c.l, r := f r c.r }).wentOffline k (l && c.l.state != .offline) (r && c.r.state != .offline)) s

/-- The last failing cluster of a quad. -/
def State.lastBad (s : State) (q : Nat) (bad : List (Nat × HalfSel)) : Option Nat :=
  ((s.quadClusters q).filter fun k => halfBad bad k true || halfBad bad k false).getLast?

/-- What a quad's test leaves in its entry. -/
def Quad.tested (x : Quad) (bad : Option Nat) (ok : QuadState) : Quad :=
  match bad with
  | none => { x with state := ok, result := 1 }
  | some k => { x with state := .offline, result := 2, failCluster := BitVec.ofNat 10 k }

/-- The domains that start-up powers beside domain 100 (Table 15.5 step 7, R445). -/
def State.startDomains (s : State) : List Nat :=
  (List.range 20).map (80 + ·) ++ ((List.range 15).map (101 + ·)).filter fun d => !(d == 103 && s.fuse.grade == .se720a)

/-- Those domains powered, but `bad`. -/
def State.powerDomains (s : State) (bad : Option Nat) : State :=
  (s.startDomains.filter fun d => bad != some d).foldl (fun s d => s.setDomain d .on) s

/-- The memory dies after their encryption self-test; a host key is drawn where the dies hold none (R265). -/
def State.testDies (s : State) (bad : Option Nat) : State :=
  let s := if s.mem.hostKey = 0 then (s.newKey.2).modMem fun m => { m with hostKey := m.keys } else s
  (List.range 4).foldl (fun s d => s.modDie d fun x =>
    if bad = some d then { x with selftestFail := true, selftestPass := false, cryptoFailed := true } else { x with selftestPass := true, hostKey := true }) s

/-- Every channel trained to READY, but `bad`. -/
def State.trainAll (s : State) (bad : Option Nat) : State :=
  s.modMem fun m => { m with chans := (List.range 320).map fun k =>
    let c := tget (Chan.reset k) m.chans k
    (k, if bad = some k then { c with state := .failed, failSeq := s.ev.seq } else { c with state := .ready }) }

/-- A start-up that fails (Table 15.4): RECOVERY, with STARTUP_FAIL; `first`: the cause that its own is a consequence of. -/
def State.startFails (s : State) (src : Src) (detail : Nat) (first : Option (W16 × Src)) : State :=
  let (q, s) := s.newFault
  let s := match first with
    | some (c, b) => s.link q c b none
    | none => s
  ((s.link q Cause.startupFail src none).recPf q Cause.startupFail 3 src none 0 (leBytes 2 detail)).recovers

/-- The start-up tests of the quads (R459, Table 15.5 step 9), those whose result a firmware reset kept apart; each is OFF afterwards. -/
def State.testQuads (s : State) (bad : List (Nat × HalfSel)) : State :=
  ((List.range s.fuse.grade.quads).filter fun q => (s.quad q).result == 0).foldl (fun s q =>
    let bad := s.testFinds q bad
    (s.testClusters q bad).modQuad q fun x => x.tested (s.lastBad q bad) .off) s

/-- STARTUP (Table 15.5 steps 7 to 10); a pair link that is fitted trains (R398). -/
def State.startup (s : State) (r : StartupResult) (badHalves : List (Nat × HalfSel)) (badGranules : List (Nat × Nat)) : State :=
  if s.pwr.stage ≠ .fwStart then s else
  match r with
  | .domainFailed d => (s.powerDomains (some d)).startFails srcPower d none
  | .cryptoFailed d => ((s.powerDomains none).testDies (some d.val)).startFails ⟨0x0E, d.val⟩ (104 + d.val) (some (Cause.cryptoFault, ⟨0x0E, d.val⟩))
  | .channelFailed c =>
    (((s.powerDomains none).testDies none).trainAll (some (chanNo c))).startFails (srcChan (chanNo c))
      (match c with
        | .hbm k => k.val
        | .lpddr k => k.val) none
  | .ok =>
    let s := (((s.powerDomains none).testDies none).trainAll none).testQuads badHalves
    let s := (badGranules.filter fun g => decide (g.1 < 20) && decide (g.2 < 32)).foldl (fun s g =>
      s.modTile g.1 fun t => { t with withheld := addTo t.withheld g.2 }) s
    let s := s.modPwr fun w => { w with stage := .ready }
    let s := if s.eci.link = .off ∧ !bitOf s.pins.straps.toNat 1 then s.modEci fun e => { e with link := .training } else s
    let n := ((List.range s.fuse.grade.quads).filter fun q => (s.quad q).state == .offline).length
    if n = 0 then s else s.raisePf Cause.startupDegraded srcPower none (leBytes 2 n)

/-- Steps 7 to 10 of the start-up end. -/
def execStartup (result : StartupResult) (badHalves : List (Nat × HalfSel)) (badGranules : List (Nat × Nat)) (s : State) : Res :=
  .next (s.startup result badHalves badGranules)

/-- THERMAL_SHUTDOWN (R455): every domain off, PWR_GOOD low, THERM_N latched low; no record. -/
def State.thermalShutdown (s : State) : State :=
  if s.powered || s.pwr.stage == .powering then s.powerOff.modPwr fun w => { w with stage := .shutdown, thermLatched := true } else s

/-- A junction has been at 115 °C for 1 ms. -/
def execThermalShutdown (s : State) : Res := .next s.thermalShutdown

/-- The envelope of R3: the grade's and the tray's, whichever is less. -/
def State.envelope (s : State) : Nat :=
  min s.fuse.grade.envelope (match bitsOf s.pins.straps.toNat 3 2 with
    | 3 => 1700
    | 2 => 1400
    | 1 => 1100
    | _ => 800)
/-- PWR_CEIL_W. -/
def State.ceilW (s : State) : Nat := (s.flash.ceilW.map (·.toNat)).getD s.envelope
/-- The cap that the registers and the envelope set (R448). -/
def State.capSet (s : State) : Nat :=
  let c := min s.envelope s.ceilW
  if s.pwr.capW = 0 then c else min c s.pwr.capW.toNat
/-- The cap held as it is, before a register of it changes (R452). -/
def State.capHeld (s : State) : State := s.modPwr fun w => { w with capNow := if w.capNow = 0 then s.capSet else w.capNow }
/-- A period's end puts a cap that was written in it into effect (R452). -/
def State.capEnds (s : State) : State := s.modPwr fun w => { w with capNow := 0 }
/-- The governed cap (R448, R452). -/
def State.govCap (s : State) : Nat :=
  let c := if s.pwr.capNow = 0 then s.capSet else s.pwr.capNow
  if s.pwr.coolantFlow || s.pwr.coolantHigh then min c 800 else c
/-- THERM_N is low (R434, R454, R455). -/
def State.thermLow (s : State) : Bool :=
  s.pwr.critical || s.pwr.coolantHigh || s.pwr.coolantLow || s.pwr.coolantFlow || s.pwr.thermLatched

/-- The flow estimate in 0.01 L/min (R453): 0 while the input power is below 400 W; its rounding is open, and so is what an outlet no
warmer than the inlet gives. -/
def flowOf (u watt : Nat) (inlet outlet : W16) : Nat :=
  if watt < 400 then 0 else
  let d := outlet.toInt - inlet.toInt
  if d ≤ 0 then Config.freeNat u else
  let n := 9600 * watt
  let m := 708 * d.toNat
  if n / m ≤ 65535 then n / m + (if n % m ≠ 0 ∧ Config.freeBool u 0 then 1 else 0) else Config.freeNat u

/-- R449, R451 and R454 at the end of a period: the core voltage and the duty limit for average power `p` under cap `c`. -/
def Power.govern (w : Power) (p c : Nat) : Power :=
  if w.critical then { w with vcore := 600, duty := 16 } else
  let down : Power := { w with vcore := BitVec.ofNat 10 (max 600 (w.vcore.toNat - 5)) }
  if p > c then
    if w.vcore.toNat ≤ 600 then { w with duty := BitVec.ofNat 7 (max 16 (w.duty.toNat - 4)) } else down
  else if 100 * p < 98 * c ∧ w.duty.toNat < 64 then { (if w.throttle then down else w) with duty := BitVec.ofNat 7 (min 64 (w.duty.toNat + 4)) }
  else if w.throttle then down
  else if 100 * p < 98 * c ∧ w.vcore.toNat < w.vcoreMax.toNat then { w with vcore := BitVec.ofNat 10 (w.vcore.toNat + 5) }
  else w

/-- Whether a period counts in PWR_THROTTLE_PERIODS (Table 15.7): V_core held or lowered for cap or heat. -/
def Power.throttled (w : Power) (p c : Nat) : Bool :=
  w.critical || w.throttle || decide (p > c) || decide (w.duty.toNat < 64) || (decide (98 * c ≤ 100 * p) && decide (w.vcore.toNat < w.vcoreMax.toNat))

/-- What the currents and stack voltages of the domains, and the tiles' temperatures, measure: values of the hardware. -/
def State.measure (s : State) : State :=
  let u := s.free
  let volt (w : Power) (d : Nat) : BitVec 12 :=
    if d < 100 then BitVec.ofNat 12 w.vcore.toNat else if d < 104 then BitVec.ofNat 12 w.vhub.toNat
    else if d < 108 then 750 else BitVec.ofNat 12 (Config.freeNat (u + 200 + d))
  let s := s.modPwr fun w => { w with domains := w.domains.map fun e =>
    (e.1, if e.2.state = .on then { e.2 with current := BitVec.ofNat 16 (Config.freeNat (u + e.1)), voltage := volt w e.1 } else e.2) }
  let s := (List.range 20).foldl (fun s t => s.modTile t fun x => { x with temp := BitVec.ofNat 16 (Config.freeNat (u + 400 + t)) }) s
  { s with free := u + 500 }

/-- GOVERNOR_PERIOD (R444, R449, R451 to R453): a cap written in the period counts from its end on. INPUT_LOW goes by the lowest voltage of the
period; POWER_CAP_FLOOR by its duty limit, whatever set that. -/
def State.governorPeriod (s : State) (x : PowerSample) : State :=
  if !s.powered then s else
  let s := s.capEnds
  let c := s.govCap
  let p := x.avgWatt.toNat
  let after := decide ((s.pwr.govern p c).duty.toNat < 64)
  let floor := (after || decide (s.pwr.duty.toNat < 64)) && !s.pwr.floorSaid
  let low := decide (x.lowest.toNat < 36000)
  let raiseLow := low && !s.pwr.inputLow
  let u := s.free
  let s := s.useFree.modPwr fun w =>
    let n := if w.throttled p c then satAdd w.throttlePeriods 1 else w.throttlePeriods
    { w.govern p c with
      throttlePeriods := n, fast := w.fastNow, fastNow := false, floorSaid := after
      inputLow := low || (w.inputLow && decide (x.lowest.toNat ≤ 36500))
      milliVolt := x.milliVolt, tenMilliAmp := x.tenMilliAmp, avgWatt := x.avgWatt, peakWatt := x.peakWatt, inlet := x.inlet
      outlet := x.outlet, hottest := x.hottest, hotDomain := x.hotDomain, flow := BitVec.ofNat 16 (flowOf u p x.inlet x.outlet) }
  let s := if raiseLow then s.raisePf Cause.inputLow srcPower else s
  (if floor then s.raisePf Cause.powerCapFloor srcPower else s).measure

/-- A governor period ends with these measurements. -/
def execGovernorPeriod (sample : PowerSample) (s : State) : Res := .next (s.governorPeriod sample)

/-- POWER_FAST_LIMIT (R450). -/
def State.fastLimit (s : State) (watt tenMa : Nat) : State :=
  if !s.powered || !(decide (10 * watt > 12 * s.govCap) || decide (tenMa > 5500)) then s else
  (s.modPwr fun w => { w with vcore := 600, fastTrips := satAdd w.fastTrips 1, fastNow := true }).raisePf Cause.powerFastLimit srcPower

/-- The input stage sees this input power and J1 current. -/
def execPowerFastLimit (watt : W16) (tenMilliAmp : W16) (s : State) : Res := .next (s.fastLimit watt.toNat tenMilliAmp.toNat)

/-- THERMAL_CONDITION (R454): each cause once per episode. -/
def State.thermalCondition (s : State) (c : ThermalCond) (holds : Bool) : State :=
  if !s.powered then s else
  let say (was : Bool) (cause : W16) (s : State) : State := if holds && !was then s.raisePf cause srcPower else s
  match c with
  | .junctionThrottle => say s.pwr.throttle Cause.thermalThrottle (s.modPwr fun w => { w with throttle := holds })
  | .junctionCritical => say s.pwr.critical Cause.thermalCritical (s.modPwr fun w =>
      if holds then { w with critical := true, vcore := 600, duty := 16, vhub := 650 } else { w with critical := false, vhub := 750 })
  | .hbmWarm k => s.modPwr fun w => { w with
      hbmWarm := if holds then w.hbmWarm ||| BitVec.ofNat 8 (2 ^ k.val) else w.hbmWarm &&& ~~~ BitVec.ofNat 8 (2 ^ k.val) }
  | .coolantTempHigh => say s.pwr.coolantHigh Cause.coolantRange (s.modPwr fun w => { w with coolantHigh := holds })
  | .coolantTempLow => say s.pwr.coolantLow Cause.coolantRange (s.modPwr fun w => { w with coolantLow := holds })
  | .coolantFlow => say s.pwr.coolantFlow Cause.coolantFlow (s.modPwr fun w => { w with coolantFlow := holds })

/-- A condition of Table 15.3 begins to hold, or clears. -/
def execThermalCondition (cond : ThermalCond) (holds : Bool) (s : State) : Res := .next (s.thermalCondition cond holds)

/-- The block of a logical quad in an event record (R472). -/
def State.srcQuad (s : State) (q : Nat) : Src :=
  let (t, j) := s.qloc q
  ⟨0x05, 4 * t + j⟩

/-- An event of a quad: on the PF ring, and on its partition's ring where it belongs to one (R464). -/
def State.raiseQuad (s : State) (q : Nat) (cause : W16) (detail : List Byte) : State :=
  match s.quadOwner q with
  | some p => s.raiseBoth p cause (s.srcQuad q) 0 detail
  | none => s.raisePf cause (s.srcQuad q) none detail

/-- What waited for the self-tests of a partition goes on when none runs any more: the restart that the device owes it, or the
PART_CTRL commands that wait (R462). -/
def State.afterTests (s : State) (p : Nat) : State :=
  if s.testRuns p || (s.part p).vf.flr != 0 then s
  else if (s.part p).ctl.restart && (s.part p).ctl.state == .stopped then ((s.modCtl p fun c => { c with restart := false }).partDo p 4 Writer.device).s
  else s.runHeld p

/-- A write of PWR_ST_REQ with go (R462). -/
def State.stReq (s : State) (q : Nat) (force : Bool) : RegW :=
  if s.fuse.grade.quads ≤ q then RegW.no s Cause.stParam
  else if (s.quad q).pending || (s.quad q).state == .selftest then { s := s }
  else match s.quadOwner q with
  | none => { s := s.beginTest q }
  | some p =>
    let hold (s : State) : State := s.modQuad q fun x => { x with pending := true, forced := force }
    match (s.part p).ctl.state with
    | .stopped => { s := s.beginTest q }
    | .running =>
      if force then { s := ((hold s).modCtl p fun c => { c with restart := true }).partDo p 5 Writer.device |>.s }
      else { s := (hold s).raiseQuad q Cause.selftestHeld [] }
    | _ => { s := if force then hold s else (hold s).raiseQuad q Cause.selftestHeld [] }

/-- SELFTEST_DONE (R463, R464). -/
def State.selftestDone (s : State) (q : Nat) (badHalves : List (Nat × HalfSel)) (badLines : List (Nat × Nat)) : State :=
  if (s.quad q).state ≠ .selftest then s else
  let own := s.quadOwner q
  let badHalves := s.testFinds q badHalves
  let bad := s.lastBad q badHalves
  let s := (s.testClusters q badHalves).modQuad q fun x => x.tested bad (if own.isSome then .on else .off)
  let s := if own.isSome then s else s.setDomain q .off
  let s := match bad with
    | some k => s.raiseQuad q Cause.selftestFail (leBytes 2 k)
    | none => (((s.modQuad q fun x => { x with withheld := false }).modTile (s.qloc q).1 fun t => { t with withheld := [] })).raiseQuad q Cause.selftestPass []
  match own with
  | none => s
  | some p =>
    let s := (badLines.filter fun e => (s.quadClusters q).contains e.1 && decide (e.2 < sramBytes / 64)).foldl
      (fun s e => s.poisonFound .sram (sramBytes / 64 * e.1 + e.2) 1 0 none) s
    s.afterTests p

/-- The self-test of logical quad `quad` ends. -/
def execSelftestDone (quad : Nat) (badHalves : List (Nat × HalfSel)) (badLines : List (Nat × Nat)) (s : State) : Res :=
  .next (s.selftestDone quad badHalves badLines)

/-- A cluster loses its supply (R468): the commands that run on it end with ARRAY_FAULT, a consequence of the converter's fault; a
WICK_OP armed on it is skipped; its halves are OFFLINE and its SRAM holds nothing. What the record's detail says of place and beats is
open. -/
def State.clusterLost (s : State) (q : W64) (k : Nat) : State :=
  let s := match s.clusterOwner k with
    | none => s
    | some (p, _) =>
      let run := ((s.cluster k).buffer.filterMap (s.cmd? p ·)).filter fun (c : Cmd) =>
        c.phase == CmdPhase.started && !c.armed && !(c.op == 0x12 && c.wick.chain) && s.mayRun p c && !(s.cluster k).anyHalf c HalfState.offline
      let s := run.foldl (fun (s : State) (c : Cmd) =>
        let w := s.partner p k c
        let u := s.free
        let beats := Config.freeNat (u + 1) % 2 ^ 32
        let cut := (s.useFrees 2).cutShort p k c w beats (Config.freeNat u) false
        let place := (List.range 3).map (Config.freeByte u)
        let d := [BitVec.ofNat 8 (halfCode c.occupies)] ++ place ++ leBytes 4 beats ++ leBytes 2 cut.rows
        let s := cut.state.faultEnds p c w Cause.arrayFault q d cut.detail cut.pairDetail
        let s := s.modPfHdr (cluPage k) fun x => x.setBits (b2n c.left + 2 * b2n c.right)
        s.modCluster k fun x => { x with lastFault := BitVec.ofNat 32 (leNat place % 256
          + 256 * halfCode c.occupies + 65536 * (leNat place / 256)) }) s
      let armed := ((s.cluster k).l.armed.toList ++ (s.cluster k).r.armed.toList).eraseDups
      armed.foldl (fun (s : State) (id : Nat) =>
        s.finish p id .skipped Cause.halfOffline (((s.cmd? p id).map fun c => s.standing c k).getD 0)) s
  let c := s.cluster k
  let s := s.modHalves k .full fun h => { h with state := .offline, stationary := none, armed := none }
  (s.wentOffline k (c.l.state != .offline) (c.r.state != .offline)).zeroRange .sram (sramBytes * k) sramBytes

/-- CONVERTER_FAULT (R468). -/
def State.converterFault (s : State) (d : Nat) : State :=
  if (tget {} s.pwr.domains d).state ≠ .on then s else
  let own := if d < 80 then s.quadOwner d else none
  let strike (s : State) : State := s.modPwr fun w => { w with domains := tset w.domains d { state := .fault } }
  if d < 80 then
    let (q, s) := s.newFault
    let s := ((strike s).link q Cause.converterFault srcPower none).recPf q Cause.converterFault 3 srcPower none 0 (leBytes 2 d)
    let s := (s.quadClusters d).foldl (fun s k => s.clusterLost q k) s
    let s := s.modQuad d fun x => { x with state := .offline }
    match own with
    | some p => s.afterTests p
    | none => s
  else
    let u := s.free
    let s := (strike s).useFree
    let s := if Config.freeBool u 0 then s.raisePf Cause.converterFault srcPower none (leBytes 2 d) else s
    s.j1Exit

/-- A converter of domain `domain` fails. -/
def execConverterFault (domain : Fin 116) (s : State) : Res := .next (s.converterFault domain.val)

/-- CALIBRATION_SLICE (R465, R466): a slice that finds drift beyond its range leaves the channel in RETRAIN_WAIT. -/
def State.calibrate (s : State) (k : Nat) (drift : Bool) : State :=
  if drift && (s.chan k).state == .ready then s.modChan k fun c => { c with state := .retrainWait } else s

/-- A calibration slice of channel `c` ends. -/
def execCalibrationSlice (c : ChannelId) (drift : Bool) (s : State) : Res := .next (s.calibrate (chanNo c) drift)

/-- RETRAIN_WAIT (R466): the temperature has moved by 15 K. -/
def execRetrainWait (c : ChannelId) (s : State) : Res := .next (s.calibrate (chanNo c) true)

/-- A full retrain (R466): the channel is READY, or FAILED under R262. -/
def State.retrainEnds (s : State) (k : Nat) (ok : Bool) : State :=
  let s := s.modPwr fun w => { w with retrains := satAdd w.retrains 1 }
  if ok then s.modChan k fun c => { c with state := .ready } else s.channelFail k

/-- RETRAIN (R466). -/
def State.retrain (s : State) (k : Nat) (ok : Bool) : State :=
  if (s.chan k).state = .retrainWait then s.retrainEnds k ok else s

/-- Channel `c` has been idle and retrains. -/
def execRetrain (c : ChannelId) (ok : Bool) (s : State) : Res := .next (s.retrain (chanNo c) ok)

/-- RETRAIN_FORCED (R466): the deadline has passed. -/
def State.retrainForced (s : State) (k : Nat) (ok : Bool) : State :=
  if (s.chan k).state = .retrainWait then (s.raisePf Cause.retrainForced (srcChan k)).retrainEnds k ok else s

/-- The deadline of channel `c`'s retrain passes. -/
def execRetrainForced (c : ChannelId) (ok : Bool) (s : State) : Res := .next (s.retrainForced (chanNo c) ok)

end Sys2Proof.Machine
end

