-- ==== Sys2Proof/Machine/HostPort.lean ====
section
/-!
DEFINITION. The host port (chapter 11): the link, the object aperture, exposed LPDDR, IDE faults, function level reset, resets of the
port. The rows that write HST registers in a session go through the register pages (SessionRows.lean).
-/

namespace Sys2Proof.Machine

/-- The block of the host port (R472). -/
def srcHost : Src := ⟨0x10, 0⟩

/-- ATS_INVALIDATION (R358). -/
def State.atsInvalidate (s : State) (p : Nat) (pages : List W64) : State :=
  s.modVf p fun v => { v with atc := v.atc.filter fun a => !pages.contains a }

/-- The host invalidates the translations of these pages of VF `p + 1`. -/
def execAtsInvalidation (p : PartId) (pages : List W64) (s : State) : Res := .next (s.atsInvalidate p.val pages)

/-- Where an access of `len` bytes at VF BAR2 offset `off` goes (R362): through a disabled window nowhere; past an object, or as a
write (`wr`) to one that the SEQ engine or a codec session owns, it is out of range of window `w`. -/
inductive Aperture where
  | disabled
  | range (w : Nat)
  | at (r : ORef)
  deriving DecidableEq, Repr

/-- The target of an aperture access (R362). -/
def State.aperture (s : State) (p off len : Nat) (wr : Bool) : Aperture :=
  let w := off / 2 ^ 30 % 16
  let x := (tget 0 (s.part p).vf.aprWin w).toNat
  if !bitOf x 31 then .disabled else
  let r : ORef := ⟨bitsOf x 0 20, 65536 * bitsOf x 32 32 + off % 2 ^ 30⟩
  if !s.inObj p r len || (wr && s.destCheck p r.handle != 0) then .range w else .at r

/-- APERTURE_RANGE, once for a window until its APR_WIN is written again (R362). -/
def State.apertureRange (s : State) (p w : Nat) : State :=
  if bitOf (s.part p).vf.aprRange.toNat w then s else
  (s.modVf p fun v => { v with aprRange := v.aprRange ||| BitVec.ofNat 16 (2 ^ w) }).raisePart p Cause.apertureRange srcHost

/-- The first line that a reference touches. -/
def State.firstLine (s : State) (p : Nat) (r : ORef) : Space × Nat :=
  let x := s.phys p (s.object p r.handle).src r.off
  (x.space, x.addr / 64)

/-- HOST_READ_TIMEOUT (R360, R361): the read of the next slot of a ring in host memory ends with a completion timeout. -/
def State.hostReadTimeout (s : State) (p n : Nat) : State :=
  let r := s.ring p n
  if s.fetches p && !r.inDevice && s.ringReady p n then (s.aerVf p).ringError p n Cause.ringFetchFault Cause.hostCompletion r.lastWm else s

/-- The completion timeout of a read of RING[n] of partition `p` passes. -/
def execHostReadTimeout (p : PartId) (n : Fin 16) (s : State) : Res := .next (s.hostReadTimeout p.val n.val)

/-- Steps 1 and 2 of an FLR (Table 11.4): nothing more is fetched, what is not fetched is discarded, what is outstanding is snuffed; an
enabled primary binding has everything to send again (R411). In the other partition states only steps 1 and 8 run. -/
def State.flrStart (s : State) (p : Nat) : State :=
  if !(s.part p).vf.enabled || (s.part p).vf.flr != 0 then s else
  let s := s.modVf p fun v => { v with msixOn := false, msix := [], msixPend := [] }
  match (s.part p).ctl.state with
  | .stopped | .running | .draining =>
    let s := s.modVf p fun v => { v with flr := 2 }
    let s := s.modSys p fun y => { y with rings := y.rings.map fun e => (e.1, { e.2 with head := e.2.tail }) }
    let s := s.modStr p fun y => { y with swaps := y.swaps.filter fun a => a.move.isSome }
    let s := s.modMir p fun m => if m.enable ∧ ¬ m.standby then { m with
      state := .outOfSync, dirty := [.all], sent := [], heldSteps := [] } else m
    (s.snuffAll p (s.targets p fun _ => true)).1
  | _ => s.modVf p fun v => { v with flr := 1 }

/-- An FLR of the VF of partition `p` is initiated. -/
def execVfFlr (p : PartId) (s : State) : Res := .next (s.flrStart p.val)

/-- FLR_STEP3_TIMEOUT (R375): the partition's quads are reset as a teardown resets them; what was snuffed counts. -/
def State.flrTimeout (s : State) (p : Nat) : State :=
  if (s.part p).vf.flr ≠ 2 ∨ (s.part p).cmd.cmds.isEmpty then s else
  let n := ((s.part p).cmd.cmds.filter fun c => c.status == .snuffed && c.isTarget).length
  let s := s.modHst fun h => { h with flrSnuffed := satAdd h.flrSnuffed n }
  (((s.resetClusters p).resetEngines p).modPart p fun x => { x with
    cmd := { x.cmd with cmds := [], queues := [], calls := [] }, seq := { x.seq with run := none } })

/-- Step 3 of an FLR of VF `p + 1` has not been reached in time. -/
def execFlrStep3Timeout (p : PartId) (s : State) : Res := .next (s.flrTimeout p.val)

/-- Step 8 of an FLR (Table 11.4, R375): FLR_DONE, the TDI unlocked, the VF open, the commands that waited carried out. -/
def State.flrEnd (s : State) (p : Nat) : State :=
  let s := (s.modVf p fun v => { v with flr := 0, tdi := .unlocked }).modHst fun h => { h with flrCount := satAdd h.flrCount 1 }
  (s.raisePf Cause.flrDone srcHost (some p) (leBytes 2 p)).runHeld p

/-- Steps 3 to 7 of an FLR (Table 11.4): what fails a verify is withheld as a teardown withholds it (R316). -/
def State.flrReset (s : State) (p : Nat) (x : FlrEnd) : State :=
  let s := if (s.part p).ctl.state = .draining then s.partStopped p else s
  let s := (s.eraseKey p).newKey
  let s := (s.2.modCtl p fun c => { c with key := s.1 }).newKey
  let s := s.2.modSeq p fun q => { q with prefixKey := s.1 }
  ((((s.zeroShare p).verifyFails p x.badQuads x.badGranules).resetClusters p).resetEngines p).modPart p Part.fresh

/-- FLR_DONE (Table 11.4): step 3 has been reached, every command being terminal. The host has then set the VF's MSI-X enable again or not. -/
def State.flrDone (s : State) (p : Nat) (x : FlrEnd) : State :=
  let on (s : State) : State := s.modVf p fun v => { v with msixOn := x.msixOn }
  match (s.part p).vf.flr with
  | 0 => s
  | 1 => on (s.flrEnd p)
  | _ => if (s.part p).cmd.cmds.isEmpty then on ((s.flrReset p x).flrEnd p) else s

/-- The scrubs of the FLR of VF `p + 1` finish. -/
def execFlrDone (p : PartId) (s : State) (scrubs : FlrEnd := {}) : Res := .next (s.flrDone p.val scrubs)

/-- What the host's configuration software sets (R355 to R357). -/
def State.configure (s : State) (c : HostConfig) : State :=
  let s := s.modHst fun h => { h with numVfs := c.numVfs.val, pfBar0 := c.pfBar0, vfBar0 := c.vfBar0, vfBar2 := c.vfBar2 }
  let s := s.modEv fun e => { e with msixOn := c.pfMsixOn, msixMask := c.pfMsixMask }
  (List.range 32).foldl (fun s p => s.modVf p fun v => { v with
    enabled := decide (p < c.numVfs.val), msixOn := c.vfMsixOn, msixMask := c.vfMsixMask }) s

/-- VF Enable cleared (R355): an FLR of every enabled VF. -/
def State.vfEnableClear (s : State) : State :=
  ((List.range 32).foldl (fun s p => (s.flrStart p).modVf p fun v => { v with enabled := false }) s).modHst fun h => { h with numVfs := 0 }

/-- The host clears VF Enable; `again`: it then sets it again. -/
def execVfEnableClear (s : State) (again : Option HostConfig := none) : Res :=
  .next ((again.map s.vfEnableClear.configure).getD s.vfEnableClear)

/-- HDM_DECODER_COMMIT (R367): it fails while BI is not enabled at the host port, with Error Not Committed. -/
def State.hdmCommit (s : State) (bi : Bool) (base : W64) : State :=
  if s.hst.committed || s.pcieOnly || s.hst.hdmGib = 0 then s else
  s.modHst fun h => { h with bi := bi, decBase := base, committed := bi, notCommitted := !bi }

/-- The host commits HDM decoder 0; `bi`: back-invalidate is enabled at the host port; `base`: the base it has programmed. -/
def execHdmDecoderCommit (bi : Bool) (s : State) (base : W64 := 0) : Res := .next (s.hdmCommit bi base)

/-- The snoop filter after an access (R369): a line that the host keeps stands last; the least recently used entry goes where the filter
is full. -/
def State.snoop (s : State) (line : Nat) (cached : Bool) : State :=
  let rest := s.hst.snoop.filter (· != line)
  if !cached then s.modHst fun h => { h with snoop := rest }
  else if rest.length = s.hst.snoop.length ∧ 2097152 ≤ rest.length then
    match rest with
    | [] => s
    | l :: t => (s.emit (.bisnpInv l)).modHst fun h => { h with snoop := t ++ [line], bisnp := wrapAdd h.bisnp 1 }
  else s.modHst fun h => { h with snoop := rest ++ [line] }

/-- An error of the exposed range counted in the CXL RAS capability (R371, R376): the bits of memory data ECC are PRESUMED (log entry 98). -/
def State.rasFinding (s : State) (f : EccFinding) : State :=
  let n (x : Nat) : W32 := BitVec.ofNat 32 x
  match f with
  | .clean => s
  | .corrected => (s.modEv fun e => { e with ras := { e.ras with correctable := e.ras.correctable + 1 } }).rasPf (n 2) 0 []
  | .uncorrectable =>
    (s.useFree.modEv fun e => { e with ras := { e.ras with uncorrectable := e.ras.uncorrectable + 1 } }).rasPf 0 (n 128)
      ((List.range 64).map (Config.freeByte s.free))

/-- HDM_ACCESS to a line of the exposed range (R368, R369, R371). -/
def State.hdmAccess (s : State) (line off : Nat) (write : Option (List Byte)) (cached : Bool) (f : EccFinding) : State :=
  if s.hdmDead line then s else
  let a := s.hdmAddr line
  let s := s.snoop line cached
  match write with
  | some bs =>
    let bs := bs.take (64 - off)
    (if bs.length < 64 then (s.eccLine .lpddr (a / 64) 5 f 0 none).rasFinding f else s).hdmWrite line off bs
  | none =>
    let s := ((s.eccLine .lpddr (a / 64) 0 f 0 none).rasFinding f).hdmCount line
    match s.mem.poisonAt .lpddr (a / 64) with
    | some _ => s.useFree.answer { bytes := (List.range 64).map (Config.freeByte s.free), poisoned := true }
    | none => s.answer { bytes := (List.range 64).map fun i => s.mem.byteAt (s.hdmKey line) .lpddr (a + i) }

/-- A host access to line `line` of the exposed range; a line outside a committed range does not exist. -/
def execHdmAccess (line : Nat) (off : Fin 64) (write : Option (List Byte)) (cached : Bool) (finding : EccFinding) (s : State) : Res :=
  if s.hst.committed && decide (line < sliceLines * s.hst.hdmGib.toNat) then .next (s.hdmAccess line off.val write cached finding)
  else .fault .noSuchLine

/-- A TDI moved to ERROR (R373). -/
def State.tdiError (s : State) (p : Nat) : State := s.modVf p fun v => { v with tdi := .error }

/-- The AER bit of a failed IDE check, where PCIe has it. -/
def ideCheckFailed : W32 := 0x8000000#32

/-- IDE_FAULT (R373, R376): an integrity failure of a stream that is secure; the stream keeps what it is associated with. -/
def State.ideFault (s : State) (stream : Option Nat) : State :=
  match stream with
  | none =>
    if !s.hst.ideLink then s else
    let (q, s) := (s.modHst fun h => { h with ideLink := false }).newFault
    let s := ((s.link q Cause.ideFault srcHost none).recPf q Cause.ideFault 3 srcHost none 0 []).aerPf 0 ideCheckFailed
    (List.range 32).foldl (fun s p => s.tdiError p) s
  | some k =>
    match (tget none s.hst.ideSel k).filter (·.secure) with
    | none => s
    | some x =>
      let s := s.modHst fun h => { h with ideSel := tset h.ideSel k (some { x with secure := false }) }
      match x.fn with
      | none => (s.aerPf 0 ideCheckFailed).raisePf Cause.ideFault srcHost
      | some p =>
        ((s.tdiError p.val).modVf p.val fun v => { v with aer := { v.aer with unc := v.aer.unc ||| ideCheckFailed } }).raisePart
          p.val Cause.ideFault srcHost

/-- An integrity check of the link stream (`none`) or a selective stream fails. -/
def execIdeFault (stream : Option (Fin 32)) (s : State) : Res := .next (s.ideFault (stream.map (·.val)))

/-- The records that wait are written where the rings have room and the link carries them (R377, R477). -/
def State.flushAll (s : State) : State := ((List.range 32).foldl (fun s p => s.flushPart p 64) s).flushPf 256

/-- Link replays (R376, R378): correctable at the PF's AER (PRESUMED: its replay timer bit, log entry 98), and each 256 of them the CRC threshold of
the CXL RAS capability. -/
def State.linkReplays (s : State) (n : Nat) : State :=
  if n = 0 then s else
  let k := s.ev.ras.replays + n
  let s := ((s.modHst fun h => { h with replays := satAdd h.replays n }).modEv fun e => { e with ras := { e.ras with replays := k % 256 } }).aerPf
    0x1000#32 0
  if 256 ≤ k then s.rasPf 4#32 0 [] else s

/-- Whether a rate and a flit code are of one option of Table 11.1; PRESUMED (log entry 98): the flits of PCIe 6.0 have the code of 256 B. -/
def State.rateOk (s : State) (rate flit : Nat) : Bool :=
  if rate = 4 then flit = 2 || (flit = 3 && !s.pcieOnly) else 1 ≤ rate && rate < 4 && flit == (if s.pcieOnly then 0 else 1)

/-- LINK_TRAINED (R354, R380, R434): the link is UP at a width, rate and flit of Table 11.1, in reset at none; from DOWN or TRAINING the host
then configures the module (log entry 39). A link that is up has retrained. -/
def State.linkTrained (s : State) (width : BitVec 5) (rate : BitVec 4) (flit : BitVec 2) (c : HostConfig) : State :=
  if !s.pins.pwrGood || !s.pins.perstN || !s.pins.resetN || !([4, 8, 16].contains width.toNat) || !s.rateOk rate.toNat flit.toNat then s else
  let slow := decide (width.toNat < 16) || decide (rate.toNat < 4)
  let again := s.hostUp
  let s := s.modHst fun h => { h with
    link := .up, width := width, rate := rate, flit := flit, degraded := slow, retrains := if again then satAdd h.retrains 1 else h.retrains }
  let s := ((if again then s else s.configure c).linkReplays c.replays).flushAll
  if slow then s.raisePf Cause.linkDegraded srcHost else s

/-- The host link has trained. -/
def execLinkTrained (width : BitVec 5) (rate : BitVec 4) (flit : BitVec 2) (s : State) (config : HostConfig := {}) : Res :=
  .next (s.linkTrained width rate flit config)

/-- The link in a state that carries nothing (R377): LINK_DOWN where it was up. -/
def State.linkLost (s : State) (l : LinkState) : State :=
  let t := s.modHst fun h => { h with link := l, degraded := false, flit := 0, width := 0, rate := 0 }
  if s.hostUp then t.raisePf Cause.linkDown srcHost else t

/-- The host link goes down. -/
def execLinkDown (s : State) : Res := .next (s.linkLost .down)

/-- The configuration spaces of the PF and the VFs, and the host port, as a reset of the port leaves them (R461). -/
def State.portFresh (s : State) : State :=
  let s := s.modEv fun e => { e with msixOn := false, msixMask := false, msix := [], msixPend := [], aer := {}, ras := {} }
  let s := (List.range 32).foldl (fun s p => s.modVf p fun v => { v with msixOn := false, msixMask := false, aer := {} }) s
  s.modHst fun h => { h with
    committed := false, bi := false, decBase := 0, notCommitted := false, numVfs := 0, pfBar0 := 0, vfBar0 := 0, vfBar2 := 0, snoop := []
    ideLink := false, ideSel := [] }

/-- HOST_PORT_RESET (R461): the host port, the configuration spaces, the HDM decoder and snoop filter, the sessions of the PF mailbox; a consent
lapses (R349). PERST_N goes low where it is what resets, with the module off too (R424); the link is then down, as a disabled one is, and after
the other resets it trains. -/
def State.portReset (s : State) (k : PortReset) : State :=
  let s := if k = .perst then { s with pins := { s.pins with perstN := false } } else s
  if !s.pins.pwrGood then s else
  let l : LinkState := if k = .perst ∨ k = .linkDisable ∨ !s.pins.perstN then .down else .training
  let s := ((s.linkLost l).vfEnableClear).endSessions fun y => y.transport == Transport.pfDoe
  (s.portFresh.modSec fun x => { x with consent := none }).modPwr fun w => { w with resetKind := 3 }

/-- The host port is reset. -/
def execHostPortReset (kind : PortReset) (s : State) : Res := .next (s.portReset kind)

end Sys2Proof.Machine
end

