-- ==== Sys2Proof/Machine/Pair.lean ====
section
/-!
DEFINITION. The Ecior pair link and mirroring (chapter 13): flits and replay, keepalives, deltas, the mirror states, promotion; and the
STEP's own row and its commit, which make deltas. The rows that write ECI registers in a session go through the register pages
(SessionRows.lean). What a delta holds is read in one step of the model; its messages then go out in DATA flits as the retry buffer has room
(log entries 19 and 99).
-/

namespace Sys2Proof.Machine

/-- The block of the pair link (R472). -/
def srcEci : Src := ⟨0x0A, 0⟩
/-- Whether the pair link is fitted: STRAP_PAIR reads 0 (Table 14.9, R398). -/
def State.fitted (s : State) : Bool := !bitOf s.pins.straps.toNat 1
/-- Whether the module is side B: STRAP_SIDE reads 0 (Table 14.9). -/
def State.sideB (s : State) : Bool := !bitOf s.pins.straps.toNat 0

/-- The partitions with an enabled binding. -/
def State.boundParts (s : State) : List Nat := (List.range 32).filter fun p => (s.part p).mir.enable

/-- The bytes of a flit before its tag (Table 13.1): what the payload does not use is open (log entry 99). -/
def State.flitHead (s : State) (kind : Byte) (seq : W16) (payload : List Byte) : List Byte :=
  [kind, BitVec.ofNat 8 payload.length] ++ leBytes 2 seq.toNat ++ leBytes 2 (s.eci.rxNext - 1).toNat ++ [0, 0]
/-- The payload of a flit, filled up to 228 bytes. -/
def State.flitBody (s : State) (payload : List Byte) : List Byte :=
  payload ++ (List.range (228 - payload.length)).map (Config.freeByte s.free)
/-- A flit with its CRC-32 (R401). -/
def withCrc (bs : List Byte) : List Byte := bs ++ fcs bs
/-- The nonce of the next flit (R401): the side bit, then the 64-bit count of flits sent under the current key. -/
def State.nonce (s : State) : Nat := 2 ^ 64 * b2n s.sideB + s.eci.nonce.toNat
/-- The 256 bytes of a flit under the current key (R401, Table 13.1). -/
def State.sealedFlit (s : State) (kind : Byte) (seq : W16) (payload : List Byte) : List Byte :=
  let head := s.flitHead kind seq payload
  withCrc (head ++ (List.range 244).map (Config.sealed s.eci.keyNo s.nonce head (s.flitBody payload)))
/-- The 256 bytes of a HELLO or KEYX flit, which goes before a key holds: its payload in clear, its tag open (log entry 99). -/
def State.clearFlit (s : State) (kind : Byte) (payload : List Byte) : List Byte :=
  withCrc (s.flitHead kind 0 payload ++ s.flitBody payload ++ (List.range 16).map fun i => Config.freeByte s.free (228 + i))

/-- A flit sent under the current key: it counts in the nonce (R401). -/
def State.sendFlit (s : State) (kind : Byte) (seq : W16) (payload : List Byte) : State :=
  ((s.emit (.flit (s.sealedFlit kind seq payload))).modEci fun e => { e with nonce := e.nonce + 1 }).useFree
/-- A flit of the exchange at link-up sent. -/
def State.sendClear (s : State) (kind : Byte) (payload : List Byte) : State := (s.emit (.flit (s.clearFlit kind payload))).useFree

/-- Whether the retry buffer has room for a flit (R402). -/
def Eci.room (e : Eci) : Bool := decide (e.retry.length < 1024)
/-- Whether the link carries flits. -/
def Eci.carries (e : Eci) : Bool := e.link == .up || e.link == .retry

/-- A sequenced flit sent and kept until it is acknowledged; none while the retry buffer is full (R402). -/
def State.sendSeq (s : State) (kind : Byte) (payload : List Byte) : State :=
  if !s.eci.room then s else
  let q := s.eci.txSeq
  let bytes := s.sealedFlit kind q payload
  (s.sendFlit kind q payload).modEci fun e => { e with txSeq := e.txSeq + 1, retry := e.retry ++ [{ seq := q, bytes := bytes }] }

/-- A NAK naming the sequence number that the receiver expects (R402); where in the flit it stands is open (log entry 99). -/
def State.sendNak (s : State) : State :=
  let n := s.eci.rxNext
  s.sendFlit 2 n []

/-- Up to `n` DATA flits of the mirror messages that wait, as the retry buffer has room (R402, R408). -/
def State.pumpN : Nat → State → State
  | 0, s => s
  | n + 1, s =>
    if s.eci.stream.isEmpty || !s.eci.carries || !s.eci.room then s else
    State.pumpN n ((s.sendSeq 1 (s.eci.stream.take 228)).modEci fun e => { e with stream := e.stream.drop 228 })
/-- The mirror messages that wait go out in DATA flits, as far as the retry buffer has room. -/
def State.pump (s : State) : State := State.pumpN 1024 s
/-- Mirror messages sent (R408); the messages of all bindings go in the order in which they come (log entry 99). -/
def State.sendMirror (s : State) (bytes : List Byte) : State := (s.modEci fun e => { e with stream := e.stream ++ bytes }).pump

/-- The flits up to `ack` leave the retry buffer (R402). -/
def Eci.acked (e : Eci) (ack : W16) : Eci := { e with retry := e.retry.filter fun f => decide (0x8000 ≤ (ack - f.seq).toNat) }
/-- Whether a replay is in progress: the flit that a NAK names has not come, or one that was replayed is not acknowledged. -/
def Eci.busy (e : Eci) : Bool := e.naked || e.retry.any fun f => f.tries != 0
/-- The state of a link that carries flits: RETRY while a replay is in progress (R403). A link that is UP has its retrain again. -/
def Eci.settle (e : Eci) : Eci :=
  if !e.carries then e else { e with link := if e.busy then .retry else .up, retrained := e.retrained && e.busy }
/-- A link that no longer carries flits: what is not acknowledged and what waits is lost (log entry 99). -/
def Eci.down (e : Eci) (l : EciLink) : Eci :=
  if e.carries then { e with link := l, retry := [], stream := [], naked := false, retrained := false } else { e with link := l }

/-- An event of the pair link: on the PF ring and on the rings of the partitions `ps` (R416). -/
def State.raisePair (s : State) (cause : W16) (ps : List Nat) : State :=
  let (q, s) := s.newFault
  let s := (s.link q cause srcEci none).recPf q cause (Cause.classOf cause) srcEci none 0 []
  ps.foldl (fun s p => s.recPart p q cause (Cause.classOf cause) srcEci 0 []) s

/-- A mirror cause noted in ECI_MIR_STAT. -/
def State.mirCause (s : State) (p : Nat) (cause : W16) : State := s.modMir p fun m => { m with lastCause := cause }

/-- Steps 2 and 3 of a promotion (Table 13.4): where the pool's objects are not all mirrored it is empty, and what the sequences hold
there is to be computed again; where they are, it is what their bytes say. Streams whose state is not mirrored reset. -/
def State.promoteTables (s : State) (p : Nat) : State :=
  let q := (s.part p).seq
  let marked (h : Nat) : Bool := (s.object p h).usable && (s.object p h).mirror
  let kept := marked q.pool.toNat && marked q.metaObj.toNat && marked q.pl.toNat && marked q.content.toNat
  let s := if kept then
      let meta' := (s.peekO p ⟨q.metaObj.toNat, 0⟩ (s.object p q.metaObj.toNat).size.toNat).bytes
      let pl := (s.peekO p ⟨q.pl.toNat, 0⟩ (s.object p q.pl.toNat).size.toNat).bytes
      let block (b : Nat) : Block :=
        let f (i : Nat) : Nat := Config.metaField meta' b i
        { state := (match f 0 % 3 with
            | 0 => .free
            | 1 => .open'
            | _ => .sealed)
          gen := BitVec.ofNat 32 (f 1), pins := BitVec.ofNat 16 (f 2), stamp := BitVec.ofNat 64 (f 3), parent := BitVec.ofNat 64 (f 4)
          hash := if f 5 % 2 = 0 then none else some (BitVec.ofNat 64 (f 6)) }
      let entry (i j : Nat) : Option Nat :=
        let v := fieldAt pl (q.listRef i 0 j).off 4
        if v / max 1 q.planes < q.nblocks then some (v / max 1 q.planes) else none
      let lists := q.table.flatMap fun e => if e.2.state = .empty then [] else
        (List.range q.maxBlocks).map fun j => (4096 * e.1 + j, entry e.1 j)
      s.modSeq p fun q => { q with pool' := (List.range q.nblocks).map fun b => (b, block b), lists := lists }
    else s.modSeq p fun q => { q with
      pool' := [], lists := []
      table := q.table.map fun e => (e.1, if e.2.state = .empty then e.2 else { e.2 with
        recompute := true, rcStart := 0, rcEnd := e.2.pos, tailMissing := e.2.pos.toNat % 64 != 0 }) }
  let t := (s.part p).str.table.map fun e =>
    (e.1, if e.2.state = .empty || marked e.2.handle then e.2 else { e.2 with reset := true })
  s.modStr p fun y => { y with table := t }

/-- Promotion of a twin (Table 13.4). -/
def State.promote (s : State) (p : Nat) : State :=
  if !s.journalOk then s.journalFails else
  let s := s.promoteTables p
  let s := s.modPart p fun x => { x with
    cmd := {}, ltn := { x.ltn with bank0 := tfilter (· < 10) x.ltn.bank0, bank1 := tfilter (· < 10) x.ltn.bank1 }
    mir := { x.mir with state := .promoted } }
  let s := s.note { action := .failover, who := Writer.device, part := some p }
  s.raiseBoth p Cause.pairPromoted srcEci

/-- The peer is lost (R404, R411), `root` being the cause it follows from: primaries that were MIRRORED are ISOLATED, twins are promoted
or report it; the causes reach each ring as one chained record (R474), PAIR_LOST those of every primary and of the twins that wait (R411, R416). -/
def State.peerLost (s : State) (root : Option W16) : State :=
  let lost := s.eci.peerAlive
  let all := s.boundParts
  let m (p : Nat) : Mirror := (s.part p).mir
  let iso := if lost then all.filter fun p => !(m p).standby && (m p).state == .mirrored else []
  let hit := if lost then all.filter fun p => !(m p).standby || ((m p).state == .standby && !(m p).autoFailover) else []
  let go := if lost then all.filter fun p => (m p).standby && (m p).state == .standby && (m p).autoFailover else []
  let s := s.modEci fun e => { e with peerAlive := false }
  let s := if root.isNone && hit.isEmpty then s else
    let (q, s) := s.newFault
    let s := match root with
      | some c => s.link q c srcEci none
      | none => s
    let s := if hit.isEmpty then s else s.link q Cause.pairLost srcEci none
    let top := if hit.isEmpty then root.getD 0 else Cause.pairLost
    let s := s.recPf q top (Cause.classOf top) srcEci none 0 []
    all.foldl (fun s p => if hit.contains p then (s.recPart p q Cause.pairLost 2 srcEci 0 []).mirCause p Cause.pairLost
      else match root with
        | some c => s.recPart p q c (Cause.classOf c) srcEci 0 []
        | none => s) s
  let s := iso.foldl (fun s p => s.modMir p fun m => { m with state := .isolated }) s
  go.foldl (fun s p => s.promote p) s

/-- PAIR_LINK_FAIL (R403, R404): the link is FAILED, and the peer lost at once. -/
def State.pairLinkFail (s : State) : State :=
  if s.eci.carries then ((s.modEci fun e => e.down .failed)).peerLost (some Cause.pairLinkFail) else s

/-- The retry budget of the link is spent. -/
def execPairLinkFail (s : State) : Res := .next s.pairLinkFail

/-- FLIT_RECEIVE (R402, R404): a flit that fails its CRC or tag, or that is out of order, is dropped and answered by a NAK; a good one
acknowledges flits, and DATA that waited for room goes out. -/
def State.flitReceive (s : State) (f : Flit) : State :=
  if !s.eci.carries then s
  else if !(f.crcOk && f.tagOk) then (s.modEci fun e => ({ e with crcErr := satAdd e.crcErr 1, naked := true } : Eci).settle).sendNak
  else
    let sequenced := f.kind == 1 || f.kind == 3
    if sequenced && f.seq != s.eci.rxNext then (s.modEci fun e => ({ e with naked := true } : Eci).settle).sendNak
    else
      let take (e : Eci) : Eci := if sequenced then { e with rxNext := e.rxNext + 1, missCount := 0, naked := false } else e
      (s.modEci fun e => (take (e.acked f.ack)).settle).pump

/-- The receiver takes a flit. -/
def execFlitReceive (f : Flit) (s : State) : Res := .next (s.flitReceive f)

/-- The flits of the retry buffer sent again, byte for byte (R402). -/
def State.replay (s : State) : State := s.eci.retry.foldl (fun s f => s.emit (.flit f.bytes)) s

/-- NAK (R402, R403): what came before `seq` has arrived, and the sender replays from it on, a flit at most eight times. A flit that has been
replayed so often waits for the retrain; with that used, the budget is spent. -/
def State.nak (s : State) (seq : W16) : State :=
  if !s.eci.carries then s else
  let s := s.modEci fun e => (e.acked (seq - 1)).settle
  if s.eci.retry.isEmpty then s.pump
  else if s.eci.retry.any fun f => decide (8 ≤ f.tries) then if s.eci.retrained then s.pairLinkFail else s
  else
    (s.replay.modEci fun e => ({ e with
      replays := satAdd e.replays 1, retry := e.retry.map fun f => { f with tries := f.tries + 1 } } : Eci).settle).pump

/-- The peer expects sequence number `seq`. -/
def execNak (seq : W16) (s : State) : Res := .next (s.nak seq)

/-- ECI_RETRAINS as it stands: while the link trains, it also counts the retrains of lanes that did not become ready, whose number is open
(R428, log entry 99). -/
def State.trainCount (s : State) : W32 := if s.eci.link = .training then satAdd s.eci.retrains (Config.freeNat s.free) else s.eci.retrains

/-- The KEYX flits of this module (R399): an ephemeral secp384r1 key, whose 97 bytes are open, and its signature under the identity key. -/
def State.sendKeyx (s : State) : State :=
  let msg := (List.range 97).map (Config.freeByte s.free) ++ s.signature (s.free + 1)
  (cutInto 228 msg).foldl (fun s x => s.sendClear 5 x) s.useFree.useFree

/-- The link stops in state `l` with a cause (R398, R399). -/
def State.linkStops (s : State) (l : EciLink) (cause : W16) : State := (s.modEci fun e => e.down l).raisePair cause s.boundParts

/-- Whether the peer's key is not that of the bound peer, or not signed by it (R399). -/
def State.peerBad (s : State) (k : PeerKey) : Bool := s.flash.peerDigest != some k.digest || !k.sigOk

/-- The link comes up under a new key (R399). After the one retrain within the budget its flits keep their numbers, and those of the retry buffer
go again; otherwise both sides begin anew (log entry 99). -/
def State.linkUp (s : State) : State :=
  let fresh (e : Eci) : Eci := { e with
    keyNo := e.keyNo + 1, nonce := 0, missCount := 0, peerAlive := e.peerAlive || e.keyNo == 0 }
  if s.eci.link = .retry then (((s.modEci fun e => { fresh e with retrained := true }).replay).modEci fun e => e.settle).pump
  else (s.modEci fun e => { fresh e with link := .up, txSeq := 0, rxNext := 0, retry := [], naked := false, retrained := false }).pump

/-- KEYX (R398, R399, R403): the HELLO exchange and the key exchange at link-up; of a link in RETRY it is the one retrain within the budget. -/
def State.keyx (s : State) (peerSideB : Bool) (digest : BitVec 256) (sigOk : Bool) : State :=
  let e := s.eci
  if !s.fitted || s.pwr.stage != .ready || e.link == .up || (e.link == .retry && e.retrained) then s else
  let n := if e.link = .failed ∨ e.link = .retry then satAdd e.retrains 1 else s.trainCount
  let s := (s.modEci fun e => { e with retrains := n }).useFree.sendClear 4 ((List.range 228).map (Config.hello s.sideB))
  if peerSideB = s.sideB then s.linkStops .training Cause.pairSide else
  let s := s.sendKeyx
  if s.peerBad ⟨digest, sigOk⟩ then s.linkStops .auth Cause.pairPeer else s.linkUp

/-- The exchange at link-up. -/
def execKeyx (peerSideB : Bool) (digest : BitVec 256) (sigOk : Bool) (s : State) : Res := .next (s.keyx peerSideB digest sigOk)

/-- KEY_RENEWAL (R399): after 2^40 flits a new exchange gives a new key, where the peer shows its bound key again; `peer`, where it is given, is
what it shows. -/
def State.keyRenewal (s : State) (peer : Option PeerKey) : State :=
  if !(s.eci.carries && decide (2 ^ 40 ≤ s.eci.nonce.toNat)) then s else
  let s := s.sendKeyx
  if peer.any s.peerBad then s.linkStops .auth Cause.pairPeer else s.modEci fun e => { e with keyNo := e.keyNo + 1, nonce := 0 }

/-- The keys of the link are renewed. -/
def execKeyRenewal (s : State) (peer : Option PeerKey := none) : Res := .next (s.keyRenewal peer)

/-- The code of a mirror state (Table 13.7). -/
def MirState.code : MirState → Nat
  | .none => 0
  | .outOfSync => 1
  | .syncing => 2
  | .mirrored => 3
  | .isolated => 4
  | .standbyEmpty => 5
  | .standby => 6
  | .promoted => 7

/-- KEEPALIVE (R404): a sequenced flit with the partitions' mirror states. -/
def State.keepalive (s : State) : State :=
  let codes := (List.range 32).map fun p => (s.part p).mir.state.code
  if s.eci.carries then s.sendSeq 3 ((List.range 228).map (Config.mirrorStates codes)) else s

/-- The management core sends its keepalive. -/
def execKeepalive (s : State) : Res := .next s.keepalive

/-- Whether an interval without a valid sequenced flit counts (R404): not while the link layer reports progress, nor before there was a peer. -/
def Eci.misses (e : Eci) : Bool := e.link == .up || (e.peerAlive && (e.link == .training || e.link == .auth))

/-- KEEPALIVE_MISS (R404): an interval without a valid sequenced flit; at ECI_KA_MISS of them the peer is lost. -/
def State.keepaliveMiss (s : State) : State :=
  if !s.eci.misses then s else
  let s := s.modEci fun e => { e with missCount := satAdd e.missCount 1 }
  if s.eci.peerAlive && decide (s.eci.kaMiss.toNat ≤ s.eci.missCount.toNat) then s.peerLost none else s

/-- A keepalive interval has passed without a valid sequenced flit. -/
def execKeepaliveMiss (s : State) : Res := .next s.keepaliveMiss

/-- What a delta must carry (R406, R407): what has changed since the last one, and what is sent and not acknowledged. -/
def Mirror.due (m : Mirror) : List Dirty := (m.sent.flatMap (·.items) ++ m.dirty).eraseDups

/-- A message of a delta (R408): header and body. -/
def mirMessage (kind q : Nat) (wm : W32) (body : List Byte) : List Byte :=
  [BitVec.ofNat 8 kind, BitVec.ofNat 8 q, 0, 0] ++ leBytes 4 body.length ++ leBytes 4 wm.toNat ++ leBytes 4 0 ++ body
/-- The body of an ENTRY message (Table 13.2). -/
def entryBody (cls i : Nat) (image : List Byte) : List Byte := [BitVec.ofNat 8 cls, 0, 0, 0] ++ leBytes 4 i ++ image

/-- The bytes of a page of an object as a delta carries them: those of KVP_META are what the pool's records say (log entry 28). -/
def State.pageBytes (s : State) (p h i n : Nat) : List Byte :=
  let q := (s.part p).seq
  if q.started && h == q.metaObj.toNat then
    let f (e : Nat × Block) : List Nat :=
      [e.1, (match e.2.state with
        | .free => 0
        | .open' => 1
        | .sealed => 2), e.2.gen.toNat, e.2.pins.toNat, e.2.stamp.toNat, e.2.parent.toNat, b2n e.2.hash.isSome, (e.2.hash.getD 0).toNat]
    (List.range n).map fun k => Config.metaImage (q.pool'.map f) (4096 * i + k)
  else (s.peekO p ⟨h, 4096 * i⟩ n).bytes

/-- The body of a PAGE message (Table 13.2): the poisoned lines, and the bytes as they stand. -/
def State.pageBody (s : State) (p h i : Nat) : List Byte :=
  let n := min 4096 ((s.object p h).size.toNat - 4096 * i)
  let bad := (List.range 64).filter fun k => decide (64 * k < n) && (s.peekO p ⟨h, 4096 * i + 64 * k⟩ (min 64 (n - 64 * k))).poison.isSome
  leBytes 4 h ++ leBytes 4 0 ++ leBytes 8 (4096 * i) ++ leBytes 8 (maskOf bad) ++ slice (s.pageBytes p h i n) 0 4096

/-- The bodies of what is to be sent, with their message types; `all` stands for every mirrored class in full (R405), with
the prefix key after the SEQ page's registers (log entry 99). -/
def State.deltaBodies (s : State) (p : Nat) (items : List Dirty) : List (Nat × List Byte) :=
  let c := (s.part p).ctl
  let seqE (i : Nat) : Nat × List Byte := (2, entryBody 0 i (s.seqEntry p i).bytes)
  let strE (i : Nat) : Nat × List Byte := (2, entryBody 1 i (s.streamBytes p (s.stream p i)))
  let objE (i : Nat) : Nat × List Byte := (2, entryBody 2 i (s.object p i).bytes)
  let q := (s.part p).seq
  let regs : Nat × List Byte := (2, entryBody 3 0 (q.regBytes c.seqCap.toNat))
  let sync : Nat × List Byte := (2, entryBody 3 0 (q.regBytes c.seqCap.toNat ++ leBytes 16 q.key.toNat))
  let pages (h : Nat) : List (Nat × List Byte) :=
    if (s.object p h).usable && (s.object p h).mirror then
      (List.range (((s.object p h).size.toNat + 4095) / 4096)).map fun i => (3, s.pageBody p h i) else []
  if items.contains .all then
    [sync] ++ (List.range c.seqCap.toNat).map seqE ++ (List.range c.streamCap.toNat).map strE ++ (List.range c.objCap.toNat).map objE
      ++ (List.range c.objCap.toNat).flatMap pages
  else items.flatMap fun d => match d with
    | .seqE i => [seqE i]
    | .strE i => [strE i]
    | .objE i => [objE i]
    | .seqRegs => [regs]
    | .page h i => if (s.object p h).usable && decide (4096 * i < (s.object p h).size.toNat) then [(3, s.pageBody p h i)] else []
    | .all => []

/-- The messages of a delta with these bodies (R408): BEGIN counts the bytes of them all, END the messages, and its digest is over the bodies
before it (log entry 99). -/
def deltaMessages (q : Nat) (wm : W32) (bodies : List (Nat × List Byte)) : List Byte :=
  let total := 16 + 8 + (bodies.map fun b => 16 + b.2.length).sum + 16 + 36
  let first := leBytes 8 total
  mirMessage 1 q wm first ++ bodies.flatMap (fun b => mirMessage b.1 q wm b.2)
    ++ mirMessage 4 q wm (leBytes 4 (bodies.length + 2) ++ digestBytes (Config.sha3 (first ++ bodies.flatMap (·.2))))

/-- A delta sent (R407, R408). -/
def State.sendDelta (s : State) (p : Nat) (wm : W32) (items : List Dirty) : State :=
  let bytes := deltaMessages (s.part p).mir.twin.toNat wm (s.deltaBodies p items)
  (s.sendMirror bytes).modMir p fun m => { m with
    dirty := [], sent := m.sent ++ [{ waymark := wm, items := items }], sentWm := wm, bytes := wrapAdd m.bytes bytes.length }

/-- Whether a binding sends deltas: a primary that is SYNCING or MIRRORED. -/
def Mirror.sends (m : Mirror) : Bool := m.enable && !m.standby && (m.state == .mirrored || m.state == .syncing)

/-- The end of STEP `id` of partition `p`, which `t` shows, in a mirrored partition (R407, R410, R411): an ISOLATED primary commits no STEP; without
commit_ack the completion actions wait while async_depth deltas are not acknowledged; the STEP then makes its delta, and with commit_ack its
record and signal are held until the ACK. `commits` says whether a command so ended has done its completion actions. -/
def State.mirrored (s t : State) (p id : Nat) (commits : Cmd → Bool) : State :=
  let m := (s.part p).mir
  match s.cmd? p id, t.cmd? p id with
  | some c, some d =>
    if !(c.phase == .started && d.phase == .ended && commits d) then t
    else if m.alone || (m.sends && !m.commitAck && decide (m.asyncDepth.toNat ≤ m.sent.length)) then s
    else if m.sends then
      let t := t.sendDelta p c.wm (t.part p).mir.due
      if m.commitAck then t.modMir p fun m => { m with heldSteps := addTo m.heldSteps id } else t
    else t
  | _, _ => t

/-- STEP_COMMIT (R195, R407, R410, R411). -/
def State.stepCommitMirrored (s : State) (p id : Nat) : State :=
  s.mirrored (s.stepCommit p id) p id fun d => d.cause == 0 || d.cause == Cause.poisonWrite

/-- The row of a STEP: one that collects no member ends at once, as its commit would (R191, R407). -/
def State.stepRow (s : State) (p id : Nat) : State := s.mirrored (s.stepCmd p id) p id fun d => d.status == .done && d.cause == 0

/-- Runs STEP `id` of partition `p`. -/
def execStep (p : PartId) (id : Nat) (s : State) (ecc : List EccHit := []) : Res :=
  .next ((s.eccRead p.val id (·.runs 2 0x13) (State.stepReads p.val) ecc).stepRow p.val id)

/-- The end of STEP `id` of partition `p` whose calls are terminal with cause 0. -/
def execStepCommit (p : PartId) (id : Nat) (s : State) (ecc : List EccHit := []) : Res := .next ((s.eccRead p.val id (·.runs 2 0x13) (State.commitReads p.val) ecc).stepCommitMirrored p.val id)

/-- DELTA_ACK (R406, R409 to R411) at side A: the delta and those before it are acknowledged, and their STEPs' records go. -/
def State.deltaAck (s : State) (p : Nat) (wm : W32) : State :=
  let m := (s.part p).mir
  if !(m.sends && m.sent.any (·.waymark == wm)) then s else
  let held := m.heldSteps.filter fun i => (s.cmd? p i).any fun c => !(c.wm == wm || later c.wm wm)
  s.modMir p fun m => { m with
    sent := (m.sent.dropWhile (·.waymark != wm)).drop 1, acked := wm, state := .mirrored, heldSteps := held, bytes := wrapAdd m.bytes 16 }

/-- The ACK of the delta with this waymark reaches side A. -/
def execDeltaAck (p : PartId) (waymark : W32) (s : State) : Res := .next (s.deltaAck p.val waymark)

/-- REFUSE (R411) at side A: PAIR_OVERFLOW, the held records go, and the binding is OUT_OF_SYNC. -/
def State.mirRefused (s : State) (p : Nat) : State :=
  let m := (s.part p).mir
  if !m.sends then s else
  (s.modMir p fun m => { m with
    state := .outOfSync, dirty := m.due, sent := [], heldSteps := [], lastCause := Cause.pairOverflow, bytes := wrapAdd m.bytes 18 }).raiseBoth p
      Cause.pairOverflow srcEci

/-- A REFUSE of the delta reaches side A. -/
def execRefuse (p : PartId) (cause : W16) (s : State) : Res := .next (if cause = Cause.pairOverflow then s.mirRefused p.val else
  (s.mirRefused p.val).mirCause p.val cause)

/-- PEER_BACK (R411): what an ISOLATED primary does with what its twin has become. -/
def State.peerBack (s : State) (p : Nat) (twin : TwinReport) : State :=
  if s.eci.link ≠ .up then s else
  let s := s.modEci fun e => { e with peerAlive := true, missCount := 0 }
  let m := (s.part p).mir
  if !(m.enable && !m.standby && m.state == .isolated) then s else
  match twin with
  | .standby => (s.modMir p fun m => { m with state := .syncing, sent := [] }).sendDelta p m.sentWm m.due
  | .promoted => (s.mirCause p Cause.pairSplit).raiseBoth p Cause.pairSplit srcEci
  | .other => s

/-- The peer answers again, with the state of partition `p`'s twin. -/
def execPeerBack (p : PartId) (twin : TwinReport) (s : State) : Res := .next (s.peerBack p.val twin)

/-- Bytes written at a place of partition `p` by the pair link, whose traffic no regulator holds and no counter counts (R410). -/
def State.pokeQuiet (s : State) (p : Nat) (pl : Place) (off : Nat) (bs : List Byte) : State :=
  let key := (s.part p).ctl.key
  (lineSegs off bs.length).foldl (fun s e =>
    let x := s.phys p pl e.1
    { s with mem := (s.mem.writeLine key x.space x.addr ((bs.drop (e.1 - off)).take e.2)).1 }) s

/-- One entry or page of a delta applied to the twin (R409). -/
def State.applyItem (s : State) (p : Nat) (i : DeltaItem) : State :=
  match i with
  | .seqEntry k bs => s.modSeq p fun q => { q with
      table := tset q.table k (SeqEntry.ofBytes bs (SeqState.ofCode (bitsOf (fieldAt bs 0 4) 0 3)) (fieldAt bs 104 4 != 0)) }
  | .streamEntry k bs => s.modStr p fun y => { y with table := tset y.table k (Stream.ofBytes bs (StreamState.ofCode (bitsOf (fieldAt bs 0 4) 0 3))) }
  | .objEntry k bs => s.modObjs p fun y => { y with table := tset y.table k (Obj.ofBytes bs) }
  | .seqPage bs => s.modSeq p fun q => { q with
      cfg := word32 bs 0, blocks := word32 bs 8, pinLimit := word32 bs 12, pool := BitVec.ofNat 20 (fieldAt bs 16 4)
      metaObj := BitVec.ofNat 20 (fieldAt bs 20 4), pl := BitVec.ofNat 20 (fieldAt bs 24 4), content := BitVec.ofNat 20 (fieldAt bs 28 4)
      givenKey := if bs.length < 48 then q.givenKey else some (BitVec.ofNat 128 (fieldAt bs 32 16)) }
  | .page h off poison bs =>
    (List.range (min bs.length ((s.object p h).size.toNat - off) / 64)).foldl (fun s k =>
      let s := s.pokeQuiet p (s.object p h).src (off + 64 * k) (slice bs (64 * k) 64)
      if bitOf poison.toNat k then
        let x := s.phys p (s.object p h).src (off + 64 * k)
        let (q, s) := s.newFault
        (s.modMem fun m => m.addPoison x.space (x.addr / 64) q).markPoisoned p x.space (x.addr / 64)
      else s) s

/-- A delta written into the staging area of twin `p` (R409): how its bytes stand there is open, and no counter counts them (R410). -/
def State.stage (s : State) (p bytes : Nat) : State :=
  let top := gib * (s.part p).ctl.hbmGib.toNat - 1048576 * (s.part p).mir.stageMib.toNat
  (s.pokeQuiet p { home := .h, addr := BitVec.ofNat 64 top } 0 ((List.range bytes).map (Config.freeByte s.free))).useFree

/-- DELTA_END (R409, R411) at side B: a delta that is larger than the staging area is refused; one that passes END's check is
acknowledged and applied, the object entries first, so that its pages find their objects. A full one carries the primary's prefix key. -/
def State.deltaEnd (s : State) (p : Nat) (wm : W32) (full : Bool) (bytes : Nat) (items : List DeltaItem) (ok : Bool) : State :=
  let m := (s.part p).mir
  let q := m.twin.toNat
  if !(m.enable && m.standby && (m.state == .standbyEmpty || m.state == .standby)) then s
  else if 1048576 * m.stageMib.toNat < bytes then
    (s.sendMirror (mirMessage 6 q wm (leBytes 2 Cause.pairOverflow.toNat))).modMir p fun m => { m with
      lastCause := Cause.pairOverflow, bytes := wrapAdd m.bytes (bytes + 18) }
  else
    let s := s.stage p bytes
    if !ok then s.modMir p fun m => { m with bytes := wrapAdd m.bytes bytes } else
    let isPage (i : DeltaItem) : Bool := match i with
      | .page .. => true
      | _ => false
    let s := s.sendMirror (mirMessage 5 q wm [])
    let s := (items.filter fun i => !isPage i).foldl (fun s i => s.applyItem p i) s
    let s := (items.filter isPage).foldl (fun s i => s.applyItem p i) s
    s.modMir p fun m => { m with acked := wm, bytes := wrapAdd m.bytes (bytes + 16), state := if full then .standby else m.state }

/-- Side B has received a delta for twin `p`. -/
def execDeltaEnd (p : PartId) (waymark : W32) (full : Bool) (bytes : Nat) (items : List DeltaItem) (digestOk : Bool) (s : State) : Res :=
  .next (s.deltaEnd p.val waymark full bytes items digestOk)

/-- Whether shapes match (R412). -/
def State.shapeOk (s : State) (p : Nat) (t : TwinShape) : Bool :=
  let c := (s.part p).ctl
  t.sameStepping && t.quads == c.quads.toNat && (List.range 20).all (fun i => nth 0 t.hamper i == c.grant i) && t.lpddrGib == c.lpddrGib.toNat
    && t.seqCap == c.seqCap.toNat && t.streamCap == c.streamCap.toNat && t.objCap == c.objCap.toNat && t.listCap == c.listCap.toNat
    && t.hbmGib == c.hbmGib.toNat + (t.stageMib + 1023) / 1024

/-- A write of ECI_MIR_CMD (R411): a command with no row of Table 13.3 for the state is rejected. Where the twin's shape is not given, it
is open whether it matches; a sync's waymark is open too. -/
def State.mirCmd (s : State) (p cmd : Nat) (twin : Option TwinShape) : RegW :=
  let m := (s.part p).mir
  let finishW (w : RegW) : RegW :=
    { w with s := (if w.cause = 0 then w.s else w.s.mirCause p w.cause).modEci fun e => { e with cmdResult := w.cause } }
  let bad : RegW := RegW.no s Cause.pairState
  finishW (match cmd, m.state with
  | 1, .outOfSync =>
    if (s.part p).ctl.state != .stopped then bad else
    let (ok, s) := match twin with
      | some t => (s.shapeOk p t, s)
      | none => (Config.freeBool s.free 0, s.useFree)
    if !ok then RegW.no s Cause.pairShape
    else { s := (s.useFree.modMir p fun m => { m with state := .syncing, sent := [] }).sendDelta p (BitVec.ofNat 32 (Config.freeNat s.free)) [.all] }
  | 2, .standby => { s := s.promote p }
  | 3, .isolated | 3, .outOfSync => { s := s.modMir p fun m => { m with state := .none, enable := false, dirty := [], sent := [], heldSteps := [] } }
  | 4, .promoted | 4, .standbyEmpty | 4, .standby => { s := s.modMir p fun m => { m with state := .none, enable := false } }
  | _, _ => bad)

/-- Whether an object of the partition reaches into the top `mib` MiB of its H space (R409). -/
def State.inStage (s : State) (p mib : Nat) : Bool :=
  let top := gib * (s.part p).ctl.hbmGib.toNat - 1048576 * mib
  (s.part p).obj.table.any fun e => e.2.usable && e.2.src.home == .h && decide (top < e.2.src.addr.toNat + e.2.size.toNat)

/-- ECI_MIR_CTRL[p] as it reads (Table 13.6). -/
def Mirror.ctrl (m : Mirror) : Nat :=
  2 ^ 31 * b2n m.enable + 2 ^ 30 * b2n m.standby + 2 ^ 29 * b2n m.commitAck + 2 ^ 28 * b2n m.autoFailover + 2 ^ 24 * m.asyncDepth.toNat
    + 2 ^ 16 * m.twin.toNat + m.stageMib.toNat

/-- A write of ECI_MIR_CTRL[p] (R398, R409, R411, Table 13.6). An enabled binding keeps its role, twin and staging area and is not
disabled by a write: no row of Table 13.3 does so. -/
def State.mirCtrl (s : State) (p v : Nat) : RegW :=
  let m := (s.part p).mir
  let standby := bitOf v 30
  let depth := bitsOf v 24 4
  let stage := bitsOf v 0 16
  let twin := bitsOf v 16 5
  let en := bitOf v 31
  let set (s : State) (st : MirState) : State := s.modMir p fun m => { m with
    enable := en, standby := standby, commitAck := bitOf v 29, autoFailover := bitOf v 28, asyncDepth := BitVec.ofNat 4 depth
    twin := BitVec.ofNat 5 twin, stageMib := BitVec.ofNat 16 stage, state := st }
  if !s.fitted then RegW.no s Cause.pairAbsent
  else if depth = 0 || standby != s.sideB || (if standby then decide (stage < 64) || decide (16384 < stage) else stage != 0) then RegW.no (s.mirCause p Cause.pairParam) Cause.pairParam
  else if m.enable then
    if !en || standby != m.standby || twin != m.twin.toNat || stage != m.stageMib.toNat then RegW.no (s.mirCause p Cause.pairState) Cause.pairState
    else { s := set s m.state }
  else if !en then { s := set s .none }
  else if standby then
    if s.inStage p stage then RegW.no (s.mirCause p Cause.pairParam) Cause.pairParam else { s := set s .standbyEmpty }
  else { s := (set s .outOfSync).modMir p fun m => { m with dirty := [.all], sent := [], heldSteps := [] } }

end Sys2Proof.Machine
end

