-- ==== Sys2Proof/Machine/Sideband.lean ====
section
/-!
DEFINITION. The management sideband (R435 to R443): the I3C target, MCTP control, and the two vendor commands that need no session.
-/

namespace Sys2Proof.Machine

/-- Whether the sideband answers: the management core has power. -/
def State.sidebandUp (s : State) : Bool := s.powered && s.pins.pwrGood
/-- Whether it takes direct CCCs and private transfers: no reset of the management core is in progress (R439). -/
def State.sidebandOpen (s : State) : Bool := s.sidebandUp && s.pins.resetN

/-- A dynamic address taken (R437, R443). -/
def State.takeAddress (s : State) (addr : BitVec 7) : State :=
  s.modMgmt fun m => { m with dynValid := true, dynAddr := addr, hjPending := false, pid := some s.flash.pidLo }

/-- ENTDAA (R439): a module without a dynamic address takes the one it wins. -/
def State.entdaa (s : State) (addr : BitVec 7) : State := if s.sidebandUp && !s.mgmt.dynValid then s.takeAddress addr else s

/-- The board manager assigns `addr` to this module. -/
def execEntdaa (addr : BitVec 7) (s : State) : Res := .next (s.entdaa addr)

/-- RSTDAA (R439): the dynamic address and the endpoint id are lost. -/
def State.rstdaa (s : State) : State :=
  if s.sidebandUp then s.modMgmt fun m => { m with dynValid := false, dynAddr := 0, eid := 0 } else s

/-- The board manager resets the dynamic addresses. -/
def execRstdaa (s : State) : Res := .next s.rstdaa

/-- The static address (R437). -/
def State.staticAddr (s : State) : BitVec 7 := BitVec.ofNat 7 (0x30 + bitsOf s.pins.straps.toNat 5 3)

/-- SETDASA (R437): a module that has no dynamic address answers on its static one. -/
def State.setdasa (s : State) (static addr : BitVec 7) : State :=
  if s.sidebandOpen && !s.mgmt.dynValid && static == s.staticAddr then s.takeAddress addr else s

/-- The board manager sets the dynamic address of the module at a static one. -/
def execSetdasa (static addr : BitVec 7) (s : State) : Res := .next (s.setdasa static addr)

/-- SETNEWDA (R435). -/
def State.setnewda (s : State) (current addr : BitVec 7) : State :=
  if s.sidebandOpen && s.mgmt.dynValid && current == s.mgmt.dynAddr then s.takeAddress addr else s

/-- The board manager changes a dynamic address. -/
def execSetnewda (current addr : BitVec 7) (s : State) : Res := .next (s.setnewda current addr)

/-- ENEC and DISEC (R435, R439): the enables named are set to `on`; a Hot-Join request that may no longer be made is withdrawn. -/
def State.busEnables (s : State) (ibi hotJoin on : Bool) : State :=
  if !s.sidebandUp then s else
  s.modMgmt fun m => { m with
    ibiEn := if ibi then on else m.ibiEn, hjEn := if hotJoin then on else m.hjEn, hjPending := m.hjPending && !(hotJoin && !on) }

/-- The board manager enables events. -/
def execEnec (ibi hotJoin : Bool) (s : State) : Res := .next (s.busEnables ibi hotJoin true)
/-- The board manager disables events. -/
def execDisec (ibi hotJoin : Bool) (s : State) : Res := .next (s.busEnables ibi hotJoin false)

/-- What a direct read answers; nothing where the sideband does not answer. -/
def State.directRead (s : State) (v : Nat) : State := if s.sidebandOpen then s.answer { words := [BitVec.ofNat 64 v] } else s

/-- The provisioned id (R438, R443). -/
def State.provisioned (s : State) : Nat := 2 ^ 33 * s.fuse.mipi.toNat + (s.mgmt.pid.getD s.flash.pidLo).toNat

/-- The stage code of R440, R456 and Table 15.8. -/
def Stage.code : Stage → Nat
  | .fwStart => 1
  | .ready => 2
  | .recovery => 3
  | _ => 0

/-- The status word of R440. -/
def State.busStatus (s : State) : Nat :=
  min 15 s.mgmt.alerts.length + 256 * b2n s.sec.debug + 512 * b2n s.sec.jrnFailed + 1024 * b2n s.sec.lockedOut
    + 2048 * b2n (!s.mgmt.alerts.isEmpty) + 4096 * b2n s.thermLow + 8192 * s.pwr.stage.code

/-- The board manager reads the provisioned id (R438). -/
def execGetpid (s : State) : Res := .next (s.directRead s.provisioned)
/-- The board manager reads BCR (R435). -/
def execGetbcr (s : State) : Res := .next (s.directRead 0x0E)
/-- The board manager reads DCR (R435). -/
def execGetdcr (s : State) : Res := .next (s.directRead 0)
/-- The board manager reads the status (R440). -/
def execGetstatus (s : State) : Res := .next (s.directRead s.busStatus)
/-- The board manager reads the maximum read length (R435). -/
def execGetmrl (s : State) : Res := .next (s.directRead s.mgmt.mrl.toNat)
/-- The board manager reads the maximum write length (R435). -/
def execGetmwl (s : State) : Res := .next (s.directRead s.mgmt.mwl.toNat)

/-- The board manager sets the maximum read length (R435). -/
def execSetmrl (len : W16) (s : State) : Res := .next (if s.sidebandUp then s.modMgmt fun m => { m with mrl := len } else s)
/-- The board manager sets the maximum write length (R435). -/
def execSetmwl (len : W16) (s : State) : Res := .next (if s.sidebandUp then s.modMgmt fun m => { m with mwl := len } else s)

/-- MCTP control (R441): the bus owner sets the endpoint id, or asks for it. -/
def State.mctpControl (s : State) (eid : Option Byte) : State :=
  if !s.sidebandOpen then s else
  match eid with
  | some e => (s.modMgmt fun m => { m with eid := e }).answer { bytes := [e] }
  | none => s.answer { bytes := [s.mgmt.eid] }

/-- Whether ALERT_N is low (R436): the queue holds an entry that MGMT_ALERT_MASK does not mask (Table 14.12). -/
def State.alertLow (s : State) : Bool :=
  let m := s.mgmt.alertMask.toNat
  s.mgmt.alerts.any fun x =>
    let hi := x.cause.toNat / 256
    !((x.cls == 3 && bitOf m 0) || (hi == 0x0B && bitOf m 1) || (hi == 0x0C && bitOf m 2))

/-- An MCTP control message of the bus owner. -/
def execMctpControl (eid : Option Byte) (s : State) : Res := .next (s.mctpControl eid)

/-- The response of STATUS_GET (Table 14.11). -/
def State.statusBytes (s : State) : List Byte :=
  let w := s.pwr
  leBytes 2 w.milliVolt.toNat ++ leBytes 2 w.tenMilliAmp.toNat ++ leBytes 2 w.avgWatt.toNat ++ leBytes 2 w.inlet.toNat
    ++ leBytes 2 w.outlet.toNat ++ leBytes 2 w.hottest.toNat
    ++ [BitVec.ofNat 8 w.stage.code, BitVec.ofNat 8 (b2n s.thermLow + 2 * b2n (!s.mgmt.alerts.isEmpty) + 4 * b2n (w.stage == .recovery))]
    ++ leBytes 2 s.envelope ++ leBytes 4 (maskOf ((List.range 32).filter fun p => (s.part p).ctl.state == .running))
    ++ leBytes 8 s.ev.seq.toNat ++ leBytes 4 0

/-- STATUS_GET (R441). -/
def execStatusGet (s : State) : Res := .next (if s.sidebandOpen then s.answer { bytes := s.statusBytes } else s)

/-- ALERT_GET (R441): the oldest queued record leaves the queue. -/
def State.alertGet (s : State) : State :=
  if !s.sidebandOpen then s else
  match s.mgmt.alerts with
  | [] => s.answer { bytes := List.replicate 32 0 }
  | x :: rest => (s.modMgmt fun m => { m with alerts := rest }).answer { bytes := x.bytes }

/-- The board manager takes the oldest alert. -/
def execAlertGet (s : State) : Res := .next s.alertGet

end Sys2Proof.Machine
end

