-- ==== Sys2Proof/Machine/Roles.lean ====
section
/-!
DEFINITION. Roles, trust, SPDM, measurements, firmware, TDISP, maker debug (chapter 10, R372, R373, R442). The messages that write
registers are in SessionRows.lean.
-/

namespace Sys2Proof.Machine

/-- Whether the device serves messages on a transport: the management core has power and no reset of it is in progress; the PF mailbox
before READY only with host push or in RECOVERY (R460); a VF's mailbox from READY on, while the VF is enabled. -/
def State.serves (s : State) (t : Transport) : Bool :=
  s.sidebandOpen && (match t with
    | .sideband => true
    | .pfDoe => s.hostUp && (s.pwr.stage == .ready || s.pwr.stage == .recovery || !bitOf s.pins.straps.toNat 8)
    | .vfDoe p => s.hostUp && s.pwr.stage == .ready && (s.part p.val).vf.enabled)
/-- Whether it serves more than the recovery services of R442. -/
def State.servesAll (s : State) : Bool := s.pwr.stage != .recovery

/-- A request and a response on the mailbox of VF `p + 1` counted (R365): the data objects, at most 1 MiB each (R372), with what SPDM puts around
a message, which is open. -/
def State.countDoe (s : State) (p : Nat) (r : Reply) : State :=
  if !s.live p then s else
  let u := s.free
  let request := 64 * (1 + Config.freeNat u % 16384)
  ((s.useFrees 2).countHost p request true).countHost p (r.bytes.length + 8 * r.words.length + 1 + Config.freeNat (u + 1) % 64) true
/-- A response on a transport; on the PF mailbox it raises vector 1 (Table 11.3). -/
def State.respond (s : State) (t : Transport) (r : Reply) : State :=
  match t with
  | .pfDoe => (s.answer r).msixPf 1
  | .vfDoe p => (s.answer r).countDoe p.val r
  | .sideband => s.answer r
/-- A message refused with an error of its own protocol. -/
def State.refuseMsg (s : State) (t : Transport) : State := s.respond t { refused := true }

/-- The SPDM responder of a transport (R327): its place in the table. -/
def portNo : Transport → Nat
  | .pfDoe => 0
  | .sideband => 1
  | .vfDoe p => 2 + p.val
/-- The responder of a transport. -/
def State.spdm (s : State) (t : Transport) : SpdmPort := tget {} s.sec.ports (portNo t)
/-- The state with the responder of a transport changed. -/
def State.modSpdm (s : State) (t : Transport) (f : SpdmPort → SpdmPort) : State :=
  s.modSec fun x => { x with ports := tmod {} x.ports (portNo t) f }

/-- A response that the requester may also take in chunks (R327): the responder keeps it, under the next handle. -/
def State.respondLarge (s : State) (t : Transport) (bs : List Byte) : State :=
  let s := s.modSpdm t fun x => { x with response := bs, respHandle := x.respHandle + 1, respNext := 0 }
  s.respond t { bytes := bs, words := [BitVec.ofNat 64 (s.spdm t).respHandle.toNat] }

/-- GET_VERSION (R327): the connection starts anew. -/
def State.getVersion (s : State) (t : Transport) : State :=
  if !s.serves t then s else (s.modSpdm t fun x => { x with version := true, capabilities := false, negotiated := false }).respond t { words := [0x13] }
/-- A requester asks which SPDM versions the device speaks: 1.3 alone. -/
def execGetVersion (t : Transport) (s : State) : Res := .next (s.getVersion t)

/-- GET_CAPABILITIES (R327), the request that fixes the version of a connection: one of another version than 1.3 is refused (log entry 95);
the flags that SPDM lays down for the response are not the spec's. -/
def State.getCapabilities (s : State) (t : Transport) (version : Byte) : State :=
  if !s.serves t then s
  else if !(s.spdm t).version || version != 0x13 then s.refuseMsg t
  else (s.useFree.modSpdm t fun x => { x with capabilities := true }).respond t { words := [BitVec.ofNat 64 (Config.freeNat s.free)] }
/-- A requester asks for the device's capabilities. -/
def execGetCapabilities (t : Transport) (s : State) (version : Byte := 0x13) : Res := .next (s.getCapabilities t version)

/-- NEGOTIATE_ALGORITHMS (R327): a requester that does not offer the device's algorithms is refused. -/
def State.negotiate (s : State) (t : Transport) (offered : Bool) : State :=
  if !s.serves t then s
  else if !(s.spdm t).capabilities || !offered then s.refuseMsg t
  else (s.modSpdm t fun x => { x with negotiated := true }).respond t {}
/-- A requester offers algorithms. -/
def execNegotiateAlgorithms (t : Transport) (offered : Bool) (s : State) : Res := .next (s.negotiate t offered)

/-- The stepping that the device certificate names (the ID page's). -/
def stepping : Nat := 0xB0
/-- The device's certificate chain in slot 0 (R341): the device certificate is for its identity key and names serial number, grade and stepping. -/
def State.chain0 (s : State) : List Byte :=
  Config.certChain s.identityKey s.fuse.serial s.fuse.grade.code stepping

/-- GET_DIGESTS (R341). -/
def State.getDigests (s : State) (t : Transport) : State :=
  if !s.serves t then s
  else if !(s.spdm t).negotiated then s.refuseMsg t
  else s.respondLarge t (digestBytes (Config.sha3 s.chain0))
/-- A requester asks for the digests of the certificate slots. -/
def execGetDigests (t : Transport) (s : State) : Res := .next (s.getDigests t)

/-- GET_CERTIFICATE (R341): slot 0 alone holds a chain. -/
def State.getCertificate (s : State) (t : Transport) (slot : Byte) (offset length : W16) : State :=
  if !s.serves t then s
  else if !(s.spdm t).negotiated || slot != 0 then s.refuseMsg t
  else s.respondLarge t ((s.chain0.drop offset.toNat).take length.toNat)
/-- A requester asks for a part of a certificate chain. -/
def execGetCertificate (t : Transport) (slot : Byte) (offset length : W16) (s : State) : Res := .next (s.getCertificate t slot offset length)

/-- CHALLENGE (R341): not a recovery service. -/
def State.challenge (s : State) (t : Transport) : State :=
  if !s.serves t || !s.servesAll then s
  else if !(s.spdm t).negotiated then s.refuseMsg t
  else s.useFree.respondLarge t (digestBytes (Config.sha3 s.chain0) ++ s.signature s.free)
/-- A requester challenges the device; its nonce enters the signature alone. -/
def execChallenge (t : Transport) (_nonce : List Byte) (s : State) : Res := .next (s.challenge t)

/-- The fused hash that the key of a maker slot must match (Table 10.1). -/
def Fuses.hashOf (f : Fuses) (slot : Nat) : BitVec 256 := tget (Config.sha3 (Config.makerKey slot)) f.makerHash slot
/-- Whether the key of a maker slot matches its fused hash (Table 10.1). -/
def Fuses.matches (f : Fuses) (slot : Nat) : Bool := (f.makerHash.lookup slot).all (· == Config.sha3 (Config.makerKey slot))

/-- The values behind measurement 4: the fuses (Table 10.6). -/
def State.fuseValues (s : State) : List Nat :=
  [if s.fuse.grade = .se880a then 0 else 1] ++ (List.range 80).map (fun k => maskOf (s.quadMembers (k / 4) (k % 4)))
    ++ (List.range s.fuse.grade.quads).map (fun q => (s.qloc q).1 + 32 * (s.qloc q).2)
    ++ [(s.fuse.hashOf 0).toNat, (s.fuse.hashOf 1).toNat, b2n s.fuse.revoked]
/-- The values behind measurement 8: the retire list. -/
def State.retireValues (s : State) : List Nat := s.flash.retired.map fun r => r.2.toNat + 2 ^ 32 * r.1.code
/-- The values behind measurement 11: the partition map. -/
def State.mapValues (s : State) : List Nat :=
  (List.range 80).map (fun q => (s.quadOwner q).getD 0xFF) ++ (List.range 32).flatMap fun p =>
    let c := (s.part p).ctl
    (List.range 20).map c.grant ++ c.hmap ++ [256] ++ c.lmap ++ [512]
/-- A virtual port's settings, as numbers. -/
def VPort.values (v : VPort) : List Nat :=
  [b2n v.enable, v.pcp.toNat, v.vid.toNat, v.mtu.toNat, v.macLo.toNat, v.macHi.toNat, v.ipv4.toNat, v.ipv6a.toNat, v.ipv6b.toNat]
/-- The settings of a regulator, as numbers. -/
def Regulator.values (r : Regulator) : List Nat := [r.weight.toNat, r.period.toNat, r.cap.toNat]
/-- The values behind measurement 0x20 + p: state, settings, virtual ports, mirror binding, configuration generation (Table 10.6). -/
def State.partValues (s : State) (p : Nat) : List Nat :=
  let x := s.part p
  let c := x.ctl
  [c.state.code, c.quads.toNat] ++ (List.range 80).map c.quadAt ++ (List.range 20).map c.grant
    ++ [c.seqCap.toNat, c.streamCap.toNat, c.objCap.toNat, c.listCap.toNat, c.hbmGib.toNat, c.lpddrGib.toNat, c.cdcGrant.toNat, c.drainLimit.toNat]
    ++ (List.range 5).flatMap (fun r => (x.mtr.reg r).values) ++ [x.mtr.meshWeight.toNat]
    ++ (List.range 64).flatMap (fun v => (tget {} x.net.vports v).values) ++ [x.mir.ctrl, c.cfgGen.toNat]

/-- The key in a credential slot that CLAIM or CRED_INSTALL fills; empty: no key (R322). -/
def State.credKey (s : State) (slot : Nat) : List Byte := if s.sec.lockedOut then [] else tget [] s.flash.creds slot

/-- Digest measurement 0x20 + p. -/
def State.partDigest (s : State) (p : Nat) : BitVec 256 := Config.sha3 (Config.measured (0x20 + p) (s.partValues p))

/-- A measurement block (Table 10.6); none: the table has no such index. -/
def State.measurement (s : State) (i : Nat) : Option (List Byte) :=
  match i with
  | 1 => some (digestBytes Config.bootRom)
  | 2 => some (digestBytes s.flash.running.digest)
  | 3 => some (leBytes 4 (s.flash.running.svn.toNat + 65536 * s.flash.fusedSvn.toNat))
  | 4 => some (digestBytes (Config.sha3 (Config.measured 4 s.fuseValues)))
  | 5 => some (leBytes 4 s.pins.straps.toNat)
  | 6 => some (digestBytes (Config.sha3 (s.credKey 0x10 ++ leBytes 4 s.flash.policy.toNat)))
  | 7 => some (digestBytes (Config.sha3 ((List.range 4).flatMap fun k =>
      let key := s.credKey (0x20 + k)
      if key.isEmpty then List.replicate 32 0 else key)))
  | 8 => some (digestBytes (Config.sha3 (Config.measured 8 s.retireValues)))
  | 9 => some (match s.flash.journal with
      | [] => List.replicate 36 0
      | e :: _ => leBytes 4 e.index.toNat ++ digestBytes e.link)
  | 10 => some (leBytes 4 (b2n s.sec.debug + 2 * b2n s.sec.lockedOut))
  | 11 => some (digestBytes (Config.sha3 (Config.measured 11 s.mapValues)))
  | i => if 0x20 ≤ i ∧ i < 0x40 then some (digestBytes (s.partDigest (i - 0x20))) else none

/-- The indices of Table 10.6. -/
def measureIndices : List Nat := (List.range 11).map (· + 1) ++ (List.range 32).map (0x20 + ·)

/-- Whether the mailbox of a transport shows a measurement (R342): a VF's shows 1 to 5, 10 and its own partition's. -/
def measureShown (t : Transport) (i : Nat) : Bool :=
  match t with
  | .vfDoe p => (decide (1 ≤ i) && decide (i ≤ 5)) || i == 10 || i == 0x20 + p.val
  | _ => true

/-- The indices of Table 10.6 whose value is raw. -/
def measureRaw (i : Nat) : Bool := [3, 5, 9, 10].contains i
/-- A block in the DMTF measurement format (R342): index, the code 1 of that format, its size, then type, size and value; bit 7 of the type
says raw. The kinds of value in its other bits are open (log entry 98). An index that a tenant does not get returns an empty block. -/
def State.measureBlock (s : State) (t : Transport) (i : Nat) : List Byte :=
  match if measureShown t i then s.measurement i else none with
  | none => [BitVec.ofNat 8 i, 1, 0, 0]
  | some v =>
    [BitVec.ofNat 8 i, 1] ++ leBytes 2 (v.length + 3)
      ++ BitVec.ofNat 8 (128 * b2n (measureRaw i) + (Config.measureType i).toNat) :: (leBytes 2 v.length ++ v)

/-- GET_MEASUREMENTS (R342): one block, or every block, and the signature; not a recovery service. Index 0 asks for their number. -/
def State.getMeasurements (s : State) (t : Transport) (index : Option Byte) : State :=
  if !s.serves t || !s.servesAll then s
  else if !(s.spdm t).negotiated then s.refuseMsg t
  else
    let is := match index with
      | none => measureIndices
      | some i => if i = 0 then [] else [i.toNat]
    s.useFree.respondLarge t (BitVec.ofNat 8 (if index = some 0 then measureIndices.length else is.length) :: is.flatMap (s.measureBlock t) ++ s.signature s.free)
/-- A requester asks for measurements; its nonce enters the signature alone. -/
def execGetMeasurements (t : Transport) (index : Option Byte) (_nonce : List Byte) (s : State) : Res := .next (s.getMeasurements t index)

/-- Whether the mailbox of a VF takes a message (R372): only those that the rule lists. -/
def vfMailbox : Transport → Bool
  | .vfDoe _ => true
  | _ => false
/-- The most bytes that a request may have: a DOE object is at most 1 MiB (R372). -/
def doeMost : Transport → Nat
  | .sideband => 2 ^ 32
  | _ => 1048576

/-- Whether a transport takes chunks at all, and the request stays short enough with one more (R372). -/
def State.chunkFits (s : State) (t : Transport) (seqNo : W16) (chunk : List Byte) : Bool :=
  !vfMailbox t && decide ((if seqNo = 0 then [] else (s.spdm t).request).length + chunk.length ≤ doeMost t)

/-- CHUNK_SEND (R327, R372): a chunk of a large request, in order; a chunk out of order ends it, and so does one that makes it too long. -/
def State.chunkSend (s : State) (t : Transport) (handle : Byte) (seqNo : W16) (last : Bool) (chunk : List Byte) : State :=
  if !s.serves t then s else
  let x := s.spdm t
  if !s.chunkFits t seqNo chunk then (s.modSpdm t fun x => { x with chunkNext := 0, request := [] }).refuseMsg t
  else if seqNo = 0 then (s.modSpdm t fun x => { x with chunkHandle := handle, chunkNext := if last then 0 else 1, request := chunk }).respond t {}
  else if handle == x.chunkHandle && seqNo == x.chunkNext then
    (s.modSpdm t fun x => { x with chunkNext := if last then 0 else x.chunkNext + 1, request := x.request ++ chunk }).respond t {}
  else (s.modSpdm t fun x => { x with chunkNext := 0, request := [] }).refuseMsg t

/-- CHUNK_GET (R327): the next chunk of the last large response; the size of a chunk is open. -/
def State.chunkGet (s : State) (t : Transport) (handle : Byte) (seqNo : W16) : State :=
  if !s.serves t then s else
  let x := s.spdm t
  if vfMailbox t || handle != x.respHandle || seqNo != x.respNext || x.response.isEmpty then s.refuseMsg t else
  let n := Config.freeNat s.free % x.response.length + 1
  (s.useFree.modSpdm t fun x => { x with response := x.response.drop n, respNext := x.respNext + 1 }).respond t { bytes := x.response.take n }
/-- A requester asks for a chunk of a large response. -/
def execChunkGet (t : Transport) (handle : Byte) (seqNo : W16) (s : State) : Res := .next (s.chunkGet t handle seqNo)

/-- DOE_DISCOVERY (R372): the data object types of a mailbox, with the codes that PCIe gives them. -/
def State.doeDiscovery (s : State) (p : Option PartId) (index : Byte) : State :=
  let t : Transport := match p with
    | none => .pfDoe
    | some p => .vfDoe p
  if !s.serves t then s else
  let n := if p.isNone then 3 else 2
  let i := index.toNat
  s.respond t { words := [if i < n then BitVec.ofNat 64 (1 + 65536 * i + 16777216 * (if i + 1 < n then i + 1 else 0)) else 0xFFFF] }
/-- DOE Discovery on the PF's mailbox (`none`) or a VF's. -/
def execDoeDiscovery (p : Option PartId) (index : Byte) (s : State) : Res := .next (s.doeDiscovery p index)

/-- The role of a credential slot (Table 10.1). -/
def credRole (cred : Byte) : Option Role :=
  if cred = 0 ∨ cred = 1 then some .maker
  else if cred = 0x10 then some .installer
  else if 0x20 ≤ cred.toNat ∧ cred.toNat ≤ 0x23 then some .operator else none
/-- Whether a slot holds a key that opens sessions (Table 10.1): a maker's whose key matches its fused hash, slot 0x00 until it is revoked. -/
def State.credValid (s : State) (cred : Byte) : Bool :=
  match credRole cred with
  | none => false
  | some .maker => s.fuse.matches cred.toNat && !(cred == 0 && s.fuse.revoked)
  | some _ => !(s.credKey cred.toNat).isEmpty

/-- A session refused with AUTH_FAIL, counted (R328). -/
def State.authFails (s : State) (t : Transport) : State :=
  (s.modSec fun x => { x with authFails := satAdd x.authFails 1 }).respond t { cause := Cause.authFail }

/-- KEY_EXCHANGE (R323, R328, R329, R372, R442, Table 10.9): the handshake takes the lowest free session number. Unclaimed, the device
accepts sessions of the maker only. -/
def State.keyExchange (s : State) (t : Transport) (cred heartbeat : Byte) : State :=
  if !s.serves t then s else
  if vfMailbox t || !(s.spdm t).negotiated then s.refuseMsg t else
  match credRole cred with
  | none => s.authFails t
  | some r =>
    if !s.credValid cred || (r != .maker && (s.credKey 0x10).isEmpty) then s.authFails t
    else if r == .operator && !s.servesAll then s.refuseMsg t
    else if r == .operator && t == .sideband && !bitOf s.flash.policy.toNat 2 then s.respond t { cause := Cause.ownerDenied }
    else if s.sec.sessions.any fun e => e.2.any fun x => x.cred == cred && x.transport == t then s.respond t { cause := Cause.sessionLimit }
    else
      match (List.range 8).find? fun i => (s.session? i).isNone with
      | none => s.respond t { cause := Cause.sessionLimit }
      | some i =>
        let x : SpdmSession := { cred := cred, role := r, transport := t, established := false, heartbeat := heartbeat }
        (s.modSec fun y => { y with sessions := tset y.sessions i (some x) }).respond t { words := [BitVec.ofNat 64 i] }
/-- A requester begins a session under a credential. -/
def execKeyExchange (t : Transport) (cred heartbeat : Byte) (s : State) : Res := .next (s.keyExchange t cred heartbeat)

/-- The state with session `sid` changed. -/
def State.modSpdmSession (s : State) (sid : Nat) (f : SpdmSession → SpdmSession) : State :=
  s.modSec fun x => { x with sessions := tmod none x.sessions sid (·.map f) }

/-- FINISH (R328): a signature that verifies opens the session; one that fails ends the exchange. -/
def State.finishMsg (s : State) (sid : Nat) (sigOk : Bool) : State :=
  match s.session? sid with
  | none => s
  | some x =>
    if !s.serves x.transport then s
    else if x.established then s.refuseMsg x.transport
    else if sigOk && s.credValid x.cred then (s.modSpdmSession sid fun y => { y with established := true }).respond x.transport {}
    else (s.endSession sid).authFails x.transport
/-- The requester of handshake `sid` finishes it. -/
def execFinish (sid : Nat) (sigOk : Bool) (s : State) : Res := .next (s.finishMsg sid sigOk)

/-- What a message inside session `sid` does, where the session is open and its transport is served. -/
def State.inSession (s : State) (sid : Nat) (f : SpdmSession → State) : State :=
  match s.open? sid with
  | none => s
  | some x => if s.serves x.transport then f x else s

/-- HEARTBEAT (R329): the session has had a message. -/
def execHeartbeat (sid : Nat) (s : State) : Res := .next (s.inSession sid fun x => s.respond x.transport {})
/-- KEY_UPDATE (R327): the session's keys are replaced. -/
def execKeyUpdate (sid : Nat) (s : State) : Res :=
  .next (s.inSession sid fun x => (s.modSpdmSession sid fun y => { y with keyGen := y.keyGen + 1 }).respond x.transport {})
/-- END_SESSION (R329). -/
def execEndSession (sid : Nat) (s : State) : Res := .next (s.inSession sid fun x => (s.endSession sid).respond x.transport {})

/-- HEARTBEAT_TIMEOUT (R329): two heartbeat periods without a message; a session that negotiated no heartbeat has no period. -/
def State.heartbeatTimeout (s : State) (sid : Nat) : State :=
  match s.session? sid with
  | some x => if x.heartbeat = 0 then s else s.endSession sid
  | none => s
/-- Two heartbeat periods of session `sid` pass without a message. -/
def execHeartbeatTimeout (sid : Nat) (s : State) : Res := .next (s.heartbeatTimeout sid)

/-- A message of Table 10.2 carried out or refused (R332, R335, R337, R353): refused, it is journaled with its cause; accepted, its entry
comes before its effect, and where the journal takes none it is refused with JOURNAL_FAIL. -/
def State.carry (s : State) (t : Transport) (n : JrnNote) (cause : W16) (reply : Reply) (effect : State → State) : State :=
  if cause ≠ 0 then (s.note { n with action := .refused, cause := cause }).respond t { cause := cause }
  else if !s.journalOk then s.journalFails.respond t { cause := Cause.journalFail }
  else (effect (s.journal n)).respond t reply

/-- Whether every partition is EMPTY. -/
def State.allEmpty (s : State) : Bool := (List.range 32).all fun p => (s.part p).ctl.state == .empty

/-- The digest of a slot's key, zero where it is empty. -/
def keyDigest (k : List Byte) : BitVec 256 := if k.isEmpty then 0 else Config.sha3 k

/-- The handshakes under a credential end: no session opens under a key that is no more (R326). -/
def State.endHandshakes (s : State) (f : Byte → Bool) : State := s.endSessions fun x => !x.established && f x.cred

/-- Whether a key is one an ML-DSA-44 slot takes (R322, R326): its length, and its encoding as its sender's check found it. -/
def keyOk (key : List Byte) (wellFormed : Bool) : Bool := wellFormed && key.length == 1312

/-- CLAIM (R323, R324, R332): over the sideband, outside any session, in UNCLAIMED only; inside one it is from no role that may send it. -/
def State.claim (s : State) (key : List Byte) (wellFormed : Bool) (sid : Option Nat) : State :=
  if !s.servesAll then s else
  let cause := if s.sec.lockedOut || !(s.credKey 0x10).isEmpty then Cause.claimed else if !keyOk key wellFormed then Cause.credSlot else 0
  let go (t : Transport) (who : Writer) (c : W16) : State :=
    s.carry t { action := .claim, who := who, old := 0, new := keyDigest key } c {} fun s =>
      s.modFlash fun f => f.setCreds (tset f.creds 0x10 key)
  match sid with
  | none => if s.serves .sideband then go .sideband Writer.none cause else s
  | some i => s.inSession i fun x => go x.transport x.writer Cause.ownerDenied
/-- The board manager claims the device; `sid`: the message comes inside that session. -/
def execClaim (key : List Byte) (wellFormed : Bool) (s : State) (sid : Option Nat := none) : Res := .next (s.claim key wellFormed sid)

/-- RELEASE (R325): slots 0x10 and 0x20 to 0x23 emptied, SEC_POLICY at its reset value, UNCLAIMED. An unclaimed device has sessions of
the maker only (R323): every other session and handshake ends with it (DESIGN CHOICE, log entry 89: R329 does not name this end). -/
def State.releaseDo (s : State) : State :=
  ((s.modFlash fun f => { f.setCreds [] with policy := 0 }).modSec fun x => { x with lockedOut := false }).endSessions fun x => x.role != .maker

/-- RELEASE in a session, or over the sideband outside any (R323, R325). -/
def State.release (s : State) (sid : Option Nat) : State :=
  if !s.servesAll then s else
  let go (t : Transport) (who : Writer) (may : Bool) : State :=
    let cause := if !may then Cause.ownerDenied else if !s.allEmpty then Cause.partitionsLive else 0
    s.carry t { action := .release, who := who, old := keyDigest (s.credKey 0x10), new := 0 } cause {} State.releaseDo
  match sid with
  | none => if s.serves .sideband then go .sideband Writer.none false else s
  | some i => s.inSession i fun x => go x.transport x.writer (x.role == .installer || (x.role == .maker && x.transport == .sideband))
/-- A RELEASE message. -/
def execRelease (sid : Option Nat) (s : State) : Res := .next (s.release sid)

/-- A message of Table 10.2 that no open session carries (R332): it is from no role, and refused. What carries it is the transport of the
handshake it names, or the sideband. -/
def State.stranger (s : State) (sid : Nat) (n : JrnNote) : State :=
  let t := ((s.session? sid).map (·.transport)).getD .sideband
  if s.serves t then s.carry t n Cause.ownerDenied {} id else s

/-- A vendor-defined message that recovery does not serve, inside session `sid`, from a role that may send it (R332). -/
def State.vendor (s : State) (sid : Nat) (n : Writer → JrnNote) (may : SpdmSession → Bool) (cause : W16) (reply : Reply)
    (effect : State → State) : State :=
  if !s.servesAll then s else
  match s.open? sid with
  | none => s.stranger sid (n Writer.none)
  | some _ => s.inSession sid fun x => s.carry x.transport (n x.writer) (if may x then cause else Cause.ownerDenied) reply effect

/-- CRED_INSTALL (R326). -/
def State.credInstall (s : State) (sid : Nat) (slot : Byte) (key : List Byte) (wellFormed : Bool) : State :=
  let ok := (slot == 0x10 || (decide (0x20 ≤ slot.toNat) && decide (slot.toNat ≤ 0x23))) && keyOk key wellFormed
  s.vendor sid (fun w => { action := .credInstall, who := w, old := keyDigest (s.credKey slot.toNat), new := keyDigest key }) (·.role == .installer)
    (if ok then 0 else Cause.credSlot) {} fun s =>
    (s.modFlash fun f => f.setCreds (tset f.creds slot.toNat key)).endHandshakes (· == slot)
/-- The installer installs a key. -/
def execCredInstall (sid : Nat) (slot : Byte) (key : List Byte) (wellFormed : Bool) (s : State) : Res :=
  .next (s.credInstall sid slot key wellFormed)

/-- CRED_REMOVE (R326, Table 10.2). -/
def State.credRemove (s : State) (sid : Nat) (slot : Byte) : State :=
  let ok := decide (0x20 ≤ slot.toNat) && decide (slot.toNat ≤ 0x23)
  s.vendor sid (fun w => { action := .credRemove, who := w, old := keyDigest (s.credKey slot.toNat), new := 0 }) (·.role == .installer)
    (if ok then 0 else Cause.credSlot) {} fun s =>
    (s.modFlash fun f => f.setCreds (tset f.creds slot.toNat [])).endHandshakes (· == slot)
/-- The installer empties an operator slot. -/
def execCredRemove (sid : Nat) (slot : Byte) (s : State) : Res := .next (s.credRemove sid slot)

/-- Who may send FW_STAGE and FW_ACTIVATE (Table 10.2). -/
def State.fwMay (s : State) (x : SpdmSession) : Bool := x.role == .installer || (x.role == .operator && bitOf s.flash.policy.toNat 0)

/-- The flash with its inactive image replaced. -/
def Flash.setInactive (f : Flash) (i : Image) : Flash := if f.activeB then { f with imageA := i } else { f with imageB := i }

/-- The size of an image with a body of `n` bytes (R343): header, body, signature. -/
def imageSize (n : Nat) : Nat := 4096 + n + 2420
/-- What a whole staged image comes to (R343, R344): 0 where it passes. Its form is its header's magic value, a body of the length the header gives,
at most 62 MiB, with the digest the header gives. -/
def State.stageCause (s : State) (bytes : List Byte) (svn : BitVec 6) (digest : BitVec 256) (check : ImageCheck) (h : ImageHead) : W16 :=
  let n := h.bodyLen.getD (bytes.length - imageSize 0)
  let form := h.magicOk && decide (n ≤ 65011712) && bytes.length == imageSize n && digest == Config.sha3 ((bytes.drop 4096).take n)
  if !form then Cause.fwSignature else s.imageCause { valid := true, svn := svn, slot1 := h.slot1 } check
/-- A whole image as the flash holds it; its digest is over header and body (R343). -/
def stagedImage (bytes : List Byte) (svn : BitVec 6) (h : ImageHead) : Image :=
  { valid := true, svn := svn, digest := Config.sha3 (bytes.take (bytes.length - 2420)), bytes := bytes, version := h.version, slot1 := h.slot1 }

/-- FW_STAGE (R343 to R345, R442): a piece of an image; the last one brings the verdict of the image's check. -/
def State.fwStage (s : State) (sid : Nat) (first last : Bool) (piece : List Byte) (svn : BitVec 6) (digest : BitVec 256) (check : ImageCheck)
    (h : ImageHead) : State :=
  let n (w : Writer) : JrnNote := { action := .fwStage, who := w, detail := svn.toNat, old := s.flash.inactive.digest, new := digest }
  match s.open? sid with
  | none => s.stranger sid (n Writer.none)
  | some _ => s.inSession sid fun x =>
    let busy := match s.sec.staging with
      | none => false
      | some (i, _) => first || i != sid
    if !s.fwMay x then s.carry x.transport (n x.writer) Cause.ownerDenied {} id
    else if busy then s.carry x.transport (n x.writer) Cause.fwBusy {} id
    else
      let got := ((s.sec.staging.map (·.2)).getD []) ++ piece
      let bad := s.stageCause got svn digest check h
      if last && bad != 0 then
        ((s.modFlash fun f => { f.setInactive {} with stagedNext := false }).modSec fun y => { y with staging := none }).carry x.transport (n x.writer) bad {} id
      else
        s.carry x.transport (n x.writer) 0 {} fun s =>
          (s.modFlash fun f => { f.setInactive (if last then stagedImage got svn h else {}) with
            stagedNext := last && s.pwr.stage == .recovery }).modSec fun y =>
            { y with staging := if last then none else some (sid, got) }
/-- A piece of a firmware image arrives; `svn`, `digest` and `head`: what its header says. -/
def execFwStage (sid : Nat) (first last : Bool) (piece : List Byte) (svn : BitVec 6) (digest : BitVec 256) (check : ImageCheck) (s : State)
    (head : ImageHead := {}) : Res :=
  .next (s.fwStage sid first last piece svn digest check head)

/-- FW_ACTIVATE (R346, R442): the staged image becomes active, and a firmware reset follows. -/
def State.fwActivate (s : State) (sid : Nat) : State :=
  let i := s.flash.inactive
  let n (w : Writer) : JrnNote := { action := .fwActivate, who := w, detail := i.svn.toNat, old := s.flash.active.digest, new := i.digest }
  match s.open? sid with
  | none => s.stranger sid (n Writer.none)
  | some _ => s.inSession sid fun x =>
    let cause := if !s.fwMay x then Cause.ownerDenied else if !s.allEmpty then Cause.partitionsLive else if !i.valid then Cause.fwSignature else 0
    s.carry x.transport (n x.writer) cause {} fun s =>
      (s.modFlash fun f => { f with activeB := !f.activeB, stagedNext := false }).firmwareReset
/-- The staged image is activated. -/
def execFwActivate (sid : Nat) (s : State) : Res := .next (s.fwActivate sid)

/-- SVN_COMMIT (R346): the fused SVN rises to that of the running image. -/
def State.svnCommit (s : State) (sid : Nat) : State :=
  let i := s.flash.running
  s.vendor sid (fun w => { action := .svnCommit, who := w, detail := i.svn.toNat, old := i.digest, new := i.digest })
    (fun x => x.role == .installer || (x.role == .operator && bitOf s.flash.policy.toNat 1)) 0 {} fun s =>
    s.modFlash fun f => { f with fusedSvn := if f.fusedSvn.toNat < i.svn.toNat then i.svn else f.fusedSvn }
/-- The running image's SVN is committed. -/
def execSvnCommit (sid : Nat) (s : State) : Res := .next (s.svnCommit sid)

/-- CONSENT (R349): a new nonce, which replaces any before it. -/
def State.consentMsg (s : State) (sid : Nat) : State :=
  let nonce : BitVec 256 := BitVec.ofNat 256 (Config.freeNat s.free)
  s.vendor sid (fun w => { action := .consent, who := w }) (·.role == .installer)
    (if bitOf s.flash.policy.toNat 3 then Cause.consentMissing else 0) { bytes := digestBytes nonce } fun s =>
    s.useFree.modSec fun x => { x with consent := some nonce }
/-- The installer consents to a maker debug unlock. -/
def execConsent (sid : Nat) (s : State) : Res := .next (s.consentMsg sid)

/-- Every key of every memory die erased (R350); what the empty host slot reads as is open. -/
def State.eraseAllKeys (s : State) : State :=
  let s := (List.range 32).foldl (fun s p => s.eraseKey p) s
  let s := (List.range 4).foldl (fun s d => s.modDie d fun x => { x with hostKey := false, destroyed := x.destroyed + (if x.hostKey then 1 else 0) }) s
  (s.newKey.2).modMem fun m => { m with hostKey := m.keys }

/-- DEBUG_UNLOCK (R349, R350): the consent is used once. -/
def State.debugUnlock (s : State) (sid : Nat) (nonce : BitVec 256) : State :=
  s.vendor sid (fun w => { action := .debugUnlock, who := w }) (·.role == .maker)
    (if s.sec.consent ≠ some nonce then Cause.consentMissing else if !s.allEmpty then Cause.partitionsLive else 0) {} fun s =>
    (s.eraseAllKeys.endSessions fun _ => true).modSec fun x => { x with consent := none, debug := true }
/-- The maker unlocks debug. -/
def execDebugUnlock (sid : Nat) (nonce : BitVec 256) (s : State) : Res := .next (s.debugUnlock sid nonce)

/-- PAIR_BIND (R399). -/
def State.pairBind (s : State) (sid : Nat) (digest : BitVec 256) : State :=
  s.vendor sid (fun w => { action := .pairBind, who := w }) (·.role == .installer) 0 {} fun s =>
    s.modFlash fun f => { f with peerDigest := some digest }
/-- The installer binds the pair. -/
def execPairBind (sid : Nat) (digest : BitVec 256) (s : State) : Res := .next (s.pairBind sid digest)

/-- A TDISP or IDE_KM message (R373): only within an operator session on the PF mailbox. -/
def State.hostSecurity (s : State) (sid : Nat) (f : State → Option (State × Reply)) : State :=
  if !s.servesAll then s else
  s.inSession sid fun x =>
    if x.role != .operator || x.transport != .pfDoe then s.refuseMsg x.transport else
    match f s with
    | some (s, r) => s.respond x.transport r
    | none => s.refuseMsg x.transport

/-- The code of a TDISP state (PATT_TDI). -/
def Tdi.code : Tdi → Nat
  | .unlocked => 0
  | .locked => 1
  | .run => 2
  | .error => 3

/-- GET_TDISP_VERSION (R347); the version number is not the spec's. -/
def execGetTdispVersion (sid : Nat) (_p : PartId) (s : State) : Res :=
  .next (s.hostSecurity sid fun s => some (s.useFree, { words := [BitVec.ofNat 64 (Config.freeNat s.free)] }))
/-- GET_TDISP_CAPABILITIES (R347); the form of the answer is not the spec's. -/
def execGetTdispCapabilities (sid : Nat) (_p : PartId) (s : State) : Res :=
  .next (s.hostSecurity sid fun s => some (s.useFree, { words := [BitVec.ofNat 64 (Config.freeNat s.free)] }))

/-- Whether an IDE stream covers VF `p + 1` (R347, R373). -/
def State.ideCovers (s : State) (p : Nat) : Bool :=
  s.hst.ideLink || s.hst.ideSel.any fun e => e.2.any fun x => x.secure && x.fn.any fun q => q.val == p

/-- LOCK_INTERFACE_REQUEST (R347): answered with a nonce. -/
def State.tdiLock (s : State) (p : Nat) : Option (State × Reply) :=
  let x := s.part p
  if (x.ctl.state == .stopped || x.ctl.state == .running) && s.ideCovers p && x.vf.enabled && x.vf.tdi == .unlocked then
    some (s.useFree.modVf p fun v => { v with tdi := .locked }, { bytes := (List.range 32).map (Config.spdmBytes s.free) })
  else none
/-- The host's security manager locks the interface of partition `p`. -/
def execLockInterfaceRequest (sid : Nat) (p : PartId) (s : State) : Res := .next (s.hostSecurity sid (·.tdiLock p.val))

/-- GET_DEVICE_INTERFACE_REPORT (R347): the ranges of VF BAR0 and BAR2 as base and size, the VF's place in them by its number, and the digest of
measurement 0x20 + p. -/
def State.tdiReport (s : State) (p : Nat) : Option (State × Reply) :=
  let at' (base : W64) (size : Nat) : List W64 := [base + BitVec.ofNat 64 (size * p), BitVec.ofNat 64 size]
  match (s.part p).vf.tdi with
  | .locked | .run => some (s, { words := at' s.hst.vfBar0 262144 ++ at' s.hst.vfBar2 17179869184, bytes := digestBytes (s.partDigest p) })
  | _ => none
/-- The host's security manager asks for the interface report of partition `p`. -/
def execGetDeviceInterfaceReport (sid : Nat) (p : PartId) (s : State) : Res := .next (s.hostSecurity sid (·.tdiReport p.val))

/-- GET_DEVICE_INTERFACE_STATE (R347). -/
def execGetDeviceInterfaceState (sid : Nat) (p : PartId) (s : State) : Res :=
  .next (s.hostSecurity sid fun s => some (s, { words := [BitVec.ofNat 64 (s.part p.val).vf.tdi.code] }))

/-- START_INTERFACE_REQUEST (R347): from CONFIG_LOCKED. -/
def State.tdiStart (s : State) (p : Nat) : Option (State × Reply) :=
  if (s.part p).vf.tdi = .locked then some (s.modVf p fun v => { v with tdi := .run }, {}) else none
/-- The host's security manager starts the interface of partition `p`. -/
def execStartInterfaceRequest (sid : Nat) (p : PartId) (s : State) : Res := .next (s.hostSecurity sid (·.tdiStart p.val))

/-- STOP_INTERFACE_REQUEST (R347): to CONFIG_UNLOCKED. -/
def execStopInterfaceRequest (sid : Nat) (p : PartId) (s : State) : Res :=
  .next (s.hostSecurity sid fun s => some (s.modVf p.val fun v => { v with tdi := .unlocked }, {}))

/-- IDE_KM (R373): the keys of the link stream, or of a selective stream associated with one function. -/
def State.ideKeys (s : State) (stream : Option (Fin 32)) (p : PartId) (x : IdeAssoc) : Option (State × Reply) :=
  match stream with
  | none => some (s.modHst fun h => { h with ideLink := true }, {})
  | some k =>
    let y : IdeStream := { fn := if x.pf then none else some p, ranges := x.ranges, secure := true }
    some (s.modHst fun h => { h with ideSel := tset h.ideSel k.val (some y) }, {})
/-- The host's security manager installs the keys of an IDE stream. -/
def execIdeKm (sid : Nat) (stream : Option (Fin 32)) (p : PartId) (s : State) (assoc : IdeAssoc := {}) : Res :=
  .next (s.hostSecurity sid (·.ideKeys stream p assoc))

end Sys2Proof.Machine
end

