-- ==== Sys2Proof/Machine/Watch.lean ====
section
/-!
DEFINITION. The partition watchdog (R484) and the event rings as their drivers handle them (R476 to R478, R485, R486).
-/

namespace Sys2Proof.Machine

/-- The outstanding commands of a partition that its watchdog counts (R388, R484). -/
def State.watched (s : State) (p : Nat) : List Cmd :=
  (s.part p).cmd.cmds.filter fun c => c.isTarget && !(c.engine == 4 && c.op == 0x11 && c.phase == .started
    && !(s.part p).net.recvs.any fun r => r.id == c.id && r.filled != 0)

/-- PARTITION_STALL (R484): once for a stall. -/
def State.partitionStall (s : State) (p : Nat) : State :=
  if (s.part p).ctl.state != .running || (s.part p).wdg.stalled then s else
  match minBy (·.id) (s.watched p) with
  | none => s
  | some c =>
    let n := (s.watched p).length
    (s.modWdg p fun w => { w with stalled := true, count := satAdd w.count 1, ticks := w.limit }).raiseBoth p Cause.partitionStall (srcCore p) c.wm
      ([BitVec.ofNat 8 c.engine, BitVec.ofNat 8 (dUnit c.desc), BitVec.ofNat 8 c.ctx, 0] ++ leBytes 4 (sat 32 n) ++ leBytes 4 0)

/-- WDG_LIMIT ticks have passed without progress in partition `p`. -/
def execPartitionStall (p : PartId) (s : State) : Res := .next (s.partitionStall p.val)

/-- Whether a partition's event ring may start (R485, R504). -/
def State.evtConfigOk (s : State) (p : Nat) : Bool :=
  let r := (s.part p).evt
  let k := bitsOf r.cfg.toNat 0 5
  decide (6 ≤ k) && decide (k ≤ 16) && s.baseOk p r.base (bitOf r.cfg.toNat 8) (32 * r.size)

/-- EVT_START (R485, R491): buffered records are written at once where the ring has room (R477). -/
def State.evtStart (s : State) (p : Nat) : State :=
  if !s.vfOpen p || (s.part p).evt.state != .stopped then s
  else if !s.evtConfigOk p then s.rejectVf p 0x1A 0x008 errStart Cause.ringConfig 1
  else (s.modEvt p fun r => { r with state := .running }).flushPart p 64

/-- EVT_STOP (R478): the buffer keeps its records. -/
def State.evtStop (s : State) (p : Nat) : State := if s.vfOpen p then s.modEvt p fun r => { r with state := .stopped } else s

/-- Whether a ring in host memory now tries to write a buffered record. -/
def EvRing.tries (r : EvRing) : Bool := r.state == .running && r.room && !r.buffer.isEmpty
/-- A ring whose write in host memory has failed (R478). -/
def EvRing.failed (r : EvRing) (io : HostAccess) : EvRing := { r with state := .error, lastCause := hostCause io }

/-- A write of EVT_HEAD (R309, R477, R478): the driver frees records, and buffered ones are written. -/
def State.evtHead (s : State) (p : Nat) (v : W32) (io : HostAccess) : State :=
  if !s.vfRw p then s else
  let s := s.modEvt p fun r => { r with head := v }
  let r := (s.part p).evt
  if s.hostIo io != .ok && r.tries && !bitOf r.cfg.toNat 8 && s.hostUp then (s.hostAer p io).modEvt p (·.failed io) else s.flushPart p 64

/-- A write of PEV_HEAD (R477, R478, R486). -/
def State.pevHead (s : State) (v : W32) (io : HostAccess) : State :=
  let s := s.modEv fun e => { e with pf := { e.pf with head := v } }
  if s.hostIo io != .ok && s.ev.pf.tries && s.hostUp then s.modEv fun e => { e with pf := e.pf.failed io } else s.flushPf 256

/-- A write of PEV_CFG (R486): its RWS fields stand while the ring is enabled; a ring that is enabled must have a base and size in
order. -/
def State.pevConfig (s : State) (v : Nat) : RegW :=
  let en := bitOf v 31
  let rest := bitsOf v 0 5 + 1024 * bitsOf v 10 2
  let k := bitsOf v 0 5
  if s.ev.pfEnable && s.ev.pf.cfg.toNat != rest then RegW.no s Cause.rwsRunning
  else if en && !s.ev.pfEnable && (decide (k < 6) || decide (16 < k) || s.ev.pf.base.toNat % 4096 != 0) then RegW.no s Cause.ringConfig
  else
    let st : EvState := if !en then .stopped else if s.ev.pfEnable then s.ev.pf.state else .running
    { s := (s.modEv fun e => { e with pfEnable := en, pf := { e.pf with cfg := BitVec.ofNat 32 rest, state := st } }).flushPf 256 }

end Sys2Proof.Machine
end

