-- ==== Sys2Proof/Machine/Pages.lean ====
section
/-!
DEFINITION. Register pages (chapter 17): what a register is, the common header, and how a page's registers are found and read.

A page lists its block's registers as `Reg`s: where they lie, their access type (Table 0.4) and owners (Table 0.5), what they read and
what a write of them does. The lists themselves are in DevicePages.lean, PartPages.lean, EnginePages.lean and TenantPages.lean.
-/

namespace Sys2Proof.Machine

/-- Who writes a register, and what the outside of the block supplies with the write. -/
structure WEnv where
  who : Writer
  /-- the writing session; none: an MMIO write -/
  sid : Option Nat := none
  /-- both flash devices take what the write stores -/
  flashOk : Bool := true
  /-- the shape that the peer reports for the twin, where the write names one -/
  twin : Option TwinShape := none
  /-- how a write of buffered records to host memory ends -/
  io : HostAccess := .ok

/-- The access types of Table 0.4; an RWS register is `rw`, and its `set` rejects what its governing block forbids. -/
inductive Acc where
  | ro
  | rw
  | rws
  | wo
  | w1c
  | rc
  deriving DecidableEq, Repr

/-- A register, or an array of registers with one layout. -/
structure Reg where
  off : Nat
  count : Nat := 1
  stride : Nat := 4
  /-- bytes: 4, 8 or 16; more for a window that is read only -/
  width : Nat := 4
  acc : Acc := .ro
  /-- who may write it: bit 0 M, 1 I, 2 O, 3 T -/
  owner : Nat := 0
  /-- what element `i` reads -/
  get : Nat → State → Nat := fun _ _ => 0
  /-- what a write of `v` to element `i` does -/
  set : WEnv → Nat → Nat → State → RegW := fun _ _ _ s => { s := s }
  /-- what a read leaves behind, for an RC register -/
  clear : Nat → State → State := fun _ s => s
  /-- element `i` reads as zero and discards writes on this device (R497) -/
  absent : Nat → State → Bool := fun _ _ => false
  /-- the write journals an action of its own in place of WRITE (Table 10.4) -/
  ownEntry : Bool := false
  /-- what the device brings up to date before a read -/
  touch : Nat → State → State := fun _ s => s

/-- The owner letters. -/
def ownM : Nat := 1
/-- The installer. -/
def ownI : Nat := 2
/-- The operator. -/
def ownO : Nat := 4
/-- The tenant. -/
def ownT : Nat := 8
/-- The installer and the operator. -/
def ownIO : Nat := 6

/-- A page of PF BAR0, or of the VF BAR0 of partition `vf` (R489, R501). -/
structure Page where
  code : Nat
  inst : Nat := 0
  owner : Nat := 0
  /-- the page's number in its BAR: offset / 4096 -/
  num : Nat
  vf : Option Nat := none
  /-- the partition whose page or quad it is (R336) -/
  part : Option Nat := none
  /-- RUN_STATUS.run (Table 17.7) -/
  run : State → Nat := fun _ => 1
  /-- the block's answer to START and STOP, where the page has run control (R491) -/
  ctrl : Option (Nat → State → State) := none
  regs : List Reg := []

/-- The header of a page. -/
def Page.hdr (g : Page) (s : State) : PageHdr :=
  match g.vf with
  | some p => s.vfHdr p g.num
  | none => s.pfHdr g.num
/-- The state with the header of a page changed. -/
def Page.modHdr (g : Page) (s : State) (f : PageHdr → PageHdr) : State :=
  match g.vf with
  | some p => s.modVfHdr p g.num f
  | none => s.modPfHdr g.num f

/-- A write that is taken. -/
def took (s : State) : RegW := { s := s }

/-- LOCK as it reads (Table 17.6). -/
def PageHdr.lockWord (h : PageHdr) : Nat :=
  match h.lock with
  | some (_, role, cred) => 1 + 16 * role + 256 * cred.toNat
  | none => 0xFF70
/-- ERR_STATUS written: a 1 clears (R6); with every bit clear ERR_FIRST reads zero (R493). -/
def PageHdr.clearErr (h : PageHdr) (v : Nat) : PageHdr :=
  let e := h.errStatus &&& ~~~(BitVec.ofNat 32 v)
  { h with errStatus := e, errFirst := if e = 0 then 0 else h.errFirst }
/-- LOCK written in session `sid` (R495). -/
def PageHdr.writeLock (h : PageHdr) (sid : Nat) (who : Writer) (on : Bool) : PageHdr :=
  match h.lock with
  | none => if on then { h with lock := some (sid, who.role, who.cred) } else h
  | some (i, _, _) => if i = sid && !on then { h with lock := none } else h

/-- Whether sessions may write a page, so that LOCK acts on it (R495). -/
def Page.lockable (g : Page) : Bool := g.owner % 8 != 0

/-- RUN_STATUS (Table 17.3). -/
def Page.runStatus (g : Page) (s : State) : Nat :=
  let h := g.hdr s
  g.run s + 16 * b2n (h.errStatus &&& ~~~h.errMask != 0) + 32 * b2n (h.lock.isSome)

/-- The common header (Table 17.1): what stands at 0x028 to 0x03F is reserved. -/
def Page.header (g : Page) : List Reg := [
  { off := 0x000, get := fun _ _ => g.code + 65536 * g.inst },
  { off := 0x004, get := fun _ _ => 0x100 },
  { off := 0x008, acc := if g.ctrl.isSome then .wo else .ro, owner := g.owner
    set := fun _ _ v s => took (match g.ctrl with
      | some f => f (v % 4) s
      | none => s) },
  { off := 0x00C, get := fun _ s => g.runStatus s },
  { off := 0x010, acc := .w1c, owner := g.owner, get := fun _ s => (g.hdr s).errStatus.toNat
    set := fun _ _ v s => took (g.modHdr s (·.clearErr v)) },
  { off := 0x014, acc := .rw, owner := g.owner, get := fun _ s => (g.hdr s).errMask.toNat
    set := fun _ _ v s => took (g.modHdr s fun h => { h with errMask := BitVec.ofNat 32 v }) },
  { off := 0x018, get := fun _ s => if (g.hdr s).errStatus = 0 then 0 else (g.hdr s).errFirst.toNat },
  { off := 0x01C, get := fun _ s => (g.hdr s).evWaymark.toNat },
  { off := 0x020, get := fun _ _ => g.owner },
  { off := 0x024, acc := if g.lockable then .rw else .ro, owner := g.owner, get := fun _ s => (g.hdr s).lockWord
    set := fun e _ v s => took (match e.sid with
      | some i => g.modHdr s fun h => h.writeLock i e.who (bitOf v 0)
      | none => s) }]

/-- Whether element `i` of a register covers byte `o` of the page. -/
def Reg.covers (r : Reg) (o : Nat) : Bool :=
  decide (r.off ≤ o) && (let i := (o - r.off) / r.stride
    if r.count = 1 then decide (o < r.off + r.width) else decide (i < r.count) && decide ((o - r.off) % r.stride < r.width))
/-- The element that covers byte `o`, and the byte within it. -/
def Reg.locate (r : Reg) (o : Nat) : Nat × Nat :=
  if r.count = 1 then (0, o - r.off) else ((o - r.off) / r.stride, (o - r.off) % r.stride)

/-- The register at byte `o` of a page, its element and the byte within it; none: the offset is reserved. -/
def Page.find (g : Page) (o : Nat) : Option (Reg × Nat × Nat) :=
  ((g.header ++ g.regs).find? (·.covers o)).map fun r => (r, r.locate o)

/-- The four bytes at `o` of a page as they stand (R6, R496), an RC register cleared by the read. -/
def Page.readWord (g : Page) (s : State) (o : Nat) : Nat × State :=
  match g.find o with
  | none => (0, s)
  | some (r, i, b) => (bitsOf (r.get i s) (8 * b) 32, if r.acc = .rc then r.clear i s else s)

/-- What moves in the register at `o` before a read of it. -/
def Page.touchAt (g : Page) (s : State) (o : Nat) : State :=
  match g.find o with
  | none => s
  | some (r, i, _) => r.touch i s

/-- A naturally aligned read of 4 or 8 bytes of a page; any other read returns zero (R496). -/
def Page.read (g : Page) (s : State) (o n : Nat) : Nat × State :=
  if n = 4 ∧ o % 4 = 0 then g.readWord (g.touchAt s o) o
  else if n = 8 ∧ o % 8 = 0 then
    let (a, s) := g.readWord (g.touchAt s o) o
    let wide := (g.find o).any fun x => x.1.covers (o + 4)
    let (b, s) := g.readWord (if wide then s else g.touchAt s (o + 4)) (o + 4)
    (a + 2 ^ 32 * b, s)
  else (0, s)

/-- A register of `n` bits held in a field that reads and writes as it stands. -/
def plainRW (off bits owner : Nat) (get : State → Nat) (set : Nat → State → State) : Reg :=
  { off := off, acc := .rw, owner := owner, get := fun _ s => get s, set := fun _ _ v s => took (set (v % 2 ^ bits) s) }
/-- A counter that a read clears. -/
def counterRC (off owner : Nat) (get : State → Nat) (clear : State → State) : Reg :=
  { off := off, acc := .rc, owner := owner, get := fun _ s => get s, clear := fun _ s => clear s }
/-- A register that is read only. -/
def ro (off : Nat) (get : State → Nat) : Reg := { off := off, get := fun _ s => get s }
/-- A 64-bit register that is read only. -/
def ro64 (off : Nat) (get : State → Nat) : Reg := { off := off, width := 8, get := fun _ s => get s }
/-- A window of `n` bytes that is read only. -/
def window (off n : Nat) (get : State → List Byte) : Reg := { off := off, width := n, get := fun _ s => leNat (slice (get s) 0 n) }

/-- An MSI-X table of `n` vectors (R356, R357), as a page without a header: 16 bytes a vector, as PCIe lays them out. -/
def msixReg (n : Nat) (get : Nat → State → W32) (set : Nat → W32 → State → State) : Reg :=
  { off := 0, count := 4 * n, acc := .rw, get := fun i s => (get i s).toNat, set := fun _ i v s => took (set i (BitVec.ofNat 32 v) s) }

end Sys2Proof.Machine
end

