-- ==== Sys2Proof/Machine/DevicePages.lean ====
section
/-!
DEFINITION. The device pages of PF BAR0: ID, PWR, SEC, JRN, HST, MGMT, STRAP (Tables 17.11 to 17.13, 15.7 to 15.11, 10.7 to 10.10, 11.6,
11.7, 16.8, 14.12, 14.13).
-/

namespace Sys2Proof.Machine

/-- ENGINE_PRESENT (Table 17.12). -/
def Grade.engines : Grade → Nat
  | .se880a => 0x3FF
  | .se720a => 0x21F
/-- ID_DEVICE (Table 17.11). -/
def Grade.devices : Grade → Nat
  | .se880a => 0x08810880
  | .se720a => 0x07210720
/-- Byte `q` of ID_QLOC. -/
def State.qlocByte (s : State) (q : Nat) : Nat :=
  if q < s.fuse.grade.quads then (s.qloc q).1 + 32 * (s.qloc q).2 else 0xFF

/-- Four bytes as one word. -/
def word4 (f : Nat → Nat) : Nat := f 0 + 256 * f 1 + 65536 * f 2 + 16777216 * f 3

/-- The ID page (Table 17.11). -/
def idPage : Page := {
  code := 0x0001, num := 0, owner := 0
  regs := [
    ro 0x040 fun s => s.fuse.vendor.toNat + 65536 * s.fuse.mipi.toNat,
    ro 0x044 fun s => s.fuse.grade.devices,
    ro 0x048 fun s => s.fuse.grade.code + 256 * stepping + 65536 * s.fuse.grade.quads,
    ro 0x04C fun s => s.fuse.grade.engines,
    ro64 0x050 fun s => s.fuse.serial.toNat,
    ro 0x058 fun _ => 256 + 65536 * 512,
    ro 0x05C fun s => 10 * s.fuse.grade.quads,
    ro64 0x060 fun s => s.ev.seq.toNat,
    { off := 0x100, count := 20, get := fun k s => word4 fun j => s.qlocByte (4 * k + j) }] }

/-- The STRAP page (R433, Table 17.13). -/
def strapPage : Page := { code := 0x0007, num := 6, regs := [ro 0x040 fun s => s.pins.straps.toNat] }

/-- PWR_STAT (Table 15.8). -/
def State.pwrStat (s : State) : Nat :=
  let w := s.pwr
  w.stage.code + 2 ^ 10 * b2n w.fast + 2 ^ 11 * b2n (w.duty.toNat < 64) + 2 ^ 12 * b2n w.throttle + 2 ^ 13 * b2n w.critical
    + 2 ^ 14 * b2n (w.coolantHigh || w.coolantLow) + 2 ^ 15 * b2n w.coolantFlow + 2 ^ 16 * b2n s.thermLow + 2 ^ 17 * b2n w.inputLow
    + 2 ^ 18 * w.resetKind.toNat

/-- The code of a quad's state (Table 15.10). -/
def QuadState.code : QuadState → Nat
  | .off => 0
  | .on => 1
  | .selftest => 2
  | .offline => 3
/-- The code of a domain's state (Table 15.11). -/
def DomState.code : DomState → Nat
  | .off => 0
  | .on => 1
  | .fault => 2

/-- PWR_QD_STAT (Table 15.10). -/
def State.quadStat (s : State) : Nat :=
  let q := s.pwr.qdSel.toNat
  let x := s.quad q
  x.state.code + 16 * b2n x.pending + 32 * b2n x.forced + 64 * x.result.toNat + 256 * (s.quadOwner q).getD 0xFF + 65536 * x.failCluster.toNat
/-- PWR_DOM_STAT (Table 15.11). -/
def State.domStat (s : State) : Nat :=
  let d := tget {} s.pwr.domains s.pwr.domSel.toNat
  d.state.code + 16 * d.voltage.toNat + 65536 * d.current.toNat

/-- A write of a PWR register that must lie between two values; outside them it is rejected with CAP_PARAM. -/
def ranged (off bits owner lo hi : Nat) (get : State → Nat) (set : Nat → State → State) : Reg :=
  { off := off, acc := .rw, owner := owner, get := fun _ s => get s
    set := fun _ _ v s =>
      let v := v % 2 ^ bits
      if v < lo ∨ hi < v then RegW.no s Cause.capParam else took (set v s) }

/-- PWR_CEIL_W (R448): a lower ceiling clears a cap above it. -/
def setCeil (v : Nat) (s : State) : RegW :=
  let v := v % 65536
  if v < 400 ∨ s.envelope < v then RegW.no s Cause.capParam
  else took ((s.capHeld.modFlash fun f => { f with ceilW := some (BitVec.ofNat 16 v) }).modPwr fun w => { w with capW := if v < w.capW.toNat then 0 else w.capW })
/-- PWR_CAP_W (R448). -/
def setCap (v : Nat) (s : State) : RegW :=
  let v := v % 65536
  if v ≠ 0 ∧ (v < 400 ∨ s.ceilW < v) then RegW.no s Cause.capParam else took (s.capHeld.modPwr fun w => { w with capW := BitVec.ofNat 16 v })

/-- The PWR page (Table 15.7). -/
def pwrPage : Page := {
  code := 0x0002, num := 1, owner := ownIO
  regs := [
    ro 0x040 (·.pwrStat),
    ro 0x044 (·.envelope),
    { off := 0x048, acc := .rw, owner := ownI, get := fun _ s => s.ceilW, set := fun _ _ v s => setCeil v s },
    { off := 0x04C, acc := .rw, owner := ownO, get := fun _ s => s.pwr.capW.toNat, set := fun _ _ v s => setCap v s },
    ro 0x050 (·.govCap),
    ranged 0x054 10 ownO 600 850 (fun s => s.pwr.vcoreMax.toNat) fun v s => s.modPwr fun w => { w with vcoreMax := BitVec.ofNat 10 v },
    ro 0x058 fun s => s.pwr.vcore.toNat + 65536 * s.pwr.vhub.toNat,
    ro 0x05C fun s => s.pwr.duty.toNat,
    ro 0x060 fun s => s.pwr.milliVolt.toNat + 65536 * s.pwr.tenMilliAmp.toNat,
    ro 0x064 fun s => s.pwr.avgWatt.toNat + 65536 * s.pwr.peakWatt.toNat,
    ro 0x068 fun s => s.pwr.inlet.toNat + 65536 * s.pwr.outlet.toNat,
    ro 0x06C fun s => s.pwr.hottest.toNat + 65536 * s.pwr.hotDomain.toNat,
    ro 0x070 fun s => s.pwr.flow.toNat,
    ranged 0x074 8 ownI 80 100 (fun s => s.flash.tjThrottle.toNat) fun v s => s.modFlash fun f => { f with tjThrottle := BitVec.ofNat 8 v },
    counterRC 0x078 ownO (fun s => s.pwr.fastTrips.toNat) fun s => s.modPwr fun w => { w with fastTrips := 0 },
    counterRC 0x07C ownO (fun s => s.pwr.throttlePeriods.toNat) fun s => s.modPwr fun w => { w with throttlePeriods := 0 },
    { off := 0x080, acc := .wo, owner := ownO
      set := fun _ _ v s => if bitOf v 31 then s.stReq (bitsOf v 0 7) (bitOf v 8) else took s },
    plainRW 0x084 7 ownO (fun s => s.pwr.qdSel.toNat) fun v s => s.modPwr fun w => { w with qdSel := BitVec.ofNat 7 v },
    ro 0x088 (·.quadStat),
    plainRW 0x08C 7 ownO (fun s => s.pwr.domSel.toNat) fun v s => s.modPwr fun w => { w with domSel := BitVec.ofNat 7 v },
    ro 0x090 (·.domStat),
    ranged 0x094 32 ownO 100000 10000000 (fun s => s.pwr.calH.toNat) fun v s => s.modPwr fun w => { w with calH := BitVec.ofNat 32 v },
    ranged 0x098 32 ownO 106670 10667000 (fun s => s.pwr.calL.toNat) fun v s => s.modPwr fun w => { w with calL := BitVec.ofNat 32 v },
    ranged 0x09C 32 ownO 2500000 250000000 (fun s => s.pwr.retrainDeadline.toNat) fun v s =>
      s.modPwr fun w => { w with retrainDeadline := BitVec.ofNat 32 v },
    counterRC 0x0A0 ownO (fun s => s.pwr.retrains.toNat) fun s => s.modPwr fun w => { w with retrains := 0 },
    window 0x0B0 12 fun s => leBytes 12 (maskOf ((List.range 80).filter fun q => (s.quad q).state == .offline))] }

/-- The trust state (R323): SEC_STATE.claim. -/
def State.claimState (s : State) : Nat := if s.sec.lockedOut then 2 else if (s.credKey 0x10).isEmpty then 0 else 1
/-- SEC_STATE (Table 10.8). -/
def State.secState (s : State) : Nat :=
  s.claimState + 4 * b2n s.sec.consent.isSome + 8 * b2n s.sec.debug + 16 * b2n s.fuse.revoked
    + 256 * (s.sec.sessions.filter fun e => e.2.any (·.established)).length
/-- SEC_FW (Table 10.7). -/
def State.secFw (s : State) : Nat :=
  b2n s.flash.activeB + 2 * b2n s.flash.inactive.valid + 4 * b2n s.sec.staging.isSome + 256 * s.flash.running.svn.toNat + 65536 * s.flash.fusedSvn.toNat
/-- SEC_CRED_VALID (Table 10.7). -/
def State.credMask (s : State) : Nat :=
  b2n (s.credValid 0) + 2 * b2n (s.credValid 1) + 16 * b2n (s.credValid 0x10)
    + 256 * maskOf ((List.range 4).filter fun k => s.credValid (BitVec.ofNat 8 (0x20 + k)))
/-- SEC_CRED_DIGEST (Table 10.7). -/
def State.credDigest (s : State) : BitVec 256 :=
  let c := s.sec.credSel
  match credRole c with
  | none => 0
  | some .maker => Config.sha3 (Config.makerKey c.toNat)
  | some _ => keyDigest (s.credKey c.toNat)
/-- SEC_POLICY (Table 10.9): debug_never is cleared only by RELEASE. -/
def setPolicy (v : Nat) (s : State) : RegW :=
  if bitOf s.flash.policy.toNat 3 && !bitOf v 3 then RegW.no s Cause.ownerDenied
  else took (s.modFlash fun f => { f with policy := BitVec.ofNat 4 v })

/-- The SEC page (Table 10.7). -/
def secPage : Page := {
  code := 0x0003, num := 2, owner := 3
  regs := [
    ro 0x040 (·.secState),
    { off := 0x044, acc := .rw, owner := ownI, get := fun _ s => s.flash.policy.toNat, set := fun _ _ v s => setPolicy v s },
    ro 0x048 (·.secFw),
    ro 0x04C (·.credMask),
    plainRW 0x050 8 ownI (fun s => s.sec.credSel.toNat) fun v s => s.modSec fun x => { x with credSel := BitVec.ofNat 8 v },
    counterRC 0x054 ownI (fun s => s.sec.authFails.toNat) fun s => s.modSec fun x => { x with authFails := 0 },
    window 0x060 32 fun s => digestBytes s.credDigest] }

/-- The journal entry with number `i`, where it is retained (R335, R352). -/
def State.jrnEntry (s : State) (i : W32) : Option JrnEntry := s.flash.journal.find? (·.index == i)
/-- JRN_ENTRY (Table 10.10): zero outside what is retained. -/
def State.jrnShown (s : State) (i : W32) : List Byte := ((s.jrnEntry i).map JrnEntry.bytes).getD (List.replicate 128 0)
/-- JRN_ENTRY as a tenant sees it (R340): an entry of another partition shows its index and link. -/
def State.jrnTenant (s : State) (p : Nat) (i : W32) : List Byte :=
  match s.jrnEntry i with
  | none => List.replicate 128 0
  | some e => if e.part.toNat = p then e.bytes else leBytes 4 e.index.toNat ++ List.replicate 92 0 ++ digestBytes e.link
/-- The link of entry `i`; before entry 0, and where it is not retained, zero. -/
def State.jrnLink (s : State) (i : W32) : BitVec 256 := ((s.jrnEntry i).map (·.link)).getD 0

/-- The registers of a JRN page (Table 10.10). -/
def jrnRegs (owner : Nat) (sel : State → W32) (setSel : W32 → State → State) (entry : State → List Byte) : List Reg := [
  ro 0x040 fun s => s.flash.jrnHead.toNat,
  ro 0x044 fun s => (s.flash.jrnHead - BitVec.ofNat 32 s.flash.journal.length).toNat,
  ro 0x048 fun s => b2n s.sec.jrnFailed + 2 * b2n (s.flash.headIn s.flash.journalA) + 4 * b2n (s.flash.headIn s.flash.journalB) + 65536 * s.sec.suppressed.toNat,
  plainRW 0x04C 32 owner (fun s => (sel s).toNat) fun v s => setSel (BitVec.ofNat 32 v) s,
  window 0x080 128 entry,
  window 0x100 32 fun s => digestBytes (s.jrnLink (sel s - 1)),
  window 0x120 32 fun s => digestBytes (s.jrnLink (s.flash.jrnHead - 1))]

/-- The JRN page. -/
def jrnPage : Page := {
  code := 0x0004, num := 3, owner := ownIO
  regs := jrnRegs ownIO (·.sec.jrnSel) (fun v s => s.modSec fun x => { x with jrnSel := v }) fun s => s.jrnShown s.sec.jrnSel }

/-- The code of a host link state (Table 11.7). -/
def LinkState.code : LinkState → Nat
  | .down => 0
  | .training => 1
  | .up => 2
  | .retraining => 3
/-- HST_LINK (Table 11.7). -/
def State.hstLink (s : State) : Nat :=
  b2n s.pcieOnly + 2 * s.hst.rate.toNat + 32 * s.hst.width.toNat + 1024 * s.hst.flit.toNat + 4096 * b2n s.hst.degraded + 8192 * s.hst.link.code
/-- Byte `k` of HST_HDM_ATTR. -/
def State.sliceOwner (s : State) (k : Nat) : Nat := (tget (0xFF#8) s.hst.attr k).toNat
/-- HST_HDM_STAT (Table 11.6): the exposed range is ready from READY on. -/
def State.hdmStat (s : State) : Nat :=
  b2n s.hst.committed + 2 * b2n s.hst.bi + 4 * b2n (s.hst.hdmGib != 0 && s.pwr.stage == .ready)
    + 65536 * ((List.range 512).filter fun k => s.sliceOwner k != 0xFF).length

/-- HST_HDM_GIB (R367): granules 512 − n to 511 are exposed. -/
def setHdmGib (v : Nat) (s : State) : RegW :=
  let v := v % 1024
  let held := (List.range 512).any fun g => decide (512 ≤ g + v) && (List.range 32).any fun p => (s.part p).ctl.lmap.contains g
  if s.hst.committed || decide (512 < v) || held || s.pcieOnly then RegW.no s Cause.hdmConfig
  else took (s.modHst fun h => { h with hdmGib := BitVec.ofNat 10 v })

/-- One slice attributed (R370): its tracked lines back-invalidated, then its key and regulator switched. -/
def State.attribute (s : State) (k b : Nat) : State :=
  if s.sliceOwner k = b then s else (s.invalidateSlice k).modHst fun h => { h with attr := tset h.attr k (BitVec.ofNat 8 b) }
/-- HST_HDM_ATTR[k] (R370). -/
def setHdmAttr (k v : Nat) (s : State) : RegW :=
  let b (j : Nat) : Nat := bitsOf v (8 * j) 8
  let bad := (List.range 4).any fun j =>
    b j != 0xFF && (decide (32 ≤ b j) || (s.part (b j)).ctl.state == .empty || decide (s.hst.hdmGib.toNat ≤ 4 * k + j))
  if bad then RegW.no s Cause.hdmAttr else took ((List.range 4).foldl (fun s j => s.attribute (4 * k + j) (b j)) s)

/-- The state code of an event ring (EVT_STAT). -/
def EvState.code : EvState → Nat
  | .stopped => 0
  | .running => 1
  | .error => 2
/-- A link of a chain as it is shown (Table 16.6). -/
def ChainLink.word (l : ChainLink) (inst : Nat) : Nat := l.cause.toNat + 65536 * l.block.toNat + 2 ^ 32 * inst
/-- The links that the PF page shows for a fault (R474). -/
def State.chainPf (s : State) : List Nat :=
  (((s.ev.shown.find? (·.1 == s.ev.pf.chainSel)).map (·.2)).getD []).map fun l => l.word l.inst.toNat
/-- The links that a tenant's page shows (R475): of a fault of which its ring holds a record; a link from outside has instance 0. -/
def State.chainVf (s : State) (p : Nat) : List Nat :=
  let r := (s.part p).evt
  if !r.seen.contains r.chainSel then [] else
  (((s.ev.shown.find? (·.1 == r.chainSel)).map (·.2)).getD []).map fun l => l.word (if l.part = some p then l.inst.toNat else 0)

/-- The state with the PF event ring changed. -/
def State.modPev (s : State) (f : EvRing → EvRing) : State := s.modEv fun e => { e with pf := f e.pf }

/-- The HST page (Tables 11.6, 16.8). -/
def hstPage : Page := {
  code := 0x0005, num := 4, owner := ownIO
  regs := [
    ro 0x040 (·.hstLink),
    plainRW 0x044 24 ownI (fun s => s.hst.cplTimeout.toNat) fun v s => s.modHst fun h => { h with cplTimeout := BitVec.ofNat 24 (max v 110000) },
    { off := 0x048, acc := .rw, owner := ownI, get := fun _ s => s.hst.hdmGib.toNat, set := fun _ _ v s => setHdmGib v s },
    ro 0x04C (·.hdmStat),
    ro 0x050 fun s => s.hst.snoop.length,
    ro64 0x058 fun s => s.hst.bisnp.toNat,
    ro 0x060 fun s => maskOf ((List.range 32).filter fun p => (s.part p).vf.flr != 0),
    counterRC 0x064 ownO (fun s => s.hst.flrCount.toNat) fun s => s.modHst fun h => { h with flrCount := 0 },
    counterRC 0x068 ownO (fun s => s.hst.flrSnuffed.toNat) fun s => s.modHst fun h => { h with flrSnuffed := 0 },
    ro 0x06C fun s => b2n s.hst.ideLink,
    ro 0x070 fun s => maskOf ((List.range 32).filter fun k => (tget none s.hst.ideSel k).any (·.secure)),
    { off := 0x074, acc := .rc, owner := ownO, get := fun _ s => s.hst.replays.toNat
      touch := fun _ s => s.useFree.linkReplays (Config.freeNat s.free)
      clear := fun _ s => s.modHst fun h => { h with replays := 0 } },
    counterRC 0x078 ownO (fun s => s.hst.retrains.toNat) fun s => s.modHst fun h => { h with retrains := 0 },
    { off := 0x100, width := 8, acc := .rws, owner := ownO, get := fun _ s => s.ev.pf.base.toNat
      set := fun _ _ v s => if s.ev.pfEnable then RegW.no s Cause.rwsRunning else took (s.modPev fun r => { r with base := BitVec.ofNat 64 v }) },
    { off := 0x108, acc := .rw, owner := ownO, get := fun _ s => s.ev.pf.cfg.toNat + 2 ^ 31 * b2n s.ev.pfEnable
      set := fun _ _ v s => s.pevConfig v },
    { off := 0x10C, acc := .rw, owner := ownO, get := fun _ s => s.ev.pf.head.toNat
      set := fun e _ v s => took (s.pevHead (BitVec.ofNat 32 v) e.io) },
    ro 0x110 fun s => s.ev.pf.tail.toNat,
    ro 0x114 fun s => s.ev.pf.state.code + 16 * s.ev.pf.buffer.length + 65536 * s.ev.pf.lastCause.toNat,
    counterRC 0x118 ownO (fun s => s.ev.pf.lost.toNat) fun s => s.modPev fun r => { r with lost := 0 },
    { off := 0x120, width := 8, acc := .rw, owner := ownIO, get := fun _ s => s.ev.pf.chainSel.toNat
      set := fun _ _ v s => took (s.modPev fun r => { r with chainSel := BitVec.ofNat 64 v }) },
    ro 0x128 fun s => s.chainPf.length,
    { off := 0x140, count := 4, stride := 8, width := 8, get := fun i s => nth 0 s.chainPf i },
    { off := 0x200, count := 128, acc := .rw, owner := ownO, get := fun k s => word4 fun j => s.sliceOwner (4 * k + j)
      set := fun _ k v s => setHdmAttr k v s }] }

/-- MGMT_I3C_STAT (Table 14.13). -/
def State.i3cStat (s : State) : Nat :=
  s.mgmt.dynAddr.toNat + 128 * b2n s.mgmt.dynValid + 256 * s.staticAddr.toNat + 2 ^ 16 * b2n s.mgmt.hjEn + 2 ^ 17 * b2n s.mgmt.ibiEn
    + 2 ^ 18 * b2n s.mgmt.hjPending

/-- The MGMT page (Table 14.12). -/
def mgmtPage : Page := {
  code := 0x0006, num := 5, owner := ownI
  regs := [
    plainRW 0x040 32 ownI (fun s => s.flash.pidLo.toNat) fun v s => s.modFlash fun f => { f with pidLo := BitVec.ofNat 32 v },
    ro 0x044 fun s => s.provisioned / 2 ^ 32,
    ro 0x048 (·.i3cStat),
    plainRW 0x04C 1 ownI (fun s => b2n s.flash.hotJoin) fun v s => s.modFlash fun f => { f with hotJoin := v == 1 },
    plainRW 0x050 3 ownI (fun s => s.mgmt.alertMask.toNat) fun v s => s.modMgmt fun m => { m with alertMask := BitVec.ofNat 3 v },
    ro 0x054 fun s => s.mgmt.eid.toNat,
    ro 0x058 fun s => s.mgmt.alerts.length,
    counterRC 0x05C ownI (fun s => s.mgmt.alertDrops.toNat) fun s => s.modMgmt fun m => { m with alertDrops := 0 },
    { off := 0x060, acc := .rc, owner := ownI, get := fun _ s => s.mgmt.sbErr.toNat
      touch := fun _ s => s.useFree.modMgmt fun m => { m with sbErr := satAdd m.sbErr (Config.freeNat s.free) }
      clear := fun _ s => s.modMgmt fun m => { m with sbErr := 0 } }] }

end Sys2Proof.Machine
end

