-- ==== Sys2Proof/Machine/PartPages.lean ====
section
/-!
DEFINITION. The partition pages of PF BAR0: PCTL, PRES, PREG, PMTR, VPORT, PATT (Tables 9.8 to 9.13, 12.6, 12.7, 17.14), and the limits of
Table 16.5 that hang on a partition.
-/

namespace Sys2Proof.Machine

/-- Whether the TDI of a partition holds its settings (R348). -/
def State.tdiHeld (s : State) (p : Nat) : Bool := (s.part p).vf.tdi == .locked || (s.part p).vf.tdi == .run

/-- A write that would change measurement 0x20 + p, refused while the TDI of the partition holds it (R348): `w` is what it comes to otherwise. -/
def State.tdiGuard (s : State) (p : Nat) (w : RegW) : RegW :=
  if w.cause = 0 && s.tdiHeld p && w.s.partValues p != s.partValues p then RegW.no s Cause.tdiLocked else w

/-- Why a setting of Table 9.4 may not be written now (R310, R348): cause and PCTL bit; `fixed`: not in STOPPED either. -/
def State.settingCause (s : State) (p : Nat) (fixed : Bool) : Option (W16 × Option (Nat × Nat)) :=
  match (s.part p).ctl.state with
  | .running | .draining | .teardown => some (Cause.rwsRunning, some (p, 1))
  | .stopped => if fixed then some (Cause.partFixed, some (p, 2)) else if s.tdiHeld p then some (Cause.tdiLocked, none) else none
  | _ => none

/-- An accepted write of a setting: the configuration generation rises (Table 10.6). -/
def State.bumpGen (s : State) (p : Nat) : State := s.modCtl p fun c => { c with cfgGen := c.cfgGen + 1 }

/-- A write of a setting, where Table 9.4 lets it be written. -/
def State.setting (s : State) (p : Nat) (fixed : Bool) (f : State → RegW) : RegW :=
  match s.settingCause p fixed with
  | some (c, b) => RegW.no s c b
  | none =>
    let w := f s
    if w.cause = 0 then { w with s := w.s.bumpGen p } else w

/-- A register of the PCTL page that is fixed from COMMIT on. -/
def fixedReg (p off bits : Nat) (get : PartCtl → Nat) (set : Nat → PartCtl → PartCtl) : Reg :=
  { off := off, acc := .rws, owner := ownO, get := fun _ s => get (s.part p).ctl
    set := fun _ _ v s => s.setting p true fun s => took (s.modCtl p (set (v % 2 ^ bits))) }

/-- The largest CLU_WATCH_LIMIT of a partition's clusters (R483). -/
def State.largestWatch (s : State) (p : Nat) : Nat :=
  (((s.quadsOf p).flatMap s.quadClusters).map fun k => (s.cluster k).watchLimit.toNat).foldl max 0
/-- PART_DRAIN_LIMIT as it is applied (Table 16.5): at least 2.5 times that limit. -/
def State.drainFloor (s : State) (p v : Nat) : Nat := if s.live p then max v (ceilDiv (5 * s.largestWatch p) 2) else v
/-- WDG_LIMIT as it is applied (Table 16.5): at least 10 times that limit. -/
def State.wdgFloor (s : State) (p v : Nat) : Nat := if s.live p then max v (10 * s.largestWatch p) else v
/-- The limits of a partition applied again (R483). -/
def State.reapply (s : State) (p : Nat) : State :=
  (s.modCtl p fun c => { c with drainLimit := BitVec.ofNat 32 (min (2 ^ 32 - 1) (s.drainFloor p c.drainLimit.toNat)) }).modWdg p fun w =>
    { w with limit := BitVec.ofNat 32 (min (2 ^ 32 - 1) (s.wdgFloor p w.limit.toNat)) }

/-- PART_DRAIN_LIMIT (Table 9.4, R483): writable in every state but against a held TDI. -/
def setDrainLimit (p v : Nat) (s : State) : RegW :=
  if s.tdiHeld p then RegW.no s Cause.tdiLocked
  else took ((s.modCtl p fun c => { c with drainLimit := BitVec.ofNat 32 (min (2 ^ 32 - 1) (s.drainFloor p v)) }).bumpGen p)

/-- PART_STATE (Table 9.9). -/
def State.partStat (s : State) (p : Nat) : Nat :=
  let c := (s.part p).ctl
  c.state.code + 16 * b2n c.forced + 32 * b2n c.drainTimeout + 64 * b2n (s.testHeld p || s.testRuns p)
    + 256 * (if c.state = .teardown then c.tdStep else 0)

/-- RUN_STATUS.run of PCTL, PRES and PREG (Table 17.7). -/
def State.partRun (s : State) (p : Nat) : Nat :=
  match (s.part p).ctl.state with
  | .empty | .configuring | .stopped => 0
  | .running => 1
  | .draining | .teardown => 3

/-- The PCTL page (Table 9.8). -/
def pctlPage (p : Nat) : Page := {
  code := 0x0010, inst := p, num := partPage p 0, part := some p, owner := ownO, run := fun s => s.partRun p
  regs := [
    { off := 0x040, acc := .wo, owner := ownO, ownEntry := true, set := fun e _ v s => s.partCtrl p (v % 16) e.who },
    ro 0x044 fun s => s.partStat p,
    fixedReg p 0x048 7 (·.quads.toNat) fun v c => { c with quads := BitVec.ofNat 7 v },
    fixedReg p 0x04C 17 (·.seqCap.toNat) fun v c => { c with seqCap := BitVec.ofNat 17 v },
    fixedReg p 0x050 15 (·.streamCap.toNat) fun v c => { c with streamCap := BitVec.ofNat 15 v },
    fixedReg p 0x054 21 (·.objCap.toNat) fun v c => { c with objCap := BitVec.ofNat 21 v },
    fixedReg p 0x058 9 (·.listCap.toNat) fun v c => { c with listCap := BitVec.ofNat 9 v },
    ro 0x05C fun s => (s.part p).ctl.cfgFail.toNat,
    { off := 0x060, acc := .rw, owner := ownO, get := fun _ s => (s.part p).ctl.drainLimit.toNat, set := fun _ _ v s => setDrainLimit p v s },
    ro 0x064 fun _ => p + 1,
    { off := 0x080, count := 20, acc := .rws, owner := ownO, get := fun k s => word4 fun j => (s.part p).ctl.quadAt (4 * k + j)
      set := fun _ k v s => s.setting p true fun s => took (s.modCtl p fun c => { c with
        quadMap := (List.range 4).foldl (fun t j => tset t (4 * k + j) (BitVec.ofNat 8 (bitsOf v (8 * j) 8))) c.quadMap }) }] }

/-- A quota written (R305, R310): in STOPPED it only grows, and takes its granules at once. -/
def setQuota (p : Nat) (hbm : Bool) (v : Nat) (s : State) : RegW :=
  s.setting p false fun s =>
    let c := (s.part p).ctl
    let put (s : State) : State := s.modCtl p fun c =>
      if hbm then { c with hbmGib := BitVec.ofNat 8 v } else { c with lpddrGib := BitVec.ofNat 10 v }
    if c.state != .stopped then took (put s)
    else if v < (if hbm then c.hbmGib.toNat else c.lpddrGib.toNat) then RegW.no s Cause.partFixed (some (p, 2))
    else
      let k := s.quotaCheck p hbm v
      if k ≠ 0 then RegW.no (s.modCtl p fun c => { c with cfgFail := BitVec.ofNat 32 k }) Cause.partConfig
      else took ((put s).growQuota p)

/-- An engine on which partition `p`'s grant in `c` brings the grants above 64, or that the grade does not have (R274, R304 check 9). -/
def State.grantBad (s : State) (p : Nat) (c : PartCtl) : Option Nat :=
  (List.range 4).find? fun u => decide (64 < c.cdcOn u + s.sumOthers p (·.cdcOn u)) || (c.cdcOn u != 0 && decide (s.fuse.grade.codecs ≤ u))

/-- PRES_CDC_GRANT (Table 9.4): in STOPPED not below the sessions open on an engine. DESIGN CHOICE (log entry 89): there a grant that brings an
engine's above 64 (R274) is refused as COMMIT would refuse it. -/
def setCdcGrant (p v : Nat) (s : State) : RegW :=
  s.setting p false fun s =>
    let v := v &&& 0x7F7F7F7F
    let low := (List.range 4).any fun u => decide (bitsOf v (8 * u) 7 < s.openSessions p u)
    if (s.part p).ctl.state == .stopped && low then RegW.no s Cause.partFixed (some (p, 2))
    else
      let t := s.modCtl p fun c => { c with cdcGrant := BitVec.ofNat 32 v }
      match if (s.part p).ctl.state == .stopped then s.grantBad p (t.part p).ctl else none with
      | some u => RegW.no (s.modCtl p fun c => { c with cfgFail := BitVec.ofNat 32 (9 + 65536 * u) }) Cause.partConfig
      | none => took t

/-- The PRES page (Table 9.11). -/
def presPage (p : Nat) : Page := {
  code := 0x0011, inst := p, num := partPage p 1, part := some p, owner := ownO, run := fun s => s.partRun p
  regs := [
    { off := 0x040, acc := .rws, owner := ownO, get := fun _ s => (s.part p).ctl.hbmGib.toNat, set := fun _ _ v s => setQuota p true (v % 256) s },
    { off := 0x044, acc := .rws, owner := ownO, get := fun _ s => (s.part p).ctl.lpddrGib.toNat
      set := fun _ _ v s => setQuota p false (v % 1024) s },
    { off := 0x048, acc := .rws, owner := ownO, get := fun _ s => (s.part p).ctl.cdcGrant.toNat, set := fun _ _ v s => setCdcGrant p v s },
    { off := 0x080, count := 20, acc := .rws, owner := ownO, get := fun t s => (s.part p).ctl.grant t
      set := fun _ t v s => s.setting p true fun s => took (s.modCtl p fun c => { c with hamper := tset c.hamper t (BitVec.ofNat 6 v) }) },
    { off := 0x100, count := 64, get := fun k s => word4 fun j => nth 0 (s.part p).ctl.hmap (4 * k + j) },
    { off := 0x200, count := 256, get := fun k s =>
        let m := (s.part p).ctl.lmap
        nth 0xFFFF m (2 * k) + 65536 * nth 0xFFFF m (2 * k + 1) }] }

/-- Whether regulator `r` exists: those of the ports are read as zero on a grade without ports (Table 9.3, R497). -/
def State.hasReg (s : State) (r : Nat) : Bool := decide (r < 3 + s.fuse.grade.ports)

/-- A regulator's settings written (R310, R311): a write that breaks a range leaves the old value. -/
def setRegulator (p r weight period cap : Nat) (s : State) : RegW :=
  if !s.hasReg r then took s else
  s.setting p false fun s =>
    if !regOk r weight period cap then RegW.no s Cause.regParam (some (p, 5))
    else took (s.modMtr p fun m => { m with regs := tmod {} m.regs r fun g =>
      { g with weight := BitVec.ofNat 8 weight, period := BitVec.ofNat 20 period, cap := BitVec.ofNat 32 cap } })
/-- REG_CFG[r] as it reads (Table 9.12). -/
def State.regCfg (s : State) (p r : Nat) : Nat :=
  let g := (s.part p).mtr.reg r
  if s.hasReg r then g.weight.toNat + 256 * g.period.toNat else 0
/-- REG_CAP[r] as it reads. -/
def State.regCap (s : State) (p r : Nat) : Nat := if s.hasReg r then ((s.part p).mtr.reg r).cap.toNat else 0
/-- MESH_WEIGHT (R311, Table 9.12). -/
def setMeshWeight (p v : Nat) (s : State) : RegW :=
  s.setting p false fun s =>
    if v % 256 = 0 then RegW.no s Cause.regParam (some (p, 5)) else took (s.modMtr p fun m => { m with meshWeight := BitVec.ofNat 8 v })

/-- The PREG page (Table 9.12). -/
def pregPage (p : Nat) : Page := {
  code := 0x0012, inst := p, num := partPage p 2, part := some p, owner := ownO, run := fun s => s.partRun p
  regs := [
    { off := 0x040, count := 5, stride := 16, acc := .rws, owner := ownO, absent := fun r s => !s.hasReg r, get := fun r s => s.regCfg p r
      set := fun _ r v s => setRegulator p r (v % 256) (bitsOf v 8 20) ((s.part p).mtr.reg r).cap.toNat s },
    { off := 0x044, count := 5, stride := 16, acc := .rws, owner := ownO, absent := fun r s => !s.hasReg r, get := fun r s => s.regCap p r
      set := fun _ r v s =>
        let g := (s.part p).mtr.reg r
        setRegulator p r g.weight.toNat g.period.toNat v s },
    { off := 0x048, count := 5, stride := 16, acc := .rc, owner := ownO, absent := fun r s => !s.hasReg r, get := fun r s => if s.hasReg r then ((s.part p).mtr.reg r).held.toNat else 0
      clear := fun r s => s.modMtr p fun m => { m with regs := tmod {} m.regs r fun g => { g with held := 0 } } },
    { off := 0x04C, count := 5, stride := 16
      get := fun r s => if s.hasReg r then sat 32 (((s.part p).mtr.reg r).last.foldl (· + ·) 0) else 0 },
    { off := 0x090, acc := .rws, owner := ownO, get := fun _ s => (s.part p).mtr.meshWeight.toNat, set := fun _ _ v s => setMeshWeight p v s }] }

/-- SNAP_STAT (Table 9.13). -/
def Snap.stat (x : Snap) : Nat := b2n x.busy + 2 * b2n x.final + 256 * x.state.toNat

/-- The PMTR page (Table 9.13). -/
def pmtrPage (p : Nat) : Page := {
  code := 0x0013, inst := p, num := partPage p 3, part := some p, owner := ownO
  regs := [
    { off := 0x040, acc := .wo, owner := ownO, set := fun _ _ v s => if bitOf v 0 then s.snapGo p else took s },
    ro 0x044 fun s => (s.part p).mtr.snap.stat,
    ro64 0x048 fun s => (s.part p).mtr.snap.seq.toNat,
    { off := 0x050, count := 10, stride := 8, width := 8, get := fun i s => (nth 0 (s.part p).mtr.snap.vals i).toNat },
    { off := 0x100, count := 10, stride := 8, width := 8, get := fun i s => (s.meter p i).toNat }] }

/-- VP_CTRL as it reads (Table 12.7). -/
def VPort.ctrl (v : VPort) : Nat := v.mtu.toNat + 65536 * v.vid.toNat + 2 ^ 28 * v.pcp.toNat + 2 ^ 31 * b2n v.enable
/-- Whether another enabled virtual port of a port has a MAC address and VLAN (R383). -/
def State.vportConflict (s : State) (n p v : Nat) (x : VPort) : Bool :=
  (List.range 32).any fun q => (List.range 32).any fun k =>
    let y := s.vport q (32 * n + k)
    y.enable && !(q == p && 32 * n + k == v) && y.macLo == x.macLo && y.macHi == x.macHi && y.vid == x.vid
/-- The enabled virtual ports of a port, of all partitions (NETI_VPORTS). -/
def State.vportCount (s : State) (n : Nat) : Nat :=
  ((List.range 32).map fun q => ((List.range 32).filter fun k => (s.vport q (32 * n + k)).enable).length).foldl (· + ·) 0
/-- The state with a virtual port changed. -/
def State.modVport (s : State) (p v : Nat) (f : VPort → VPort) : State := s.modNet p fun y => { y with vports := tmod {} y.vports v f }

/-- A write of VP_CTRL[v] (R348, R383, R384, Table 12.7): the fields beside enable stand while the port is enabled. -/
def setVportCtrl (p v w : Nat) (s : State) : RegW :=
  if s.fuse.grade.ports = 0 then took s else
  let x := s.vport p v
  let en := bitOf w 31
  let y : VPort := { x with enable := en, pcp := BitVec.ofNat 3 (bitsOf w 28 3), vid := BitVec.ofNat 12 (bitsOf w 16 12), mtu := BitVec.ofNat 14 w }
  if s.tdiHeld p then RegW.no s Cause.tdiLocked
  else if x.enable && (y.pcp != x.pcp || y.vid != x.vid || y.mtu != x.mtu) then RegW.no s Cause.rwsRunning
  else if y.mtu.toNat < 576 ∨ 9194 < y.mtu.toNat then RegW.no s Cause.badOperand
  else if en && !x.enable && decide (128 ≤ s.vportCount (vportPort v)) then RegW.no s Cause.vportLimit
  else if en && !x.enable && s.vportConflict (vportPort v) p v y then RegW.no s Cause.vportConflict
  else
    let s := s.modVport p v fun _ => y
    took (if x.enable && !en then s.vportDown p v else s)

/-- An address register of a virtual port written (R384): only while it is disabled. -/
def setVport (p v : Nat) (f : VPort → VPort) (s : State) : RegW :=
  if s.fuse.grade.ports = 0 then took s
  else if s.tdiHeld p then RegW.no s Cause.tdiLocked
  else if (s.vport p v).enable then RegW.no s Cause.rwsRunning
  else took (s.modVport p v f)

/-- An upper word of VP_IPV6A or VP_IPV6B (R496): it completes the lower word written before it. -/
def setIpv6Upper (p v : Nat) (low : VPort → Option W64) (clear : VPort → VPort) (put : BitVec 128 → VPort → VPort) (w : Nat) (s : State) : RegW :=
  if s.fuse.grade.ports = 0 then took s else
  match low (s.vport p v) with
  | none => RegW.no s Cause.badOperand
  | some l => setVport p v (put (BitVec.ofNat 128 (l.toNat + 2 ^ 64 * w))) (s.modVport p v clear)
/-- A lower word of them (R496): kept until the upper word is written. -/
def setIpv6Lower (p v : Nat) (put : VPort → VPort) (s : State) : RegW := if s.fuse.grade.ports = 0 then took s else took (s.modVport p v put)

/-- A register of the virtual-port page; it reads zero on a grade without ports (R497). -/
def vportReg (p off width : Nat) (acc : Acc) (get : VPort → Nat) (set : Nat → Nat → State → RegW) : Reg :=
  { off := 0x100 + off, count := 64, stride := 48, width := width, acc := acc, owner := ownO
    get := fun v s => if s.fuse.grade.ports = 0 then 0 else get (s.vport p v), set := fun _ v w s => set v w s }

/-- The virtual-port page (R395, Table 12.6). -/
def vportPage (p : Nat) : Page := {
  code := 0x0014, inst := p, num := partPage p 4, part := some p, owner := ownO
  regs := [
    vportReg p 0x00 4 .rw (·.ctrl) fun v w s => setVportCtrl p v w s,
    vportReg p 0x04 4 .rws (·.macLo.toNat) fun v w s => setVport p v (fun x => { x with macLo := BitVec.ofNat 32 w }) s,
    vportReg p 0x08 4 .rws (·.macHi.toNat) fun v w s => setVport p v (fun x => { x with macHi := BitVec.ofNat 16 w }) s,
    vportReg p 0x0C 4 .rws (·.ipv4.toNat) fun v w s => setVport p v (fun x => { x with ipv4 := BitVec.ofNat 32 w }) s,
    vportReg p 0x10 8 .rws (·.ipv6a.toNat % 2 ^ 64) fun v w s => setIpv6Lower p v (fun x => { x with lowA := some (BitVec.ofNat 64 w) }) s,
    vportReg p 0x18 8 .rws (·.ipv6a.toNat / 2 ^ 64) fun v w s =>
      setIpv6Upper p v (·.lowA) (fun x => { x with lowA := none }) (fun b x => { x with ipv6a := b }) w s,
    vportReg p 0x20 8 .rws (·.ipv6b.toNat % 2 ^ 64) fun v w s => setIpv6Lower p v (fun x => { x with lowB := some (BitVec.ofNat 64 w) }) s,
    vportReg p 0x28 8 .rws (·.ipv6b.toNat / 2 ^ 64) fun v w s =>
      setIpv6Upper p v (·.lowB) (fun x => { x with lowB := none }) (fun b x => { x with ipv6b := b }) w s] }

/-- The PATT page (Table 17.14). -/
def pattPage (p : Nat) : Page := {
  code := 0x0015, inst := p, num := partPage p 5, part := some p, owner := ownO
  regs := [
    ro 0x040 fun s => (s.part p).ctl.cfgGen.toNat,
    ro 0x044 fun s => (s.part p).vf.tdi.code,
    window 0x060 32 fun s => digestBytes (s.partDigest p)] }

end Sys2Proof.Machine
end

