-- ==== Sys2Proof/Machine/EnginePages.lean ====
section
/-!
DEFINITION. The pages of PF BAR0 that serve tiles, quads, clusters, memory dies and hub engines (Tables 2.6 to 2.9, 3.17, 3.18, 5.19, 7.11
to 7.15, 8.9, 8.10, 12.9, 12.10, 13.5 to 13.7, 16.9, 17.14).
-/

namespace Sys2Proof.Machine

/-- The logical quad that is physical quad `j` of tile `t`. -/
def State.quadAt (s : State) (t j : Nat) : Option Nat := (List.range s.fuse.grade.quads).find? fun q => s.qloc q == (t, j)

/-- The tile page (Table 17.14). -/
def tilePage (t : Nat) : Page := {
  code := 0x0020, inst := t, num := 0x1000 + 0x80 * t, owner := ownO
  regs := [
    ro 0x040 fun s => word4 fun j => (s.quadAt t j).getD 0x7F,
    ro64 0x048 fun s => maskOf ((List.range 42).filter fun i => !(List.range 4).any fun j => (s.quadMembers t j).contains i),
    ro 0x050 fun s => (s.tile t).temp.toNat,
    ro 0x054 fun s => (tget {} s.pwr.domains (80 + t)).state.code] }

/-- The OFFLINE halves among some clusters. -/
def State.offlineHalves (s : State) (cs : List Nat) : Nat :=
  (cs.map fun k => b2n ((s.cluster k).l.state == .offline) + b2n ((s.cluster k).r.state == .offline)).foldl (· + ·) 0

/-- The QD page of physical quad `j` of tile `t` (Table 17.14). -/
def qdPage (t j : Nat) : Page := {
  code := 0x0021, inst := 4 * t + j, num := 0x1001 + 0x80 * t + j, owner := ownO
  regs := [
    ro 0x040 fun s => match s.quadAt t j with
      | none => 0x7F + 256 * 0xFF
      | some q => q + 256 * (s.quadOwner q).getD 0xFF + 65536 * (s.quad q).state.code,
    ro64 0x048 fun s => maskOf (s.quadMembers t j),
    ro 0x050 fun s => s.offlineHalves ((s.quadMembers t j).map (42 * t + ·))] }

/-- The partition of granule `k` of tile `t` (HMP_OWNER): 0xFF free, 0xFE withheld. -/
def State.granuleOwner (s : State) (t k : Nat) : Nat :=
  match (List.range 32).find? fun p => (s.part p).ctl.hgran.contains (32 * t + k) with
  | some p => p
  | none => if (s.tile t).withheld.contains k then 0xFE else 0xFF

/-- The HAMPER page (Table 17.14). -/
def hamperPage (t : Nat) : Page := {
  code := 0x0023, inst := t, num := 0x102F + 0x80 * t, owner := ownO
  regs := [
    ro 0x040 fun s => (s.hamperFree t).length,
    ro 0x044 fun s => (s.tile t).withheld.length,
    { off := 0x080, count := 8, get := fun k s => word4 fun j => s.granuleOwner t (4 * k + j) },
    counterRC 0x0A0 ownO (fun s => (s.tile t).ce.toNat) fun s => s.modTile t fun x => { x with ce := 0 },
    counterRC 0x0A4 ownO (fun s => (s.tile t).ue.toNat) fun s => s.modTile t fun x => { x with ue := 0 },
    ro 0x0A8 fun s => (s.tile t).patrolPasses.toNat] }

/-- The MESH page (Table 17.14): how many flits have passed by the time of a read is open. -/
def meshPage (t : Nat) : Page := {
  code := 0x0024, inst := t, num := 0x1030 + 0x80 * t, owner := ownO
  regs := [
    ro 0x040 fun _ => (Config.meshLinks t).toNat,
    { off := 0x048, width := 8, get := fun _ s => (s.tile t).flits.toNat
      touch := fun _ s => s.useFree.modTile t fun x => { x with flits := wrapAdd x.flits (Config.freeNat s.free) } },
    { off := 0x050, width := 8, get := fun _ s => (s.tile t).waits.toNat
      touch := fun _ s => s.useFree.modTile t fun x => { x with waits := wrapAdd x.waits (Config.freeNat s.free) } }] }

/-- Whether a physical cluster belongs to a quad of the grade. -/
def State.clusterOn (s : State) (k : Nat) : Bool := (s.logCluster k).isSome
/-- CLU_ID (Table 2.7). -/
def State.cluId (s : State) (k : Nat) : Nat :=
  let spare := !(List.range 4).any fun j => (s.quadMembers (k / 42) j).contains (k % 42)
  (match s.logCluster k with
    | some (q, m) => 10 * q + m + 2 ^ 25
    | none => 0x3FF) + 1024 * (k % 42) + 2 ^ 20 * (k / 42) + 2 ^ 26 * b2n spare
/-- CLU_PART (Table 2.6). -/
def State.cluPart (s : State) (k : Nat) : Nat :=
  (match s.clusterOwner k with
    | some (p, r) => p + 256 * r
    | none => 0xFF + 256 * 0x3FF) + 2 ^ 18 * ((s.logCluster k).map (·.1)).getD 0x7F
/-- CLU_SPARE_ROWS (Table 2.8). -/
def State.spareRows (s : State) (k : Nat) : Nat :=
  let l := tget [] s.fuse.excluded k
  nth 0x7F l 0 + 256 * nth 0x7F l 1 + 65536 * l.length
/-- The feed delay of logical row `r` (R97): `r` and the excluded physical rows above it. -/
def skewOf (excluded : List Nat) (r : Nat) : Nat :=
  excluded.foldl (fun d x => if x ≤ d then d + 1 else d) r

/-- The commands that run on one half of a cluster: neither armed on it, nor waiting in the buffer (R71). -/
def State.onHalf (s : State) (k : Nat) (left : Bool) : List Cmd :=
  match s.clusterOwner k with
  | none => []
  | some (p, _) => ((s.cluster k).buffer.filterMap fun i => s.cmd? p i).filter fun c => 
      (if left then c.left else c.right) && !c.armed && !(c.op == 0x12 && c.wick.chain) && s.mayRun p c
/-- A half of a cluster. -/
def Cluster.half (c : Cluster) (left : Bool) : Half := if left then c.l else c.r
/-- A half's code in CLU_HALF_STAT (Table 2.9). -/
def State.halfCode (s : State) (k : Nat) (left : Bool) : Nat :=
  match ((s.cluster k).half left).state with
  | .offline => 3
  | .selfCheck => 2
  | .idle => if (s.onHalf k left).isEmpty then 0 else 1
/-- A half's code in WICK_STAT (Table 3.18). -/
def State.wickCode (s : State) (k : Nat) (left : Bool) : Nat :=
  let h := (s.cluster k).half left
  match h.state with
  | .offline => 5
  | .selfCheck => 4
  | .idle =>
    match h.armed, s.clusterOwner k with
    | some i, some (p, _) => if (s.cmd? p i).any fun w => (s.boundPartner p w k).isSome then 2 else 1
    | _, _ => if (s.onHalf k left).any fun c => c.engine == 0 && c.usesWick false then 3 else 0
/-- WICK_STAT.norm. -/
def State.normRuns (s : State) (k : Nat) : Bool := (s.onHalf k true ++ s.onHalf k false).any fun c => c.engine == 0 && c.op == 0x13

/-- Whether the block that governs CLU_WATCH_LIMIT is STOPPED (R98, Table 17.7). -/
def State.cluStopped (s : State) (k : Nat) : Bool :=
  match s.clusterOwner k with
  | none => true
  | some (p, _) => (s.part p).ctl.state == .stopped
/-- CLU_WATCH_LIMIT written (R98, R483, Table 16.5): at least 65,536; the limits that hang on it are applied again. -/
def setWatchLimit (k v : Nat) (s : State) : RegW :=
  if !s.cluStopped k then RegW.no s Cause.rwsRunning
  else
    let t := s.modCluster k fun c => { c with watchLimit := BitVec.ofNat 24 (max 65536 (v % 2 ^ 24)) }
    match s.clusterOwner k with
    | some (p, _) => s.tdiGuard p (took (t.reapply p))
    | none => took t

/-- The CLU page of cluster `i` of tile `t` (R98, R133). -/
def clusterPage (t i : Nat) : Page :=
  let k := 42 * t + i
  { code := 0x0022, inst := k, num := 0x1005 + 0x80 * t + i, owner := ownO, run := fun s => if s.cluStopped k then 0 else 1
    regs := [
      ro 0x040 fun s => s.cluId k,
      ro 0x044 fun s => s.cluPart k,
      ro 0x048 fun s => s.spareRows k,
      plainRW 0x04C 6 ownO (fun s => (s.cluster k).skewSel.toNat) fun v s => s.modCluster k fun c => { c with skewSel := BitVec.ofNat 6 v },
      ro 0x050 fun s => skewOf (tget [] s.fuse.excluded k) (s.cluster k).skewSel.toNat,
      ro 0x054 fun s => s.halfCode k true + 4 * s.halfCode k false + 16 * (s.cluster k).buffer.length,
      { off := 0x058, acc := .rws, owner := ownO, get := fun _ s => (s.cluster k).watchLimit.toNat, set := fun _ _ v s => setWatchLimit k v s },
      counterRC 0x05C ownO (fun s => (s.cluster k).l.faults.toNat + 65536 * (s.cluster k).r.faults.toNat) fun s =>
        s.modCluster k fun c => { c with l := { c.l with faults := 0 }, r := { c.r with faults := 0 } },
      ro64 0x060 fun s => (s.cluster k).beats.toNat,
      ro 0x068 fun s => (s.cluster k).lastFault.toNat,
      ro 0x080 fun s => s.wickCode k true + 16 * s.wickCode k false + 128 * b2n (s.normRuns k),
      counterRC 0x084 ownO (fun s => (s.cluster k).l.wickFaults.toNat + 65536 * (s.cluster k).r.wickFaults.toNat) fun s =>
        s.modCluster k fun c => { c with l := { c.l with wickFaults := 0 }, r := { c.r with wickFaults := 0 } },
      ro64 0x088 fun s => (s.cluster k).wickBeats.toNat,
      ro64 0x090 fun s => (s.cluster k).lookups.toNat] }

/-- The code of a channel state (Table 7.12). -/
def ChanState.code : ChanState → Nat
  | .off => 0
  | .training => 1
  | .ready => 2
  | .calibrating => 3
  | .retrainWait => 4
  | .failed => 5

/-- The registers of the page of channel `k` (Tables 7.11, 7.12). -/
def chanRegs (k id : Nat) : List Reg := [
  ro 0x040 fun _ => id,
  ro 0x044 fun s => (s.chan k).state.code + 8 * b2n (s.patrolSet k),
  counterRC 0x048 ownO (fun s => (s.chan k).ce.toNat) fun s => s.modChan k fun c => { c with ce := 0 },
  counterRC 0x04C ownO (fun s => (s.chan k).ue.toNat) fun s => s.modChan k fun c => { c with ue := 0 },
  counterRC 0x050 ownO (fun s => (s.chan k).retries.toNat) fun s => s.modChan k fun c => { c with retries := 0 },
  plainRW 0x054 32 ownO (fun s => (s.chan k).patrolInterval.toNat) fun v s => s.modChan k fun c => { c with patrolInterval := BitVec.ofNat 32 v },
  ro 0x058 fun s => (s.chan k).patrolPos.toNat,
  ro 0x05C fun s => (s.chan k).patrolPasses.toNat,
  ro64 0x060 fun s => (s.chan k).bytes.toNat]

/-- The HBC page of HBM channel `c` (R266, R267). -/
def hbcPage (c : Nat) : Page := {
  code := 0x0030, inst := c, num := 0x2000 + 0x100 * (c / 64) + c % 64, owner := ownO
  regs := chanRegs c (c + 256 * (c / 64) + 1024 * (c % 64 / 32)) }
/-- The LPC page of LPDDR channel `c` (R266, R267). -/
def lpcPage (c : Nat) : Page := {
  code := 0x0031, inst := c, num := 0x2040 + 0x100 * (c / 16) + c % 16, owner := ownO
  regs := chanRegs (256 + c) (c + 256 * (c / 16) + 1024 * (c % 16 / 4) + 32768) }

/-- Whether a range of a MOVING object of partition `p` has lines on die `d`. -/
def State.movingOn (s : State) (p d : Nat) (r : ORef) (n : Nat) : Bool :=
  (s.object p r.handle).state == .moving && s.anyChannel p (s.object p r.handle).src r.off n fun k => dieOf k == d

/-- The most memory-side operations that a started command can have held at a MOVING object on die `d`: a REDUCE_INTO its claim, else its elements;
a WICK_OP with red_mem one for each output row (R115). -/
def State.reduceHeld (s : State) (p d : Nat) (c : Cmd) : Nat :=
  let at' (r : ORef) (n k : Nat) : Nat := if s.movingOn p d r n then k else 0
  if !s.mayRun p c then 0
  else if c.runs 0 0x11 then
    let g := c.gemm
    if g.claimEn && (s.object p g.claim.handle).state == .moving then at' g.claim 8 1
    else at' g.d (s.object p g.d.handle).size.toNat (g.mv * g.nv)
  else if c.runs 0 0x12 && c.wick.redMem && !c.wick.isEmpty then at' c.wick.red (c.wick.redBytes * c.wick.outRows) c.wick.outRows
  else 0

/-- The participants of a SHARED call that are held at its counter on die `d` (R150). -/
def State.takesHeld (s : State) (p d : Nat) (k : Call) : Nat :=
  if k.shared && !k.exhausted && s.movingOn p d (ORef.of k.counterRef.toNat) 8 then
    k.participants.countP fun x => !x.left && !x.removed && x.index.isNone
  else 0

/-- The memory-side operations that moves hold back at die `d` (Table 7.13, R242): how many of them a command has issued is free
(log entry 93). -/
def State.addHeld (s : State) (d : Nat) : Nat :=
  let n := ((List.range 32).map fun p =>
    (((s.part p).cmd.cmds.map (s.reduceHeld p d)) ++ ((s.part p).cmd.calls.map fun e => s.takesHeld p d e.2)).foldl (· + ·) 0).foldl (· + ·) 0
  Config.freeNat s.free % (n + 1)

/-- The ADD page of die `d` (Table 7.13). -/
def addPage (d : Nat) : Page := {
  code := 0x0032, inst := d, num := 0x2050 + 0x100 * d, owner := ownO
  regs := [
    ro64 0x040 fun s => (s.die d).addOps.toNat,
    counterRC 0x048 ownO (fun s => (s.die d).addRefused.toNat) fun s => s.modDie d fun x => { x with addRefused := 0 },
    ro 0x04C fun s => s.addHeld d] }
/-- The CRY page of die `d` (Table 7.13). -/
def cryPage (d : Nat) : Page := {
  code := 0x0033, inst := d, num := 0x2051 + 0x100 * d, owner := ownO
  regs := [
    ro 0x040 fun s => maskOf ((List.range 32).filter fun p => (s.part p).ctl.key != 0),
    ro 0x044 fun s => b2n (s.die d).hostKey,
    ro 0x048 fun s => (s.die d).destroyed.toNat,
    ro 0x04C fun s => b2n (s.die d).selftestPass + 2 * b2n (s.die d).selftestFail] }

/-- A write of RET_PAGE (R263): a retire that both flash devices take is journaled as RETIRE, any other accepted write as WRITE. -/
def State.retirePage (s : State) (e : WEnv) (v : Nat) : RegW :=
  let fail (s : State) (c : W16) : State := s.modMem fun m => { m with retStatus := 3, retCause := c }
  let wrote (s : State) : State := s.journal { action := .write, who := e.who, target := 0x02052048#32, old := regDigest 0, new := regDigest (BitVec.ofNat 64 v) }
  let g := BitVec.ofNat 32 v
  let h := bitsOf v 62 2
  if h < 2 then RegW.no (fail s Cause.badHome) Cause.badHome
  else
    let r := (Home.ofCode h, g)
    if s.flash.retired.contains r then took ((wrote s).modMem fun m => { m with retStatus := 2 })
    else if 4096 ≤ s.flash.retired.length then took (fail (wrote s) Cause.retireFull)
    else if !e.flashOk then took ((wrote s).modMem fun m => { m with retStatus := 1 })
    else took (((s.journal { action := .retire, who := e.who, detail := g.toNat }).modFlash fun f =>
      { f with retired := f.retired ++ [r] }).modMem fun m => { m with retStatus := 2 })

/-- The ECC page of die `d` (R269, Table 7.14): only die 0 takes a retire. -/
def eccPage (d : Nat) : Page := {
  code := 0x0034, inst := d, num := 0x2052 + 0x100 * d, owner := ownO
  regs := [
    plainRW 0x040 16 ownO (fun s => s.mem.ceLimit.toNat) fun v s => s.modMem fun m => { m with ceLimit := BitVec.ofNat 16 v },
    ro 0x044 fun s => s.mem.tracked.length,
    { off := 0x048, width := 8, acc := .wo, owner := ownO, ownEntry := true
      set := fun e _ v s => if d = 0 then s.retirePage e v else RegW.no s Cause.badOperand },
    ro 0x050 fun s => s.mem.retStatus.toNat + 65536 * s.mem.retCause.toNat,
    ro 0x054 fun s => s.flash.retired.length,
    plainRW 0x058 12 ownO (fun s => s.mem.retSel.toNat) fun v s => s.modMem fun m => { m with retSel := BitVec.ofNat 12 v },
    ro64 0x060 fun s => match s.flash.retired[s.mem.retSel.toNat]? with
      | some r => r.1.code * 2 ^ 62 + r.2.toNat
      | none => 0,
    ro64 0x068 fun s => s.mem.lastUe.toNat] }

/-- The partitions of which instance `n` of `k` serves the command system: partition `p` by instance `p mod k`. -/
def State.served (s : State) (k n : Nat) : List Nat := (List.range 32).filter fun p => p % k == n && s.live p
/-- The SEQ[n] page (R204). -/
def seqnPage (n : Nat) : Page := {
  code := 0x0040, inst := n, num := 0x3000 + n, owner := ownO
  regs := [
    ro 0x040 fun s => maskOf (s.served 2 n),
    ro 0x044 fun s => ((s.served 2 n).map fun p => (s.part p).ctl.seqCap.toNat).foldl (· + ·) 0,
    ro64 0x048 fun s => (tget {} s.seqs n).steps.toNat,
    counterRC 0x050 ownO (fun s => (tget {} s.seqs n).poison.toNat) fun s => { s with seqs := tmod {} s.seqs n fun x => { x with poison := 0 } }] }
/-- The MOV[n] page (R268). -/
def movPage (n : Nat) : Page := {
  code := 0x0041, inst := n, num := 0x3002 + n, owner := ownO
  regs := [
    ro 0x040 fun s => maskOf (s.served 8 n),
    ro 0x044 fun s => ((s.served 8 n).map fun p => (s.part p).obj.table.countP fun e => e.2.state == .moving).foldl (· + ·) 0,
    ro64 0x048 fun s => (tget {} s.movs n).bytes.toNat,
    ro64 0x050 fun s => (tget {} s.movs n).misses.toNat] }

/-- The command that runs on CDC[u]. -/
def State.engCmd (s : State) (u : Nat) : Option (Nat × Cmd) := (s.engRuns u).bind fun e => (s.cmd? e.1 e.2).map fun c => (e.1, c)
/-- CDCI_STAT (Table 8.10). -/
def State.cdciStat (s : State) (u : Nat) : Nat :=
  let r := s.engCmd u
  b2n (decide (u < s.fuse.grade.codecs)) + 2 * b2n r.isSome + 4 * b2n (r.any fun e => s.isLive e.1 e.2) + 8 * b2n (s.engHolds u).isSome
    + 65536 * (r.map (·.1)).getD 0xFFFF
/-- The codec engine `u`. -/
def State.eng (s : State) (u : Nat) : CdcEng := tget {} s.cdcs u
/-- The CDC[n] page (R299). -/
def cdcnPage (u : Nat) : Page := {
  code := 0x0042, inst := u, num := 0x300A + u, owner := ownO
  regs := [
    ro 0x040 fun s => s.cdciStat u,
    ro 0x044 fun s => maskOf ((List.range 32).filter fun p => s.live p && s.cdcGrant p u != 0),
    ro 0x048 fun s => ((List.range 32).map fun p => s.openSessions p u).foldl (· + ·) 0,
    counterRC 0x04C ownO (fun s => (s.eng u).faults.toNat) fun s => s.modEng u fun x => { x with faults := 0 },
    ro64 0x050 fun s => (s.eng u).decUnits.toNat,
    ro64 0x058 fun s => (s.eng u).encUnits.toNat,
    ro64 0x060 fun s => (s.eng u).preempts.toNat] }

/-- The code of an Ethernet link state (Table 12.10). -/
def netLinkCode : NetLink → Nat
  | .down => 0
  | .training => 1
  | .up => 2
/-- NETI_CTRL written: RWS as a whole, of a port that is STOPPED while its enable is 0 (R6, Table 12.9, Table 17.7). -/
def setNetiCtrl (n v : Nat) (s : State) : RegW :=
  let x := tget {} s.nets n
  if x.enable then RegW.no s Cause.rwsRunning
  else if bitsOf v 1 2 = 3 then RegW.no s Cause.badOperand
  else took (s.modPort n fun x => { x with enable := bitOf v 0, media := BitVec.ofNat 2 (bitsOf v 1 2) })
/-- The NET[n] page (R396). -/
def netnPage (n : Nat) : Page := {
  code := 0x0043, inst := n, num := 0x300E + n, owner := ownIO, run := fun s => b2n (tget {} s.nets n).enable
  regs := [
    { off := 0x040, acc := .rws, owner := ownI, get := fun _ s => b2n (tget {} s.nets n).enable + 2 * (tget {} s.nets n).media.toNat
      set := fun _ _ v s => setNetiCtrl n v s },
    ro 0x044 fun s => 1 + 2 * netLinkCode (tget {} s.nets n).link,
    ro 0x048 fun s => s.vportCount n,
    counterRC 0x04C ownO (fun s => (tget {} s.nets n).noMatch.toNat) fun s => s.modPort n fun x => { x with noMatch := 0 },
    counterRC 0x050 ownO (fun s => (tget {} s.nets n).fcs.toNat) fun s => s.modPort n fun x => { x with fcs := 0 },
    counterRC 0x054 ownO (fun s => (tget {} s.nets n).fecUncorr.toNat) fun s => s.modPort n fun x => { x with fecUncorr := 0 },
    { off := 0x058, width := 8, get := fun _ s => (tget {} s.nets n).fecCorr.toNat
      touch := fun _ s => s.useFree.modPort n fun y => { y with fecCorr := wrapAdd y.fecCorr (Config.freeNat s.free) } },
    ro64 0x060 fun s => (tget {} s.nets n).txFrames.toNat,
    ro64 0x068 fun s => (tget {} s.nets n).rxFrames.toNat] }

/-- The code of an Ecior link state (ECI_STAT). -/
def EciLink.code : EciLink → Nat
  | .off => 0
  | .training => 1
  | .auth => 2
  | .up => 3
  | .retry => 4
  | .failed => 5

/-- ECI_STAT (Table 13.5). -/
def State.eciStat (s : State) : Nat :=
  s.eci.link.code + 16 * b2n s.sideB + 32 * b2n s.fitted + 64 * b2n s.eci.peerAlive + 256 * s.eci.missCount.toNat
/-- ECI_MIR_STAT (Table 13.7). -/
def Mirror.stat (m : Mirror) : Nat :=
  m.state.code + 256 * min 15 m.sent.length + 4096 * b2n (!m.heldSteps.isEmpty) + 65536 * m.lastCause.toNat
/-- ECI_KA_INTERVAL and ECI_KA_MISS as they are applied (R404). -/
def keepaliveLimits (interval miss : Nat) : Nat × Nat :=
  let m := max miss (ceilDiv 2097152 interval)
  if 255 < m then (8225, 255) else (interval, m)
/-- Both keepalive registers applied, each moved into its own range first (R404, R483). -/
def setKeepalive (interval miss : Nat) (s : State) : RegW :=
  let n := min 255 (max 2 miss)
  let x := keepaliveLimits (min 1048575 (max 4375 interval)) n
  took (s.modEci fun e => { e with kaInterval := BitVec.ofNat 32 x.1, kaMiss := BitVec.ofNat 8 x.2, kaMissSet := BitVec.ofNat 8 n })
/-- ECI_MIR_CTRL written (R398, R411): only while the partition is STOPPED. -/
def setMirCtrl (p v : Nat) (s : State) : RegW :=
  if s.fitted && (s.part p).ctl.state != .stopped then RegW.no s Cause.rwsRunning else s.tdiGuard p (s.mirCtrl p v)
/-- ECI_MIR_CMD written (R398, R411). -/
def setMirCmd (e : WEnv) (v : Nat) (s : State) : RegW :=
  if s.fitted then s.tdiGuard (bitsOf v 0 5) (s.mirCmd (bitsOf v 0 5) (bitsOf v 8 3) e.twin) else RegW.no (s.modEci fun e => { e with cmdResult := Cause.pairAbsent }) Cause.pairAbsent

/-- The ECI page (R415). -/
def eciPage : Page := {
  code := 0x0044, num := 0x3010, owner := ownIO, run := fun s => if s.eci.link = .failed then 2 else 1
  regs := [
    ro 0x040 (·.eciStat),
    { off := 0x044, acc := .rw, owner := ownO, get := fun _ s => s.eci.kaInterval.toNat
      set := fun _ _ v s => setKeepalive v s.eci.kaMissSet.toNat s },
    { off := 0x048, acc := .rw, owner := ownO, get := fun _ s => s.eci.kaMiss.toNat
      set := fun _ _ v s => setKeepalive s.eci.kaInterval.toNat (v % 256) s },
    counterRC 0x04C ownO (fun s => s.eci.replays.toNat) fun s => s.modEci fun e => { e with replays := 0 },
    counterRC 0x050 ownO (fun s => s.trainCount.toNat) fun s => s.useFree.modEci fun e => { e with retrains := 0 },
    counterRC 0x054 ownO (fun s => s.eci.crcErr.toNat) fun s => s.modEci fun e => { e with crcErr := 0 },
    { off := 0x058, acc := .wo, owner := ownO, set := fun e _ v s => setMirCmd e v s },
    ro 0x05C fun s => s.eci.cmdResult.toNat,
    window 0x060 32 fun s => digestBytes (s.flash.peerDigest.getD 0),
    { off := 0x100, count := 32, stride := 32, acc := .rws, owner := ownO, get := fun p s => (s.part p).mir.ctrl
      set := fun _ p v s => setMirCtrl p v s },
    { off := 0x104, count := 32, stride := 32, get := fun p s => (s.part p).mir.stat },
    { off := 0x108, count := 32, stride := 32, get := fun p s => (s.part p).mir.acked.toNat },
    { off := 0x10C, count := 32, stride := 32, get := fun p s => (s.part p).mir.sentWm.toNat },
    { off := 0x110, count := 32, stride := 32, width := 8, get := fun p s => (s.part p).mir.bytes.toNat }] }

/-- The CTLC[p] page (R487). -/
def ctlcPage (p : Nat) : Page := {
  code := 0x0045, inst := p, num := 0x3011 + p, owner := ownO
  regs := [
    { off := 0x040, acc := .rw, owner := ownO, get := fun _ s => (s.part p).wdg.limit.toNat
      set := fun _ _ v s => took (s.modWdg p fun w => { w with limit := BitVec.ofNat 32 (min (2 ^ 32 - 1) (s.wdgFloor p v)) }) },
    ro 0x044 fun s => b2n (s.part p).wdg.stalled + 256 * sat 24 (s.watched p).length,
    counterRC 0x048 ownO (fun s => (s.part p).wdg.count.toNat) fun s => s.modWdg p fun w => { w with count := 0 },
    ro 0x04C fun s => (s.part p).wdg.ticks.toNat] }

end Sys2Proof.Machine
end

