-- ==== Sys2Proof/Machine/TenantPages.lean ====
section
/-!
DEFINITION. The pages of VF BAR0 (Table 17.9): PART_STATUS, RING, DOORBELL, CTX, LIST, LANTERN, SEQ, STREAM, OBJ, CDC, NET, EVT, JRN, HOST.
-/

namespace Sys2Proof.Machine

/-- The PART_STATUS page (Table 9.14). -/
def statusPage (p : Nat) : Page := {
  code := 0x0080, num := 0, vf := some p, part := some p, owner := ownT
  regs := [
    ro 0x040 fun s => (s.part p).ctl.state.code + 256 * (s.part p).ctl.quads.toNat,
    ro 0x044 fun s => (s.part p).ctl.hbmGib.toNat,
    ro 0x048 fun s => (s.part p).ctl.lpddrGib.toNat,
    ro 0x04C fun s => (s.part p).mtr.meshWeight.toNat,
    { off := 0x050, count := 5, stride := 8, width := 8, get := fun r s => s.regCfg p r + 2 ^ 32 * s.regCap p r },
    { off := 0x100, count := 10, stride := 8, width := 8, get := fun i s => (s.meter p i).toNat },
    ro64 0x180 fun s => (s.part p).mtr.snap.seq.toNat,
    { off := 0x188, count := 10, stride := 8, width := 8, get := fun i s => (nth 0 (s.part p).mtr.snap.vals i).toNat }] }

/-- The code of RING_STAT.state (Table 1.4): a started ring of a context that is not resident shows STALL_CONTEXT (R57). -/
def State.ringCode (s : State) (p n : Nat) : Nat :=
  let r := s.ring p n
  match r.state with
  | .stopped => 0
  | .error => 5
  | st =>
    if (s.ctx p r.ctx).state != .resident then 4 else
    match st with
    | .idle => 1
    | .fetching => 2
    | .stallQueue => 3
    | .stallContext => 4
    | _ => 0
/-- RING_STAT (Table 1.4). DESIGN CHOICE (log entry 89): stall_engine and stall_unit keep the engine unit of the last full queue once the ring no
longer stalls. -/
def State.ringStat (s : State) (p n : Nat) : Nat :=
  let r := s.ring p n
  s.ringCode p n + 8 * b2n (s.cplWaits p n) + 16 * r.stallEngine.toNat + 128 * r.stallUnit.toNat + 65536 * r.lastCause.toNat
/-- RUN_STATUS.run of a RING page (Table 17.7). -/
def State.ringRun (s : State) (p n : Nat) : Nat :=
  match (s.ring p n).state with
  | .stopped => 0
  | .error => 2
  | _ => 1
/-- An RWS register of a RING page (R19). -/
def ringReg (p n off width : Nat) (get : Ring → Nat) (set : Nat → Ring → Ring) : Reg :=
  { off := off, width := width, acc := .rws, owner := ownT, get := fun _ s => get (s.ring p n)
    set := fun _ _ v s => if (s.ring p n).state != .stopped then RegW.no s Cause.rwsRunning else took (s.modRing p n (set v)) }
/-- The RING[n] page (Table 1.2). -/
def ringPage (p n : Nat) : Page := {
  code := 0x0081, inst := n, num := 1 + n, vf := some p, part := some p, owner := ownT, run := fun s => s.ringRun p n
  ctrl := some fun c s => if c = 1 then s.ringStart p n else if c = 2 then s.ringStop p n else s
  regs := [
    ringReg p n 0x040 8 (·.base.toNat) fun v r => { r with base := BitVec.ofNat 64 v },
    ringReg p n 0x048 4 (·.cfg.toNat) fun v r => { r with cfg := BitVec.ofNat 32 (v &&& 0x7F011F) },
    ro 0x050 fun s => (s.ring p n).head.toNat,
    ro 0x054 fun s => (s.ring p n).tail.toNat,
    ro 0x058 fun s => s.ringStat p n,
    ro 0x05C fun s => (s.ring p n).lastWm.toNat,
    ringReg p n 0x060 8 (·.cplBase.toNat) fun v r => { r with cplBase := BitVec.ofNat 64 v },
    ringReg p n 0x068 4 (·.cplCfg.toNat) fun v r => { r with cplCfg := BitVec.ofNat 32 (v &&& 0x11F) },
    plainRW 0x06C 32 ownT (fun s => (s.ring p n).cplHead.toNat) fun v s => s.modRing p n fun r => { r with cplHead := BitVec.ofNat 32 v },
    ro 0x070 fun s => (s.ring p n).cplTail.toNat] }

/-- The DOORBELL page (Table 1.5). -/
def doorbellPage (p : Nat) : Page := {
  code := 0x0082, num := 0x11, vf := some p, part := some p, owner := ownT
  regs := [{ off := 0x040, count := 16, acc := .wo, owner := ownT, set := fun _ n v s => took (s.ringBell p n (BitVec.ofNat 32 v)) }] }

/-- The code of a context state (Table 1.17). -/
def CtxState.code : CtxState → Nat
  | .free => 0
  | .resident => 1
  | .evicting => 2
  | .swapped => 3
  | .restoring => 4
/-- CTX_STAT[n] (Table 1.17). -/
def State.ctxStat (s : State) (p n : Nat) : Nat :=
  (s.ctx p n).state.code + 16 * b2n (s.ctxRunnable p n) + 32 * b2n (s.ctxBlocked p n) + 256 * (s.ctx p n).slot.toNat
/-- The CTX page (Table 1.17). -/
def ctxPage (p : Nat) : Page := {
  code := 0x0083, num := 0x12, vf := some p, part := some p, owner := ownT
  regs := [
    { off := 0x040, count := 16, acc := .rw, owner := ownT, get := fun n s => s.ctxCtrl p n
      set := fun _ n v s => took (s.ctxWrite p n (bitOf v 0) (bitOf v 1) (BitVec.ofNat 3 (bitsOf v 4 3))) },
    { off := 0x080, count := 16, get := fun n s => s.ctxStat p n },
    plainRW 0x0C0 12 ownT (fun s => (s.part p).cmd.tokenSel.toNat) fun v s => s.modSys p fun y => { y with tokenSel := BitVec.ofNat 12 v },
    ro 0x0C4 fun s => (s.token p (s.part p).cmd.tokenSel.toNat).val.toNat,
    ro 0x0C8 fun s => b2n (s.token p (s.part p).cmd.tokenSel.toNat).flagged,
    ro 0x0CC fun s => (s.part p).cmd.ctxSaveBytes.toNat] }

/-- The list slots of which `f` holds, as a mask. -/
def State.listMask (s : State) (p : Nat) (f : ListSlot → Bool) : Nat := maskOf ((List.range 64).filter fun n => f (s.listSlot p n))
/-- The LIST page (Table 1.15). LIST_HELD reads zero: a fetcher copies a buffer within one step, so that none holds an inactive buffer between
two (R142 steps 3 and 4, log entry 19). -/
def listPage (p : Nat) : Page := {
  code := 0x0084, num := 0x13, vf := some p, part := some p, owner := ownT
  regs := [
    { off := 0x040, count := 64, get := fun n s => (s.listSlot p n).gen.toNat },
    { off := 0x140, count := 64, get := fun n s => (s.listSlot p n).current.length },
    { off := 0x240, count := 64, get := fun _ s => 4096 * (s.part p).ctl.listCap.toNat },
    ro64 0x340 fun _ => 0,
    ro64 0x348 fun s => s.listMask p fun l => !l.loadWaiting.isEmpty || l.loaded.isSome] }

/-- The valid slots of a Lantern bank. -/
def bankValid (t : Tbl LtnFn) : Nat := maskOf (((t.filter fun e => !e.2.damaged)).map fun e => e.1 - 10)
/-- LTN_STATE (Table 3.16). -/
def State.ltnState (s : State) (p : Nat) : Nat :=
  let l := (s.part p).ltn
  b2n l.active + 2 * b2n (s.bankHeld p false) + 4 * b2n (s.bankHeld p true) + 8 * b2n (!l.loadWaiting.isEmpty)
    + 16 * b2n ((s.part p).cmd.cmds.any fun c => c.engine == 0 && c.op == 0x15 && c.phase == .started && s.switchWaits p c)
    + 256 * bankValid l.bank0 + 65536 * bankValid l.bank1
/-- LTN_SLOT_INFO (Table 3.15). -/
def Lantern.slotInfo (l : Lantern) : Nat :=
  let w := l.slotSel.toNat
  let n := bitsOf w 4 4
  match (l.bank (bitOf w 0)).find? (·.1 == n) with
  | none => 0
  | some (_, f) =>
    (f.tables.map (·.segs.length)).foldl (· + ·) 0 + 65536 * b2n (!f.damaged) + 131072 * b2n f.damaged + 262144 * b2n f.increasing
      + 524288 * b2n f.decreasing + 1048576 * f.lookups
/-- The LANTERN page (Table 3.15). -/
def lanternPage (p : Nat) : Page := {
  code := 0x0085, num := 0x14, vf := some p, part := some p, owner := ownT
  regs := [
    ro 0x040 fun s => s.ltnState p,
    ro 0x044 fun s => (s.part p).ltn.gen.toNat,
    ro 0x048 fun s => bankSegs (s.part p).ltn.bank0 + 65536 * bankSegs (s.part p).ltn.bank1,
    { off := 0x04C, acc := .rw, owner := ownT, get := fun _ s => (s.part p).ltn.slotSel.toNat
      set := fun _ _ v s => took (s.modLtn p fun l => { l with slotSel := BitVec.ofNat 32 (v &&& 0xF1) }) },
    ro 0x050 fun s => (s.part p).ltn.slotInfo] }

/-- Whether a SEQ command of a partition waits for a sequence that is INSTEP (R169). -/
def State.seqWaits (s : State) (p : Nat) : Bool :=
  (s.part p).cmd.cmds.any fun c => c.engine == 2 && c.phase == .started && c.stage == 1 && (s.seqNames p c).1.any fun i => (s.seqEntry p i).state == .inStep
/-- Whether a STEP is held while another lacks its terminal record (R169). -/
def State.stepHeld (s : State) (p : Nat) : Bool :=
  let steps := (s.part p).cmd.cmds.filter fun c => c.engine == 2 && c.op == 0x13
  steps.any (fun c => c.phase == .started || c.phase == .ended)
    && steps.any fun c => c.phase == .queued && (((s.part p).cmd.queue (unitNo .seq) c.ctx).head? == some c.id)
/-- Whether a STEP of a partition is in progress: it has started and has no terminal record yet (Table 5.18). -/
def State.stepOpen (s : State) (p : Nat) : Bool :=
  (s.part p).cmd.cmds.any fun c => c.engine == 2 && c.op == 0x13 && (c.phase == .started || c.phase == .ended)

/-- SEQ_STAT (Table 5.18). -/
def State.seqStat (s : State) (p : Nat) : Nat :=
  let r := (s.part p).seq.run
  b2n (s.stepOpen p) + 2 * b2n (r.any fun x => !x.allIssued) + 4 * b2n (s.stepHeld p) + 8 * b2n (s.seqWaits p) + 256 * ((r.map fun x => if x.allIssued then 0 else x.phase).getD 0 % 32)
    + 65536 * ((r.map (·.members.length)).getD 0)
/-- An RWS register of the SEQ page (R203): writing it changes the configuration, which a mirrored partition sends on (R405, R406). -/
def seqReg (p off : Nat) (get : Seq → Nat) (set : Nat → Seq → Seq) : Reg :=
  { off := off, acc := .rws, owner := ownT, get := fun _ s => get (s.part p).seq
    set := fun _ _ v s =>
      if (s.part p).seq.started then RegW.no s Cause.rwsRunning
      else took ((s.modSeq p fun q => { set v q with changed := q.changed || get (set v q) != get q }).markDirty p .seqRegs) }
/-- SEQ_ENTRY (Table 5.16). -/
def State.seqShown (s : State) (p : Nat) : List Byte :=
  let i := (s.part p).seq.sel.toNat
  if i < (s.part p).ctl.seqCap.toNat then (s.seqEntry p i).bytes else List.replicate 128 0
/-- The live entries of the sequence table that satisfy `f`. -/
def Seq.countLive (q : Seq) (f : SeqEntry → Bool) : Nat := q.table.countP fun e => e.2.state != .empty && f e.2
/-- The SEQ page (Table 5.16). -/
def seqPage (p : Nat) : Page := {
  code := 0x0086, num := 0x15, vf := some p, part := some p, owner := ownT, run := fun s => b2n (s.part p).seq.started
  ctrl := some fun c s => if c = 1 then s.seqPageStart p else if c = 2 then s.seqPageStop p else s
  regs := [
    seqReg p 0x040 (·.cfg.toNat) fun v q => { q with cfg := BitVec.ofNat 32 (v % 2 ^ 27) },
    ro 0x044 fun s => (s.part p).ctl.seqCap.toNat,
    seqReg p 0x048 (·.blocks.toNat) fun v q => { q with blocks := BitVec.ofNat 32 (v % 2 ^ 23) },
    seqReg p 0x04C (·.pinLimit.toNat) fun v q => { q with pinLimit := BitVec.ofNat 32 (v % 2 ^ 23) },
    seqReg p 0x050 (·.pool.toNat) fun v q => { q with pool := BitVec.ofNat 20 v },
    seqReg p 0x054 (·.metaObj.toNat) fun v q => { q with metaObj := BitVec.ofNat 20 v },
    seqReg p 0x058 (·.pl.toNat) fun v q => { q with pl := BitVec.ofNat 20 v },
    seqReg p 0x05C (·.content.toNat) fun v q => { q with content := BitVec.ofNat 20 v },
    ro 0x060 fun s => s.seqStat p,
    ro 0x064 fun s => ((s.part p).seq.slots .free).length,
    ro 0x068 fun s => (s.part p).seq.cached,
    ro 0x06C fun s => (s.part p).seq.pinned,
    ro 0x070 fun s => (s.part p).seq.countLive fun _ => true,
    ro 0x074 fun s => (s.part p).seq.countLive (·.recompute),
    plainRW 0x078 16 ownT (fun s => (s.part p).seq.sel.toNat) fun v s => s.modSeq p fun q => { q with sel := BitVec.ofNat 16 v },
    ro64 0x080 fun s => (s.part p).seq.steps.toNat,
    ro64 0x088 fun s => (s.part p).seq.drops.toNat,
    ro64 0x090 fun s => (s.part p).seq.hits.toNat,
    ro64 0x098 fun s => (s.part p).seq.copyBytes.toNat,
    window 0x100 128 fun s => s.seqShown p] }

/-- Whether a stream is LIVE or BROKEN. -/
def Stream.isLive (x : Stream) : Bool := x.state == .live || x.state == .broken
/-- The moves of a partition deferred under R214. -/
def State.deferredMoves (s : State) (p : Nat) : Nat := (s.part p).cmd.cmds.countP fun c => c.deferred && c.stage == 0 && c.phase != .ended
/-- Whether a command waits for chunks of its streams (R214, R219, R231), and for no STEP that its sequence is in. -/
def State.streamWaits (s : State) (p : Nat) : Bool :=
  (s.part p).cmd.cmds.any fun c =>
    c.engine == 2 && c.phase == .started && c.stage == 1 && (s.seqNames p c).2.any (fun i => (s.stream p i).pending != 0)
      && (c.op == 0x16 || (s.seqEntry p (c.fld 36 2)).state != .inStep)
/-- STR_STAT (Table 6.7). -/
def State.strStat (s : State) (p : Nat) : Nat :=
  let x := (s.part p).str
  b2n (!x.swaps.isEmpty) + 2 * b2n (s.deferredMoves p != 0) + 4 * b2n (s.streamWaits p) + 8 * b2n (x.table.any fun e => e.2.state == .faulted)
    + 65536 * sat 16 ((x.table.map fun e => e.2.pending.toNat).foldl (· + ·) 0)
/-- STR_ENTRY (Table 6.6). -/
def State.strShown (s : State) (p : Nat) : List Byte :=
  let i := (s.part p).str.sel.toNat
  if i < (s.part p).ctl.streamCap.toNat then s.streamBytes p (s.stream p i) else List.replicate 64 0
/-- The entries of the stream table that satisfy `f`. -/
def Streams.countP (x : Streams) (f : Stream → Bool) : Nat := x.table.countP fun e => f e.2
/-- The STREAM page (Table 6.6). -/
def streamPage (p : Nat) : Page := {
  code := 0x0087, num := 0x16, vf := some p, part := some p, owner := ownT
  regs := [
    ro 0x040 fun s => (s.part p).ctl.streamCap.toNat,
    ro 0x044 fun s => (s.part p).str.countP (·.isLive),
    ro 0x048 fun s => (s.part p).str.countP (·.state == .broken),
    ro 0x04C fun s => (s.part p).str.countP fun x => x.isLive && (s.object p x.handle).src.home != .c,
    ro 0x050 fun s => s.strStat p,
    plainRW 0x054 14 ownT (fun s => (s.part p).str.sel.toNat) fun v s => s.modStr p fun x => { x with sel := BitVec.ofNat 16 v },
    ro 0x058 fun s => s.deferredMoves p,
    ro64 0x060 fun s => (s.part p).str.autoSwapins.toNat,
    ro64 0x068 fun s => (s.part p).str.copyBytes.toNat,
    ro64 0x070 fun s => (s.part p).str.steps.toNat,
    window 0x100 64 fun s => s.strShown p] }

/-- A write of OBJ_CMD (R239, Table 7.5): without go the fields are stored alone. -/
def setObjCmd (p v : Nat) (s : State) : RegW :=
  let op := bitsOf v 28 3
  let mir := bitOf v 27
  let home := bitsOf v 25 2
  let h := bitsOf v 0 20
  took (if bitOf v 31 then s.objCmd p op mir home h else s.modObjs p fun y => { y with cmd := objCmdWord op mir home h })
/-- OBJ_ENTRY (Table 7.4). -/
def State.objShown (s : State) (p : Nat) : List Byte :=
  let h := (s.part p).obj.sel.toNat
  if h < (s.part p).ctl.objCap.toNat then (s.object p h).bytes else List.replicate 64 0
/-- The OBJ page (Table 7.4). -/
def objPage (p : Nat) : Page := {
  code := 0x0088, num := 0x17, vf := some p, part := some p, owner := ownT
  regs := [
    ro 0x040 fun s => (s.part p).ctl.objCap.toNat,
    ro 0x044 fun s => (s.part p).obj.table.countP fun e => e.2.state != .free,
    { off := 0x048, acc := .rw, owner := ownT, get := fun _ s => (s.part p).obj.cmd.toNat, set := fun _ _ v s => setObjCmd p v s },
    ro 0x04C fun s => (s.part p).obj.result.toNat,
    { off := 0x050, width := 8, acc := .rw, owner := ownT, get := fun _ s => (s.part p).obj.defSize.toNat
      set := fun _ _ v s => took (s.modObjs p fun y => { y with defSize := BitVec.ofNat 64 v }) },
    { off := 0x058, width := 8, acc := .rw, owner := ownT, get := fun _ s => (s.part p).obj.defAddr.toNat
      set := fun _ _ v s => took (s.modObjs p fun y => { y with defAddr := BitVec.ofNat 64 v }) },
    plainRW 0x060 16 ownT (fun s => (s.part p).obj.defPlace.toNat) fun v s => s.modObjs p fun y => { y with defPlace := BitVec.ofNat 16 v },
    plainRW 0x064 20 ownT (fun s => (s.part p).obj.sel.toNat) fun v s => s.modObjs p fun y => { y with sel := BitVec.ofNat 20 v },
    ro64 0x068 fun s => (s.part p).obj.failAddr.toNat,
    ro 0x070 fun s => (s.part p).ctl.objBytes,
    ro 0x074 fun s => (s.part p).ctl.hbmGib.toNat,
    ro 0x078 fun s => (s.part p).ctl.lpddrGib.toNat,
    ro 0x07C fun s => maskOf ((List.range 20).filter fun t => !((s.part p).ctl.hamperShare t).isEmpty),
    ro64 0x080 fun s => (s.part p).obj.misses.toNat,
    ro 0x088 fun s => (s.part p).obj.table.countP fun e => e.2.state == .moving,
    ro 0x08C fun s => (s.part p).ctl.tableBytes,
    { off := 0x0C0, count := 20, get := fun t s => 4 * ((s.part p).ctl.hamperShare t).length },
    window 0x140 64 fun s => s.objShown p] }

/-- The session that CDC_SEL names: unit and number. -/
def Cdc.selected (x : Cdc) : Nat × Nat := (bitsOf x.sel.toNat 0 2, bitsOf x.sel.toNat 8 6)
/-- The session shown on the CDC page. -/
def State.shownSession (s : State) (p : Nat) : Session := s.session p (s.part p).cdc.selected.1 (s.part p).cdc.selected.2
/-- The code of a session state (Table 8.7). -/
def SessState.code : SessState → Nat
  | .free => 0
  | .open' => 1
  | .faulted => 2
/-- CDC_SESS_INFO (Table 8.7). -/
def Session.info (x : Session) : Nat :=
  if x.state = .free then 0 else
  x.state.code + 4 * x.codec.toNat + 16 * b2n x.encode + 32 * b2n x.live + 256 * ((x.nbuf - 1) % 32) + 65536 * x.ctx
/-- The CDC page of a VF (Table 8.7). -/
def cdcPage (p : Nat) : Page := {
  code := 0x0089, num := 0x18, vf := some p, part := some p, owner := ownT
  regs := [
    { off := 0x040, count := 4, get := fun u s => s.cdcGrant p u },
    { off := 0x050, count := 4, get := fun u s => s.openSessions p u },
    { off := 0x060, acc := .rw, owner := ownT, get := fun _ s => (s.part p).cdc.sel.toNat
      set := fun _ _ v s => took (s.modCdc p fun x => { x with sel := BitVec.ofNat 32 (v &&& 0x3F03) }) },
    ro 0x064 fun s => (s.shownSession p).info,
    ro 0x068 fun s => (s.shownSession p).deficit,
    ro64 0x070 fun s => (s.meter p 6).toNat,
    { off := 0x100, count := 32, get := fun i s => (s.shownSession p).mark i }] }

/-- The counter `k` of the selected virtual port (Table 12.8), which a read clears. -/
def netCounter (p off k : Nat) : Reg :=
  counterRC off ownT (fun s => (tget 0 (s.part p).net.ctrs (4 * (s.part p).net.sel.toNat + k)).toNat) fun s =>
    s.modNet p fun y => { y with ctrs := tset y.ctrs (4 * y.sel.toNat + k) 0 }
/-- The bindings of the selected virtual port, in the order they were bound. -/
def NetPart.shown (y : NetPart) : List Binding := y.binds.filter fun b => b.vport == y.sel.toNat
/-- VNET_BIND_INFO (Table 12.8). -/
def State.bindInfo (s : State) (p : Nat) : Nat :=
  let y := (s.part p).net
  match y.shown[y.bindSel.toNat]? with
  | none => 0
  | some b => b.unit + 4 * b.session + 256 * b2n (s.session p b.unit b.session).live + 512 * b2n b.ipv6 + 65536 * b.pt.toNat + 2 ^ 31
/-- A register of the NET page of a VF: it reads zero on a grade without ports (R497). -/
def State.ifNet (s : State) (v : Nat) : Nat := if s.fuse.grade.ports = 0 then 0 else v
/-- The NET page of a VF (Table 12.8). -/
def netPage (p : Nat) : Page := {
  code := 0x008A, num := 0x19, vf := some p, part := some p, owner := ownT
  regs := [
    plainRW 0x040 6 ownT (fun s => (s.part p).net.sel.toNat) fun v s => s.modNet p fun y => { y with sel := BitVec.ofNat 6 v },
    ro 0x044 fun s => s.ifNet (s.vport p (s.part p).net.sel.toNat).ctrl,
    netCounter p 0x048 0,
    netCounter p 0x04C 1,
    netCounter p 0x050 2,
    netCounter p 0x054 3,
    ro 0x058 fun s => (s.part p).net.shown.length,
    plainRW 0x05C 8 ownT (fun s => (s.part p).net.bindSel.toNat) fun v s => s.modNet p fun y => { y with bindSel := BitVec.ofNat 8 v },
    ro 0x060 fun s => s.bindInfo p] }

/-- EVT_STAT (Table 16.6). -/
def EvRing.stat (r : EvRing) : Nat := r.state.code + 256 * r.buffer.length + 65536 * r.lastCause.toNat
/-- An RWS register of the EVT page (R485). -/
def evtReg (p off width : Nat) (get : EvRing → Nat) (set : Nat → EvRing → EvRing) : Reg :=
  { off := off, width := width, acc := .rws, owner := ownT, get := fun _ s => get (s.part p).evt
    set := fun _ _ v s => if (s.part p).evt.state != .stopped then RegW.no s Cause.rwsRunning else took (s.modEvt p (set v)) }
/-- The EVT page (Table 16.6). -/
def evtPage (p : Nat) : Page := {
  code := 0x008B, num := 0x1A, vf := some p, part := some p, owner := ownT, run := fun s => (s.part p).evt.state.code
  ctrl := some fun c s => if c = 1 then s.evtStart p else if c = 2 then s.evtStop p else s
  regs := [
    evtReg p 0x040 8 (·.base.toNat) fun v r => { r with base := BitVec.ofNat 64 v },
    evtReg p 0x048 4 (·.cfg.toNat) fun v r => { r with cfg := BitVec.ofNat 32 (v &&& 0x700D1F) },
    { off := 0x04C, acc := .rw, owner := ownT, get := fun _ s => (s.part p).evt.head.toNat
      set := fun e _ v s => took (s.evtHead p (BitVec.ofNat 32 v) e.io) },
    ro 0x050 fun s => (s.part p).evt.tail.toNat,
    ro 0x054 fun s => (s.part p).evt.stat,
    counterRC 0x058 ownT (fun s => (s.part p).evt.lost.toNat) fun s => s.modEvt p fun r => { r with lost := 0 },
    { off := 0x060, width := 8, acc := .rw, owner := ownT, get := fun _ s => (s.part p).evt.chainSel.toNat
      set := fun _ _ v s => took (s.modEvt p fun r => { r with chainSel := BitVec.ofNat 64 v }) },
    ro 0x068 fun s => (s.chainVf p).length,
    { off := 0x080, count := 4, stride := 8, width := 8, get := fun i s => nth 0 (s.chainVf p) i }] }

/-- The JRN page of a VF (R340). -/
def jrnVfPage (p : Nat) : Page := {
  code := 0x008C, num := 0x1B, vf := some p, part := some p, owner := ownT
  regs := jrnRegs ownT (fun s => tget 0 s.sec.jrnSelVf p) (fun v s => s.modSec fun x => { x with jrnSelVf := tset x.jrnSelVf p v })
    fun s => s.jrnTenant p (tget 0 s.sec.jrnSelVf p) }

/-- The HOST page of a VF (Table 11.8): a write of APR_WIN[w] ends what its bit of APR_RANGE says of it. -/
def hostPage (p : Nat) : Page := {
  code := 0x008D, num := 0x1C, vf := some p, part := some p, owner := ownT
  regs := [
    { off := 0x040, count := 16, stride := 8, width := 8, acc := .rw, owner := ownT, get := fun w s => (tget 0 (s.part p).vf.aprWin w).toNat
      set := fun _ w v s => took (s.modVf p fun x => { x with
        aprWin := tset x.aprWin w (BitVec.ofNat 64 (v &&& 0xFFFFFFFF800FFFFF)), aprRange := x.aprRange &&& ~~~(BitVec.ofNat 16 (2 ^ w)) }) },
    ro 0x0C0 fun s => (s.part p).vf.aprRange.toNat,
    ro64 0x0C8 fun s => (s.meter p 5).toNat] }

/-- Page `k` of the VF BAR0 of partition `p` (Table 17.9); none: what Table 17.9 does not assign, and the pages without a header. -/
def vfPage (p k : Nat) : Option Page :=
  if k = 0 then some (statusPage p)
  else if k ≤ 16 then some (ringPage p (k - 1))
  else match k with
    | 0x11 => some (doorbellPage p)
    | 0x12 => some (ctxPage p)
    | 0x13 => some (listPage p)
    | 0x14 => some (lanternPage p)
    | 0x15 => some (seqPage p)
    | 0x16 => some (streamPage p)
    | 0x17 => some (objPage p)
    | 0x18 => some (cdcPage p)
    | 0x19 => some (netPage p)
    | 0x1A => some (evtPage p)
    | 0x1B => some (jrnVfPage p)
    | 0x1C => some (hostPage p)
    | _ => none

end Sys2Proof.Machine
end

