-- ==== Sys2Proof/Machine/SessionRows.lean ====
section
/-!
DEFINITION. Register access (R6, R7, R330 to R334, R491 to R499): REG_WRITE, REG_READ and the rows that are one register write in a session;
the MMIO of the host and of the tenants; the MSI-X tables.
-/

namespace Sys2Proof.Machine

/-- The pages of tile `t`, by their number from its base (Table 17.8). -/
def tilePages (t r : Nat) : Option Page :=
  if r = 0 then some (tilePage t)
  else if r < 5 then some (qdPage t (r - 1))
  else if r < 0x2F then some (clusterPage t (r - 5))
  else if r = 0x2F then some (hamperPage t)
  else if r = 0x30 then some (meshPage t)
  else none
/-- The pages of memory die `d`, by their number from its base (R266). -/
def diePages (d r : Nat) : Option Page :=
  if r < 0x40 then some (hbcPage (64 * d + r))
  else if r < 0x50 then some (lpcPage (16 * d + (r - 0x40)))
  else if r = 0x50 then some (addPage d)
  else if r = 0x51 then some (cryPage d)
  else if r = 0x52 then some (eccPage d)
  else none
/-- The pages of the hub engines, by their number from 0x0300_0000; none: of an engine that is absent (R497). -/
def State.hubPages (s : State) (r : Nat) : Option Page :=
  if r < 2 then some (seqnPage r)
  else if r < 0x0A then some (movPage (r - 2))
  else if r < 0x0E then if r - 0x0A < s.fuse.grade.codecs then some (cdcnPage (r - 0x0A)) else none
  else if r < 0x10 then if r - 0x0E < s.fuse.grade.ports then some (netnPage (r - 0x0E)) else none
  else if r = 0x10 then some eciPage
  else if r < 0x31 then some (ctlcPage (r - 0x11))
  else none
/-- The pages of partition `p` (R319). -/
def partPages (p k : Nat) : Option Page :=
  match k with
  | 0 => some (pctlPage p)
  | 1 => some (presPage p)
  | 2 => some (pregPage p)
  | 3 => some (pmtrPage p)
  | 4 => some (vportPage p)
  | 5 => some (pattPage p)
  | _ => none
/-- The device pages (Table 17.8). -/
def devicePages (k : Nat) : Option Page :=
  match k with
  | 0 => some idPage
  | 1 => some pwrPage
  | 2 => some secPage
  | 3 => some jrnPage
  | 4 => some hstPage
  | 5 => some mgmtPage
  | 6 => some strapPage
  | _ => none

/-- The page of PF BAR0 with number `k` (offset / 4096) that does not read as zero (R460, R497, R499). -/
def State.pfPage (s : State) (k : Nat) : Option Page :=
  if s.pwr.stage != .ready && k != 0 && k != 1 && k != 6 then none
  else if k < 0x100 then devicePages k
  else if k < 0x200 ∧ (k - 0x100) % 8 = 4 ∧ s.fuse.grade.ports = 0 then none
  else if k < 0x200 then partPages ((k - 0x100) / 8) ((k - 0x100) % 8)
  else if 0x1000 ≤ k ∧ k < 0x1A00 then tilePages ((k - 0x1000) / 0x80) ((k - 0x1000) % 0x80)
  else if 0x2000 ≤ k ∧ k < 0x2400 then diePages ((k - 0x2000) / 0x100) ((k - 0x2000) % 0x100)
  else if 0x3000 ≤ k then s.hubPages (k - 0x3000)
  else none

/-- The partition that a journal entry names for a page (R336): the one whose page it is, or whose quad. -/
def State.pagePart (s : State) (g : Page) : Option Nat :=
  if g.code = 0x0021 then (s.quadAt (g.inst / 4) (g.inst % 4)).bind s.quadOwner
  else if g.code = 0x0022 then (s.clusterOwner g.inst).map (·.1)
  else g.part

/-- The owner letter of a role code. -/
def ownerBit (role : Nat) : Nat := if role < 3 then 2 ^ role else 0
/-- Whether a page is held by another session (R495). -/
def Page.heldFrom (g : Page) (s : State) (sid : Option Nat) : Bool := g.lockable && (g.hdr s).lock.any fun l => some l.1 != sid

/-- Whether the writer is not of the page's or the register's owners, or another session holds the page (R7, R333, R495). -/
def Page.denies (g : Page) (s : State) (e : WEnv) (r : Reg) : Bool :=
  let bit := ownerBit e.who.role
  g.heldFrom s e.sid || g.owner &&& bit == 0 || r.owner &&& bit == 0

/-- What a write of `n` bytes comes to before it is made (R333): the checks of owner and form, then the register's own. -/
def Page.checked (g : Page) (s : State) (e : WEnv) (r : Reg) (i n v : Nat) : RegW :=
  if g.denies s e r then RegW.no s Cause.ownerDenied
  else if r.width = 8 ∧ n ≠ 8 then RegW.no s Cause.badOperand
  else r.set e i v s

/-- Whether a write to a register by one of its owners is ignored (R494): it is read only. DESIGN CHOICE (log entry 89): an RC register, of which
Table 0.4 gives only the read, is ignored in the same way; by another party it is rejected (R7). -/
def Acc.ignores (a : Acc) : Bool := a == .ro || a == .rc

/-- One register of a page of PF BAR0 written in a session (R333, R335, R337, R493, R494): the state and the cause, 0 where it is applied or
ignored. `o`: the byte in the page; `n`: the bytes written. -/
def Page.write (g : Page) (s : State) (e : WEnv) (o n v : Nat) : State × W16 :=
  match g.find o with
  | none => (s, 0)
  | some (r, i, _) =>
    if r.absent i s || (r.acc.ignores && !(r.acc == .rc && g.denies s e r)) then (s, 0) else
    let off := 4096 * g.num + o
    let old := BitVec.ofNat 64 (r.get i s)
    let w := g.checked s e r i n v
    if w.cause ≠ 0 then (w.reject off e.who (s.pagePart g) (BitVec.ofNat 64 v) old, w.cause)
    else if !s.journalOk then (s.journalFails, Cause.journalFail)
    else if r.ownEntry then (w.s, 0)
    else
      let new := if r.acc = .wo then BitVec.ofNat 64 v else BitVec.ofNat 64 (r.get i w.s)
      let s := s.journal {
        action := .write, who := e.who, part := s.pagePart g, target := BitVec.ofNat 32 off, old := regDigest old, new := regDigest new }
      ((r.set e i v s).s, 0)

/-- A write of 4 or 8 bytes, aligned (R496): eight bytes over 32-bit registers are two writes. -/
def Page.writeWide (g : Page) (s : State) (e : WEnv) (o n v : Nat) : State × W16 :=
  let wide := (g.find o).any fun r => r.1.width == 8
  if n = 8 ∧ !wide then
    let t := g.write s e o 4 (v % 2 ^ 32)
    if t.2 ≠ 0 then t else g.write t.1 e (o + 4) 4 (v / 2 ^ 32)
  else g.write s e o n v

/-- What the register at byte `o` of a page holds; 0 at a reserved offset. -/
def Page.held (g : Page) (s : State) (o : Nat) : W64 := BitVec.ofNat 64 (((g.find o).map fun r => r.1.get r.2.1 s).getD 0)

/-- Byte `o` of an MSI-X table of `n` vectors, and of its pending bits (R357): a 32-bit word of it. -/
def msixWord (t : Tbl W32) (n i : Nat) : Nat := if i < 4 * n then (tget (if i % 4 = 3 then 1 else 0) t i).toNat else 0

/-- What a word of the PF's MSI-X pages holds, and 0 where no page of registers lies. -/
def State.pfPlain (s : State) (off : Nat) : W64 :=
  if off / 4096 = 0xFE then BitVec.ofNat 64 (msixWord s.ev.msix 64 (off % 4096 / 4))
  else if off / 4096 = 0xFF then BitVec.ofNat 64 (bitsOf (maskOf s.ev.msixPend) (32 * (off % 4096 / 4)) 32) else 0

/-- One entry of a REG_WRITE (R333). -/
def State.regEntry (s : State) (e : WEnv) (r : RegEntry) : State × W16 :=
  let off := r.offset.toNat
  let n := r.width.toNat
  let v := r.value.toNat
  match s.pfPage (off / 4096) with
  | none =>
    if !(n == 4 || n == 8) || r.pad != 0 || off % n != 0 then
      (s.note { action := .refused, who := e.who, target := r.offset, cause := Cause.badOperand, old := regDigest (s.pfPlain off), new := regDigest r.value }, Cause.badOperand)
    else if off / 4096 = 0xFE ∨ off / 4096 = 0xFF then
      (s.note { action := .refused, who := e.who, target := r.offset, cause := Cause.ownerDenied, old := regDigest (s.pfPlain off), new := regDigest r.value }, Cause.ownerDenied)
    else (s, 0)
  | some g =>
    if !(n == 4 || n == 8) || r.pad != 0 || off % n != 0 then
      (s.rejectPf off errParam Cause.badOperand e.who (s.pagePart g) r.value (g.held s (off % 4096)), Cause.badOperand)
    else g.writeWide s e (off % 4096) n (if n = 4 then v % 2 ^ 32 else v)

/-- The entries of a REG_WRITE in order, up to the first that fails (R333): the state, how many were applied, and the cause. -/
def State.regEntries (s : State) (e : WEnv) : List RegEntry → Nat → State × Nat × W16
  | [], k => (s, k, 0)
  | r :: rest, k =>
    let t := s.regEntry e r
    if t.2 ≠ 0 then (t.1, k, t.2) else t.1.regEntries e rest (k + 1)

/-- A write of `v` at PF BAR0 offset `off` that no session makes (R330): it has no effect, it is flagged NO_SESSION in its page's ERR_STATUS
and journaled with role NONE. -/
def State.noSession (s : State) (off v : Nat) : State :=
  match s.pfPage (off / 4096) with
  | some g => s.rejectPf off errNoSession Cause.noSession Writer.none (s.pagePart g) (BitVec.ofNat 64 v) (g.held s (off % 4096))
  | none => s.note { action := .refused, who := Writer.none, target := BitVec.ofNat 32 off, cause := Cause.noSession, old := regDigest (s.pfPlain off), new := regDigest (BitVec.ofNat 64 v) }

/-- A REG_WRITE in session `sid` (R331, R333), or of no session, where none has that number (R330); `env`: what the outside of the block
supplies. -/
def State.regWrite (s : State) (sid : Nat) (entries : List RegEntry) (env : WEnv → WEnv := id) : State :=
  if !s.servesAll then s else
  if (s.open? sid).isNone then (entries.take 32).foldl (fun s r => s.noSession r.offset.toNat r.value.toNat) s else
  s.inSession sid fun x =>
    if entries.isEmpty || decide (32 < entries.length) then s.refuseMsg x.transport else
    let t := s.regEntries (env { who := x.writer, sid := some sid }) entries 0
    t.1.respond x.transport { cause := t.2.2, count := t.2.1 }

/-- A REG_WRITE message. -/
def execRegWrite (sid : Nat) (entries : List RegEntry) (s : State) : Res := .next (s.regWrite sid entries)

/-- Whether session `sid` is one of transport `t`. -/
def State.sessionOn (s : State) (sid : Nat) (t : Transport) : Bool := (s.session? sid).any fun x => x.transport == t

/-- A large request carried out as if it had come in one message (R327). -/
def State.largeRequest (s : State) (t : Transport) : LargeRequest → State
  | .finish sid sigOk => if s.sessionOn sid t then s.finishMsg sid sigOk else s.refuseMsg t
  | .claim key wellFormed sid => if t = .sideband then s.claim key wellFormed sid else s.refuseMsg t
  | .credInstall sid slot key wellFormed => if s.sessionOn sid t then s.credInstall sid slot key wellFormed else s.refuseMsg t
  | .fwStage sid first last piece svn digest check head =>
    if s.sessionOn sid t then s.fwStage sid first last piece svn digest check head else s.refuseMsg t
  | .regWrite sid entries => if s.sessionOn sid t then s.regWrite sid entries else s.refuseMsg t

/-- Whether a chunk is the one that its responder takes next: the first of a request, or the next of the one under way. -/
def State.chunkTaken (s : State) (t : Transport) (handle : Byte) (seqNo : W16) (chunk : List Byte) : Bool :=
  s.serves t && s.chunkFits t seqNo chunk && (seqNo == 0 || (handle == (s.spdm t).chunkHandle && seqNo == (s.spdm t).chunkNext))

/-- CHUNK_SEND (R327): a chunk; with the last one the request that the chunks make is carried out. -/
def State.chunkRequest (s : State) (t : Transport) (handle : Byte) (seqNo : W16) (last : Bool) (chunk : List Byte) (request : Option LargeRequest) : State :=
  let u := s.chunkSend t handle seqNo last chunk
  match request with
  | some r => if last && s.chunkTaken t handle seqNo chunk then u.largeRequest t r else u
  | none => u
/-- A chunk of a large request arrives; `request`: the request that the chunks make, where one of the large ones. -/
def execChunkSend (t : Transport) (handle : Byte) (seqNo : W16) (last : Bool) (chunk : List Byte) (s : State) (request : Option LargeRequest := none) : Res :=
  .next (s.chunkRequest t handle seqNo last chunk request)

/-- A REG_WRITE of one register. -/
def State.writeOne (s : State) (sid off n v : Nat) (env : WEnv → WEnv := id) : State :=
  s.regWrite sid [{ offset := BitVec.ofNat 32 off, width := BitVec.ofNat 8 n, pad := 0, value := BitVec.ofNat 64 v }] env

/-- The bytes of a register that a read without a width takes: 8 of a 64-bit register, else 4. -/
def Page.readSize (g : Page) (o : Nat) : Nat := if (g.find o).any fun r => r.1.width == 8 && o % 8 == 0 then 8 else 4

/-- A naturally aligned read of `n` = 4 or 8 bytes at byte `o` of a table of words; any other reads zero (R496). -/
def tableRead (o n : Nat) (word : Nat → Nat) : Nat :=
  if n = 4 ∧ o % 4 = 0 then word (o / 4)
  else if n = 8 ∧ o % 8 = 0 then word (o / 4) + 2 ^ 32 * word (o / 4 + 1)
  else 0

/-- The page that PF BAR0 offset `off` lies in, and how many bytes a REG_READ of it takes. -/
def State.pfReadSize (s : State) (off : Nat) : Nat := ((s.pfPage (off / 4096)).map (·.readSize (off % 4096))).getD 4

/-- A read of `n` bytes at PF BAR0 offset `off` (R6, R330, R496 to R498). -/
def State.pfRead (s : State) (off n : Nat) : Nat × State :=
  let o := off % 4096
  match s.pfPage (off / 4096) with
  | some g => g.read s o n
  | none =>
    if off / 4096 = 0xFE then (tableRead o n (msixWord s.ev.msix 64), s)
    else if off / 4096 = 0xFF then (tableRead o n fun i => bitsOf (maskOf s.ev.msixPend) (32 * i) 32, s)
    else (0, s)

/-- The values of a REG_READ, in order: an RC register is cleared. -/
def State.regReads (s : State) : List W32 → List W64 → List W64 × State
  | [], vs => (vs, s)
  | o :: rest, vs =>
    let t := s.pfRead o.toNat (s.pfReadSize o.toNat)
    t.2.regReads rest (vs ++ [BitVec.ofNat 64 t.1])
/-- REG_READ (R332). -/
def State.regRead (s : State) (sid : Nat) (offsets : List W32) : State :=
  if !s.servesAll then s else
  s.inSession sid fun x =>
    if offsets.isEmpty || decide (32 < offsets.length) then s.refuseMsg x.transport else
    let t := s.regReads offsets []
    t.2.respond x.transport { count := offsets.length, words := t.1 }
/-- A REG_READ message. -/
def execRegRead (sid : Nat) (offsets : List W32) (s : State) : Res := .next (s.regRead sid offsets)

/-- Whether a tenant may read page `k` of its VF BAR0 (R309, R374, R497). -/
def State.vfReads (s : State) (p k : Nat) : Bool := if k = 0 then (s.part p).vf.enabled else s.vfRw p
/-- A read of `n` bytes at VF BAR0 offset `off` of partition `p` (R309, R357, R496 to R498). -/
def State.vfRead (s : State) (p off n : Nat) : Nat × State :=
  let s := s.mmio p
  let k := off / 4096
  let o := off % 4096
  if k = 0x3E then (if s.vfReads p k then tableRead o n (msixWord (s.part p).vf.msix 8) else 0, s)
  else if k = 0x3F then (if s.vfReads p k then tableRead o n fun i => bitsOf (maskOf (s.part p).vf.msixPend) (32 * i) 32 else 0, s)
  else if !s.vfReads p k then (0, s) else
  match vfPage p k with
  | some g => g.read s o n
  | none => (0, s)

/-- REGISTER_READ_CLEAR (R6, R330, R498): a read returns the register's value and clears an RC register, whoever reads it. -/
def State.registerRead (s : State) (port : RegPort) (off n : Nat) : State :=
  match port with
  | .session sid => s.regRead sid [BitVec.ofNat 32 off]
  | .pfMmio =>
    if !s.hostUp then s else
    let t := s.pfRead off n
    t.2.answer { words := [BitVec.ofNat 64 t.1] }
  | .vfMmio p =>
    let t := s.vfRead p.val off n
    t.2.answer { words := [BitVec.ofNat 64 t.1] }
/-- A register is read. -/
def execRegisterReadClear (port : RegPort) (offset : W32) (width : Byte) (s : State) : Res :=
  .next (s.registerRead port offset.toNat width.toNat)

/-- A word of an MSI-X table written: of a vector that is unmasked and pending, the message goes out (R357). -/
def State.msixSetPf (s : State) (i v : Nat) : State :=
  if 256 ≤ i then s else
  let s := s.modEv fun e => { e with msix := tset e.msix i (BitVec.ofNat 32 v) }
  if !msixMasked s.ev.msix (i / 4) && s.ev.msixPend.contains (i / 4) then
    (s.modEv fun e => { e with msixPend := e.msixPend.filter (· != i / 4) }).emit (.msixPf (i / 4))
  else s
/-- A word of the MSI-X table of VF `p + 1` written. -/
def State.msixSetVf (s : State) (p i v : Nat) : State :=
  if 32 ≤ i then s else
  let s := s.modVf p fun x => { x with msix := tset x.msix i (BitVec.ofNat 32 v) }
  if !msixMasked (s.part p).vf.msix (i / 4) && (s.part p).vf.msixPend.contains (i / 4) then
    (s.modVf p fun x => { x with msixPend := x.msixPend.filter (· != i / 4) }).emit (.msixVf p (i / 4))
  else s
/-- A naturally aligned write of 4 or 8 bytes at byte `o` of a table, word by word; any other is discarded. -/
def tableWrite (s : State) (o n v : Nat) (set : State → Nat → Nat → State) : State :=
  if n = 4 ∧ o % 4 = 0 then set s (o / 4) (v % 2 ^ 32)
  else if n = 8 ∧ o % 8 = 0 then set (set s (o / 4) (v % 2 ^ 32)) (o / 4 + 1) (v / 2 ^ 32)
  else s

/-- A write to PF BAR0 from outside a session (R330, R494): but for the MSI-X table it has no effect, and it is flagged and journaled. -/
def State.pfMmioWrite (s : State) (off n v : Nat) : State :=
  if !s.hostUp then s else
  let k := off / 4096
  if k = 0xFE then tableWrite s (off % 4096) n v State.msixSetPf
  else if k = 0xFF then s
  else s.noSession off v

/-- The ERR_STATUS bit of a cause (Table 17.4). -/
def rejectBit (cause : W16) : Nat :=
  if cause = Cause.rwsRunning ∨ cause = Cause.partFixed then errRws else if cause = Cause.ownerDenied then errOwner else errParam
/-- Whether a tenant may write a register of page `g` now (R308, R309); an RWS register of a block that is not STOPPED is rejected at any time at
which the tenant reaches its pages (R6). -/
def State.vfWrites (s : State) (p : Nat) (g : Page) (r : Reg) : Bool :=
  if r.acc = .rw ∨ g.code = 0x0082 then s.vfRw p else s.vfOpen p
/-- One register of a VF page written (R309, R491, R493, R494, R496). -/
def Page.vfWrite (g : Page) (s : State) (p o n v : Nat) : State :=
  match g.find o with
  | none => s
  | some (r, i, _) =>
    let old := BitVec.ofNat 64 (r.get i s)
    let w := if r.width = 8 ∧ n ≠ 8 then RegW.no s Cause.badOperand else r.set { who := Writer.none } i v s
    let fixed := r.acc == .rws && s.vfRw p && w.cause == Cause.rwsRunning
    if r.acc.ignores || r.owner &&& ownT == 0 || !(s.vfWrites p g r || fixed) then s else
    if w.cause = 0 then w.s else w.s.rejectVf p g.num o (rejectBit w.cause) w.cause (BitVec.ofNat 64 v) old
/-- A write of a tenant to its VF BAR0 (R309, R364, R496, R497). -/
def State.vfMmioWrite (s : State) (p off n v : Nat) : State :=
  let k := off / 4096
  let o := off % 4096
  if k = 0x3E then (if s.vfReads p k then tableWrite s o n v fun s i v => s.msixSetVf p i v else s) else
  match vfPage p k with
  | none => s
  | some g =>
    if n = 4 ∧ o % 4 = 0 then g.vfWrite s p o 4 (v % 2 ^ 32)
    else if n = 8 ∧ o % 8 = 0 then
      if (g.find o).any fun r => r.1.width == 8 then g.vfWrite s p o 8 v
      else g.vfWrite (g.vfWrite s p o 4 (v % 2 ^ 32)) p (o + 4) 4 (v / 2 ^ 32)
    else s

/-- The PF BAR0 offset of byte `o` of page `k` of partition `p` (R319). -/
def partOff (p k o : Nat) : Nat := 4096 * partPage p k + o
/-- A PART_CTRL command sent in a session (R306). -/
def State.partCommand (s : State) (sid p cmd : Nat) : State := s.writeOne sid (partOff p 0 0x040) 4 cmd

/-- CREATE of partition `p` (R306). -/
def execPartCreate (sid : Nat) (p : PartId) (s : State) : Res := .next (s.partCommand sid p.val 1)
/-- COMMIT of partition `p` (R307). -/
def execPartCommit (sid : Nat) (p : PartId) (s : State) : Res := .next (s.partCommand sid p.val 2)
/-- ABANDON of partition `p` (R306). -/
def execPartAbandon (sid : Nat) (p : PartId) (s : State) : Res := .next (s.partCommand sid p.val 3)
/-- START of partition `p` (R306). -/
def execPartStart (sid : Nat) (p : PartId) (s : State) : Res := .next (s.partCommand sid p.val 4)
/-- STOP of partition `p` (R308). -/
def execPartStop (sid : Nat) (p : PartId) (s : State) : Res := .next (s.partCommand sid p.val 5)
/-- FORCE of partition `p` (R306). -/
def execPartForce (sid : Nat) (p : PartId) (s : State) : Res := .next (s.partCommand sid p.val 6)
/-- TEARDOWN of partition `p` (R316). -/
def execPartTeardown (sid : Nat) (p : PartId) (s : State) : Res := .next (s.partCommand sid p.val 7)
/-- A write of SNAP_CMD.go of partition `p` (R318). -/
def execSnapshot (sid : Nat) (p : PartId) (s : State) : Res := .next (s.writeOne sid (partOff p.val 3 0x040) 4 1)

/-- A write of RET_PAGE on the ECC page of die 0 (R263). -/
def execRetPage (sid : Nat) (value : W64) (flashOk : Bool) (s : State) : Res :=
  .next (s.writeOne sid 0x02052048 8 value.toNat fun e => { e with flashOk := flashOk })
/-- A write of HST_HDM_GIB (R367). -/
def execHstHdmGib (sid : Nat) (value : W32) (s : State) : Res := .next (s.writeOne sid 0x4048 4 value.toNat)
/-- A write of HST_HDM_ATTR[k] (R370). -/
def execHstHdmAttr (sid : Nat) (k : Fin 128) (value : W32) (s : State) : Res := .next (s.writeOne sid (0x4200 + 4 * k.val) 4 value.toNat)
/-- The PF BAR0 offset of VP_CTRL of a virtual port (R395). -/
def vpOff (p v : Nat) : Nat := partOff p 4 (0x100 + 48 * v)
/-- A word with its top bit set, or clear. -/
def topBit (on : Bool) (v : W32) : Nat := v.toNat % 2 ^ 31 + 2 ^ 31 * b2n on
/-- A write of VP_CTRL with enable 1 (R383). -/
def execVportEnable (sid : Nat) (p : PartId) (v : Fin 64) (value : W32) (s : State) : Res :=
  .next (s.writeOne sid (vpOff p.val v.val) 4 (topBit true value))
/-- A write of VP_CTRL with enable 0 (R384). -/
def execVportDisable (sid : Nat) (p : PartId) (v : Fin 64) (value : W32) (s : State) : Res :=
  .next (s.writeOne sid (vpOff p.val v.val) 4 (topBit false value))
/-- A write of ECI_MIR_CTRL[p] with enable 1 (R411). -/
def execMirrorEnable (sid : Nat) (p : PartId) (value : W32) (s : State) : Res :=
  .next (s.writeOne sid (0x03010100 + 32 * p.val) 4 (topBit true value))
/-- A write of ECI_MIR_CMD (R411). -/
def State.mirrorCommand (s : State) (sid p cmd : Nat) (env : WEnv → WEnv := id) : State := s.writeOne sid 0x03010058 4 (p + 256 * cmd) env
/-- SYNC of the binding of partition `p` (R411). -/
def execSync (sid : Nat) (p : PartId) (twin : TwinShape) (s : State) : Res :=
  .next (s.mirrorCommand sid p.val 1 fun e => { e with twin := some twin })
/-- PROMOTE of twin `p` (R413). -/
def execPromote (sid : Nat) (p : PartId) (s : State) : Res := .next (s.mirrorCommand sid p.val 2)
/-- SOLO of the binding of partition `p` (R411). -/
def execSolo (sid : Nat) (p : PartId) (s : State) : Res := .next (s.mirrorCommand sid p.val 3)
/-- UNBIND of twin `p` (R411). -/
def execUnbind (sid : Nat) (p : PartId) (s : State) : Res := .next (s.mirrorCommand sid p.val 4)
/-- A write of PWR_ST_REQ with go (R462). -/
def execPwrStReq (sid : Nat) (quad : BitVec 7) (force : Bool) (s : State) : Res :=
  .next (s.writeOne sid 0x1080 4 (2 ^ 31 + 256 * b2n force + quad.toNat))

/-- A write of PEV_CFG (R486). -/
def execPevEnable (sid : Nat) (value : W32) (s : State) : Res := .next (s.writeOne sid 0x4108 4 value.toNat)
/-- A write of LOCK of a page of PF BAR0 (R495). -/
def execLock (sid : Nat) (page : W32) (locked : Bool) (s : State) : Res :=
  .next (s.writeOne sid (4096 * (page.toNat / 4096) + 0x024) 4 (b2n locked))

end Sys2Proof.Machine
end

