-- ==== Sys2Proof/Machine/Arrival.lean ====
section
/-!
DEFINITION. The posted writes of a tenant to the BARs of its VF, in their order of arrival (R362 to R364), the reads of BAR2, and the rows that can
let a waiting one go.
-/

namespace Sys2Proof.Machine

/-- Whether a posted write of VF `p + 1` waits, so that a later one waits behind it (R364). -/
def State.behind (s : State) (p : Nat) : Bool := !((s.part p).vf.aprHeld.isEmpty && (s.part p).vf.later.isEmpty)

/-- A write to an object through BAR2 held by the object's move (R242, R363). -/
def State.holdData (s : State) (p : Nat) (r : ORef) (bytes : List Byte) : State :=
  (s.modObject p r.handle fun o => { o with held := o.held ++ [(r.off, bytes)] }).modVf p
    fun x => { x with aprHeld := if x.aprHeld.contains r.handle then x.aprHeld else x.aprHeld ++ [r.handle] }

/-- A write to an object through BAR2 carried out; part of a line reads it first (R259, R260). -/
def State.writeData (s : State) (p : Nat) (r : ORef) (bytes : List Byte) (f : EccFinding) : State :=
  let (sp, line) := s.firstLine p r
  let s := if bytes.length < 64 ∧ bytes ≠ [] then s.eccLine sp line 5 f 0 none else s
  (s.pokeO p r bytes).1

/-- What a posted write to BAR0 does when its turn has come. -/
def State.applyPosted (s : State) (p : Nat) (i : Instr) : State :=
  match i with
  | .doorbell _ n v => s.ringBell p n.val v
  | .ringStart _ n => s.ringStart p n.val
  | .ringStop _ n => s.ringStop p n.val
  | .contextEnable _ c pin pr => s.ctxWrite p c.val true pin pr
  | .contextDisable _ c pin pr => s.ctxWrite p c.val false pin pr
  | .objCmdDefine _ h home m => s.objCmd p 0 m home.toNat h.toNat
  | .objCmdRelease _ h => s.objCmd p 1 false 0 h.toNat
  | .objCmdMark _ h m => s.objCmd p 2 m 0 h.toNat
  | .seqPageStart _ => if s.vfOpen p then s.seqPageStart p else s
  | .seqPageStop _ => if s.vfOpen p then s.seqPageStop p else s
  | .evtStart _ => s.evtStart p
  | .evtStop _ => s.evtStop p
  | .evtHead _ _ v io => s.evtHead p v io
  | .registerWrite _ off n v => s.vfMmioWrite p off.toNat n.toNat v.toNat
  | _ => s

/-- The posted writes of VF `p + 1` that no longer wait, applied in their order (R364), at most `n`: nothing passes a write that a move holds, or one
whose lines wait for credits or for their die (R270, R312). -/
def State.arrivals (s : State) (p : Nat) : Nat → State
  | 0 => s
  | n + 1 =>
    if !(s.part p).vf.aprHeld.isEmpty then s else
    match (s.part p).vf.later with
    | [] => s
    | x :: rest =>
      let next (s : State) : State := s.modVf p fun v => { v with later := rest }
      match x with
      | .cmd i => ((next s).applyPosted p i).arrivals p n
      | .data h off bytes f =>
        let r : ORef := ⟨h, off⟩
        if !s.inObj p r bytes.length then (next s).arrivals p n
        else if (s.object p h).state = .moving then ((next s).holdData p r bytes).arrivals p n
        else if s.stoppedO p r bytes.length then s.waitO p [(r, bytes.length)]
        else ((next s).writeData p r bytes f).arrivals p n

/-- The bytes that a read of BAR2 answers with (R259, R363): what a poisoned line's completion carries beside its EP bit is open. -/
def State.readData (s : State) (p : Nat) (r : ORef) (len : Nat) (f : EccFinding) : State :=
  let (sp, line) := s.firstLine p r
  let s := if len = 0 then s else s.eccLine sp line 0 f 0 none
  let rd := s.peekO p r len
  let s := s.countO p r len
  if rd.poison.isNone then s.answer { bytes := rd.bytes }
  else s.useFree.answer { bytes := (List.range len).map (Config.freeByte s.free), poisoned := true }

/-- The oldest read of BAR2 that waits for its lines, answered where they come (R312). -/
def State.readArrives (s : State) (p : Nat) : State :=
  match (s.part p).vf.reads with
  | [] => s
  | (h, off, len, f) :: rest =>
    if s.stoppedO p ⟨h, off⟩ len then s else
    let s := s.modVf p fun v => { v with reads := rest }
    if s.inObj p ⟨h, off⟩ len then s.readData p ⟨h, off⟩ len f else s.answer { bytes := List.replicate len 0 }

/-- What waits at the BARs of VF `p + 1` goes as far as it can. -/
def State.arrive (s : State) (p : Nat) : State := (s.arrivals p (s.part p).vf.later.length).readArrives p

/-- The same at every VF. -/
def State.arriveAll (s : State) : State := (List.range 32).foldl (fun s p => s.arrive p) s

/-- A posted write arrives: behind one that waits it waits too, otherwise it is `now` carried out. -/
def State.post (s : State) (p : Nat) (x : Posted) (now : State → State) : State :=
  if s.behind p then (s.modVf p fun v => { v with later := v.later ++ [x] }).arrive p else now s

/-- A posted write of a command's kind to BAR0 of VF `p + 1` (R309, R364, R365): its payload counts as it arrives. -/
def State.postCmd (s : State) (p : Nat) (i : Instr) : State := (s.mmio p).post p (.cmd i) (State.applyPosted · p i)

/-- The tenant writes `value` to DOORBELL[n]. -/
def execDoorbell (p : PartId) (n : Fin 16) (value : W32) (s : State) : Res := .next (s.postCmd p.val (.doorbell p n value))
/-- The tenant writes START to RUN_CTRL of RING[n]. -/
def execRingStart (p : PartId) (n : Fin 16) (s : State) : Res := .next (s.postCmd p.val (.ringStart p n))
/-- The tenant writes STOP to RUN_CTRL of RING[n]. -/
def execRingStop (p : PartId) (n : Fin 16) (s : State) : Res := .next (s.postCmd p.val (.ringStop p n))
/-- A write of CTX_CTRL[c] with enable 1. -/
def execContextEnable (p : PartId) (c : Fin 16) (pin : Bool) (priority : BitVec 3) (s : State) : Res :=
  .next (s.postCmd p.val (.contextEnable p c pin priority))
/-- A write of CTX_CTRL[c] with enable 0. -/
def execContextDisable (p : PartId) (c : Fin 16) (pin : Bool) (priority : BitVec 3) (s : State) : Res :=
  .next (s.postCmd p.val (.contextDisable p c pin priority))
/-- A write of OBJ_CMD with go and op DEFINE. -/
def execObjCmdDefine (p : PartId) (handle : BitVec 20) (home : BitVec 2) (mirror : Bool) (s : State) : Res :=
  .next (s.postCmd p.val (.objCmdDefine p handle home mirror))
/-- A write of OBJ_CMD with go and op RELEASE. -/
def execObjCmdRelease (p : PartId) (handle : BitVec 20) (s : State) : Res := .next (s.postCmd p.val (.objCmdRelease p handle))
/-- A write of OBJ_CMD with go and op MARK. -/
def execObjCmdMark (p : PartId) (handle : BitVec 20) (mirror : Bool) (s : State) : Res := .next (s.postCmd p.val (.objCmdMark p handle mirror))
/-- START in RUN_CTRL of the SEQ page of partition `p`. -/
def execSeqPageStart (p : PartId) (s : State) : Res := .next (s.postCmd p.val (.seqPageStart p))
/-- STOP in RUN_CTRL of the SEQ page of partition `p`. -/
def execSeqPageStop (p : PartId) (s : State) : Res := .next (s.postCmd p.val (.seqPageStop p))
/-- START in RUN_CTRL of the EVT page of partition `p`. -/
def execEvtStart (p : PartId) (s : State) : Res := .next (s.postCmd p.val (.evtStart p))
/-- STOP in RUN_CTRL of the EVT page of partition `p`. -/
def execEvtStop (p : PartId) (s : State) : Res := .next (s.postCmd p.val (.evtStop p))
/-- A write of EVT_HEAD by a partition's driver, or of PEV_HEAD in a session (R477). -/
def execEvtHead (p : Option PartId) (sid : Nat) (value : W32) (io : HostAccess) (s : State) : Res :=
  .next (match p with
    | some q => s.postCmd q.val (.evtHead p sid value io)
    | none => s.writeOne sid 0x410C 4 value.toNat fun e => { e with io := io })

/-- Whether a write to VF BAR0 goes to APR_WIN: it applies to every access that arrives after it, so it passes those that wait (R364). -/
def isAprWin (off : Nat) : Bool := off / 4096 == 0x1C && decide (0x040 ≤ off % 4096) && decide (off % 4096 < 0x0C0)

/-- REGISTER_WRITE (R6): a write to a register, by a session, by the host or by a tenant. -/
def State.registerWrite (s : State) (port : RegPort) (off : W32) (n : Byte) (v : W64) : State :=
  match port with
  | .session sid => s.writeOne sid off.toNat n.toNat v.toNat
  | .pfMmio => s.pfMmioWrite off.toNat n.toNat v.toNat
  | .vfMmio p =>
    if isAprWin off.toNat then (s.mmio p.val).vfMmioWrite p.val off.toNat n.toNat v.toNat
    else s.postCmd p.val (.registerWrite port off n v)
/-- A register is written. -/
def execRegisterWrite (port : RegPort) (offset : W32) (width : Byte) (value : W64) (s : State) : Res :=
  .next (s.registerWrite port offset width value)

/-- APERTURE_READ (R309, R312, R362, R363, R365). -/
def State.apertureRead (s : State) (p off len : Nat) (f : EccFinding) : State :=
  let zero : Reply := { bytes := List.replicate len 0 }
  if !s.vfRw p then s.answer zero else
  let s := s.countHost p len true
  match s.aperture p off len false with
  | .disabled => s.answer zero
  | .range w => (s.apertureRange p w).answer zero
  | .at r =>
    if s.stoppedO p r len then (s.modVf p fun v => { v with reads := v.reads ++ [(r.handle, r.off, len, f)] }).waitO p [(r, len)]
    else s.readData p r len f

/-- The host reads `len` bytes at VF BAR2 offset `off`. -/
def execApertureRead (p : PartId) (off : BitVec 34) (len : Nat) (finding : EccFinding) (s : State) : Res :=
  .next (s.apertureRead p.val off.toNat len finding)

/-- APERTURE_WRITE (R242, R260, R309, R312, R362 to R365): its object is known as it arrives; a write to a MOVING object is held, and one whose lines
wait for credits or for their die waits with what follows it. -/
def State.apertureWrite (s : State) (p off : Nat) (bytes : List Byte) (poisoned : Bool) (f : EccFinding) : State :=
  if !s.vfOpen p then s else
  let s := s.countHost p bytes.length true
  if poisoned then s.aerVf p else
  match s.aperture p off bytes.length true with
  | .disabled => s
  | .range w => s.apertureRange p w
  | .at r =>
    let x : Posted := .data r.handle r.off bytes f
    if (s.part p).vf.later.isEmpty ∧ (s.part p).vf.aprHeld.all (· == r.handle) ∧ (s.object p r.handle).state = .moving then s.holdData p r bytes
    else s.post p x fun s =>
      if s.stoppedO p r bytes.length then (s.modVf p fun v => { v with later := [x] }).waitO p [(r, bytes.length)] else s.writeData p r bytes f

/-- The host writes these bytes at VF BAR2 offset `off`. -/
def execApertureWrite (p : PartId) (off : BitVec 34) (bytes : List Byte) (poisoned : Bool) (s : State) (finding : EccFinding := .clean) : Res :=
  .next (s.apertureWrite p.val off.toNat bytes poisoned finding)

/-- Commits the move `id` of partition `p`; what waited for it at the VF's BARs goes on. -/
def execMoveCommit (p : PartId) (id : Nat) (ecc : List EccHit) (s : State) : Res := .next ((s.moveCommit p.val id ecc).arrive p.val)

/-- The control core of `p` takes up to `count + 1` descriptors. -/
def execDescriptorFetch (p : PartId) (count : Fin 8) (io : HostAccess) (s : State) (ecc : List EccHit := []) : Res :=
  .next (((s.eccSlots (s.descriptorFetch p.val (count.val + 1) io) p.val (count.val + 1) ecc).descriptorFetch p.val (count.val + 1) io).arrive p.val)

/-- The control core of `p` carries out the SNUFF that stands next. -/
def execSnuff (p : PartId) (io : HostAccess) (s : State) (ecc : List EccHit := []) : Res :=
  .next (((s.eccSlots (s.snuffFetch p.val io) p.val 1 ecc).snuffFetch p.val io).arrive p.val)

/-- A period boundary of bucket `bucket` of regulator `r` of partition `p`. -/
def execRegulatorRefill (p : PartId) (r : Fin 5) (bucket : Fin 4) (s : State) : Res :=
  .next ((s.regulatorRefill p.val r.val bucket.val).arrive p.val)

end Sys2Proof.Machine
end

