-- ==== Sys2Proof/Machine/Dispatch.lean ====
section
/-! DEFINITION. The meaning of each command: one arm per constructor of Instr. -/

namespace Sys2Proof.Machine

/-- What a command does to the state. -/
def exec (i : Instr) (s : State) : Host.Outcome State Fault Refusal :=
  match i with
  | .descriptorFetch p count io ecc => Sys2Proof.Machine.execDescriptorFetch p count io s ecc
  | .doorbell p n value => Sys2Proof.Machine.execDoorbell p n value s
  | .ringStart p n => Sys2Proof.Machine.execRingStart p n s
  | .ringStop p n => Sys2Proof.Machine.execRingStop p n s
  | .commandStart p slot ecc => Sys2Proof.Machine.execCommandStart p slot s ecc
  | .commandTerminal p id io ecc => Sys2Proof.Machine.execCommandTerminal p id io s ecc
  | .fence p id => Sys2Proof.Machine.execFence p id s
  | .wait p id => Sys2Proof.Machine.execWait p id s
  | .signal p id => Sys2Proof.Machine.execSignal p id s
  | .snuff p io ecc => Sys2Proof.Machine.execSnuff p io s ecc
  | .listLoad p id ecc => Sys2Proof.Machine.execListLoad p id s ecc
  | .listGenerationSwitch p id => Sys2Proof.Machine.execListGenerationSwitch p id s
  | .contextEnable p c pin priority => Sys2Proof.Machine.execContextEnable p c pin priority s
  | .contextDisable p c pin priority => Sys2Proof.Machine.execContextDisable p c pin priority s
  | .batchStepBoundary p => Sys2Proof.Machine.execBatchStepBoundary p s
  | .contextSave p c => Sys2Proof.Machine.execContextSave p c s
  | .contextRestore p c => Sys2Proof.Machine.execContextRestore p c s
  | .gemmTile p id ecc => Sys2Proof.Machine.execGemmTile p id ecc s
  | .reduceInto p id ecc => Sys2Proof.Machine.execReduceInto p id ecc s
  | .arrayFault cluster half kind row column beats rowsWritten => Sys2Proof.Machine.execArrayFault cluster half kind row column beats rowsWritten s
  | .arrayTimeout cluster half beats rowsWritten => Sys2Proof.Machine.execArrayTimeout cluster half beats rowsWritten s
  | .selfCheck cluster half pass => Sys2Proof.Machine.execSelfCheck cluster half pass s
  | .wickOp p id ecc => Sys2Proof.Machine.execWickOp p id ecc s
  | .normRms p id ecc => Sys2Proof.Machine.execNormRms p id ecc s
  | .wickFault cluster half kind beats rowsWritten => Sys2Proof.Machine.execWickFault cluster half kind beats rowsWritten s
  | .lanternLoad p id => Sys2Proof.Machine.execLanternLoad p id s
  | .lanternLoadWrite p id ecc => Sys2Proof.Machine.execLanternLoadWrite p id s ecc
  | .lanternSwitch p id => Sys2Proof.Machine.execLanternSwitch p id s
  | .listCall p id ecc => Sys2Proof.Machine.execListCall p id s ecc
  | .participantTakeIndex p id k ecc => Sys2Proof.Machine.execParticipantTakeIndex p id k s ecc
  | .tileWatchExpiry p id k => Sys2Proof.Machine.execTileWatchExpiry p id k s
  | .convTile p id ecc => Sys2Proof.Machine.execConvTile p id ecc s
  | .attnTile p id ecc => Sys2Proof.Machine.execAttnTile p id ecc s
  | .scanChunk p id ecc => Sys2Proof.Machine.execScanChunk p id ecc s
  | .seqAdd p id ecc => Sys2Proof.Machine.execSeqAdd p id s ecc
  | .seqFork p id ecc => Sys2Proof.Machine.execSeqFork p id s ecc
  | .seqEnd p id ecc => Sys2Proof.Machine.execSeqEnd p id s ecc
  | .step p id ecc => Sys2Proof.Machine.execStep p id s ecc
  | .stepCommit p id ecc => Sys2Proof.Machine.execStepCommit p id s ecc
  | .stepPhaseFail p id ecc => Sys2Proof.Machine.execStepPhaseFail p id s ecc
  | .prefixLookup p id ecc => Sys2Proof.Machine.execPrefixLookup p id s ecc
  | .pagePin p id ecc => Sys2Proof.Machine.execPagePin p id s ecc
  | .seqPageStart p => Sys2Proof.Machine.execSeqPageStart p s
  | .seqPageStop p => Sys2Proof.Machine.execSeqPageStop p s
  | .streamChunkOpen p id ecc => Sys2Proof.Machine.execStreamChunkOpen p id s ecc
  | .streamChunkUpdate p id ecc => Sys2Proof.Machine.execStreamChunkUpdate p id s ecc
  | .streamChunkReset p id ecc => Sys2Proof.Machine.execStreamChunkReset p id s ecc
  | .streamChunkClear p id ecc => Sys2Proof.Machine.execStreamChunkClear p id s ecc
  | .streamChunkClose p id ecc => Sys2Proof.Machine.execStreamChunkClose p id s ecc
  | .automaticSwapIn p handle => Sys2Proof.Machine.execAutomaticSwapIn p handle s
  | .objCmdDefine p handle home mirror => Sys2Proof.Machine.execObjCmdDefine p handle home mirror s
  | .objCmdRelease p handle => Sys2Proof.Machine.execObjCmdRelease p handle s
  | .objCmdMark p handle mirror => Sys2Proof.Machine.execObjCmdMark p handle mirror s
  | .move p id => Sys2Proof.Machine.execMove p id s
  | .prefetch p id => Sys2Proof.Machine.execPrefetch p id s
  | .swapOut p id => Sys2Proof.Machine.execSwapOut p id s
  | .swapIn p id => Sys2Proof.Machine.execSwapIn p id s
  | .moveCommit p id ecc => Sys2Proof.Machine.execMoveCommit p id ecc s
  | .fill p id ecc => Sys2Proof.Machine.execFill p id s ecc
  | .scrub p id bad => Sys2Proof.Machine.execScrub p id bad s
  | .patrolScrub u finding => Sys2Proof.Machine.execPatrolScrub u finding s
  | .channelFail c => Sys2Proof.Machine.execChannelFail c s
  | .retPage sid value flashOk => Sys2Proof.Machine.execRetPage sid value flashOk s
  | .sessionOpen p id => Sys2Proof.Machine.execSessionOpen p id s
  | .decodeUnit p id ecc => Sys2Proof.Machine.execDecodeUnit p id s ecc
  | .encodeFrame p id ecc => Sys2Proof.Machine.execEncodeFrame p id s ecc
  | .sessionClose p id => Sys2Proof.Machine.execSessionClose p id s
  | .batchSuspend u => Sys2Proof.Machine.execBatchSuspend u s
  | .batchResume u => Sys2Proof.Machine.execBatchResume u s
  | .unitWorkBound p id => Sys2Proof.Machine.execUnitWorkBound p id s
  | .cdcFault u => Sys2Proof.Machine.execCdcFault u s
  | .partCreate sid p => Sys2Proof.Machine.execPartCreate sid p s
  | .partCommit sid p => Sys2Proof.Machine.execPartCommit sid p s
  | .partAbandon sid p => Sys2Proof.Machine.execPartAbandon sid p s
  | .partStart sid p => Sys2Proof.Machine.execPartStart sid p s
  | .partStop sid p => Sys2Proof.Machine.execPartStop sid p s
  | .partForce sid p => Sys2Proof.Machine.execPartForce sid p s
  | .partTeardown sid p => Sys2Proof.Machine.execPartTeardown sid p s
  | .drainComplete p => Sys2Proof.Machine.execDrainComplete p s
  | .drainTimeout p => Sys2Proof.Machine.execDrainTimeout p s
  | .teardownComplete p badQuads badGranules => Sys2Proof.Machine.execTeardownComplete p badQuads badGranules s
  | .snapshot sid p => Sys2Proof.Machine.execSnapshot sid p s
  | .regulatorRefill p r bucket => Sys2Proof.Machine.execRegulatorRefill p r bucket s
  | .getVersion t => Sys2Proof.Machine.execGetVersion t s
  | .getCapabilities t version => Sys2Proof.Machine.execGetCapabilities t s version
  | .negotiateAlgorithms t offered => Sys2Proof.Machine.execNegotiateAlgorithms t offered s
  | .getDigests t => Sys2Proof.Machine.execGetDigests t s
  | .getCertificate t slot offset length => Sys2Proof.Machine.execGetCertificate t slot offset length s
  | .challenge t nonce => Sys2Proof.Machine.execChallenge t nonce s
  | .getMeasurements t index nonce => Sys2Proof.Machine.execGetMeasurements t index nonce s
  | .keyExchange t cred heartbeat => Sys2Proof.Machine.execKeyExchange t cred heartbeat s
  | .finish sid sigOk => Sys2Proof.Machine.execFinish sid sigOk s
  | .heartbeat sid => Sys2Proof.Machine.execHeartbeat sid s
  | .keyUpdate sid => Sys2Proof.Machine.execKeyUpdate sid s
  | .endSession sid => Sys2Proof.Machine.execEndSession sid s
  | .chunkSend t handle seqNo last chunk request => Sys2Proof.Machine.execChunkSend t handle seqNo last chunk s request
  | .chunkGet t handle seqNo => Sys2Proof.Machine.execChunkGet t handle seqNo s
  | .heartbeatTimeout sid => Sys2Proof.Machine.execHeartbeatTimeout sid s
  | .regWrite sid entries => Sys2Proof.Machine.execRegWrite sid entries s
  | .regRead sid offsets => Sys2Proof.Machine.execRegRead sid offsets s
  | .claim key wellFormed sid => Sys2Proof.Machine.execClaim key wellFormed s sid
  | .release sid => Sys2Proof.Machine.execRelease sid s
  | .credInstall sid slot key wellFormed => Sys2Proof.Machine.execCredInstall sid slot key wellFormed s
  | .credRemove sid slot => Sys2Proof.Machine.execCredRemove sid slot s
  | .fwStage sid first last piece svn digest check head => Sys2Proof.Machine.execFwStage sid first last piece svn digest check s head
  | .fwActivate sid => Sys2Proof.Machine.execFwActivate sid s
  | .svnCommit sid => Sys2Proof.Machine.execSvnCommit sid s
  | .consent sid => Sys2Proof.Machine.execConsent sid s
  | .debugUnlock sid nonce => Sys2Proof.Machine.execDebugUnlock sid nonce s
  | .pairBind sid digest => Sys2Proof.Machine.execPairBind sid digest s
  | .getTdispVersion sid p => Sys2Proof.Machine.execGetTdispVersion sid p s
  | .getTdispCapabilities sid p => Sys2Proof.Machine.execGetTdispCapabilities sid p s
  | .lockInterfaceRequest sid p => Sys2Proof.Machine.execLockInterfaceRequest sid p s
  | .getDeviceInterfaceReport sid p => Sys2Proof.Machine.execGetDeviceInterfaceReport sid p s
  | .getDeviceInterfaceState sid p => Sys2Proof.Machine.execGetDeviceInterfaceState sid p s
  | .startInterfaceRequest sid p => Sys2Proof.Machine.execStartInterfaceRequest sid p s
  | .stopInterfaceRequest sid p => Sys2Proof.Machine.execStopInterfaceRequest sid p s
  | .atsInvalidation p pages => Sys2Proof.Machine.execAtsInvalidation p pages s
  | .apertureRead p off len finding => Sys2Proof.Machine.execApertureRead p off len finding s
  | .apertureWrite p off bytes poisoned finding => Sys2Proof.Machine.execApertureWrite p off bytes poisoned s finding
  | .hostReadTimeout p n => Sys2Proof.Machine.execHostReadTimeout p n s
  | .vfFlr p => Sys2Proof.Machine.execVfFlr p s
  | .flrStep3Timeout p => Sys2Proof.Machine.execFlrStep3Timeout p s
  | .flrDone p scrubs => Sys2Proof.Machine.execFlrDone p s scrubs
  | .vfEnableClear again => Sys2Proof.Machine.execVfEnableClear s again
  | .hstHdmGib sid value => Sys2Proof.Machine.execHstHdmGib sid value s
  | .hstHdmAttr sid k value => Sys2Proof.Machine.execHstHdmAttr sid k value s
  | .hdmDecoderCommit bi base => Sys2Proof.Machine.execHdmDecoderCommit bi s base
  | .hdmAccess line off write cached finding => Sys2Proof.Machine.execHdmAccess line off write cached finding s
  | .ideFault stream => Sys2Proof.Machine.execIdeFault stream s
  | .linkTrained width rate flit config => Sys2Proof.Machine.execLinkTrained width rate flit s config
  | .linkDown => Sys2Proof.Machine.execLinkDown s
  | .hostPortReset kind => Sys2Proof.Machine.execHostPortReset kind s
  | .send p id ecc => Sys2Proof.Machine.execSend p id s ecc
  | .recvPost p id => Sys2Proof.Machine.execRecvPost p id s
  | .rtpBind p id ecc => Sys2Proof.Machine.execRtpBind p id s ecc
  | .rtpUnbind p id => Sys2Proof.Machine.execRtpUnbind p id s
  | .frameReceive n frame check ecc => Sys2Proof.Machine.execFrameReceive n frame check s ecc
  | .recvIdle p id => Sys2Proof.Machine.execRecvIdle p id s
  | .vportEnable sid p v value => Sys2Proof.Machine.execVportEnable sid p v value s
  | .vportDisable sid p v value => Sys2Proof.Machine.execVportDisable sid p v value s
  | .netLinkChange n link => Sys2Proof.Machine.execNetLinkChange n link s
  | .netFault n => Sys2Proof.Machine.execNetFault n s
  | .flitReceive f => Sys2Proof.Machine.execFlitReceive f s
  | .nak seq => Sys2Proof.Machine.execNak seq s
  | .keyx peerSideB digest sigOk => Sys2Proof.Machine.execKeyx peerSideB digest sigOk s
  | .keepalive => Sys2Proof.Machine.execKeepalive s
  | .keepaliveMiss => Sys2Proof.Machine.execKeepaliveMiss s
  | .pairLinkFail => Sys2Proof.Machine.execPairLinkFail s
  | .peerBack p twin => Sys2Proof.Machine.execPeerBack p twin s
  | .mirrorEnable sid p value => Sys2Proof.Machine.execMirrorEnable sid p value s
  | .sync sid p twin => Sys2Proof.Machine.execSync sid p twin s
  | .promote sid p => Sys2Proof.Machine.execPromote sid p s
  | .solo sid p => Sys2Proof.Machine.execSolo sid p s
  | .unbind sid p => Sys2Proof.Machine.execUnbind sid p s
  | .deltaEnd p waymark full bytes items digestOk => Sys2Proof.Machine.execDeltaEnd p waymark full bytes items digestOk s
  | .deltaAck p waymark => Sys2Proof.Machine.execDeltaAck p waymark s
  | .refuse p cause => Sys2Proof.Machine.execRefuse p cause s
  | .pwrEnRise j1 => Sys2Proof.Machine.execPwrEnRise j1 s
  | .powerGood straps storeOk => Sys2Proof.Machine.execPowerGood straps storeOk s
  | .imageVerified active other => Sys2Proof.Machine.execImageVerified active other s
  | .hostPushImage svn digest check flash other => Sys2Proof.Machine.execHostPushImage svn digest check flash s other
  | .startup result badHalves badGranules => Sys2Proof.Machine.execStartup result badHalves badGranules s
  | .pwrEnFall => Sys2Proof.Machine.execPwrEnFall s
  | .j1WindowExit => Sys2Proof.Machine.execJ1WindowExit s
  | .resetN => Sys2Proof.Machine.execResetN s
  | .entdaa addr => Sys2Proof.Machine.execEntdaa addr s
  | .rstdaa => Sys2Proof.Machine.execRstdaa s
  | .setdasa static addr => Sys2Proof.Machine.execSetdasa static addr s
  | .setnewda current addr => Sys2Proof.Machine.execSetnewda current addr s
  | .enec ibi hotJoin => Sys2Proof.Machine.execEnec ibi hotJoin s
  | .disec ibi hotJoin => Sys2Proof.Machine.execDisec ibi hotJoin s
  | .getpid => Sys2Proof.Machine.execGetpid s
  | .getbcr => Sys2Proof.Machine.execGetbcr s
  | .getdcr => Sys2Proof.Machine.execGetdcr s
  | .getstatus => Sys2Proof.Machine.execGetstatus s
  | .getmrl => Sys2Proof.Machine.execGetmrl s
  | .getmwl => Sys2Proof.Machine.execGetmwl s
  | .setmrl len => Sys2Proof.Machine.execSetmrl len s
  | .setmwl len => Sys2Proof.Machine.execSetmwl len s
  | .mctpControl eid => Sys2Proof.Machine.execMctpControl eid s
  | .statusGet => Sys2Proof.Machine.execStatusGet s
  | .alertGet => Sys2Proof.Machine.execAlertGet s
  | .governorPeriod sample => Sys2Proof.Machine.execGovernorPeriod sample s
  | .powerFastLimit watt tenMilliAmp => Sys2Proof.Machine.execPowerFastLimit watt tenMilliAmp s
  | .thermalCondition cond holds => Sys2Proof.Machine.execThermalCondition cond holds s
  | .thermalShutdown => Sys2Proof.Machine.execThermalShutdown s
  | .converterFault domain => Sys2Proof.Machine.execConverterFault domain s
  | .pwrStReq sid quad force => Sys2Proof.Machine.execPwrStReq sid quad force s
  | .selftestDone quad badHalves badLines => Sys2Proof.Machine.execSelftestDone quad badHalves badLines s
  | .calibrationSlice c drift => Sys2Proof.Machine.execCalibrationSlice c drift s
  | .retrain c ok => Sys2Proof.Machine.execRetrain c ok s
  | .retrainForced c ok => Sys2Proof.Machine.execRetrainForced c ok s
  | .partitionStall p => Sys2Proof.Machine.execPartitionStall p s
  | .evtStart p => Sys2Proof.Machine.execEvtStart p s
  | .evtStop p => Sys2Proof.Machine.execEvtStop p s
  | .evtHead p sid value io => Sys2Proof.Machine.execEvtHead p sid value io s
  | .pevEnable sid value => Sys2Proof.Machine.execPevEnable sid value s
  | .lock sid page locked => Sys2Proof.Machine.execLock sid page locked s
  | .registerReadClear port offset width => Sys2Proof.Machine.execRegisterReadClear port offset width s
  | .registerWrite port offset width value => Sys2Proof.Machine.execRegisterWrite port offset width value s
  | .cryptoFault die => Sys2Proof.Machine.execCryptoFault die s
  | .j1BackInWindow => Sys2Proof.Machine.execJ1BackInWindow s
  | .resetNRise => Sys2Proof.Machine.execResetNRise s
  | .perstNRise => Sys2Proof.Machine.execPerstNRise s
  | .keyRenewal peer => Sys2Proof.Machine.execKeyRenewal s peer
  | .ideKm sid stream p assoc => Sys2Proof.Machine.execIdeKm sid stream p s assoc
  | .doeDiscovery p index => Sys2Proof.Machine.execDoeDiscovery p index s
  | .retrainWait c => Sys2Proof.Machine.execRetrainWait c s

end Sys2Proof.Machine
end

