-- ==== Sys2Proof/Safety.lean ====
section
/-! DEFINITION. What counts as a sound state of the block, in the terms the statements use. -/

namespace Sys2Proof

open Sys2Proof.Machine

/-- Every memory is in its canonical form: addresses rising, no byte listed that an unlisted address reads as. -/
def MemoryCanonical (s : State) : Prop :=
  Memory.wf s.mem.sram = true ∧ Memory.wf s.mem.hamper = true ∧ Memory.wf s.mem.hbm = true ∧
    Memory.wf s.mem.lpddr = true ∧ Memory.wf s.mem.host = true

/-- Command `i` answers a next state of which `P` holds. -/
def Answers (i : Instr) (s : State) (P : State → Prop) : Prop := ∃ t, exec i s = .next t ∧ P t

/-- Only the state of partition `p` differs between `s` and `t`. -/
def PartOnly (s t : State) (p : Nat) : Prop := t = { s with parts := t.parts } ∧ ∀ q, q ≠ p → t.part q = s.part q

/-- Command `c` of partition `p` has started, and is opcode `op` of engine `e`. -/
def Started (s : State) (p id e op : Nat) (c : Cmd) : Prop := s.cmd? p id = some c ∧ c.runs e op = true

/-- Command `c` of partition `p` stands on physical cluster `k` at its turn: its halves are its own and neither in SELF_CHECK nor
OFFLINE, no WICK_OP is armed on the cluster, and no object it writes is MOVING. -/
def AtTurn (s : State) (p : Nat) (c : Cmd) (k : Nat) (dests : List Nat) : Prop :=
  c.cluster = some k ∧ s.mayRun p c = true ∧ s.anyMoving p dests = false ∧ (s.cluster k).anyHalf c .offline = false ∧
    (s.cluster k).l.armed = none ∧ (s.cluster k).r.armed = none

/-- The state in which work `w` of command `id` has been carried out in full on cluster `k`: its reads, beats and lookups counted, its
writes made in order, those that come last only if none was refused, the command ended DONE, with POISON_WRITE where a poisoned line refused
a write. -/
def Carried (s : State) (p id k : Nat) (w : Work) : State :=
  let r := ((s.useFrees 2).countWork p (some k) (w.metered s.free)).applyFor p id w.rows.flatten
  let r := if r.2.isSome then r else r.1.applyLast p id w.last
  r.1.finishWrites p id r.2 w.detail

/-- Work that meets no poisoned operand and no die whose traffic has stopped. -/
def WorkClear (s : State) (p : Nat) (w : Work) : Prop := w.poison = none ∧ s.workStopped p w = false

/-- A SEQ command at its turn, whose sequence entry reads without a fault. -/
def SeqTurn (s : State) (p id op : Nat) (c : Cmd) : Prop :=
  Started s p id 2 op c ∧ s.seqTurn p c = true ∧ s.readEntry p (c.fld 36 2) = (s, none)

/-- A STREAM_CHUNK of operation `op` at its turn, whose entries read without a fault, are all in a state that `ok` takes, and have no
chunk pending where `quiet` asks for that. -/
def ChunkTurn (s : State) (p id op : Nat) (c : Cmd) (ok : Stream → Bool) (quiet : Bool) : Prop :=
  Started s p id 2 0x16 c ∧ c.id = id ∧ c.fld 35 1 = op ∧ s.seqTurn p c = true ∧ s.readStreams p c.chunkIds = (s, none) ∧
    (∀ i ∈ c.chunkIds, ok (s.stream p i) = true) ∧ (quiet = true → ∀ i ∈ c.chunkIds, (s.stream p i).pending = 0)

/-- A CDC command that its engine runs. -/
def CdcTurn (s : State) (p id op : Nat) (c : Cmd) : Prop :=
  Started s p id 3 op c ∧ c.id = id ∧ s.engRuns c.cdcUnit = some (p, id)

/-- The device is READY, its journal takes entries, and `sid` is an open session of role `r` over a transport that it serves. -/
def SessionUp (s : State) (sid : Nat) (x : SpdmSession) (r : Role) : Prop :=
  s.pwr.stage = .ready ∧ s.journalOk = true ∧ s.open? sid = some x ∧ s.serves x.transport = true ∧ x.role = r

/-- Nothing waits at the BARs of VF `p + 1`: no posted write behind a held one, and no read of BAR2. -/
abbrev BarsQuiet (s : State) (p : Nat) : Prop := (s.part p).vf.later = [] ∧ (s.part p).vf.reads = []

/-- Page `k` of PF BAR0 is locked by no session but `sid`. -/
def PageFree (s : State) (k sid : Nat) : Prop := ∀ l, (s.pfHdr k).lock = some l → l.1 = sid

end Sys2Proof
end

