-- ==== Sys2Proof/Certificates/Slice0/Obligations.lean ====
section
/-! DEFINITION. The statements for the provers. -/

open Sys2Proof Sys2Proof.Machine

/-- The front command of the queue is what a step carries out, with the rest of the queue left waiting. -/
def Obligations.StepRunsFront : Prop :=
  ∀ (c : Instr) (rest : List Instr) (s : State), step { s with pending := c :: rest } = exec c { s with pending := rest }

/-- R14, R15, R364: the outcomes of a DOORBELL write, with `u` the state in which the access has been counted; that a partition that
is not RUNNING takes RING_TAIL only is the model's reading (log entry 42). -/
def Obligations.DoorbellWrites : Prop :=
  ∀ (p : PartId) (n : Fin 16) (v : W32) (s : State), let u := s.mmio p.val; let r := u.ring p.val n.val
    u.vfRw p.val = true →
    (u.behind p.val = false →
      (r.started = false ∨ (u.part p.val).ctl.state ≠ .running →
        exec (.doorbell p n v) s = .next (u.modRing p.val n.val fun r => { r with tail := v })) ∧
      (r.started = true → (u.part p.val).ctl.state = .running → (v - r.head).toNat ≤ r.slots → later r.tail v = false →
        exec (.doorbell p n v) s =
          .next (u.modRing p.val n.val fun r => { r with tail := v, state := if r.state = .idle ∧ v ≠ r.head then .fetching else r.state })) ∧
      (r.started = true → (u.part p.val).ctl.state = .running → r.slots < (v - r.head).toNat ∨ later r.tail v = true →
        exec (.doorbell p n v) s = .next (u.ringError p.val n.val Cause.ringOverrun 0 0))) ∧
    ((u.part p.val).vf.aprHeld ≠ [] → (u.part p.val).vf.reads = [] →
      exec (.doorbell p n v) s = .next (u.modVf p.val fun x => { x with later := x.later ++ [.cmd (.doorbell p n v)] }))

/-- R15, R19, R504, R309: START and STOP of a ring; `u` is the state in which the access has been counted. -/
def Obligations.RingStartStop : Prop :=
  ∀ (p : PartId) (n : Fin 16) (s : State), let u := s.mmio p.val; let r := u.ring p.val n.val
    u.behind p.val = false →
    (u.vfOpen p.val = true →
      (exec (.ringStop p n) s = .next ((u.modRing p.val n.val fun r => { r with state := .stopped }).rearm p.val) ∧
        Answers (.ringStop p n) s fun t =>
          t.ring p.val n.val = { r with state := .stopped } ∧ ∀ m, m ≠ n.val → t.ring p.val m = u.ring p.val m) ∧
      (r.state = .stopped → u.ringConfigOk p.val n.val = true → r.avail ≤ r.slots →
        exec (.ringStart p n) s =
          .next (u.modRing p.val n.val fun r => { r with state := if r.avail = 0 then .idle else .fetching, waiting := [] })) ∧
      (r.state = .stopped → u.ringConfigOk p.val n.val = true → r.slots < r.avail →
        exec (.ringStart p n) s =
          .next ((u.modRing p.val n.val fun r => { r with state := .fetching, waiting := [] }).ringError p.val n.val Cause.ringOverrun 0 0) ∧
        Answers (.ringStart p n) s fun t => (t.ring p.val n.val).state = .error ∧ (t.ring p.val n.val).lastCause = Cause.ringOverrun) ∧
      (r.state = .stopped → u.ringConfigOk p.val n.val = false →
        exec (.ringStart p n) s = .next (u.rejectVf p.val (1 + n.val) 0x008 errStart Cause.ringConfig 1) ∧
        Answers (.ringStart p n) s fun t => t.ring p.val n.val = r) ∧
      (r.state ≠ .stopped → exec (.ringStart p n) s = .next u)) ∧
    (u.vfOpen p.val = false → exec (.ringStart p n) s = .next u ∧ exec (.ringStop p n) s = .next u)

/-- R14, R17: one descriptor fetched from the ring whose turn it is and routed. R43, R47: a SNUFF that stands next is fetched and
carried out; the row is the fetch of that one descriptor. -/
def Obligations.FetchedDescriptors : Prop :=
  (∀ (p : PartId) (k : Fin 8) (io : HostAccess) (s : State) (n : Nat) (d : List Byte) (u : EngineUnit),
      s.fetches p.val = true → s.ringTurn p.val = some n → s.nextDesc p.val n io = .got d → endsAtFetch d = false →
      unitOf (dEngine d) (dUnit d) = some u → s.fuse.grade.has u = true →
      s.canRoute p.val (s.ring p.val n).ctx (unitNo u) = true →
      k = 0 ∨ (s.ring p.val n).avail = d.length / 64 → BarsQuiet s p.val →
      Answers (.descriptorFetch p k io []) s fun t =>
        (t.ring p.val n).head = (s.ring p.val n).head + BitVec.ofNat 32 (d.length / 64) ∧
        (t.part p.val).cmd.queue (unitNo u) (s.ring p.val n).ctx =
          (s.part p.val).cmd.queue (unitNo u) (s.ring p.val n).ctx ++ [s.nextId] ∧
        t.nextId = s.nextId + 1 ∧
        ∃ c ∈ (t.part p.val).cmd.cmds, c.id = s.nextId ∧ c.desc = d ∧ c.phase = .queued) ∧
  (∀ (p : PartId) (io : HostAccess) (s : State) (n : Nat) (d : List Byte),
      s.fetches p.val = true → s.ringTurn p.val = some n → s.nextDesc p.val n io = .got d → dOpcode d = Op.snuff → dEngine d ≤ 4 →
      (s.ring p.val n).canReserve = true → (∀ x ∈ (s.part p.val).cmd.cmds, x.id < s.nextId) →
      exec (.snuff p io []) s = exec (.descriptorFetch p 0 io []) s ∧
      (BarsQuiet s p.val → s.fetchCause p.val n d ≠ 0 →
        Answers (.snuff p io []) s fun t =>
          (t.ring p.val n).head = (s.ring p.val n).head + BitVec.ofNat 32 (d.length / 64) ∧
          ∃ c ∈ (t.part p.val).cmd.cmds, c.id = s.nextId ∧ c.phase = .ended ∧ c.cause = s.fetchCause p.val n d) ∧
      (BarsQuiet s p.val → s.fetchCause p.val n d = 0 → d.length = 64 → dEngine d = 0 → dUnit d = 0 → zeroAt d 38 2 = true → zeroAt d 44 20 = true →
        (fieldAt d 35 1 = 0 ∧ fieldAt d 36 1 = 0 ∧ fieldAt d 37 1 = 0) ∨
          (fieldAt d 35 1 = 1 ∧ fieldAt d 36 1 = 0 ∧ fieldAt d 37 1 ≤ 15 ∧ zeroAt d 40 4 = true) →
        let hits := (s.part p.val).cmd.cmds.filter fun x =>
          x.isTarget && if fieldAt d 35 1 = 0 then x.wm == word32 d 40 else x.ctx == fieldAt d 37 1
        (hits = [] →
          Answers (.snuff p io []) s fun t =>
            (t.ring p.val n).head = (s.ring p.val n).head + 1 ∧
            ∃ c ∈ (t.part p.val).cmd.cmds, c.id = s.nextId ∧ c.phase = .ended ∧ c.status = .done ∧ c.detail = 2) ∧
        (∀ x, hits = [x] → x.phase = .queued → x.status ≠ .snuffed → s.cmd? p.val x.id = some x →
          Answers (.snuff p io []) s fun t =>
            (t.ring p.val n).head = (s.ring p.val n).head + 1 ∧
            (t.cmd? p.val x.id).map (fun y => (y.phase, y.status, y.partialDone)) = some (.ended, .snuffed, false) ∧
            ∃ c ∈ (t.part p.val).cmd.cmds, c.id = s.nextId ∧ c.phase = .ended ∧ c.status = .done ∧ c.detail = 256)))

/-- R10, R40: the first head of a queue starts. Commands that run on a cluster or a codec engine, and those that read a parameter block
or stream entries as they start, are named in the second clause only by what excludes them. -/
def Obligations.CommandStarts : Prop :=
  ∀ (p : PartId) (u : EngineUnit) (s : State) (c : Cmd) (rest : List Cmd),
    s.headsOf p.val (unitNo u) = c :: rest → s.cmd? p.val c.id = some c → s.letStart p.val c = true → s.waitsMet p.val c = true →
    s.unitReady p.val c true = true → s.canReserve p.val c = true →
    (c.noted ≠ 0 →
      Answers (.commandStart p (.queue u) []) s fun t =>
        (t.cmd? p.val c.id).map (fun d => (d.phase, d.cause)) = some (.ended, c.noted) ∧
        ∀ e ∈ (t.part p.val).cmd.queues, c.id ∉ e.2) ∧
    (c.noted = 0 → s.flaggedWaits p.val c = [] → c.engine ≠ 3 → c.onACluster = false → (c.engine = 0 → c.op ≠ 0x12 ∧ c.op ≠ 0x19) →
      c.fallback ≠ 3 →
      (s.reserve p.val c.id).opCheck p.val ((s.reserve p.val c.id).prepared p.val c) = 0 →
      c.judged.getD (s.lateHere p.val c) = [] →
      Answers (.commandStart p (.queue u) []) s fun t =>
        (t.cmd? p.val c.id).map (fun d => (d.phase, d.order)) = some (.started, (s.part p.val).cmd.startClock) ∧
        (t.part p.val).cmd.startClock = (s.part p.val).cmd.startClock + 1 ∧
        ∀ e ∈ (t.part p.val).cmd.queues, c.id ∉ e.2)

/-- R34, R36, R38, R54: what the common commands do when they are carried out. -/
def Obligations.CommonCommandsEnd : Prop :=
  ∀ (p : PartId) (id : Nat) (s : State) (c : Cmd), s.cmd? p.val id = some c → c.phase = .started →
    (c.op = Op.wait → exec (.wait p id) s = .next (s.done p.val id)) ∧
    (c.op = Op.fence → exec (.fence p id) s =
      .next (if c.covers.all fun i => (s.cmd? p.val i).isNone then s.done p.val id else s)) ∧
    (c.op = Op.signal → exec (.signal p id) s =
      .next (((s.signalRange p.val (c.fld 36 2) (c.fld 38 1) (if c.fld 35 1 = 1 then some (word32 c.desc 40) else none)).rearm p.val).done p.val id)) ∧
    (c.op = Op.listLoad → c.stage = 0 → (s.listSlot p.val (c.fld 35 1)).loaded = none →
      let w := s.modList p.val (c.fld 35 1) fun l => { l with loadWaiting := l.loadWaiting.filter (· != id) }
      let rd := w.peekO p.val c.listSource (c.fld 36 4)
      let u := (w.countO p.val c.listSource (c.fld 36 4)).countArea p.val
        (w.bufferAt p.val (c.fld 35 1) (!(s.listSlot p.val (c.fld 35 1)).active)) (c.fld 36 4)
      rd.fault = none →
      exec (.listLoad p id []) s = .next (if listValid u.fuse.grade rd.bytes
        then (u.modList p.val (c.fld 35 1) fun l => { l.setInactive rd.bytes with loaded := some id }).modCmd p.val id fun c => { c with stage := 1 }
        else u.skip p.val id Cause.listInvalid)) ∧
    (c.op = Op.listLoad → c.stage = 1 → (s.listSlot p.val (c.fld 35 1)).loaded = some id →
      let u := s.modList p.val (c.fld 35 1) fun l => { l with active := !l.active, gen := l.gen + 1, loaded := none }
      exec (.listGenerationSwitch p id) s = .next (u.done p.val id (u.listSlot p.val (c.fld 35 1)).gen.toNat))

/-- R34: the range of a SIGNAL. -/
def Obligations.SignalRange : Prop :=
  ∀ (s : State) (p first count : Nat) (v : W32) (q t : Nat),
    ((s.signalRange p first count none).token q t =
      if q = p ∧ first ≤ t ∧ t < first + count then { s.token p t with val := (s.token p t).val + 1 } else s.token q t) ∧
    ((s.signalRange p first count (some v)).token q t =
      if q = p ∧ first ≤ t ∧ t < first + count then { val := v, flagged := false } else s.token q t)

/-- R39, R44: the named end of a command, and its frame. -/
def Obligations.EndOfACommand : Prop :=
  ∀ (s : State) (p id : Nat) (st : Status) (cause : W16) (detail : Nat) (part : Bool) (c : Cmd), s.cmd? p id = some c →
    let t := s.finish p id st cause detail part
    t.cmd? p id = some { c with
      phase := .ended, status := st, cause := cause, detail := BitVec.ofNat 32 detail, partialDone := part, owed := s.asked p } ∧
    (∀ e ∈ (t.part p).cmd.queues, id ∉ e.2) ∧
    (∀ k, c.cluster = some k → id ∉ (t.cluster k).buffer) ∧
    (∀ k, c.cluster ≠ some k → t.cluster k = s.cluster k) ∧
    t = { s with parts := t.parts, clus := t.clus } ∧
    (∀ q, q ≠ p → t.part q = s.part q) ∧
    (∀ i, i ≠ id → t.cmd? p i = s.cmd? p i) ∧
    t.part p = { s.part p with cmd := { (s.part p).cmd with cmds := (t.part p).cmd.cmds, queues := (t.part p).cmd.queues } }

/-- R29, R44, R48, R49: the terminal record of a command that ended DONE without a cause. -/
def Obligations.TerminalRecord : Prop :=
  ∀ (p : PartId) (id : Nat) (s : State) (c : Cmd), let r := s.ring p.val c.ring
    s.cmd? p.val id = some c → c.id = id → c.phase = .ended → c.status = .done → c.cause = 0 → s.paid p.val c = true →
    s.framesWait p.val c = false → s.writesHeld p.val c = false →
    c.parent = none → c.autoTok = none → ¬ (c.engine = 0 ∧ c.op = 0x19) → ¬ (c.engine = 2 ∧ c.op = 0x13) →
    (s.part p.val).mir.heldSteps = [] → (s.part p.val).vf.flr = 0 →
    let ends := fun (t : State) =>
      (t.token p.val (dSignal c.desc)).val = (s.token p.val (dSignal c.desc)).val + (if dSigEn c.desc then 1 else 0) ∧
      (t.token p.val (dSignal c.desc)).flagged = (s.token p.val (dSignal c.desc)).flagged ∧
      t.cmd? p.val id = none
    (dCpl c.desc = true → dIrq c.desc = false → c.reserved = true → r.waiting = [] → r.cplInDevice = false →
      s.hostUp = true → s.regHolds p.val 2 0 1 = false →
      Answers (.commandTerminal p id .ok []) s fun t => ends t ∧
        (t.ring p.val c.ring).cplTail = r.cplTail + 1 ∧
        t.mem = (s.setHost (r.cplBase.toNat + 16 * (r.cplTail.toNat % r.records)) c.record).mem) ∧
    (dCpl c.desc = true → dIrq c.desc = false → c.reserved = true → r.waiting = [] → r.cplInDevice = true →
      s.notNow p.val ((baseRef r.cplBase).add (16 * (r.cplTail.toNat % r.records))) 16 = false →
      ∀ u, s.pokeO p.val ((baseRef r.cplBase).add (16 * (r.cplTail.toNat % r.records))) c.record = (u, none) →
      Answers (.commandTerminal p id .ok []) s fun t => ends t ∧
        (t.ring p.val c.ring).cplTail = r.cplTail + 1 ∧ t.mem = u.mem) ∧
    (dCpl c.desc = false →
      Answers (.commandTerminal p id .ok []) s fun t => ends t ∧ (t.ring p.val c.ring).cplTail = r.cplTail ∧ t.mem = s.mem)

/-- R59, R60, R62, R63: writes of CTX_CTRL, with `u` the state in which the access has been counted, and contexts swapped in and out. -/
def Obligations.Contexts : Prop :=
  (∀ (p : PartId) (n : Fin 16) (pin : Bool) (priority : BitVec 3) (s : State), let u := s.mmio p.val
      u.vfRw p.val = true → u.behind p.val = false →
      ((u.ctx p.val n.val).state = .free → ∀ k, u.freeSlot p.val = some k →
        Answers (.contextEnable p n pin priority) s fun t =>
          t.ctx p.val n.val = { u.ctx p.val n.val with
            enable := true, state := .resident, slot := BitVec.ofNat 2 k, pin := pin, priority := priority } ∧ PartOnly u t p.val) ∧
      ((u.ctx p.val n.val).state = .free → u.freeSlot p.val = none →
        Answers (.contextEnable p n pin priority) s fun t =>
          t.ctx p.val n.val = { u.ctx p.val n.val with
            enable := true, state := .swapped, image := 0, swappedAt := (u.part p.val).cmd.swapClock, pin := pin, priority := priority } ∧
          PartOnly u t p.val) ∧
      ((u.ctx p.val n.val).state ≠ .free →
        exec (.contextEnable p n pin priority) s = .next (u.modCtx p.val n.val fun c => { c with pin := pin, priority := priority })) ∧
      ((u.ctx p.val n.val).state = .resident ∨ (u.ctx p.val n.val).state = .swapped → u.ctxQuiet p.val n.val = true →
        Answers (.contextDisable p n pin priority) s fun t =>
          t.ctx p.val n.val = { u.ctx p.val n.val with
            enable := false, state := .free, slot := 0, image := 0, pin := pin, priority := priority } ∧ PartOnly u t p.val) ∧
      ((u.ctx p.val n.val).state ≠ .free →
        u.ctxQuiet p.val n.val = false ∨ (u.ctx p.val n.val).state = .evicting ∨ (u.ctx p.val n.val).state = .restoring →
        Answers (.contextDisable p n pin priority) s fun t => t.ctx p.val n.val = u.ctx p.val n.val)) ∧
  (∀ (p : PartId) (n : Fin 16) (s : State), (s.part p.val).vf.flr = 0 →
      (∀ k, (s.part p.val).ctl.state = .running → (s.part p.val).cmd.swapIn = none → s.atBoundary p.val = true →
        (s.modSys p.val fun y => { y with boundary := false }).candidate p.val = some n.val →
        (s.modSys p.val fun y => { y with boundary := false }).freeSlot p.val = some k →
        Answers (.batchStepBoundary p) s fun t =>
          t.ctx p.val n.val = { s.ctx p.val n.val with state := .restoring, slot := BitVec.ofNat 2 k } ∧ PartOnly s t p.val) ∧
      ((s.ctx p.val n.val).state = .evicting → (∀ c ∈ (s.part p.val).cmd.cmds, c.ctx ≠ n.val) → (s.part p.val).cmd.swapIn = none →
        Answers (.contextSave p n) s fun t =>
          (t.ctx p.val n.val).state = .swapped ∧
          (t.ctx p.val n.val).image = BitVec.ofNat 32 (Config.freeNat s.free % (2 ^ 18 + 1)) ∧
          (t.ctx p.val n.val).swappedAt = (s.part p.val).cmd.swapClock ∧ (t.part p.val).cmd.swapClock = (s.part p.val).cmd.swapClock + 1) ∧
      ((s.ctx p.val n.val).state = .restoring →
        exec (.contextRestore p n) s =
          .next (((s.modCtx p.val n.val fun c => { c with state := .resident }).count p.val 8 (s.ctx p.val n.val).image.toNat).countArea
            p.val (s.imageAt p.val n.val) (s.ctx p.val n.val).image.toNat)))

/-- R71, R72: the tile commands carried out at their turn; the rows, with the addresses they are stored to, are those of the chapter's
computation (`gemmWork`, `convWork`, `attnWork`, `scanWork`). -/
def Obligations.TilesCarriedOut : Prop :=
  ∀ (p : PartId) (id k : Nat) (s : State) (c : Cmd), c.id = id →
    (Started s p.val id 0 0x10 c → AtTurn s p.val c k [c.gemm.d.handle] → WorkClear s p.val (s.gemmWork p.val c k) →
      let t := Carried s p.val id k (s.gemmWork p.val c k)
      exec (.gemmTile p id []) s = .next (if c.gemm.isEmpty then t else t.setStationary k c.gemm.half (s.leaves p.val c k))) ∧
    (Started s p.val id 0 0x16 c → AtTurn s p.val c k [c.conv.out.handle] → WorkClear s p.val (s.convWork p.val c k) →
      exec (.convTile p id []) s = .next ((Carried s p.val id k (s.convWork p.val c k)).setStationary k c.conv.half none)) ∧
    (Started s p.val id 0 0x17 c → AtTurn s p.val c k [if c.attn.final then c.attn.out.handle else c.attn.acc.handle] →
      WorkClear s p.val (s.attnWork p.val c k) →
      exec (.attnTile p id []) s = .next ((Carried s p.val id k (s.attnWork p.val c k)).setStationary k 0 none)) ∧
    (Started s p.val id 0 0x19 c → AtTurn s p.val c k (s.scanDests p.val c.scan) → WorkClear s p.val (s.scanWork p.val c k) →
      let t := Carried s p.val id k (s.scanWork p.val c k)
      exec (.scanChunk p id []) s = .next (if c.scan.gated && !c.scan.isEmpty then t.setStationary k 0 none else t))

/-- R107 to R110, R129: the Wick commands. -/
def Obligations.WickCarriedOut : Prop :=
  ∀ (p : PartId) (id k : Nat) (s : State) (c : Cmd), c.id = id →
    (Started s p.val id 0 0x12 c → c.wick.chain = false → AtTurn s p.val c k c.wick.dests →
      WorkClear s p.val (s.wickWork p.val c (s.wickIn0 p.val c.wick)) →
      exec (.wickOp p id []) s = .next (Carried s p.val id k (s.wickWork p.val c (s.wickIn0 p.val c.wick)))) ∧
    (Started s p.val id 0 0x13 c → AtTurn s p.val c k [c.norm.out.handle] → WorkClear s p.val (s.normWork p.val c) →
      exec (.normRms p id []) s = .next (Carried s p.val id k (s.normWork p.val c))) ∧
    (Started s p.val id 0 0x12 c → c.wick.chain = true → c.armed = false → c.cluster = some k →
      (s.cluster k).anyHalf c .offline = false → (s.cluster k).anyHalf c .selfCheck = false →
      (s.cluster k).l.armed = none → (s.cluster k).r.armed = none →
      Answers (.wickOp p id []) s fun t =>
        (c.left = true → (t.cluster k).l.armed = some id) ∧ (c.right = true → (t.cluster k).r.armed = some id) ∧
        (t.cmd? p.val id).map (·.armed) = some true ∧ t.mem = s.mem)

/-- R91, R92: REDUCE_INTO at its turn. -/
def Obligations.ReduceClaims : Prop :=
  ∀ (p : PartId) (id k : Nat) (s : State) (c : Cmd), c.id = id → Started s p.val id 0 0x11 c →
    AtTurn s p.val c k (c.gemm.d.handle :: if c.gemm.claimEn then [c.gemm.claim.handle] else []) →
    s.workStopped p.val (s.reduceWork p.val c k) = false →
    (c.gemm.claimEn = true → (s.claimBit p.val c.gemm.claim c.gemm.seed).2 = .lost →
      let u := (s.claimBit p.val c.gemm.claim c.gemm.seed).1
      exec (.reduceInto p id []) s =
        .next ((u.done p.val id (2097152 + u.arrayBits c k)).modCmd p.val id fun c => { c with stage := 3 })) ∧
    (c.gemm.claimEn = true → ∀ q, (s.claimBit p.val c.gemm.claim c.gemm.seed).2 = .refused q →
      let u := (s.claimBit p.val c.gemm.claim c.gemm.seed).1
      exec (.reduceInto p id []) s =
        .next ((u.finishBy p.val id Cause.poisonWrite (some q) (u.arrayBits c k)).modCmd p.val id fun c => { c with stage := 2 })) ∧
    (let u := if c.gemm.claimEn then (s.claimBit p.val c.gemm.claim c.gemm.seed).1 else s
     c.gemm.claimEn = false ∨ (s.claimBit p.val c.gemm.claim c.gemm.seed).2 = .won →
     let v := u.modCmd p.val id fun c => { c with stage := 1 }
     WorkClear v p.val (u.reduceWork p.val c k) →
     let t := Carried v p.val id k (u.reduceWork p.val c k)
     exec (.reduceInto p id []) s = .next (if c.gemm.isEmpty then t else t.setStationary k c.gemm.half (u.leaves p.val c k)))

/-- R95: the halves and the command after a fault. -/
def Obligations.ArrayFaults : Prop :=
  ∀ (k p r : Nat) (h : HalfSel) (row col : Byte) (beats : W32) (rows : W16) (s : State) (c : Cmd),
    s.clusterOwner k = some (p, r) → s.runningOn p k h = some c → s.cmd? p c.id = some c →
    (c.op = 0x11 → c.gemm.claimEn = true → (s.claimBit p c.gemm.claim c.gemm.seed).2 = .won) →
    let after (cause : W16) (t : State) : Prop :=
      (hasLeft h = true → (t.cluster k).l.state = .selfCheck ∧ (t.cluster k).l.stationary = none) ∧
      (hasRight h = true → (t.cluster k).r.state = .selfCheck ∧ (t.cluster k).r.stationary = none) ∧
      (t.cmd? p c.id).map (fun d => (d.phase, d.status, d.cause)) = some (.ended, .done, cause)
    (∀ kind, c.usesArray = true → Answers (.arrayFault k h kind row col beats rows) s (after Cause.arrayFault)) ∧
    Answers (.arrayTimeout k h beats rows) s (after Cause.arrayTimeout) ∧
    (∀ lane, c.usesWick (c.op == 0x10 && (s.bound? p c k).isSome) = true →
      Answers (.wickFault k h (.stage lane) beats rows) s (after Cause.wickFault))

/-- R95 steps 5 and 6: one half after its self-check. -/
def Obligations.SelfCheckEnds : Prop :=
  ∀ (k : Nat) (s : State),
    ((s.cluster k).l.state = .selfCheck → ∀ pass,
      Answers (.selfCheck k .left pass) s fun t =>
        (t.cluster k).l = { (s.cluster k).l with
          state := if pass then .idle else .offline
          faults := if pass then satAdd (s.cluster k).l.faults 1 else (s.cluster k).l.faults
          wickFaults := if pass && (s.cluster k).l.fromWick then satAdd (s.cluster k).l.wickFaults 1 else (s.cluster k).l.wickFaults } ∧
        (t.cluster k).r = (s.cluster k).r) ∧
    ((s.cluster k).r.state = .selfCheck → ∀ pass,
      Answers (.selfCheck k .right pass) s fun t =>
        (t.cluster k).r = { (s.cluster k).r with
          state := if pass then .idle else .offline
          faults := if pass then satAdd (s.cluster k).r.faults 1 else (s.cluster k).r.faults
          wickFaults := if pass && (s.cluster k).r.fromWick then satAdd (s.cluster k).r.wickFaults 1 else (s.cluster k).r.wickFaults } ∧
        (t.cluster k).l = (s.cluster k).l)

/-- R127, R128: LANTERN_LOAD and LANTERN_SWITCH. -/
def Obligations.LanternBanks : Prop :=
  ∀ (p : PartId) (id : Nat) (s : State) (c : Cmd), c.id = id → let b := bitOf (c.fld 35 1) 0; let l := (s.part p.val).ltn
    (Started s p.val id 0 0x14 c → c.stage = 0 → l.active = b → id ∉ l.loadWaiting →
      exec (.lanternLoad p id) s = .next (s.skip p.val id Cause.lanternBankActive)) ∧
    (Started s p.val id 0 0x14 c → c.stage = 0 → l.active ≠ b → s.bankHeld p.val b = false →
      exec (.lanternLoad p id) s =
        .next ((s.modLtn p.val fun l => { l with loadWaiting := l.loadWaiting.filter (· != id) }).modCmd p.val id fun c => { c with stage := 1 })) ∧
    (Started s p.val id 0 0x14 c → c.stage = 0 → l.active ≠ b → s.bankHeld p.val b = true →
      exec (.lanternLoad p id) s = .next (s.modLtn p.val fun l => { l with loadWaiting := addTo l.loadWaiting id })) ∧
    (Started s p.val id 0 0x14 c → c.stage = 1 → s.bankHeld p.val b = false → ∀ fs,
      let rd := s.peekO p.val (c.ref 44) (c.fld 40 4)
      let u := s.countO p.val (c.ref 44) (c.fld 40 4)
      let bank := loadBank ((u.part p.val).ltn.bank b) (bitOf (c.fld 36 1) 0) fs
      rd.fault = none → parseImages 683 rd.bytes = some fs →
      (fs.any fun f => (f.2.increasing || f.2.decreasing) && !f.2.monotoneOk) = false → bankSegs bank ≤ 1024 →
      exec (.lanternLoadWrite p id []) s = .next ((u.modLtn p.val fun l => l.setBank b bank).done p.val id (bankDetail bank))) ∧
    (Started s p.val id 0 0x15 c → (s.part p.val).cmd.cmds = [c] →
      let u := if l.active = b then s else s.modLtn p.val fun l => { l with active := b, gen := l.gen + 1 }
      exec (.lanternSwitch p id) s = .next (u.done p.val id (u.part p.val).ltn.gen.toNat))

/-- R140, R142, R146: a FIXED LIST_CALL opened. -/
def Obligations.FixedCallOpens : Prop :=
  ∀ (p : PartId) (id : Nat) (s : State) (c : Cmd), c.id = id → Started s p.val id 0 0x18 c → c.stage = 0 →
    c.call.shared = false → c.call.bucketSel = false → c.call.nfill = 0 →
    (s.peekO p.val c.call.block 576).fault = none → zeroAt (s.peekO p.val c.call.block 576).bytes 0 64 = true →
    let u := s.countO p.val c.call.block 576
    let ds := listDescs (u.listSlot p.val c.call.slot).current
    (u.listSlot p.val c.call.slot).current ≠ [] → listContentOk false c.call.group ds = true →
    Answers (.listCall p id []) s fun t =>
      (t.part p.val).cmd.queue 0 c.ctx =
        (List.range ds.length).map (s.nextId + ·) ++ (s.part p.val).cmd.queue 0 c.ctx ∧
      t.nextId = s.nextId + ds.length ∧ (t.call? p.val id).isSome = true

/-- R150, R151: the participants of a SHARED call. -/
def Obligations.SharedCallIndices : Prop :=
  ∀ (p : PartId) (id n phys : Nat) (s : State) (c : Cmd) (k : Call) (x : Participant),
    s.cmd? p.val id = some c → s.call? p.val id = some k → k.participants[n]? = some x → x.left = false → x.removed = false → k.snuffed = false →
    (s.relCluster p.val (k.clusterBase + n) = some phys → x.run = [] →
      (s.cluster phys).l.state = .idle → (s.cluster phys).r.state = .idle →
      (∀ i rest, k.replay = i :: rest →
        exec (.participantTakeIndex p id n []) s =
          .next ((s.modCall p.val id fun k => { k with replay := rest }).takeGroup p.val c n i (k.clusterBase + n))) ∧
      (k.replay = [] → s.anyMoving p.val (counterDests k.counterRef k.claimRef) = false → ∀ u i, s.memOp p.val .fetchAdd (ORef.of k.counterRef.toNat) 1 = (u, i, none) →
        (k.groups.length ≤ i → exec (.participantTakeIndex p id n []) s =
          .next (((u.leaveCall p.val id n).modCall p.val id fun k => { k with exhausted := true }).callSettle p.val id)) ∧
        (i < k.groups.length → k.reduces i = true →
          exec (.participantTakeIndex p id n []) s = .next (u.takeGroup p.val c n i (k.clusterBase + n))) ∧
        (i < k.groups.length → k.reduces i = false → ∀ v, u.claimBit p.val (ORef.of k.claimRef.toNat) i = (v, .won) →
          exec (.participantTakeIndex p id n []) s = .next (v.takeGroup p.val c n i (k.clusterBase + n))))) ∧
    (∀ i, x.index = some i → x.run ≠ [] → x.failed = false →
      exec (.tileWatchExpiry p id n) s =
        .next (((s.modCall p.val id fun k => { k.modPpt n (fun x => { x with removed := true, failed := true }) with removed := true }).failTile
          p.val c i).callSettle p.val id))

/-- R199 to R202: the commands that make and release sequences. -/
def Obligations.SequenceEntries : Prop :=
  ∀ (p : PartId) (id : Nat) (s : State) (c : Cmd), let i := c.fld 36 2; let e := s.seqEntry p.val i
    (SeqTurn s p.val id 0x10 c → bitOf (c.fld 35 1) 1 = false → e.state = (if bitOf (c.fld 35 1) 0 then .idle else .empty) →
      let rd := s.peekO p.val (c.ref 40) 128
      let u := s.countO p.val (c.ref 40) 128
      let img := SeqEntry.ofBytes rd.bytes .idle false
      let e' := if bitOf (c.fld 35 1) 0 then e.update img else { img with parent := 0xFFFFFFFF#32 }
      rd.fault = none → (bitOf (c.fld 35 1) 0 = false → addImageZero rd.bytes = true) →
      e'.ok (64 * (u.part p.val).seq.maxBlocks) = true →
      (fieldAt rd.bytes 82 2 < 0x1000 ∨ fieldAt rd.bytes 82 2 = 0xFFFF) → fieldAt rd.bytes 80 2 < 0x1000 →
      exec (.seqAdd p id []) s = .next ((u.setSeqEntry p.val i e').done p.val id i)) ∧
    (SeqTurn s p.val id 0x11 c → e.state = .idle → e.streamEn = false → e.pos.toNat % 64 = 0 → c.fld 35 1 = 0 → c.fld 64 8 = 0 →
      let k := c.fld 44 2
      0 < k → k ≤ 256 → c.fld 40 2 + k ≤ (s.part p.val).ctl.seqCap.toNat →
      (∀ j < k, (s.seqEntry p.val (c.fld 40 2 + j)).state = .empty) →
      c.fld 112 2 = 0xFFFF → c.fld 114 2 = 0xFFFF → c.fld 96 4 = 0 →
      s.readBlocks p.val i c.wm {} = (s, {}) →
      let r := (List.range k).foldl (fun (r : ForkRun) j => r.child p.val c e j (forkSeed e.seed j)) { s := s }
      r.poison = none →
      exec (.seqFork p id []) s =
        .next ((r.s.reportDrops p.val c.wm r.drops).finishWrites p.val id r.refused (r.copies + 65536 * r.marked))) ∧
    (SeqTurn s p.val id 0x12 c → e.state ≠ .empty → e.state ≠ .inStep → bitOf (c.fld 35 1) 0 = false →
      s.readBlocks p.val i c.wm {} = (s, {}) →
      let r := s.releaseSeq p.val i
      exec (.seqEnd p id []) s = .next (r.1.done p.val id r.2))

/-- R181, R186, R203, R491: the pool commands and the SEQ page. -/
def Obligations.PoolCommands : Prop :=
  ∀ (p : PartId) (id : Nat) (s : State) (c : Cmd), let i := c.fld 36 2; let e := s.seqEntry p.val i
    (SeqTurn s p.val id 0x14 c → e.state ≠ .inStep → s.readBlocks p.val i c.wm {} = (s, {}) → s.lookupReady p.val i = true →
      let r := s.lookupLoop p.val i (if c.fld 40 4 = 0 then 4096 else min (c.fld 40 4) 4096) 0
      exec (.prefixLookup p id []) s = .next (r.1.done p.val id r.2)) ∧
    (SeqTurn s p.val id 0x15 c → (e.state = .idle ∨ e.state = .finished) → s.readBlocks p.val i c.wm {} = (s, {}) →
      ∀ slots : List Nat, c.fld 40 4 + c.fld 44 4 ≤ (s.part p.val).seq.maxBlocks →
      ((List.range (c.fld 44 4)).map fun j => (s.part p.val).seq.entry i (c.fld 40 4 + j)) = slots.map some →
      (∀ b ∈ slots, ((s.part p.val).seq.block b).state = .sealed) →
      (c.fld 35 1 = 1 → ∀ b ∈ slots, ((s.part p.val).seq.block b).pins ≠ 0) →
      let q := slots.foldl (fun q b => q.modBlock b fun x =>
        { x with pins := if c.fld 35 1 == 1 then x.pins - 1 else satAdd x.pins 1 }) (s.part p.val).seq
      exec (.pagePin p id []) s = .next (
        if c.fld 35 1 ≠ 1 ∧ bitsOf (s.part p.val).seq.pinLimit.toNat 0 23 < q.pinned then s.skip p.val id Cause.pinLimit
        else (slots.foldl (fun t b => t.dirtyBlock p.val b) (s.modSeq p.val fun _ => q)).done p.val id q.pinned)) ∧
    (s.vfOpen p.val = true → s.behind p.val = false → let u := s.mmio p.val; let q := (u.part p.val).seq
      (q.started = false → u.seqConfigOk p.val = true → (q.changed = true → ∀ x ∈ q.table, x.2.state = .empty) →
        exec (.seqPageStart p) s = .next (if q.changed
          then ((u.modSeq p.val fun q => { q with started := true, changed := false, pool' := [], lists := [] }).blankLists p.val).dirtyRange p.val
            q.metaObj.toNat 0 (72 * q.nblocks)
          else u.modSeq p.val fun q => { q with started := true })) ∧
      (q.started = true → (∀ x ∈ (u.part p.val).cmd.cmds, x.engine ≠ 2) →
        exec (.seqPageStop p) s = .next (u.modSeq p.val fun q => { q with started := false })) ∧
      (q.started = true → (∃ x ∈ (u.part p.val).cmd.cmds, x.engine = 2) →
        exec (.seqPageStop p) s = .next (u.rejectVf p.val 0x15 0x008 errStop Cause.seqBusy 2)))

/-- R189, R190, R194 to R196: a STEP's begin, its issue of calls, its commit and its failure. -/
def Obligations.StepEnds : Prop :=
  ∀ (p : PartId) (id : Nat) (s : State) (c : Cmd), Started s p.val id 2 0x13 c →
    (∀ pl, c.stage = 0 → (s.part p.val).mir.enable = false → (s.object p.val (c.ref 40).handle).usable = true → (s.object p.val (c.ref 48).handle).usable = true →
      s.readPlan p.val c = some (none, some pl) → s.destCheck p.val (c.ref 48).handle = 0 →
      s.anyMoving p.val [(c.ref 48).handle] = false →
      let u := s.countO p.val (c.ref 40) (64 + 64 * pl.nphase)
      let live := ((u.part p.val).seq.table.filter fun e => e.2.state != .empty && e.2.state != .faulted).map (·.1)
      exec (.step p id []) s = .next (u.collect p.val c pl) ∧
      (u.readEntries p.val c.wm live = (u, none) → (∀ i ∈ live, u.runnable p.val (u.seqEntry p.val i) = false) →
        exec (.step p id []) s = .next (((u.countDrops p.val {}).countStep p.val).done p.val id 0)) ∧
      (∀ i, live = [i] → u.readEntries p.val c.wm live = (u, none) → u.runnable p.val (u.seqEntry p.val i) = true →
        u.readBlocks p.val i c.wm {} = (u, {}) →
        let m := (u.seqEntry p.val i).contribution i pl.chunk
        m.kind = 2 → m.rows ≤ pl.maxRows → 0 < pl.maxMembers →
        let v := ((u.modSeqEntry p.val i fun e => { e with state := .inStep }).countDrops p.val {}).countSchedule p.val [m]
        (v.schedule p.val (v.seqEntry p.val i)).fault = none →
        ∀ w, v.pokeAll p.val (v.workspace p.val (c.ref 48) pl.maxRows pl.maxMembers [m]) = (w, none) →
        let run : StepRun :=
          { id := id, members := [m], phases := pl.phases, maxRows := pl.maxRows, maxMembers := pl.maxMembers
            wsRef := word64 c.desc 48, tokBase := c.fld 36 2
            sampled := (List.range pl.nphase).map fun i => (s.token p.val (c.fld 36 2 + i)).val
            issued := List.replicate pl.nphase 0, totalRows := m.rows }
        exec (.step p id []) s = .next (((w.modSeq p.val fun q => { q with run := some run }).modCmd p.val id
          fun c => { c with stage := 1 }).issueCalls p.val c run.fuel))) ∧
    (∀ r, c.stage ≠ 0 → (s.part p.val).mir.enable = false → (s.part p.val).seq.run = some r → r.id = id → r.allIssued = false →
      exec (.step p id []) s = .next (s.issueCalls p.val c r.fuel) ∧
      (r.phases.length ≤ r.phase → exec (.step p id []) s = .next (s.modRun p.val fun r => { r with allIssued := true }))) ∧
    (∀ r, (s.part p.val).seq.run = some r → r.id = id → s.callsOver p.val r = true →
      (r.allIssued = true → r.failed = none → r.snuffed = false → (s.part p.val).mir.enable = false →
        s.readEntries p.val c.wm (r.members.map (·.seq)) = (s, none) →
        r.members.foldl (fun (a : State × Drops) m => a.1.readBlocks p.val m.seq c.wm a.2) (s, {}) = (s, {}) →
        exec (.stepCommit p id []) s =
          .next (((((r.members.foldl (fun s m => s.commitMember p.val c m) (s.countStep p.val)).countDrops p.val {}).dropEvent p.val c.wm
            (r.drops.join {})).modSeq p.val fun q => { q with run := none }).finishWrites p.val id r.refused
              ({ r with dropped := (r.drops.join {}).any } : StepRun).detail) ∧
        (∀ m, r.members = [m] → m.kind = 2 → let e := s.seqEntry p.val m.seq
          e.step + 1 ≠ e.target → r.refused = none → r.drops.any = false →
          Answers (.stepCommit p id []) s fun t =>
            (t.seqEntry p.val m.seq).state = .idle ∧ (t.seqEntry p.val m.seq).step = e.step + 1 ∧
            (t.seqEntry p.val m.seq).pos = e.pos ∧ (t.seqEntry p.val m.seq).lastStepWm = c.wm ∧ (t.part p.val).seq.run = none ∧
            (t.part p.val).seq.steps = (s.part p.val).seq.steps + 1 ∧
            (t.cmd? p.val id).map (fun d => (d.phase, d.status, d.cause)) = some (.ended, .done, 0))) ∧
      (let idle := ((s.membersIdle p.val r.members).modSeq p.val fun q => { q with run := none }).dropEvent p.val c.wm r.drops
       (r.snuffed = true → exec (.stepPhaseFail p id []) s = .next (idle.finish p.val id .snuffed 0 r.detail r.wrote)) ∧
       (∀ ph sq cause, r.snuffed = false → r.failed = some (ph, sq, cause) → Answers (.stepPhaseFail p id []) s fun t =>
          (t.cmd? p.val id).map (fun d => (d.phase, d.status, d.cause, d.detail.toNat)) =
            some (.ended, .done, Cause.stepPhaseFail, r.detail % 2 ^ 32) ∧
          (∀ m ∈ r.members, (t.seqEntry p.val m.seq).state ≠ .inStep ∧
            t.seqEntry p.val m.seq = { s.seqEntry p.val m.seq with state := (t.seqEntry p.val m.seq).state }) ∧
          (t.part p.val).seq.run = none ∧ (t.part p.val).seq.steps = (s.part p.val).seq.steps + 1 ∧
          (r.drops.any = false → t.mem = s.mem))))

/-- R213, R218, R219, R505: the five operations of STREAM_CHUNK. -/
def Obligations.StreamRanges : Prop :=
  ∀ (p : PartId) (id : Nat) (s : State) (c : Cmd),
    let after (i : Instr) (f : Nat → Stream) : Prop := Answers i s fun t =>
      (∀ k ∈ c.chunkIds, t.stream p.val k = f k) ∧ (∀ k, k ∉ c.chunkIds → t.stream p.val k = s.stream p.val k) ∧
      (t.cmd? p.val id).map (fun d => (d.phase, d.status, d.cause, d.detail.toNat)) =
        some (.ended, .done, 0#16, c.fld 40 2 % 2 ^ 32)
    (ChunkTurn s p.val id 2 c Stream.open' false → after (.streamChunkReset p id []) fun k => { s.stream p.val k with reset := true }) ∧
    (ChunkTurn s p.val id 3 c (·.state == .broken) false → after (.streamChunkClear p id []) fun k =>
      { s.stream p.val k with
        state := .live, brokenCause := 0, brokenWm := 0, reset := (s.stream p.val k).reset || bitOf (c.fld 36 1) 0 }) ∧
    (ChunkTurn s p.val id 4 c (fun x => x.state != .empty) true → after (.streamChunkClose p id []) fun _ => {}) ∧
    (let rd := s.peekO p.val (c.ref 48) 64
     let img := Stream.ofBytes rd.bytes .live
     let entry (isOpen : Bool) (k : Nat) : Stream := chunkEntry img (c.fld 44 4) (k - c.fld 38 2) isOpen (s.stream p.val k)
     rd.fault = none → fieldAt rd.bytes 37 1 < 16 →
     (ChunkTurn s p.val id 0 c (·.state == .empty) false → bitsOf (fieldAt rd.bytes 0 4) 0 7 = 0 → bitsOf (fieldAt rd.bytes 0 4) 9 23 = 0 →
       fieldAt rd.bytes 6 2 = 0 → zeroAt rd.bytes 24 8 = true → zeroAt rd.bytes 38 26 = true → 0 < img.stateWords.toNat →
       img.stateWords.toNat ≤ 16384 → (∀ k ∈ c.chunkIds, s.streamRangesOk p.val (entry true k) = true) →
       after (.streamChunkOpen p id []) (entry true)) ∧
     (ChunkTurn s p.val id 1 c Stream.open' true →
       (∀ k ∈ c.chunkIds, s.streamRangesOk p.val (entry false k) = true) →
       after (.streamChunkUpdate p id []) (entry false)))

/-- R239: the three operations of OBJ_CMD. -/
def Obligations.ObjectCommands : Prop :=
  ∀ (p : PartId) (handle : BitVec 20) (s : State), s.vfRw p.val = true → s.behind p.val = false →
    let h := handle.toNat
    let y := (s.part p.val).obj
    let after (i : Instr) (cause : W16) (o : Obj) : Prop := Answers i s fun t =>
      t.object p.val h = o ∧ (t.part p.val).obj.result = cause ∧ (∀ k, k ≠ h → t.object p.val k = s.object p.val k)
    0 < h → h < (s.part p.val).ctl.objCap.toNat →
    (∀ home mirror, (s.object p.val h).state = .free →
      s.rangeCheck p.val (Home.ofCode home.toNat) y.defPlace.toNat y.defAddr.toNat y.defSize.toNat = (0, 0) →
      after (.objCmdDefine p handle home mirror) 0 {
        state := .present, src := { home := Home.ofCode home.toNat, place := y.defPlace, addr := y.defAddr }, size := y.defSize,
        mirror := mirror }) ∧
    (∀ home mirror, (s.object p.val h).state ≠ .free →
      after (.objCmdDefine p handle home mirror) Cause.objBusy (s.object p.val h)) ∧
    ((s.object p.val h).state = .present → s.movNames p.val h = false → s.ringObject p.val h = false → s.seqOwns p.val h = false →
      s.streamObject p.val h = false → s.sessionOwns p.val h = false → after (.objCmdRelease p handle) 0 { src := (s.object p.val h).src, size := (s.object p.val h).size }) ∧
    (∀ mirror, (s.object p.val h).state ≠ .free →
      after (.objCmdMark p handle mirror) 0 { s.object p.val h with mirror := mirror })

/-- R242 steps 1 to 3: the mark of a move. AUTOMATIC_SWAP_IN (R215). -/
def Obligations.MovesMark : Prop :=
  (∀ (p : PartId) (id : Nat) (s : State) (c : Cmd), let h := c.movHandle; let o := s.object p.val h; let d := c.mvDest o
     s.ringObject p.val h = false → s.destCheck p.val h = 0 → s.chunksPending p.val h = false → o.state = .present →
     s.moveBefore p.val c = false → moveHome c o = 0 → c.stage = 0 → c.id = id →
     s.rangeCheck p.val d.home d.place.toNat d.addr.toNat o.size.toNat = (0, 0) →
     ∀ i : Instr, (i = .move p id ∧ Started s p.val id 1 0x10 c ∨ i = .prefetch p id ∧ Started s p.val id 1 0x11 c ∨
       i = .swapOut p id ∧ Started s p.val id 1 0x12 c ∨ i = .swapIn p id ∧ Started s p.val id 1 0x13 c) →
     (d = o.src → exec i s = .next (s.done p.val id (2 ^ 28 + c.mvBits))) ∧
     (d ≠ o.src → (d.home = o.src.home → d.place = o.src.place →
         o.src.addr.toNat + o.size.toNat ≤ d.addr.toNat ∨ d.addr.toNat + o.size.toNat ≤ o.src.addr.toNat) →
       Answers i s fun t =>
         t.object p.val h = { o with state := .moving, dst := d, moveWm := c.wm } ∧ t.mem = s.mem ∧
         (t.cmd? p.val id).map (fun c => (c.phase, c.stage)) = some (.started, 2) ∧
         (∀ k, k ≠ h → t.object p.val k = s.object p.val k))) ∧
  (∀ (p : PartId) (h : Nat) (s : State) (a : AutoSwap), let o := s.object p.val h
     h < 2 ^ 20 → (s.part p.val).str.swaps.find? (·.handle == h) = some a → a.move = none → (s.part p.val).ctl.state = .running →
     (s.part p.val).vf.flr = 0 → s.movRunning p.val < 8 → o.state = .present → o.src.home.near = false → o.originValid = true →
     o.origin.home = .c → s.ringObject p.val h = false → s.destCheck p.val h = 0 →
     (∀ d ∈ (s.part p.val).cmd.cmds, d.id ≠ s.nextId ∧
       (d.engine = 1 → d.phase = .started → d.movHandle = h → d.op ≤ 0x13 → d.stage ≠ 0 ∧ d.stage ≠ 1)) →
     s.rangeCheck p.val .c o.origin.place.toNat o.origin.addr.toNat o.size.toNat = (0, 0) →
     Answers (.automaticSwapIn p h) s fun t =>
       t.object p.val h = { o with state := .moving, dst := o.origin, moveWm := a.waymark } ∧ t.nextId = s.nextId + 1 ∧
       (t.cmd? p.val s.nextId).map (fun c => (c.phase, c.engine, c.op, c.wm, c.autoTok)) = some (.started, 1, 0x13, a.waymark, some a.tok))

/-- R242 steps 4 to 6, R245, R249: the commit of a move. -/
def Obligations.MoveCommits : Prop :=
  ∀ (p : PartId) (id : Nat) (s : State) (c : Cmd), let h := c.movHandle; let o := s.object p.val h
    s.cmd? p.val id = some c → c.id = id → c.phase = .started → c.engine = 1 → 0x10 ≤ c.op → c.op ≤ 0x13 → c.stage = 2 → o.state = .moving →
    o.held = [] → s.stoppedAt p.val o.src 0 o.size.toNat = false → s.stoppedAt p.val o.dst 0 o.size.toNat = false →
    s.destFailed p.val o = none → (s.copyLines p.val o (o.size.toNat / 64)).2 = none → s.chunksPending p.val h = false →
    BarsQuiet s p.val → (s.part p.val).evt.buffer = [] →
    Answers (.moveCommit p id []) s fun t =>
      t.object p.val h = { o with
        state := .present, src := o.dst, dst := {}, moveWm := 0, originValid := c.op == 0x12
        origin := if c.op == 0x12 then o.src else o.origin } ∧
      (∀ k, k ≠ h → t.object p.val k = s.object p.val k) ∧ t.mem = (s.copyLines p.val o (o.size.toNat / 64)).1.mem ∧
      (t.cmd? p.val id).map (fun d => (d.phase, d.status, d.cause, d.detail.toNat)) =
        some (.ended, .done, 0#16, (sat 28 (ceilDiv o.size.toNat 1024) + c.mvBits) % 2 ^ 32)

/-- R248: FILL and SCRUB. -/
def Obligations.FillsAndScrubs : Prop :=
  ∀ (p : PartId) (id : Nat) (s : State) (c : Cmd), let o := s.object p.val c.movHandle
    o.state ≠ .moving → s.stoppedAt p.val o.src (c.fld 40 8) (c.fld 48 8) = false →
    let r := s.fillLines p.val c c.fillSegs
    (Started s p.val id 1 0x14 c → exec (.fill p id []) s = .next (r.1.finishWrites p.val id r.2.2 (sat 32 r.2.1))) ∧
    (Started s p.val id 1 0x15 c → c.mvForce = false → ∀ bad,
      exec (.scrub p id bad) s = .next (r.1.finishWrites p.val id r.2.2 (sat 32 r.2.1))) ∧
    (Started s p.val id 1 0x15 c → c.mvForce = true → ∀ bad,
      let v := (r.1.countO p.val ⟨c.movHandle, c.fld 40 8⟩ (c.fld 48 8)).verifyLines p.val c bad
      exec (.scrub p id bad) s = .next (match v.2 with
        | some q => v.1.finishBy p.val id Cause.scrubVerify (some q) (sat 32 r.2.1)
        | none => v.1.finishWrites p.val id r.2.2 (sat 32 r.2.1)))

/-- R259, R261, R262: patrol, poison and failed channels. -/
def Obligations.LineErrors : Prop :=
  ∀ (s : State),
    (∀ k : Fin 256, s.patrolOn k.val = true → Answers (.patrolScrub (.hbm k) .clean) s fun t =>
      (t.chan k.val).patrolPos.toNat = ((s.chan k.val).patrolPos.toNat + 1) % hbmLines % 2 ^ 32 ∧
      (∀ sp, t.mem.cells sp = s.mem.cells sp) ∧ t.mem.poison = s.mem.poison ∧ t.parts = s.parts) ∧
    (∀ sp line found wm, (s.mem.poisonAt sp line).isSome = true → s.eccLine sp line found .uncorrectable wm none = s) ∧
    (∀ sp line found wm, s.mem.poisonAt sp line = none → s.ev.pf.state ≠ .running →
      (∀ p, s.lineOwner sp line = some p → (s.part p).evt.state ≠ .running) →
      let t := s.eccLine sp line found .uncorrectable wm none
      t.mem.poisonAt sp line = some s.ev.seq ∧ t.ev.seq = s.ev.seq + 1 ∧ ∀ q, t.mem.cells q = s.mem.cells q) ∧
    (∀ c : ChannelId, (s.chan (chanNo c)).state = .failed → exec (.channelFail c) s = .next s) ∧
    (∀ c : ChannelId, (s.chan (chanNo c)).state ≠ .failed → (∀ p, ∀ x ∈ (s.part p).cmd.cmds, x.engine ≠ 1) → Answers (.channelFail c) s fun t =>
      (t.chan (chanNo c)).state = .failed ∧ (t.chan (chanNo c)).failSeq = s.ev.seq) ∧
    (∀ k, s.patrolOn (256 + k.val) = true → Answers (.patrolScrub (.lpddr k) .clean) s fun t =>
      (t.chan (256 + k.val)).patrolPos.toNat = ((s.chan (256 + k.val)).patrolPos.toNat + 1) % lpddrLines % 2 ^ 32 ∧
      (∀ sp, t.mem.cells sp = s.mem.cells sp) ∧ t.mem.poison = s.mem.poison ∧ t.parts = s.parts) ∧
    (∀ k b, k < 840 → b < 64 → s.clusterPowered k = true → exec (.patrolScrub (.sram k b) .clean) s =
      .next (s.modMem fun m => { m with patrolS := tset m.patrolS (64 * k + b) (tget 0 m.patrolS (64 * k + b) + 1) })) ∧
    (∀ k b, b < 128 → s.domainOn (80 + k.val) = true → Answers (.patrolScrub (.hamper k b) .clean) s fun t =>
      t.mem = { s.mem with patrolC := tset s.mem.patrolC (128 * k.val + b) (tget 0 s.mem.patrolC (128 * k.val + b) + 1) } ∧
      t.parts = s.parts) ∧
    (∀ (p : PartId) (id : Nat) (ecc : List EccHit),
      (∀ k io, exec (.descriptorFetch p k io ecc) s = exec (.descriptorFetch p k io []) (s.eccSlots (s.descriptorFetch p.val (k.val + 1) io) p.val (k.val + 1) ecc)) ∧
      (∀ io, exec (.snuff p io ecc) s = exec (.snuff p io []) (s.eccSlots (s.snuffFetch p.val io) p.val 1 ecc)) ∧
      (∀ slot, exec (.commandStart p slot ecc) s = exec (.commandStart p slot []) (s.eccStart p.val slot ecc)) ∧
      (∀ io, exec (.commandTerminal p id io ecc) s =
        exec (.commandTerminal p id io []) (s.eccWrite p.val id (fun c => s.recordFinder p.val c) ecc)) ∧
      (∀ k, exec (.participantTakeIndex p id k ecc) s =
        exec (.participantTakeIndex p id k []) (s.eccWrite p.val id (fun _ => s.takeFinder p.val id) ecc)) ∧
      exec (.fill p id ecc) s = exec (.fill p id [])
        (s.eccWrite p.val id (fun c => Finder.partly p.val ⟨c.movHandle, c.fld 40 8⟩ (c.fld 48 8)) ecc) ∧
      ∀ x ∈ ([
          ((.listLoad p id ·), fun c => c.phase == .started && c.op == Op.listLoad, State.listReads p.val),
          ((.lanternLoadWrite p id ·), (·.runs 0 0x14), State.imageReads p.val),
          ((.listCall p id ·), (·.runs 0 0x18), State.callReads p.val),
          ((.seqAdd p id ·), (·.runs 2 0x10), State.seqAddReads p.val),
          ((.seqFork p id ·), (·.runs 2 0x11), State.seqForkReads p.val),
          ((.seqEnd p id ·), (·.runs 2 0x12), State.seqEndReads p.val),
          ((.step p id ·), (·.runs 2 0x13), State.stepReads p.val),
          ((.stepCommit p id ·), (·.runs 2 0x13), State.commitReads p.val),
          ((.stepPhaseFail p id ·), (·.runs 2 0x13), State.failReads p.val),
          ((.prefixLookup p id ·), (·.runs 2 0x14), State.prefixLookupReads p.val),
          ((.pagePin p id ·), (·.runs 2 0x15), State.pagePinReads p.val),
          ((.streamChunkOpen p id ·), fun c => c.runs 2 0x16 && c.fld 35 1 == 0, State.chunkReads p.val),
          ((.streamChunkUpdate p id ·), fun c => c.runs 2 0x16 && c.fld 35 1 == 1, State.chunkReads p.val),
          ((.streamChunkReset p id ·), fun c => c.runs 2 0x16 && c.fld 35 1 == 2, State.chunkReads p.val),
          ((.streamChunkClear p id ·), fun c => c.runs 2 0x16 && c.fld 35 1 == 3, State.chunkReads p.val),
          ((.streamChunkClose p id ·), fun c => c.runs 2 0x16 && c.fld 35 1 == 4, State.chunkReads p.val),
          ((.decodeUnit p id ·), (·.runs 3 0x11), State.decodeReads p.val),
          ((.encodeFrame p id ·), (·.runs 3 0x12), State.encodeReads p.val),
          ((.send p id ·), (·.runs 4 0x10), State.sendReads p.val),
          ((.rtpBind p id ·), (·.runs 4 0x12), State.bindReads p.val)] :
          List ((List EccHit → Instr) × (Cmd → Bool) × (State → Cmd → List Finder))),
        exec (x.1 ecc) s = exec (x.1 []) (s.eccRead p.val id x.2.1 x.2.2 ecc))

/-- R260, R262, R264, R265: writes of one line. -/
def Obligations.LineWrites : Prop :=
  ∀ (m : Mem) (key : Nat) (sp : Space) (a : Nat) (bs : List Byte), a % 64 + bs.length ≤ 64 → 0 < bs.length →
    let w := m.writeLine key sp a bs
    (m.poisonAt sp (a / 64) = none → w.2 = none ∧
      (∀ i, i < bs.length → w.1.byteAt key sp (a + i) = nth 0 bs i) ∧
      (∀ b, b / 64 = a / 64 → (b < a ∨ a + bs.length ≤ b) → w.1.byteAt key sp b = m.byteAt key sp b) ∧
      (∀ sp' b k, (sp' ≠ sp ∨ b / 64 ≠ a / 64) → w.1.byteAt k sp' b = m.byteAt k sp' b)) ∧
    (∀ q, m.poisonAt sp (a / 64) = some q →
      (m.chanFailed sp a = true → w = (m, some q)) ∧
      (bs.length < 64 → w = (m, some q)) ∧
      (m.chanFailed sp a = false → bs.length = 64 → w.2 = none ∧ w.1.poisonAt sp (a / 64) = none ∧
        ∀ i, i < 64 → w.1.byteAt key sp (a + i) = nth 0 bs i))

/-- R276, R289, R295: the codec's sessions and engines. -/
def Obligations.CodecSessions : Prop :=
  (∀ (p : PartId) (id : Nat) (s : State) (c : Cmd),
    (CdcTurn s p.val id 0x10 c → s.openSessions p.val c.cdcUnit < s.cdcGrant p.val c.cdcUnit →
      exec (.sessionOpen p id) s = .next ((s.modSession p.val c.cdcUnit c.sess fun _ => c.newSession).done p.val id)) ∧
    (CdcTurn s p.val id 0x13 c →
      exec (.sessionClose p id) s =
        .next (((s.modSession p.val c.cdcUnit c.sess fun _ => {}).unbindRtp p.val c.cdcUnit c.sess).done p.val id))) ∧
  (∀ (u : Fin 4) (s : State) (p id : Nat) (c : Cmd), s.cmd? p id = some c →
    let e := tget {} s.cdcs u.val
    (s.engRuns u.val = some (p, id) → s.engHolds u.val = none → s.liveWaits u.val = true → s.isLive p c = false →
      exec (.batchSuspend u) s =
        .next { s with
          cdcs := tset s.cdcs u.val { e with running := none, suspended := e.running, preempts := wrapAdd e.preempts 1 } }) ∧
    (s.engHolds u.val = some (p, id) → s.engRuns u.val = none → s.liveWaits u.val = false →
      exec (.batchResume u) s = .next { s with cdcs := tset s.cdcs u.val { e with running := e.suspended, suspended := none } }))

/-- R300: a failure of an engine or of the state of a session. -/
def Obligations.CodecFault : Prop :=
  ∀ (u : Fin 4) (s : State) (p id : Nat) (c : Cmd), s.engRuns u.val = some (p, id) → s.cmd? p id = some c →
    let ends (t : State) (i : Nat) : Prop := ∃ d, t.cmd? p i = some d ∧ d.phase = .ended ∧ d.status = .done ∧ d.cause = Cause.cdcFault ∧
      flagsSignal d.status d.cause = true
    Answers (.cdcFault u) s fun t =>
      ends t id ∧ (t.session p u.val c.sess).state = .faulted ∧
      (tget {} t.cdcs u.val).faults = satAdd (tget {} s.cdcs u.val).faults 1 ∧ t.mem = s.mem ∧
      (∀ i d, s.engHolds u.val = some (p, i) → s.cmd? p i = some d → (d.sess = c.sess → ends t i) ∧
        (d.sess ≠ c.sess → t.cmd? p i = s.cmd? p i)) ∧
      (∀ q (v : Fin 4) n, n < 64 → ¬ (q = p ∧ v = u ∧ n = c.sess) → t.session q v.val n = s.session q v.val n)

/-- R278 to R280, R284, R291: pictures decoded and encoded. That POOL_EXHAUSTED undoes the release is the model's choice (log entry 94). -/
def Obligations.CodecUnits : Prop :=
  (∀ (p : PartId) (s : State) (c : Cmd), c.engine = 3 → c.op = 0x11 ∨ c.op = 0x12 →
    (s.place p.val c).session p.val c.cdcUnit c.sess = (s.session p.val c.cdcUnit c.sess).release (c.fld 44 4)) ∧
  (∀ (p : PartId) (id : Nat) (s : State) (c : Cmd), let x := s.session p.val c.cdcUnit c.sess
    (CdcTurn s p.val id 0x11 c → c.fld 37 1 = 0 →
      let u := s.countO p.val (c.ref 56) 0
      let first : Decoded :=
        { s := u, x := x, buf := none, corrupt := false, refCorrupt := false, concealed := 0, cause := 0, fault := none, refused := none }
      let slots := (List.range x.nbuf).filter fun i => bitsOf (x.mark i) 2 8 != 0
      let mayShow : Bool := x.codec == 0 && !slots.isEmpty && (u.peekO p.val (c.ref 48) (c.fld 40 4)).fault.isNone
      (s.poolStopped p.val x = false → s.stoppedO p.val (c.ref 48) (c.fld 40 4) = false →
        (c.fld 40 4 = 0 → exec (.decodeUnit p id []) s = .next (first.output p.val c [])) ∧
        (c.fld 40 4 ≠ 0 → s.anyMoving p.val [x.pool.1.handle] = false → exec (.decodeUnit p id []) s = .next (if mayShow ∧ Config.freeBool u.free 1 = true
          then ({ first with
            s := ({ u with free := u.free + 3 } : State).countO p.val (c.ref 48) (c.fld 40 4)
            x := (x.shownAgain (u.free + 2) (nth 0 slots (Config.freeNat u.free % slots.length))).showFrame (u.free + 1)
              (nth 0 slots (Config.freeNat u.free % slots.length)) } : Decoded).output p.val c []
          else match x.freeBuf with
            | none => u.skipCdc p.val c Cause.poolExhausted
            | some b => (u.decodeInto p.val c x b none).output p.val c []))) ∧
      (∀ b, c.fld 40 4 ≠ 0 → bitOf (c.fld 35 1) 1 = false → x.freeBuf = some b → s.anyMoving p.val [x.pool.1.handle] = false →
        (s.peekO p.val (c.ref 48) (c.fld 40 4)).fault = none →
        (∀ i < x.nbuf, (s.peekO p.val (x.buf i) x.planeBytes).fault = none) →
        Answers (.unitWorkBound p id) s fun t =>
          (t.cmd? p.val id).map (fun d => (d.phase, d.status, d.cause)) = some (.ended, .done, Cause.unitWorkBound))) ∧
    (CdcTurn s p.val id 0x12 c → c.fld 37 1 = 0 → s.anyMoving p.val [(c.ref 56).handle, x.pool.1.handle] = false →
      s.poolStopped p.val x = false → s.stoppedO p.val (c.ref 56) (c.fld 64 4) = false → x.encodeOk c [] = true →
      let v := (s.countO p.val (c.ref 68) 0).nameSource p.val c
      let y := v.session p.val c.cdcUnit c.sess
      (y.freeBuf = none → exec (.encodeFrame p id []) s = .next (v.skipCdc p.val c Cause.poolExhausted)) ∧
      (∀ b, y.freeBuf = some b →
        let latent := bitOf (c.fld 35 1) 1
        let src := if latent then c.ref 48 else x.buf (c.fld 41 1)
        let len := if latent then 32 * x.width * x.height else x.planeBytes
        let refs := [c.fld 38 1, c.fld 39 1].filter (· != 0xFF)
        let w := refs.zipIdx.foldl
          (fun s r => s.countO p.val (x.buf r.1) (Config.freeNat (v.free + r.2) % (x.planeBytes + 1)))
          ({ v.countO p.val src len with free := v.free + 3 + 16 * x.width * x.height } : State)
        (v.peekO p.val src len).fault = none → (∀ r ∈ refs, (v.peekO p.val (x.buf r) x.planeBytes).fault = none) →
        exec (.encodeFrame p id []) s = .next (w.encodeInto p.val c y b
          (if latent then w.latentSamples p.val x src (v.free + 3) else w.poolSamples p.val x (c.fld 41 1)) []))))

/-- R306: PART_CTRL in each state of Table 9.2. -/
def Obligations.PartitionCommands : Prop :=
  ∀ (sid : Nat) (p : PartId) (s : State) (x : SpdmSession), SessionUp s sid x .operator → PageFree s (partPage p.val 0) sid →
    (s.part p.val).vf.flr = 0 →
    let st := (s.part p.val).ctl.state
    let goes (i : Instr) (new : PartState) : Prop := Answers i s fun t => (t.part p.val).ctl.state = new ∧ t.reply = { count := 1 }
    let stays (i : Instr) : Prop := Answers i s fun t => (t.part p.val).ctl.state = st ∧ t.reply = { cause := Cause.partState }
    (if st = .empty then goes (.partCreate sid p) .configuring else stays (.partCreate sid p)) ∧
    (if st = .configuring then s.sec.debug = false →
        ((s.commitCheck p.val).1 = 0 → goes (.partCommit sid p) .stopped) ∧
        ((s.commitCheck p.val).1 ≠ 0 → Answers (.partCommit sid p) s fun t =>
          (t.part p.val).ctl.state = .configuring ∧ t.reply = { cause := Cause.partConfig })
      else stays (.partCommit sid p)) ∧
    (if st = .configuring then goes (.partAbandon sid p) .empty else stays (.partAbandon sid p)) ∧
    (if st = .stopped then
        let standby := (s.part p.val).mir.state = .standbyEmpty ∨ (s.part p.val).mir.state = .standby
        let holds (cause : W16) : Prop := Answers (.partStart sid p) s fun t =>
          (t.part p.val).ctl.state = .stopped ∧ t.reply = { cause := cause }
        (s.testRuns p.val = false → ¬ standby → goes (.partStart sid p) .running) ∧
        (s.testRuns p.val = true → holds Cause.partBusy) ∧ (s.testRuns p.val = false → standby → holds Cause.pairStandby)
      else stays (.partStart sid p)) ∧
    (if st = .running then goes (.partStop sid p) .draining else stays (.partStop sid p)) ∧
    (if st = .draining then Answers (.partForce sid p) s fun t =>
        (t.part p.val).ctl.state = .draining ∧ (t.part p.val).ctl.forced = true ∧ t.reply = { count := 1 }
      else stays (.partForce sid p)) ∧
    (st = .stopped → s.testRuns p.val = false → Answers (.partTeardown sid p) s fun t =>
      (t.part p.val).ctl.state = .teardown ∧ (t.part p.val).ctl.key = 0 ∧ (t.part p.val).cmd.cmds = [] ∧ t.reply = { count := 1 }) ∧
    (st ≠ .stopped → st ≠ .draining → stays (.partTeardown sid p)) ∧
    (st = .draining → (s.part p.val).ctl.drainTimeout = false → stays (.partTeardown sid p))

/-- R308, R316: the end of a drain and of a teardown. -/
def Obligations.DrainsAndTeardowns : Prop :=
  ∀ (p : PartId) (s : State), (s.part p.val).vf.flr = 0 →
    ((s.part p.val).ctl.state = .draining → s.drained p.val = true → s.journalOk = true →
      Answers (.drainComplete p) s fun t => (t.part p.val).ctl.state = .stopped) ∧
    ((s.part p.val).ctl.state = .draining → s.drained p.val = false → (s.part p.val).ctl.drainTimeout = false →
      Answers (.drainTimeout p) s fun t => (t.part p.val).ctl.state = .draining ∧ (t.part p.val).ctl.drainTimeout = true) ∧
    ((s.part p.val).ctl.state = .teardown → s.journalOk = true →
      (bitOf (s.part p.val).evt.cfg.toNat 8 = true → (s.object p.val (baseRef (s.part p.val).evt.base).handle).src.home.near = false) →
      ∀ badQ badG, Answers (.teardownComplete p badQ badG) s fun t =>
      let x := t.part p.val
      x.ctl.state = .empty ∧ x.ctl.hmap = [] ∧ x.ctl.lmap = [] ∧ x.ctl.hgran = [] ∧ x.ctl.key = 0 ∧ x.cmd = {} ∧ x.obj = {} ∧ x.str = {} ∧
      x.seq.table = [] ∧ x.seq.pool' = [] ∧ x.mtr.snap = (s.part p.val).mtr.snap ∧
      (∀ k ∈ (s.quadsOf p.val).flatMap s.quadClusters, ∀ a, a < sramBytes → cellGet t.mem.sram (sramBytes * k + a) = 0) ∧
      (∀ g ∈ (s.part p.val).ctl.hgran, ∀ a, a < hamperGranule → cellGet t.mem.hamper (hamperGranule * g + a) = 0))

/-- R312, R318: snapshots and refills; the journal entry of the write takes the number before (log entry 50). -/
def Obligations.MetersAndRegulators : Prop :=
  (∀ (sid : Nat) (p : PartId) (s : State) (x : SpdmSession), SessionUp s sid x .operator → PageFree s (partPage p.val 3) sid →
    (s.part p.val).mtr.snap.busy = false →
    (s.part p.val).ctl.state = .stopped ∨ (s.part p.val).ctl.state = .running ∨ (s.part p.val).ctl.state = .draining →
    Answers (.snapshot sid p) s fun t =>
      (t.part p.val).mtr.snap = {
        busy := true, final := false, state := BitVec.ofNat 3 (s.part p.val).ctl.state.code, seq := s.ev.seq + 1,
        vals := (List.range 10).map (s.meter p.val) } ∧
      t.reply = { count := 1 }) ∧
  (∀ (p : PartId) (r : Fin 5) (b : Fin 4) (s : State), s.live p.val = true → (2 ≤ r.val → b = 0) → r.val < 3 + s.fuse.grade.ports → BarsQuiet s p.val →
    let g := s.regulator p.val r.val
    let d := g.drained r.val b.val
    let u := s.modReg p.val r.val (·.refill r.val b.val)
    exec (.regulatorRefill p r b) s =
      .next (if r.val < 3 then (u.meterCredits p.val r.val d.1).flushPart p.val 64 else u.sendHeld p.val (r.val - 3) d.2.1) ∧
    (nth [] g.queue b.val = [] → (s.part p.val).evt.buffer = [] → Answers (.regulatorRefill p r b) s fun t =>
      let h := t.regulator p.val r.val
      h.bucket = setNth g.bucket b.val (fun _ => (bucketSize r.val g.cap.toNat : Int)) ∧
      h.last = setNth g.last b.val (fun _ => nth 0 g.taken b.val) ∧ h.taken = setNth g.taken b.val (fun _ => 0) ∧
      h.waited = setNth g.waited b.val (fun _ => false) ∧ h.queue = setNth g.queue b.val (fun _ => []) ∧
      (nth false g.waited b.val = false → h.held = g.held)))

/-- R327, R341, R342, R372: the responder of a transport. That GET_CAPABILITIES carries the version, and that a large request is told by
an operand of the row, is the model's reading (log entry 95). -/
def Obligations.SpdmConnection : Prop :=
  ∀ (t : Transport) (s : State), let x := s.spdm t
    (s.serves t = true →
      (exec (.getVersion t) s =
        .next ((s.modSpdm t fun x => { x with version := true, capabilities := false, negotiated := false }).respond t { words := [0x13] })) ∧
      (∀ v, exec (.getCapabilities t v) s = .next (if x.version && v == 0x13
        then (s.useFree.modSpdm t fun x => { x with capabilities := true }).respond t { words := [BitVec.ofNat 64 (Config.freeNat s.free)] }
        else s.refuseMsg t)) ∧
      (∀ offered, exec (.negotiateAlgorithms t offered) s = .next (if x.capabilities && offered
        then (s.modSpdm t fun x => { x with negotiated := true }).respond t {} else s.refuseMsg t)) ∧
      (exec (.getDigests t) s =
        .next (if x.negotiated then s.respondLarge t (digestBytes (Config.sha3 s.chain0)) else s.refuseMsg t)) ∧
      (∀ slot off len, exec (.getCertificate t slot off len) s = .next (if x.negotiated && slot == 0
        then s.respondLarge t ((s.chain0.drop off.toNat).take len.toNat) else s.refuseMsg t)) ∧
      (∀ nonce, exec (.challenge t nonce) s = .next (if !s.servesAll then s else if x.negotiated
        then s.useFree.respondLarge t (digestBytes (Config.sha3 s.chain0) ++ s.signature s.free) else s.refuseMsg t)) ∧
      (∀ nonce,
        (s.servesAll = false ∨ x.negotiated = false → ∀ i,
          exec (.getMeasurements t i nonce) s = .next (if s.servesAll then s.refuseMsg t else s)) ∧
        (s.servesAll = true → x.negotiated = true →
          (exec (.getMeasurements t (some 0) nonce) s =
            .next (s.useFree.respondLarge t (BitVec.ofNat 8 measureIndices.length :: s.signature s.free))) ∧
          (∀ i, i ≠ 0 → exec (.getMeasurements t (some i) nonce) s =
            .next (s.useFree.respondLarge t (1 :: s.measureBlock t i.toNat ++ s.signature s.free))) ∧
          (exec (.getMeasurements t none nonce) s = .next (s.useFree.respondLarge t
            (BitVec.ofNat 8 measureIndices.length :: measureIndices.flatMap (s.measureBlock t) ++ s.signature s.free))))) ∧
      (∀ h last chunk, s.chunkFits t 0 chunk = true → let u := (s.modSpdm t fun x =>
          { x with chunkHandle := h, chunkNext := if last then 0 else 1, request := chunk }).respond t {}
        exec (.chunkSend t h 0 last chunk none) s = .next u ∧
        ∀ q, exec (.chunkSend t h 0 last chunk (some q)) s = .next (if last then u.largeRequest t q else u)) ∧
      (∀ h n last chunk, n ≠ 0 →
        let u := (s.modSpdm t fun x => { x with chunkNext := if last then 0 else x.chunkNext + 1, request := x.request ++ chunk }).respond t {}
        (h = x.chunkHandle → n = x.chunkNext → s.chunkFits t n chunk = true → exec (.chunkSend t h n last chunk none) s = .next u ∧
          ∀ q, exec (.chunkSend t h n last chunk (some q)) s = .next (if last then u.largeRequest t q else u)) ∧
        (h ≠ x.chunkHandle ∨ n ≠ x.chunkNext → ∀ q, exec (.chunkSend t h n last chunk q) s =
          .next ((s.modSpdm t fun x => { x with chunkNext := 0, request := [] }).refuseMsg t))) ∧
      (∀ h n last chunk q, s.chunkFits t n chunk = false → exec (.chunkSend t h n last chunk q) s =
        .next ((s.modSpdm t fun x => { x with chunkNext := 0, request := [] }).refuseMsg t)) ∧
      (∀ h n, exec (.chunkGet t h n) s = .next (if vfMailbox t = false ∧ h = x.respHandle ∧ n = x.respNext ∧ x.response ≠ []
        then
          let k := Config.freeNat s.free % x.response.length + 1
          (s.useFree.modSpdm t fun x => { x with response := x.response.drop k, respNext := x.respNext + 1 }).respond t {
            bytes := x.response.take k }
        else s.refuseMsg t)) ∧
      (∀ i : Byte, let word (k : Nat) : W64 :=
          if i.toNat < k then BitVec.ofNat 64 (1 + 65536 * i.toNat + 16777216 * (if i.toNat + 1 < k then i.toNat + 1 else 0)) else 0xFFFF
        (t = .pfDoe → exec (.doeDiscovery none i) s = .next (s.respond t { words := [word 3] })) ∧
        (∀ p, t = .vfDoe p → exec (.doeDiscovery (some p) i) s = .next (s.respond t { words := [word 2] })))) ∧
    (s.serves t = false → ∀ i ∈ [Instr.getVersion t, .getCapabilities t 0x13, .negotiateAlgorithms t true, .getDigests t,
      .getCertificate t 0 0 0, .challenge t [], .getMeasurements t none [], .chunkSend t 0 0 false [] none, .chunkGet t 0 0],
      exec i s = .next s)

/-- R328, R329: sessions. -/
def Obligations.SpdmSessions : Prop :=
  ∀ (t : Transport) (s : State), s.serves t = true →
    (∀ cred hb r, (∀ p, t ≠ .vfDoe p) → (s.spdm t).negotiated = true → credRole cred = some r →
      (s.credValid cred = false → exec (.keyExchange t cred hb) s =
        .next ((s.modSec fun x => { x with authFails := satAdd x.authFails 1 }).respond t { cause := Cause.authFail })) ∧
      (s.credValid cred = true → r ≠ .maker → s.credKey 0x10 = [] → exec (.keyExchange t cred hb) s =
        .next ((s.modSec fun x => { x with authFails := satAdd x.authFails 1 }).respond t { cause := Cause.authFail })) ∧
      (s.credValid cred = true → (r ≠ .maker → s.credKey 0x10 ≠ []) →
        (r = .operator → s.servesAll = true ∧ (t = .sideband → bitOf s.flash.policy.toNat 2 = true)) → (∀ e ∈ s.sec.sessions, ∀ x, e.2 = some x → ¬ (x.cred = cred ∧ x.transport = t)) →
        ∀ i, i < 8 → s.session? i = none → (∀ j < i, s.session? j ≠ none) →
        Answers (.keyExchange t cred hb) s fun u =>
          u.session? i = some { cred := cred, role := r, transport := t, established := false, heartbeat := hb } ∧
          u.reply.words = [BitVec.ofNat 64 i] ∧ (∀ j, j ≠ i → u.session? j = s.session? j))) ∧
    (∀ sid x, s.session? sid = some x → x.transport = t → x.established = false →
      (s.credValid x.cred = true → exec (.finish sid true) s =
        .next ((s.modSpdmSession sid fun y => { y with established := true }).respond t {})) ∧
      exec (.finish sid false) s = .next ((s.endSession sid).authFails t)) ∧
    (∀ sid x, s.open? sid = some x → x.transport = t →
      exec (.heartbeat sid) s = .next (s.respond t {}) ∧
      exec (.keyUpdate sid) s = .next ((s.modSpdmSession sid fun y => { y with keyGen := y.keyGen + 1 }).respond t {}) ∧
      exec (.endSession sid) s = .next ((s.endSession sid).respond t {}) ∧
      (x.heartbeat ≠ 0 → exec (.heartbeatTimeout sid) s = .next (s.endSession sid)))

/-- R323 to R326, R346, R349, R350, R399: the messages of Table 10.2. -/
def Obligations.Ownership : Prop :=
  ∀ (s : State), s.journalOk = true → s.servesAll = true →
    (∀ key, s.serves .sideband = true → key.length = 1312 →
      (s.sec.lockedOut = false → s.credKey 0x10 = [] → Answers (.claim key true) s fun t =>
        t.credKey 0x10 = key ∧ t.flash.credsB = t.flash.creds ∧ t.reply = {} ∧ (∀ k, k ≠ 0x10 → t.credKey k = s.credKey k)) ∧
      (s.sec.lockedOut = false → s.credKey 0x10 = [] → Answers (.claim key false) s fun t =>
        t.flash.creds = s.flash.creds ∧ t.reply = { cause := Cause.credSlot }) ∧
      (s.sec.lockedOut = true ∨ s.credKey 0x10 ≠ [] → ∀ ok, Answers (.claim key ok) s fun t =>
        t.flash.creds = s.flash.creds ∧ t.reply = { cause := Cause.claimed })) ∧
    (∀ sid x, s.open? sid = some x → s.serves x.transport = true →
      let denied (i : Instr) : Prop := Answers i s fun t => t.reply = { cause := Cause.ownerDenied } ∧ t.flash.creds = s.flash.creds ∧
        t.flash.fusedSvn = s.flash.fusedSvn ∧ t.sec.debug = s.sec.debug ∧ t.flash.peerDigest = s.flash.peerDigest
      let rises := Answers (.svnCommit sid) s fun t =>
        t.reply = {} ∧ t.flash.fusedSvn.toNat = max s.flash.fusedSvn.toNat s.flash.running.svn.toNat
      (x.role = .installer ∨ (x.role = .maker ∧ x.transport = .sideband) →
        (s.allEmpty = true → Answers (.release (some sid)) s fun t =>
          t.flash.creds = [] ∧ t.flash.credsB = [] ∧ t.flash.policy = 0 ∧ t.sec.lockedOut = false ∧ t.reply = {}) ∧
        (s.allEmpty = false → Answers (.release (some sid)) s fun t =>
          t.flash.creds = s.flash.creds ∧ t.reply = { cause := Cause.partitionsLive })) ∧
      (x.role = .operator →
        denied (.release (some sid)) ∧ (∀ slot key ok, denied (.credInstall sid slot key ok)) ∧ (∀ slot, denied (.credRemove sid slot)) ∧
        (∀ digest, denied (.pairBind sid digest)) ∧ denied (.consent sid) ∧ (∀ nonce, denied (.debugUnlock sid nonce)) ∧
        (bitOf s.flash.policy.toNat 1 = true → rises) ∧ (bitOf s.flash.policy.toNat 1 = false → denied (.svnCommit sid))) ∧
      (x.role = .installer →
        (∀ slot key, (slot = 0x10 ∨ 0x20 ≤ slot.toNat ∧ slot.toNat ≤ 0x23) → key.length = 1312 →
          Answers (.credInstall sid slot key true) s fun t =>
            t.reply = {} ∧ t.flash.creds = tset s.flash.creds slot.toNat key) ∧
        (∀ slot, 0x20 ≤ slot.toNat → slot.toNat ≤ 0x23 → Answers (.credRemove sid slot) s fun t =>
          t.reply = {} ∧ t.flash.creds = tset s.flash.creds slot.toNat []) ∧
        rises ∧
        (bitOf s.flash.policy.toNat 3 = true → Answers (.consent sid) s fun t =>
          t.sec.consent = s.sec.consent ∧ t.reply = { cause := Cause.consentMissing }) ∧
        (bitOf s.flash.policy.toNat 3 = false → Answers (.consent sid) s fun t =>
          ∃ n, t.sec.consent = some n ∧ t.reply = { bytes := digestBytes n }) ∧
        (∀ digest, Answers (.pairBind sid digest) s fun t => t.flash.peerDigest = some digest ∧ t.reply = {}) ∧
        (∀ nonce, denied (.debugUnlock sid nonce))) ∧
      (x.role = .maker →
        (∀ nonce, s.sec.consent = some nonce → s.allEmpty = true → Answers (.debugUnlock sid nonce) s fun t =>
          t.sec.debug = true ∧ t.sec.consent = none ∧ t.reply = {}) ∧
        (∀ nonce, s.sec.consent ≠ some nonce → Answers (.debugUnlock sid nonce) s fun t =>
          t.sec.debug = s.sec.debug ∧ t.reply = { cause := Cause.consentMissing }) ∧
        (x.transport ≠ .sideband → denied (.release (some sid))) ∧
        (∀ slot key ok, denied (.credInstall sid slot key ok)) ∧ (∀ slot, denied (.credRemove sid slot)) ∧
        (∀ digest, denied (.pairBind sid digest)) ∧ denied (.consent sid) ∧ denied (.svnCommit sid)))

/-- R344 to R346: FW_STAGE and FW_ACTIVATE. -/
def Obligations.FirmwareUpdate : Prop :=
  ∀ (sid : Nat) (s : State) (x : SpdmSession), SessionUp s sid x .installer →
    (∀ piece svn digest check h, s.sec.staging = none → Answers (.fwStage sid true false piece svn digest check h) s fun t =>
      t.sec.staging = some (sid, piece) ∧ t.flash.inactive.valid = false ∧ t.flash.active = s.flash.active ∧ t.reply = {}) ∧
    (∀ got piece svn digest h, s.sec.staging = some (sid, got) →
      let bytes := got ++ piece
      let n := h.bodyLen.getD (bytes.length - imageSize 0)
      let form : Prop := h.magicOk = true ∧ n ≤ 65011712 ∧ bytes.length = imageSize n ∧ digest = Config.sha3 ((bytes.drop 4096).take n)
      let refused (cause : W16) : Prop := Answers (.fwStage sid false true piece svn digest .pass h) s fun t =>
        t.sec.staging = none ∧ t.flash.inactive.valid = false ∧ t.flash.active = s.flash.active ∧ t.reply = { cause := cause }
      (form → (h.slot1 = true ∨ s.fuse.revoked = false) → s.flash.fusedSvn.toNat ≤ svn.toNat →
        Answers (.fwStage sid false true piece svn digest .pass h) s fun t =>
          t.sec.staging = none ∧ t.flash.inactive = stagedImage bytes svn h ∧ t.flash.active = s.flash.active ∧ t.reply = {}) ∧
      (form → (h.slot1 = true ∨ s.fuse.revoked = false) → svn.toNat < s.flash.fusedSvn.toNat → refused Cause.fwRollback) ∧
      (¬ form → refused Cause.fwSignature) ∧
      (form → h.slot1 = false → s.fuse.revoked = true → refused Cause.fwSignature)) ∧
    (s.flash.inactive.valid = true → s.allEmpty = true → Answers (.fwActivate sid) s fun t => t.flash.activeB = !s.flash.activeB) ∧
    (s.allEmpty = false → Answers (.fwActivate sid) s fun t =>
      t.flash.activeB = s.flash.activeB ∧ t.reply = { cause := Cause.partitionsLive })

/-- R347, R373: the host's security manager. -/
def Obligations.TdispMessages : Prop :=
  ∀ (sid : Nat) (p : PartId) (s : State) (x : SpdmSession), s.servesAll = true → s.open? sid = some x → s.serves x.transport = true →
    let v := (s.part p.val).vf
    (x.role = .operator → x.transport = .pfDoe →
      (exec (.getTdispVersion sid p) s = .next (s.useFree.respond .pfDoe { words := [BitVec.ofNat 64 (Config.freeNat s.free)] })) ∧
      (exec (.getTdispCapabilities sid p) s = .next (s.useFree.respond .pfDoe { words := [BitVec.ofNat 64 (Config.freeNat s.free)] })) ∧
      (exec (.getDeviceInterfaceState sid p) s = .next (s.respond .pfDoe { words := [BitVec.ofNat 64 v.tdi.code] })) ∧
      (exec (.lockInterfaceRequest sid p) s = .next (
        if ((s.part p.val).ctl.state = .stopped ∨ (s.part p.val).ctl.state = .running) ∧ s.ideCovers p.val = true ∧ v.enabled = true ∧
            v.tdi = .unlocked then
          (s.useFree.modVf p.val fun v => { v with tdi := .locked }).respond .pfDoe { bytes := (List.range 32).map (Config.spdmBytes s.free) }
        else s.refuseMsg .pfDoe)) ∧
      (exec (.getDeviceInterfaceReport sid p) s = .next (if v.tdi = .locked ∨ v.tdi = .run
        then s.respond .pfDoe { words := [s.hst.vfBar0 + BitVec.ofNat 64 (262144 * p.val), 262144,
            s.hst.vfBar2 + BitVec.ofNat 64 (17179869184 * p.val), 17179869184], bytes := digestBytes (s.partDigest p.val) } else s.refuseMsg .pfDoe)) ∧
      (exec (.startInterfaceRequest sid p) s = .next (if v.tdi = .locked
        then (s.modVf p.val fun v => { v with tdi := .run }).respond .pfDoe {} else s.refuseMsg .pfDoe)) ∧
      (exec (.stopInterfaceRequest sid p) s = .next ((s.modVf p.val fun v => { v with tdi := .unlocked }).respond .pfDoe {})) ∧
      (exec (.ideKm sid none p) s = .next ((s.modHst fun h => { h with ideLink := true }).respond .pfDoe {})) ∧
      (∀ (k : Fin 32) (y : IdeAssoc),
        let x : IdeStream := { fn := if y.pf then none else some p, ranges := y.ranges, secure := true }
        exec (.ideKm sid (some k) p y) s =
          .next ((s.modHst fun h => { h with ideSel := tset h.ideSel k.val (some x) }).respond .pfDoe {}))) ∧
    ((x.role ≠ .operator ∨ x.transport ≠ .pfDoe) → ∀ i ∈ [Instr.getTdispVersion sid p, .getTdispCapabilities sid p,
        .lockInterfaceRequest sid p, .getDeviceInterfaceReport sid p, .getDeviceInterfaceState sid p, .startInterfaceRequest sid p,
        .stopInterfaceRequest sid p, .ideKm sid none p], exec i s = .next (s.refuseMsg x.transport))

/-- R333: REG_WRITE of one 32-bit register; that a read-clear register ignores its owner's write is the model's choice (log entry 89). -/
def Obligations.SessionWrites : Prop :=
  ∀ (sid : Nat) (s : State) (x : SpdmSession) (role : Role), SessionUp s sid x role →
    (∀ es, (es = [] ∨ 32 < es.length) → exec (.regWrite sid es) s = .next (s.refuseMsg x.transport)) ∧
    (∀ (off v : W32) (g : Page) (r : Reg) (i b : Nat), off.toNat % 4 = 0 → s.pfPage (off.toNat / 4096) = some g → g.vf = none →
      g.find (off.toNat % 4096) = some (r, i, b) → r.width ≠ 8 →
      let entry : RegEntry := { offset := off, width := 4, pad := 0, value := v.setWidth 64 }
      let e : WEnv := { who := x.writer, sid := some sid }
      let may : Prop := g.heldFrom s (some sid) = false ∧ g.owner &&& ownerBit role.code ≠ 0 ∧ r.owner &&& ownerBit role.code ≠ 0
      (r.absent i s = true ∨ r.acc = .ro ∨ (r.acc = .rc ∧ may) → exec (.regWrite sid [entry]) s = .next (s.respond x.transport { count := 1 })) ∧
      (r.absent i s = false → r.acc.ignores = false → may →
        r.ownEntry = false → (r.set e i v.toNat s).cause = 0 →
        let old := BitVec.ofNat 64 (r.get i s)
        let new := if r.acc = .wo then v.setWidth 64 else BitVec.ofNat 64 (r.get i (r.set e i v.toNat s).s)
        let j := s.journal {
          action := .write, who := x.writer, part := s.pagePart g, target := BitVec.ofNat 32 (4096 * g.num + off.toNat % 4096),
          old := regDigest old, new := regDigest new }
        exec (.regWrite sid [entry]) s = .next ((r.set e i v.toNat j).s.respond x.transport { count := 1 })) ∧
      (r.absent i s = false → r.acc ≠ .ro → ¬ may →
        Answers (.regWrite sid [entry]) s fun t =>
          t.reply = { cause := Cause.ownerDenied } ∧ t.parts = s.parts ∧ t.mem = s.mem ∧ t.pwr = s.pwr ∧ t.flash.creds = s.flash.creds) ∧
      exec (.registerWrite (.session sid) off 4 (v.setWidth 64)) s = exec (.regWrite sid [entry]) s)

/-- R6, R332, R496, R498: reads of one register. -/
def Obligations.RegisterReads : Prop :=
  (∀ (s : State) (off : W32) (g : Page) (r : Reg) (i : Nat), s.pfPage (off.toNat / 4096) = some g → off.toNat % 4 = 0 →
    g.find (off.toNat % 4096) = some (r, i, 0) → r.width = 4 →
    let u := r.touch i s
    let v := bitsOf (r.get i u) 0 32
    let t := if r.acc = .rc then r.clear i u else u
    (∀ sid x, s.servesAll = true → s.open? sid = some x → s.serves x.transport = true →
      exec (.regRead sid [off]) s = .next (t.respond x.transport { count := 1, words := [BitVec.ofNat 64 v] }) ∧
      exec (.registerReadClear (.session sid) off 4) s = exec (.regRead sid [off]) s ∧
      (∀ os, (os = [] ∨ 32 < os.length) → exec (.regRead sid os) s = .next (s.refuseMsg x.transport))) ∧
    (s.hostUp = true → exec (.registerReadClear .pfMmio off 4) s = .next (t.answer { words := [BitVec.ofNat 64 v] }) ∧
      ∀ o : W32, o.toNat / 4096 = off.toNat / 4096 → o.toNat % 4 ≠ 0 →
        exec (.registerReadClear .pfMmio o 4) s = .next (s.answer { words := [0] }))) ∧
  (∀ (p : PartId) (s : State) (off : W32) (g : Page) (r : Reg) (i : Nat), vfPage p.val (off.toNat / 4096) = some g →
    off.toNat % 4 = 0 → g.find (off.toNat % 4096) = some (r, i, 0) → r.width = 4 →
    let m := s.mmio p.val
    m.vfReads p.val (off.toNat / 4096) = true →
    let u := r.touch i m
    exec (.registerReadClear (.vfMmio p) off 4) s = .next ((if r.acc = .rc then r.clear i u else u).answer {
      words := [BitVec.ofNat 64 (bitsOf (r.get i u) 0 32)] }))

/-- R309, R330, R494: MMIO writes. -/
def Obligations.HostMmioWrites : Prop :=
  ∀ (s : State) (off : W32) (width : Byte) (v : W64),
    (∀ g, s.hostUp = true → s.pfPage (off.toNat / 4096) = some g → off.toNat / 4096 ≠ 0xFE → off.toNat / 4096 ≠ 0xFF →
      exec (.registerWrite .pfMmio off width v) s =
        .next (s.rejectPf off.toNat errNoSession Cause.noSession Writer.none (s.pagePart g) (BitVec.ofNat 64 v.toNat)
          (g.held s (off.toNat % 4096)))) ∧
    (∀ g sid n, s.servesAll = true → s.open? sid = none → s.pfPage (off.toNat / 4096) = some g →
      exec (.regWrite sid [{ offset := off, width := n, pad := 0, value := v }]) s =
        .next (s.rejectPf off.toNat errNoSession Cause.noSession Writer.none (s.pagePart g) (BitVec.ofNat 64 v.toNat)
          (g.held s (off.toNat % 4096)))) ∧
    (∀ p : PartId, s.vfRw p.val = false → s.behind p.val = false →
      exec (.registerWrite (.vfMmio p) off width v) s = .next (s.mmio p.val)) ∧
    (∀ p : PartId, off.toNat / 4096 = 0x3E → s.behind p.val = false → Answers (.registerWrite (.vfMmio p) off width v) s fun t =>
      t.pwr = s.pwr ∧ t.sec = s.sec ∧ t.flash = s.flash ∧ t.mem = s.mem ∧ ∀ q, q ≠ p.val → t.part q = s.part q)

/-- R477, R485, R486, R495: locks and event rings. -/
def Obligations.LocksAndEvents : Prop :=
  (∀ (sid : Nat) (s : State) (x : SpdmSession) (role : Role) (page : W32) (g : Page), SessionUp s sid x role →
    s.pfPage (page.toNat / 4096) = some g → g.vf = none → g.num = page.toNat / 4096 → g.owner &&& ownerBit role.code ≠ 0 →
    g.lockable = true → page.toNat / 4096 < 2 ^ 19 →
    (s.pfHdr g.num).lock = none →
    (Answers (.lock sid page true) s fun t =>
      (t.pfHdr g.num).lock = some (sid, role.code, x.cred) ∧ t.reply = { count := 1 }) ∧
    (∀ l, l.1 ≠ sid → ∀ h, s.hdr = h → ∀ u : State, u = { s with hdr := tmod {} h g.num fun y => { y with lock := some l } } →
      Answers (.lock sid page true) u fun t => t.reply = { cause := Cause.ownerDenied } ∧ (t.pfHdr g.num).lock = some l)) ∧
  (∀ (p : PartId) (s : State), s.vfOpen p.val = true → s.behind p.val = false → let u := s.mmio p.val
    ((u.part p.val).evt.state = .stopped → u.evtConfigOk p.val = true →
      exec (.evtStart p) s = .next ((u.modEvt p.val fun r => { r with state := .running }).flushPart p.val 64)) ∧
    exec (.evtStop p) s = .next (u.modEvt p.val fun r => { r with state := .stopped }) ∧
    (∀ sid v, exec (.evtHead (some p) sid v .ok) s = .next ((u.modEvt p.val fun r => { r with head := v }).flushPart p.val 64))) ∧
  (∀ (sid : Nat) (s : State) (x : SpdmSession), SessionUp s sid x .operator → PageFree s 4 sid →
    (∀ v, Answers (.evtHead none sid v .ok) s fun t => t.ev.pf.head = v ∧ t.reply = { count := 1 }) ∧
    (∀ v, s.ev.pfEnable = false → bitOf v.toNat 31 = true → 6 ≤ bitsOf v.toNat 0 5 → bitsOf v.toNat 0 5 ≤ 16 → s.ev.pf.base.toNat % 4096 = 0 →
      Answers (.pevEnable sid v) s fun t => t.ev.pf.state = .running ∧ t.ev.pfEnable = true ∧ t.reply = { count := 1 }) ∧
    (∀ v, s.ev.pfEnable = true → bitOf v.toNat 31 = false → s.ev.pf.cfg.toNat = bitsOf v.toNat 0 5 + 1024 * bitsOf v.toNat 10 2 →
      Answers (.pevEnable sid v) s fun t => t.ev.pf.state = .stopped ∧ t.ev.pfEnable = false ∧ t.reply = { count := 1 }))

/-- R263, R367, R370, R383, R384, R462: registers written in a session. -/
def Obligations.OperatorRegisters : Prop :=
  ∀ (sid : Nat) (s : State) (x : SpdmSession),
    (SessionUp s sid x .operator →
      (PageFree s 0x2052 sid → ∀ v : W64, 2 ≤ bitsOf v.toNat 62 2 → let r := (Home.ofCode (bitsOf v.toNat 62 2), v.setWidth 32)
        (r ∈ s.flash.retired → ∀ ok, Answers (.retPage sid v ok) s fun t =>
          t.flash.retired = s.flash.retired ∧ t.mem.retStatus = 2 ∧ t.reply = { count := 1 }) ∧
        (r ∉ s.flash.retired → s.flash.retired.length < 4096 → Answers (.retPage sid v true) s fun t =>
          t.flash.retired = s.flash.retired ++ [r] ∧ t.mem.retStatus = 2 ∧ t.reply = { count := 1 })) ∧
      (∀ (p : PartId) (n : Fin 64) (v : W32), PageFree s (partPage p.val 4) sid → s.fuse.grade.ports ≠ 0 → s.tdiHeld p.val = false →
        576 ≤ bitsOf v.toNat 0 14 → bitsOf v.toNat 0 14 ≤ 9194 →
        let y : VPort := { s.vport p.val n.val with
          enable := true, pcp := BitVec.ofNat 3 (bitsOf v.toNat 28 3), vid := BitVec.ofNat 12 (bitsOf v.toNat 16 12), mtu := BitVec.ofNat 14 v.toNat }
        ((s.vport p.val n.val).enable = false → s.vportCount (vportPort n.val) < 128 →
          s.vportConflict (vportPort n.val) p.val n.val y = false →
          Answers (.vportEnable sid p n v) s fun t => t.vport p.val n.val = y ∧ t.reply = { count := 1 }) ∧
        ((s.vport p.val n.val).enable = true → y = s.vport p.val n.val → Answers (.vportDisable sid p n v) s fun t =>
          t.vport p.val n.val = { y with enable := false } ∧ (∀ b ∈ (t.part p.val).net.binds, b.vport ≠ n.val) ∧ t.reply = { count := 1 })) ∧
      (∀ (q : BitVec 7) (force : Bool), PageFree s 1 sid → q.toNat < s.fuse.grade.quads → s.quadOwner q.toNat = none →
        (s.quad q.toNat).pending = false → (s.quad q.toNat).state ≠ .selftest →
        Answers (.pwrStReq sid q force) s fun t => (t.quad q.toNat).state = .selftest ∧ t.reply = { count := 1 }) ∧
      (∀ (k : Fin 128) (v : W32), PageFree s 4 sid →
        (∀ j < 4, bitsOf v.toNat (8 * j) 8 = 0xFF ∨ bitsOf v.toNat (8 * j) 8 < 32 ∧
          (s.part (bitsOf v.toNat (8 * j) 8)).ctl.state ≠ .empty ∧ 4 * k.val + j < s.hst.hdmGib.toNat) →
        Answers (.hstHdmAttr sid k v) s fun t =>
          (∀ j < 4, t.sliceOwner (4 * k.val + j) = bitsOf v.toNat (8 * j) 8) ∧ t.reply = { count := 1 })) ∧
    (SessionUp s sid x .installer → PageFree s 4 sid → ∀ v : W32, v.toNat ≤ 512 → s.hst.committed = false → s.pcieOnly = false →
      (∀ g p, 512 ≤ g + v.toNat → p < 32 → g ∉ (s.part p).ctl.lmap) →
      Answers (.hstHdmGib sid v) s fun t => t.hst.hdmGib.toNat = v.toNat ∧ t.reply = { count := 1 })

/-- R358, R362, R363: the aperture and ATS. -/
def Obligations.ApertureAccesses : Prop :=
  ∀ (p : PartId) (s : State),
    (∀ pages, exec (.atsInvalidation p pages) s =
      .next (s.modVf p.val fun v => { v with atc := v.atc.filter fun a => !pages.contains a })) ∧
    (∀ (off : BitVec 34) (len : Nat), s.vfRw p.val = true → let u := s.countHost p.val len true
      (u.aperture p.val off.toNat len false = .disabled →
        exec (.apertureRead p off len .clean) s = .next (u.answer { bytes := List.replicate len 0 })) ∧
      (∀ w, u.aperture p.val off.toNat len false = .range w →
        exec (.apertureRead p off len .clean) s = .next ((u.apertureRange p.val w).answer { bytes := List.replicate len 0 })) ∧
      (∀ r, u.aperture p.val off.toNat len false = .at r → u.stoppedO p.val r len = false → (u.peekO p.val r len).poison = none →
        exec (.apertureRead p off len .clean) s = .next ((u.countO p.val r len).answer { bytes := (u.peekO p.val r len).bytes }))) ∧
    (∀ (off : BitVec 34) (bs : List Byte), s.vfOpen p.val = true → let u := s.countHost p.val bs.length true
      exec (.apertureWrite p off bs true .clean) s = .next (u.aerVf p.val) ∧
      (∀ r, u.aperture p.val off.toNat bs.length true = .at r →
        ((u.object p.val r.handle).state = .present → u.behind p.val = false → u.stoppedO p.val r bs.length = false →
          exec (.apertureWrite p off bs false .clean) s = .next (u.pokeO p.val r bs).1) ∧
        ((u.object p.val r.handle).state = .moving → (u.part p.val).vf.later = [] → (∀ h ∈ (u.part p.val).vf.aprHeld, h = r.handle) → Answers (.apertureWrite p off bs false .clean) s fun t =>
          (t.object p.val r.handle).held = (s.object p.val r.handle).held ++ [(r.off, bs)] ∧ t.mem = s.mem ∧
          r.handle ∈ (t.part p.val).vf.aprHeld)))

/-- R355, R360, R374, R375: FLR. -/
def Obligations.FunctionReset : Prop :=
  (∀ (p : PartId) (n : Fin 16) (s : State), s.fetches p.val = true → (s.ring p.val n.val).inDevice = false → s.ringReady p.val n.val = true →
    exec (.hostReadTimeout p n) s =
      .next ((s.aerVf p.val).ringError p.val n.val Cause.ringFetchFault Cause.hostCompletion (s.ring p.val n.val).lastWm)) ∧
  (∀ (p : PartId) (s : State),
    ((s.part p.val).vf.enabled = true → (s.part p.val).vf.flr = 0 → (s.part p.val).ctl.state = .running → Answers (.vfFlr p) s fun t =>
      (t.part p.val).vf.flr = 2 ∧ t.vfReach p.val = false ∧ (∀ n, (t.ring p.val n).head = (t.ring p.val n).tail ∨ (t.ring p.val n) = {})) ∧
    ((s.part p.val).vf.flr = 2 → (s.part p.val).cmd.cmds ≠ [] → Answers (.flrStep3Timeout p) s fun t =>
      (t.part p.val).cmd.cmds = [] ∧ (t.part p.val).cmd.queues = [] ∧ (t.part p.val).vf.flr = 2) ∧
    ((s.part p.val).vf.flr = 2 → (s.part p.val).cmd.cmds = [] → (s.part p.val).vf.heldCmds = [] → ∀ x, Answers (.flrDone p x) s fun t =>
      (t.part p.val).vf.flr = 0 ∧ (t.part p.val).vf.tdi = .unlocked ∧ t.hst.flrCount = satAdd s.hst.flrCount 1 ∧
      (∀ k ∈ (s.quadsOf p.val).flatMap s.quadClusters, ∀ a, a < sramBytes → cellGet t.mem.sram (sramBytes * k + a) = 0) ∧
      (∀ g ∈ (s.part p.val).ctl.hgran, ∀ a, a < hamperGranule → cellGet t.mem.hamper (hamperGranule * g + a) = 0))) ∧
  (∀ s : State, Answers (.vfEnableClear none) s fun t => ∀ p : PartId, (t.part p.val).vf.enabled = false)

/-- R367 to R371: exposed memory. -/
def Obligations.ExposedMemory : Prop :=
  ∀ (s : State),
    (∀ bi base, s.hst.committed = false → s.pcieOnly = false → s.hst.hdmGib ≠ 0 →
      exec (.hdmDecoderCommit bi base) s =
        .next (s.modHst fun h => { h with bi := bi, decBase := base, committed := bi, notCommitted := !bi })) ∧
    (∀ line off w cached f, (s.hst.committed = false ∨ sliceLines * s.hst.hdmGib.toNat ≤ line) →
      exec (.hdmAccess line off w cached f) s = .fault .noSuchLine) ∧
    (∀ line (off : Fin 64) cached, s.hst.committed = true → line < sliceLines * s.hst.hdmGib.toNat →
      let a := gib * (512 - s.hst.hdmGib.toNat) + 64 * line
      let key := if s.hdmOwner line < 32 then (s.part (s.hdmOwner line)).ctl.key else s.mem.hostKey
      (s.die (dieOf (256 + lpddrChannel a))).cryptoFailed = false → s.mem.poisonAt .lpddr (a / 64) = none →
      (Answers (.hdmAccess line off none cached .clean) s fun t =>
        t.reply = { bytes := (List.range 64).map fun i => s.mem.byteAt key .lpddr (a + i) } ∧ t.mem.lpddr = s.mem.lpddr ∧
        (cached = true → line ∈ t.hst.snoop)) ∧
      (∀ bs, Answers (.hdmAccess line off (some bs) cached .clean) s fun t =>
        ∀ i, i < (bs.take (64 - off.val)).length → t.mem.byteAt key .lpddr (a + off.val + i) = nth 0 bs i))

/-- R354, R373, R377, R380, R461: the link. -/
def Obligations.LinkAndPort : Prop :=
  ∀ (s : State), s.pins.pwrGood = true →
    (∀ w r f c, s.pins.perstN = true → s.pins.resetN = true → (w = 4 ∨ w = 8 ∨ w = 16) → s.rateOk r.toNat f.toNat = true →
      Answers (.linkTrained w r f c) s fun t =>
        t.hst.link = .up ∧ t.hst.width = w ∧ t.hst.rate = r ∧ t.hst.flit = f ∧
        (s.hostUp = false → ∀ p : PartId, (t.part p.val).vf.enabled = decide (p.val < c.numVfs.val))) ∧
    (s.hst.link ≠ .down → Answers .linkDown s fun t => t.hst.link = .down ∧ t.hst.width = 0 ∧ t.hst.rate = 0) ∧
    (∀ k, Answers (.hostPortReset k) s fun t =>
      t.hst.link = (if k = .perst ∨ k = .linkDisable ∨ s.pins.perstN = false then .down else .training) ∧
      (∀ p : PartId, (t.part p.val).vf.enabled = false) ∧ t.hst.committed = false ∧ t.hst.snoop = [] ∧
      t.hst.ideLink = false ∧ t.hst.ideSel = [] ∧ (∀ i x, t.session? i = some x → x.transport ≠ .pfDoe) ∧
      (k = .perst → t.pins.perstN = false)) ∧
    (s.hst.ideLink = true → Answers (.ideFault none) s fun t =>
      t.hst.ideLink = false ∧ ∀ p : PartId, (t.part p.val).vf.tdi = .error) ∧
    (∀ (k : Fin 32) (p : PartId) (y : IdeStream), tget none s.hst.ideSel k.val = some y → y.secure = true → y.fn = some p →
      Answers (.ideFault (some k)) s fun t =>
        tget none t.hst.ideSel k.val = some { y with secure := false } ∧ (t.part p.val).vf.tdi = .error)

/-- R386 to R392: the NET commands. -/
def Obligations.NetCommands : Prop :=
  ∀ (p : PartId) (id : Nat) (s : State) (c : Cmd), let v := s.vport p.val c.vp
    (Started s p.val id 4 0x10 c → c.id = id → s.stoppedO p.val (c.ref 48) (c.fld 44 4) = false → (s.port c.netPort).link = .up →
      s.vportOk p.val c.vp c.netPort = true →
      (bitOf (c.fld 35 1) 0 = true → let rd := s.peekO p.val (c.ref 48) (c.fld 44 4); let u := s.countO p.val (c.ref 48) (c.fld 44 4)
        rd.fault = none → exec (.send p id []) s = .next (if v.mayRaw rd.bytes
          then (u.useFree.transmit p.val (c.txFrame (v.frame u.free (slice rd.bytes 0 6) (beAt rd.bytes 12) (rd.bytes.drop 14)))).done p.val id 1
          else (u.countVport p.val c.vp 3).finish p.val id .done Cause.spoof)) ∧
      (bitOf (c.fld 35 1) 0 = false → let rd := s.peekO p.val (c.ref 56) 32; let u := s.countO p.val (c.ref 56) 32
        let six := bitOf (c.fld 35 1) 1; let src := v.source six (c.fld 37 1)
        rd.fault = none → peerOk rd.bytes six = true → noAddr src = false → exec (.send p id []) s =
          .next (u.sendFrom p.val c v (peerOf rd.bytes six (bitsOf (c.fld 35 1) 2 6) (c.fld 38 2) (c.fld 40 2) src)
            (ceilDiv (c.fld 44 4) (c.fld 42 2)) 0 0))) ∧
    (Started s p.val id 4 0x11 c → s.vportOk p.val c.vp c.netPort = true → (∀ r ∈ (s.part p.val).net.recvs, r.id ≠ id) →
      exec (.recvPost p id) s = .next (s.modNet p.val fun y =>
        { y with recvs := y.recvs ++ [{ id := id, order := y.recvClock }], recvClock := y.recvClock + 1 })) ∧
    (∀ r, (s.part p.val).net.recvs.find? (·.id == id) = some r → r.filled ≠ 0 → exec (.recvIdle p id) s =
      .next ((s.modNet p.val fun y => { y with recvs := y.recvs.filter (·.id != r.id) }).finishWrites p.val r.id r.refused r.filled)) ∧
    (Started s p.val id 4 0x12 c → let u := c.rtpSession.1; let n := c.rtpSession.2; let x := s.session p.val u n
      (c.fld 35 1 = 0 → s.binding p.val u n = none → x.state = .open' → x.encode = true → x.ctx = c.ctx → x.codec ≠ 2 →
        s.vportOk p.val c.vp c.netPort = true → let rd := s.peekO p.val (c.ref 56) 32
        rd.fault = none → peerOk rd.bytes (bitOf (c.fld 39 1) 0) = true → Answers (.rtpBind p id []) s fun t =>
          (t.cmd? p.val id).map (fun d => (d.phase, d.status, d.cause)) = some (.ended, .done, 0#16) ∧
          (t.binding p.val u n).map (fun b => (b.vport, b.pt.toNat, b.ssrc, b.dstMac)) =
            some (c.vp, c.fld 38 1 % 256, word32 c.desc 40, slice rd.bytes 0 6)) ∧
      (c.fld 35 1 = 1 → s.binding p.val u n ≠ none → Answers (.rtpUnbind p id) s fun t =>
        (t.cmd? p.val id).map (fun d => (d.phase, d.status, d.cause)) = some (.ended, .done, 0#16) ∧ t.binding p.val u n = none))

/-- R382, R385, R397: the ports. -/
def Obligations.NetPorts : Prop :=
  ∀ (n : Fin 2) (s : State), n.val < s.fuse.grade.ports →
    ((s.port n.val).link = .up → ∀ f,
      exec (.frameReceive n f .badFcs []) s = .next (s.modPort n.val fun y => { y with fcs := satAdd y.fcs 1 }) ∧
      exec (.frameReceive n f .fecUncorrectable []) s =
        .next (s.modPort n.val fun y => { y with fcs := satAdd y.fcs 1, fecUncorr := satAdd y.fecUncorr 1 }) ∧
      ((viewFrame f).etherType ≠ 0x8808 →
        ((∀ p v, s.live p = true → p < 32 → vportPort v = n.val → v < 64 → (s.vport p v).takes (viewFrame f) = false) →
          exec (.frameReceive n f .good []) s = .next (s.modPort n.val fun y => { y with noMatch := satAdd y.noMatch 1 })) ∧
        (∀ p v, (s.vportsOn n.val).find? (fun e => (s.vport e.1 e.2).takes (viewFrame f)) = some (p, v) →
          exec (.frameReceive n f .good []) s = .next (s.deliver p v n.val f (viewFrame f) [])))) ∧
    (∀ l, (s.port n.val).link ≠ l → (l = .down ∨ (s.port n.val).enable = true ∧ (s.port n.val).failed = false) →
      Answers (.netLinkChange n l) s fun t => (t.port n.val).link = l ∧ (t.port n.val).enable = (s.port n.val).enable) ∧
    (Answers (.netFault n) s fun t => (t.port n.val).link = .down ∧ (t.port n.val).failed = true)

/-- R399, R401 to R404: the pair link, with `e` its registers and buffers before the row. What a KEYX on a link in RETRY does to its buffer and
numbers, and what a link that stops carrying flits loses, is the model's reading (log entry 99). -/
def Obligations.PairLink : Prop :=
  ∀ (s : State), let e := s.eci
    (e.carries = true →
      (∀ f : Flit, f.crcOk = true → f.tagOk = true → (f.kind = 1 ∨ f.kind = 3) → f.seq = e.rxNext →
        let kept := e.retry.filter fun g => decide (0x8000 ≤ (f.ack - g.seq).toNat)
        Answers (.flitReceive f) s fun t =>
          t.eci.rxNext = e.rxNext + 1 ∧ t.eci.missCount = 0 ∧ t.eci.naked = false ∧ t.parts = s.parts ∧
          t.eci.link = (if kept.any (·.tries != 0) then .retry else .up) ∧ t.eci.retry.take kept.length = kept ∧
          (e.stream = [] → t.out = s.out ∧ t.eci.retry = kept)) ∧
      (∀ f : Flit, f.crcOk = true → f.tagOk = true → f.kind ≠ 1 → f.kind ≠ 3 → Answers (.flitReceive f) s fun t =>
          t.eci.rxNext = e.rxNext ∧ t.eci.missCount = e.missCount ∧ t.parts = s.parts ∧
          (e.stream = [] → t.out = s.out ∧ t.eci.retry = e.retry.filter fun g => decide (0x8000 ≤ (f.ack - g.seq).toNat))) ∧
      (∀ f : Flit, (f.crcOk && f.tagOk) = false →
        exec (.flitReceive f) s =
          .next ((s.modEci fun e => { e with crcErr := satAdd e.crcErr 1, naked := true, link := .retry }).sendFlit 2 e.rxNext [])) ∧
      (∀ f : Flit, f.crcOk = true → f.tagOk = true → (f.kind = 1 ∨ f.kind = 3) → f.seq ≠ e.rxNext →
        exec (.flitReceive f) s = .next ((s.modEci fun e => { e with naked := true, link := .retry }).sendFlit 2 e.rxNext [])) ∧
      (∀ n, let left := e.retry.filter fun f => decide (0x8000 ≤ (n - 1 - f.seq).toNat)
        (left = [] → Answers (.nak n) s fun t => t.eci.rxNext = e.rxNext ∧ t.parts = s.parts ∧ t.eci.replays = e.replays ∧
          (e.stream = [] → t.out = s.out ∧ t.eci.retry = [])) ∧
        (left ≠ [] → (∀ f ∈ left, f.tries < 8) → Answers (.nak n) s fun t =>
          t.eci.link = .retry ∧ t.eci.replays = satAdd e.replays 1 ∧ t.parts = s.parts ∧
          (e.stream = [] → t.out = (left.map fun f => Out.flit f.bytes).reverse ++ s.out ∧
            t.eci.retry = left.map fun f => { f with tries := f.tries + 1 })) ∧
        ((∃ f ∈ left, 8 ≤ f.tries) → e.retrained = false →
          exec (.nak n) s = .next (s.modEci fun e => { e with retry := left, link := .retry })) ∧
        ((∃ f ∈ left, 8 ≤ f.tries) → e.retrained = true → Answers (.nak n) s fun t =>
          t.eci.link = .failed ∧ t.eci.peerAlive = false ∧ t.eci.retry = [])) ∧
      (let body := (List.range 228).map (Config.mirrorStates ((List.range 32).map fun p => (s.part p).mir.state.code));
        (e.retry.length < 1024 → Answers .keepalive s fun t =>
          t.eci.txSeq = e.txSeq + 1 ∧ t.eci.nonce = e.nonce + 1 ∧ t.out = .flit (s.sealedFlit 3 e.txSeq body) :: s.out ∧
          t.eci.retry = e.retry ++ [{ seq := e.txSeq, bytes := s.sealedFlit 3 e.txSeq body }] ∧ t.parts = s.parts) ∧
        (1024 ≤ e.retry.length → exec .keepalive s = .next s)) ∧
      exec .pairLinkFail s = .next ((s.modEci fun e => e.down .failed).peerLost (some Cause.pairLinkFail)) ∧
      (Answers .pairLinkFail s fun t => t.eci.link = .failed ∧ t.eci.retry = [] ∧ t.eci.peerAlive = false) ∧
      (2 ^ 40 ≤ e.nonce.toNat → ∀ peer : Option PeerKey,
        (peer.any s.peerBad = false →
          exec (.keyRenewal peer) s = .next (s.sendKeyx.modEci fun e => { e with keyNo := e.keyNo + 1, nonce := 0 })) ∧
        (peer.any s.peerBad = true → Answers (.keyRenewal peer) s fun t => t.eci.link = .auth ∧ t.eci.keyNo = e.keyNo ∧ t.eci.retry = []))) ∧
    (e.carries = false → (∀ f, exec (.flitReceive f) s = .next s) ∧ (∀ n, exec (.nak n) s = .next s) ∧ exec .keepalive s = .next s ∧
      exec .pairLinkFail s = .next s ∧ ∀ peer, exec (.keyRenewal peer) s = .next s) ∧
    (e.nonce.toNat < 2 ^ 40 → ∀ peer, exec (.keyRenewal peer) s = .next s) ∧
    (exec .keepaliveMiss s = .next (
      let u := s.modEci fun e => { e with missCount := satAdd e.missCount 1 }
      if e.link = .up ∨ e.peerAlive = true ∧ (e.link = .training ∨ e.link = .auth) then
        if e.peerAlive = true ∧ e.kaMiss.toNat ≤ (satAdd e.missCount 1).toNat then u.peerLost none else u
      else s)) ∧
    (∀ side digest ok, let good : Prop := side ≠ s.sideB ∧ s.flash.peerDigest = some digest ∧ ok = true
      (s.fitted = false ∨ s.pwr.stage ≠ .ready ∨ e.link = .up ∨ e.link = .retry ∧ e.retrained = true →
        exec (.keyx side digest ok) s = .next s) ∧
      (s.fitted = true → s.pwr.stage = .ready → e.link ≠ .up → (e.link = .retry → e.retrained = false) →
        (side = s.sideB → Answers (.keyx side digest ok) s fun t => t.eci.link = .training ∧ t.eci.keyNo = e.keyNo) ∧
        (side ≠ s.sideB → ¬ good → Answers (.keyx side digest ok) s fun t => t.eci.link = .auth ∧ t.eci.keyNo = e.keyNo) ∧
        (good → e.link ≠ .retry → Answers (.keyx side digest ok) s fun t =>
          t.eci.link = .up ∧ t.eci.keyNo = e.keyNo + 1 ∧ t.eci.rxNext = 0 ∧
          (e.stream = [] → t.eci.txSeq = 0 ∧ t.eci.nonce = 0 ∧ t.eci.retry = [])) ∧
        (good → e.link = .retry → e.busy = true → Answers (.keyx side digest ok) s fun t =>
          t.eci.link = .retry ∧ t.eci.retrained = true ∧ t.eci.keyNo = e.keyNo + 1 ∧ t.eci.rxNext = e.rxNext ∧
          (e.stream = [] → t.eci.txSeq = e.txSeq ∧ t.eci.retry = e.retry))))

/-- R406, R409 to R411, R413: Table 13.3. -/
def Obligations.MirrorStates : Prop :=
  ∀ (p : PartId) (s : State), let m := (s.part p.val).mir
    (∀ (sid : Nat) (x : SpdmSession), SessionUp s sid x .operator → PageFree s 0x3010 sid → s.fitted = true → s.tdiHeld p.val = false →
      let goes (i : Instr) (st : MirState) : Prop := Answers i s fun t => (t.part p.val).mir.state = st ∧ t.reply = { count := 1 }
      (∀ v : W32, (s.part p.val).ctl.state = .stopped → m.enable = false → 0 < bitsOf v.toNat 24 4 → bitOf v.toNat 30 = s.sideB →
        (s.sideB = false → bitsOf v.toNat 0 16 = 0 → goes (.mirrorEnable sid p v) .outOfSync) ∧
        (s.sideB = true → 64 ≤ bitsOf v.toNat 0 16 → bitsOf v.toNat 0 16 ≤ 16384 → s.inStage p.val (bitsOf v.toNat 0 16) = false →
          goes (.mirrorEnable sid p v) .standbyEmpty)) ∧
      (∀ twin, m.state = .outOfSync → (s.part p.val).ctl.state = .stopped → s.shapeOk p.val twin = true → goes (.sync sid p twin) .syncing) ∧
      (m.state = .standby → goes (.promote sid p) .promoted) ∧
      (m.state = .isolated → goes (.solo sid p) .none) ∧
      (m.state = .promoted → goes (.unbind sid p) .none) ∧
      (m.state ≠ .standby → Answers (.promote sid p) s fun t =>
        (t.part p.val).mir.state = m.state ∧ t.reply = { cause := Cause.pairState } ∧ t.eci.cmdResult = Cause.pairState)) ∧
    (∀ wm, m.enable = true → m.standby = false → (m.state = .syncing ∨ m.state = .mirrored) →
      ((∃ d ∈ m.sent, d.waymark = wm) → Answers (.deltaAck p wm) s fun t =>
        (t.part p.val).mir.state = .mirrored ∧ (t.part p.val).mir.acked = wm ∧
        (t.part p.val).mir.sent = (m.sent.dropWhile (·.waymark != wm)).drop 1) ∧
      (∀ cause, Answers (.refuse p cause) s fun t =>
        (t.part p.val).mir.state = .outOfSync ∧ (t.part p.val).mir.sent = [] ∧ (t.part p.val).mir.lastCause = cause)) ∧
    (m.enable = true → m.standby = false → m.state = .isolated → s.eci.link = .up → Answers (.peerBack p .standby) s fun t =>
      (t.part p.val).mir.state = .syncing ∧ t.eci.peerAlive = true) ∧
    (m.enable = true → m.standby = true → (m.state = .standbyEmpty ∨ m.state = .standby) → ∀ wm bytes items,
      (∀ full ok, 1048576 * m.stageMib.toNat < bytes → exec (.deltaEnd p wm full bytes items ok) s =
        .next ((s.sendMirror (mirMessage 6 m.twin.toNat wm (leBytes 2 Cause.pairOverflow.toNat))).modMir p.val fun m => { m with
          lastCause := Cause.pairOverflow, bytes := wrapAdd m.bytes (bytes + 18) })) ∧
      (bytes ≤ 1048576 * m.stageMib.toNat →
        (∀ full, Answers (.deltaEnd p wm full bytes items true) s fun t =>
          (t.part p.val).mir.state = (if full then .standby else m.state) ∧ (t.part p.val).mir.acked = wm ∧
          (s.eci.carries = true → s.eci.room = true → s.eci.stream = [] →
            t.out = .flit ((s.stage p.val bytes).sealedFlit 1 s.eci.txSeq (mirMessage 5 m.twin.toNat wm [])) :: s.out)) ∧
        (∀ full, exec (.deltaEnd p wm full bytes items false) s =
          .next ((s.stage p.val bytes).modMir p.val fun m => { m with bytes := wrapAdd m.bytes bytes })))) ∧
    (∀ (id : Nat) (c d : Cmd), let u := s.stepCommit p.val id
      s.cmd? p.val id = some c → c.phase = .started → u.cmd? p.val id = some d → d.phase = .ended →
      d.cause = 0 ∨ d.cause = Cause.poisonWrite →
      (m.enable = true → m.standby = false → m.state = .isolated → exec (.stepCommit p id []) s = .next s) ∧
      (m.enable = true → m.standby = false → m.state = .mirrored ∨ m.state = .syncing →
        (m.commitAck = false → m.asyncDepth.toNat ≤ m.sent.length → exec (.stepCommit p id []) s = .next s) ∧
        (m.commitAck = false → m.sent.length < m.asyncDepth.toNat →
          exec (.stepCommit p id []) s = .next (u.sendDelta p.val c.wm (u.part p.val).mir.due)) ∧
        (m.commitAck = true → exec (.stepCommit p id []) s =
          .next ((u.sendDelta p.val c.wm (u.part p.val).mir.due).modMir p.val fun m => { m with heldSteps := addTo m.heldSteps id }))))

/-- R344, R455, R456, R461: Table 15.4 and what the kinds of reset keep. -/
def Obligations.StagesOfTheModule : Prop :=
  ∀ (s : State),
    (s.pins.pwrEn = false → s.pwr.stage = .off →
      (Answers (.pwrEnRise true) s fun t => t.pwr.stage = .powering ∧ t.pins.pwrEn = true ∧ t.flash = s.flash) ∧
      Answers (.pwrEnRise false) s fun t => t.pwr.stage = .off ∧ t.pins.pwrEn = true) ∧
    (s.pwr.stage = .off → s.pins.pwrEn = true → Answers .j1BackInWindow s fun t => t.pwr.stage = .powering ∧ t.pins.j1Ok = true) ∧
    (s.pwr.stage = .powering → ∀ straps ok, Answers (.powerGood straps ok) s fun t =>
      t.pwr.stage = .boot ∧ t.pwr.resetKind = 0 ∧ t.pins.pwrGood = true ∧ t.pins.straps = straps ∧ t.sec.lockedOut = !(ok && s.flash.storeGood)) ∧
    (s.pwr.stage = .boot → s.pins.resetN = true →
      (bitOf s.pins.straps.toNat 8 = true → ∀ a o, Answers (.imageVerified a o) s fun t =>
        (s.imageOk s.flash.active a = true → t.pwr.stage = .fwStart ∧ t.flash.running = s.flash.active) ∧
        (s.imageOk s.flash.active a = false → s.imageOk s.flash.inactive o = true →
          t.pwr.stage = .fwStart ∧ t.flash.running = s.flash.inactive) ∧
        (s.imageOk s.flash.active a = false → s.imageOk s.flash.inactive o = false → t.pwr.stage = .recovery)) ∧
      (bitOf s.pins.straps.toNat 8 = false → ∀ svn digest a o other, Answers (.hostPushImage svn digest a o other) s fun t =>
        (a = .pass → s.flash.fusedSvn.toNat ≤ svn.toNat →
          t.pwr.stage = .fwStart ∧ t.flash.running.svn = svn ∧ t.flash.running.digest = digest) ∧
        (a ≠ .pass ∨ svn.toNat < s.flash.fusedSvn.toNat →
          t.pwr.stage = if s.imageOk s.flash.active o = true ∨ s.imageOk s.flash.inactive other = true then .fwStart else .recovery))) ∧
    (s.pwr.stage = .fwStart → ∀ halves granules,
      (Answers (.startup .ok halves granules) s fun t => t.pwr.stage = .ready ∧ ∀ k, k < 320 → (t.chan k).state = .ready) ∧
      ∀ r, r ≠ .ok → Answers (.startup r halves granules) s fun t => t.pwr.stage = .recovery) ∧
    (s.pins.pwrEn = true → Answers .pwrEnFall s fun t =>
      t.pwr.stage = .off ∧ t.pins.pwrEn = false ∧ t.pins.pwrGood = false ∧ t.parts = [] ∧ t.flash = s.flash ∧ t.thermLow = false ∧
        t.mgmt.dynValid = false ∧ t.sec.debug = false) ∧
    (s.pwr.stage ≠ .off → s.pwr.stage ≠ .shutdown → Answers .j1WindowExit s fun t =>
      t.pwr.stage = .off ∧ t.pins.j1Ok = false ∧ t.pins.pwrGood = false ∧ t.parts = [] ∧ t.flash = s.flash ∧ t.mgmt.dynValid = false) ∧
    (s.powered = true → Answers .thermalShutdown s fun t =>
      t.pwr.stage = .shutdown ∧ t.pins.pwrGood = false ∧ t.thermLow = true ∧ t.parts = [] ∧ t.flash = s.flash) ∧
    (s.pins.pwrGood = true → Answers .resetN s fun t =>
      t.pwr.stage = .boot ∧ t.pwr.resetKind = 1 ∧ t.pins = { s.pins with resetN := false } ∧ t.flash = s.flash ∧
        t.mgmt.dynValid = s.mgmt.dynValid ∧ t.mgmt.dynAddr = s.mgmt.dynAddr ∧ t.mgmt.eid = s.mgmt.eid ∧ t.sec.debug = s.sec.debug ∧
        t.parts = []) ∧
    (s.pins.pwrGood = false → exec .resetN s = .next { s with pins := { s.pins with resetN := false } }) ∧
    (Answers .resetNRise s fun t =>
      t.pins = { s.pins with resetN := true } ∧ t.pwr = s.pwr ∧ t.flash = s.flash ∧ t.parts = s.parts ∧ t.mem = s.mem ∧
      t.hst = { s.hst with link := if s.pins.pwrGood = true ∧ s.pins.perstN = true ∧ s.hst.link = .down then .training else s.hst.link } ∧
      t.out = (if s.flash.hotJoin = true ∧ s.pins.pwrGood = true ∧ s.mgmt.hjEn = true ∧ s.mgmt.dynValid = false ∧ s.mgmt.hjPending = false
        then .hotJoin :: s.out else s.out)) ∧
    exec .perstNRise s = .next { s with
      pins := { s.pins with perstN := true }
      hst := { s.hst with link := if s.pins.pwrGood = true ∧ s.pins.resetN = true ∧ s.hst.link = .down then .training else s.hst.link } }

/-- R435 to R441: the sideband. -/
def Obligations.Sideband : Prop :=
  ∀ (s : State),
    let took (t : State) (a : BitVec 7) : Prop :=
      t = { s with mgmt := t.mgmt } ∧ t.mgmt.dynValid = true ∧ t.mgmt.dynAddr = a ∧ t.mgmt.pid = some s.flash.pidLo
    let reads (i : Instr) (P : Nat → Prop) : Prop := ∃ w : W64, exec i s = .next { s with reply := { words := [w] } } ∧ P w.toNat
    (s.powered = true → s.pins.pwrGood = true →
      (∀ a, s.mgmt.dynValid = false → Answers (.entdaa a) s (took · a)) ∧
      (Answers .rstdaa s fun t => t = { s with mgmt := { s.mgmt with dynValid := false, dynAddr := 0, eid := 0 } }) ∧
      (∀ ibi hj, Answers (.enec ibi hj) s fun t => t = { s with mgmt := t.mgmt } ∧
        t.mgmt.ibiEn = (s.mgmt.ibiEn || ibi) ∧ t.mgmt.hjEn = (s.mgmt.hjEn || hj)) ∧
      (∀ ibi hj, Answers (.disec ibi hj) s fun t => t = { s with mgmt := t.mgmt } ∧
        t.mgmt.ibiEn = (s.mgmt.ibiEn && !ibi) ∧ t.mgmt.hjEn = (s.mgmt.hjEn && !hj)) ∧
      (∀ n, exec (.setmrl n) s = .next { s with mgmt := { s.mgmt with mrl := n } }) ∧
      (∀ n, exec (.setmwl n) s = .next { s with mgmt := { s.mgmt with mwl := n } })) ∧
    (s.powered = true → s.pins.pwrGood = true → s.pins.resetN = true →
      (∀ static a, s.mgmt.dynValid = false → static.toNat = 0x30 + bitsOf s.pins.straps.toNat 5 3 →
        Answers (.setdasa static a) s (took · a)) ∧
      (∀ a, s.mgmt.dynValid = true → Answers (.setnewda s.mgmt.dynAddr a) s (took · a)) ∧
      (∀ static a, static.toNat ≠ 0x30 + bitsOf s.pins.straps.toNat 5 3 ∨ s.mgmt.dynValid = true → exec (.setdasa static a) s = .next s) ∧
      reads .getpid (fun w => w / 2 ^ 33 = s.fuse.mipi.toNat ∧ w % 2 ^ 33 = (s.mgmt.pid.getD s.flash.pidLo).toNat) ∧
      reads .getbcr (· = 0x0E) ∧ reads .getdcr (· = 0) ∧
      reads .getstatus (fun w => w % 16 = min 15 s.mgmt.alerts.length ∧ w / 8192 = s.pwr.stage.code ∧
        w / 1024 % 2 = (if s.sec.lockedOut = true then 1 else 0) ∧ w / 2048 % 2 = (if s.mgmt.alerts = [] then 0 else 1)) ∧
      reads .getmrl (· = s.mgmt.mrl.toNat) ∧ reads .getmwl (· = s.mgmt.mwl.toNat) ∧
      (∀ e, exec (.mctpControl (some e)) s = .next { s with mgmt := { s.mgmt with eid := e }, reply := { bytes := [e] } }) ∧
      exec (.mctpControl none) s = .next { s with reply := { bytes := [s.mgmt.eid] } } ∧
      (Answers .statusGet s fun t => t = { s with reply := t.reply } ∧ t.reply.bytes.length = 32) ∧
      (s.mgmt.alerts = [] → exec .alertGet s = .next { s with reply := { bytes := List.replicate 32 0 } }) ∧
      (∀ x rest, s.mgmt.alerts = x :: rest →
        exec .alertGet s = .next { s with mgmt := { s.mgmt with alerts := rest }, reply := { bytes := x.bytes } }))

/-- R270, R449, R451, R454, R464, R466, R468, R484: events of the power page, the channels and the watchdog. -/
def Obligations.PowerAndThermal : Prop :=
  ∀ (s : State),
    (s.powered = true →
      (∀ x : PowerSample, let p := x.avgWatt.toNat; let c := s.capEnds.govCap; let v := s.pwr.vcore; let d := s.pwr.duty
        Answers (.governorPeriod x) s fun t =>
          t.pwr.avgWatt = x.avgWatt ∧ t.pwr.milliVolt = x.milliVolt ∧ t.pwr.hottest = x.hottest ∧
          (s.pwr.critical = true → t.pwr.vcore = 600 ∧ t.pwr.duty = 16) ∧
          (s.pwr.critical = false →
            (c < p → 600 < v.toNat → t.pwr.vcore.toNat = max 600 (v.toNat - 5) ∧ t.pwr.duty = d) ∧
            (c < p → v.toNat ≤ 600 → t.pwr.duty.toNat = max 16 (d.toNat - 4) ∧ t.pwr.vcore = v) ∧
            (100 * p < 98 * c → d.toNat < 64 → t.pwr.duty.toNat = min 64 (d.toNat + 4) ∧
              t.pwr.vcore.toNat = if s.pwr.throttle then max 600 (v.toNat - 5) else v.toNat) ∧
            (s.pwr.throttle = false → 64 ≤ d.toNat → 100 * p < 98 * c → v.toNat < s.pwr.vcoreMax.toNat →
              t.pwr.vcore = v + 5 ∧ t.pwr.duty = d) ∧
            (s.pwr.throttle = true → p ≤ c → 98 * c ≤ 100 * p ∨ 64 ≤ d.toNat →
              t.pwr.vcore.toNat = max 600 (v.toNat - 5) ∧ t.pwr.duty = d) ∧
            (s.pwr.throttle = false → p ≤ c → 98 * c ≤ 100 * p → t.pwr.vcore = v ∧ t.pwr.duty = d))) ∧
      (∀ b,
        (Answers (.thermalCondition .junctionThrottle b) s fun t => t.pwr = { s.pwr with throttle := b }) ∧
        (Answers (.thermalCondition .junctionCritical true) s fun t =>
          t.pwr = { s.pwr with critical := true, vcore := 600, duty := 16, vhub := 650 } ∧ t.thermLow = true) ∧
        (Answers (.thermalCondition .junctionCritical false) s fun t => t.pwr = { s.pwr with critical := false, vhub := 750 }) ∧
        (Answers (.thermalCondition .coolantTempHigh b) s fun t => t.pwr = { s.pwr with coolantHigh := b } ∧ (b = true → t.govCap ≤ 800)) ∧
        (Answers (.thermalCondition .coolantTempLow b) s fun t => t.pwr = { s.pwr with coolantLow := b }) ∧
        (Answers (.thermalCondition .coolantFlow b) s fun t => t.pwr = { s.pwr with coolantFlow := b } ∧ (b = true → t.govCap ≤ 800)) ∧
        ∀ k : Fin 8, Answers (.thermalCondition (.hbmWarm k) b) s fun t => t.pwr.hbmWarm.getLsbD k.val = b)) ∧
    (∀ d : Fin 116, (tget {} s.pwr.domains d.val).state = .on →
      (d.val < 80 → s.quadOwner d.val = none → (∀ k ∈ s.quadClusters d.val, s.clusterOwner k = none) → Answers (.converterFault d) s fun t =>
        (tget {} t.pwr.domains d.val).state = .fault ∧ (t.quad d.val).state = .offline ∧ t.parts = s.parts ∧
          ∀ k ∈ s.quadClusters d.val, (t.cluster k).l.state = .offline ∧ (t.cluster k).r.state = .offline) ∧
      (∀ p, d.val < 80 → s.quadOwner d.val = some p → (s.part p).cmd.cmds = [] → (s.part p).vf.heldCmds = [] → (s.part p).ctl.restart = false →
        (∀ k ∈ s.quadClusters d.val, (∀ e, s.clusterOwner k = some e → e.1 = p) ∧ (s.cluster k).l.armed = none ∧ (s.cluster k).r.armed = none) →
        Answers (.converterFault d) s fun t =>
          (tget {} t.pwr.domains d.val).state = .fault ∧ (t.quad d.val).state = .offline ∧
          ∀ k ∈ s.quadClusters d.val, (t.cluster k).l.state = .offline ∧ (t.cluster k).r.state = .offline) ∧
      (80 ≤ d.val → s.powered = true → Answers (.converterFault d) s fun t => t.pwr.stage = .off ∧ t.pins.pwrGood = false)) ∧
    (∀ q bad lines, (s.quad q).state = .selftest → s.quadOwner q = none → Answers (.selftestDone q bad lines) s fun t =>
      (s.lastBad q (s.testFinds q bad) = none → (t.quad q).state = .off ∧ (t.quad q).result = 1 ∧
        ∀ k ∈ s.quadClusters q, (t.cluster k).l.state ≠ .offline ∧ (t.cluster k).r.state ≠ .offline) ∧
      (∀ k, s.lastBad q (s.testFinds q bad) = some k → (t.quad q).state = .offline ∧ (t.quad q).failCluster = BitVec.ofNat 10 k ∧
        ∀ j ∈ s.quadClusters q, (halfBad (s.testFinds q bad) j true = true → (t.cluster j).l.state = .offline) ∧
          (halfBad (s.testFinds q bad) j false = true → (t.cluster j).r.state = .offline))) ∧
    (∀ c : ChannelId, let k := chanNo c
      exec (.calibrationSlice c false) s = .next s ∧
      ((s.chan k).state = .ready →
        (Answers (.calibrationSlice c true) s fun t => t.chan k = { s.chan k with state := .retrainWait }) ∧
        Answers (.retrainWait c) s fun t => t.chan k = { s.chan k with state := .retrainWait }) ∧
      ((s.chan k).state = .retrainWait →
        (Answers (.retrain c true) s fun t => t.chan k = { s.chan k with state := .ready } ∧ t.pwr.retrains = satAdd s.pwr.retrains 1) ∧
        (Answers (.retrainForced c true) s fun t =>
          t.chan k = { s.chan k with state := .ready } ∧ t.pwr.retrains = satAdd s.pwr.retrains 1) ∧
        exec (.retrain c false) s = .next ((s.modPwr fun w => { w with retrains := satAdd w.retrains 1 }).channelFail k))) ∧
    (∀ d : Fin 4, (s.die d.val).cryptoFailed = false → Answers (.cryptoFault d) s fun t =>
      t.die d.val = { s.die d.val with cryptoFailed := true } ∧ ∀ e, e ≠ d.val → t.die e = s.die e) ∧
    (∀ (p : PartId) (c : Cmd), (s.part p.val).ctl.state = .running → (s.part p.val).wdg.stalled = false →
      minBy (·.id) (s.watched p.val) = some c → Answers (.partitionStall p) s fun t =>
        (t.part p.val).wdg = { (s.part p.val).wdg with
          stalled := true, count := satAdd (s.part p.val).wdg.count 1, ticks := (s.part p.val).wdg.limit })

/-- R450: the fast limit. -/
def Obligations.FastLimit : Prop :=
  ∀ (watt tenMa : W16) (s : State), s.powered = true →
    (12 * s.govCap < 10 * watt.toNat ∨ 5500 < tenMa.toNat → Answers (.powerFastLimit watt tenMa) s fun t =>
      t = ({ s with pwr := { s.pwr with vcore := 600, fastTrips := satAdd s.pwr.fastTrips 1, fastNow := true } }).raisePf
        Cause.powerFastLimit srcPower ∧
      ∀ x : PowerSample, s.pwr.critical = false → s.pwr.duty = 64 → s.pwr.throttle = false → 600 < s.pwr.vcoreMax.toNat →
        (s.capEnds.govCap < x.avgWatt.toNat → Answers (.governorPeriod x) t fun u => u.pwr.vcore = 600) ∧
        (100 * x.avgWatt.toNat < 98 * s.capEnds.govCap → Answers (.governorPeriod x) t fun u => u.pwr.vcore = 605)) ∧
    (10 * watt.toNat ≤ 12 * s.govCap → tenMa.toNat ≤ 5500 → exec (.powerFastLimit watt tenMa) s = .next s)

/-- R28: the waits of a command. -/
def Obligations.WaitsOfACommand : Prop :=
  ∀ (p : PartId) (s : State),
    (∀ token target, s.met p.val (token, target) = true ↔ ((s.token p.val token).val - target).toNat < 2 ^ 31) ∧
    (∀ c : Cmd, c.waitsAny = false → c.extraWaits = [] →
      (s.waitsMet p.val c = true ↔ ∀ i, i < dNwait c.desc → s.met p.val (dToken c.desc i, dTarget c.desc i) = true)) ∧
    (∀ (u : EngineUnit) (c : Cmd), s.headsOf p.val (unitNo u) = [c] → c.waitsAny = false →
      ∀ i, i < dNwait c.desc → s.met p.val (dToken c.desc i, dTarget c.desc i) = false →
        exec (.commandStart p (.queue u) []) s = .next s)

/-- Every memory stays in its canonical form, from every state (log entry 1). -/
def Obligations.StepKeepsMemoryCanonical : Prop :=
  ∀ (s t : State), MemoryCanonical s → step s = .next t → MemoryCanonical t

/-- R346: the fused SVN never falls, from every state; the other fuses are the maker's, and no command writes them. -/
def Obligations.FusedSvnNeverFalls : Prop :=
  ∀ (n : Nat) (s t : State), n ≤ s.flash.fusedSvn.toNat → step s = .next t → n ≤ t.flash.fusedSvn.toNat ∧ t.fuse = s.fuse

/-- The state after reset (R456, R461, Tables 14.12 and 14.13, R449); the stage is the model's choice (log entry 2). -/
def Obligations.ResetState : Prop :=
  let s := State.reset
  MemoryCanonical s ∧ s.pending = [] ∧ s.pwr.stage = .boot ∧ s.pwr.resetKind = 0 ∧
    (∀ p, (s.part p).ctl.state = .empty ∧ ∀ n, (s.ring p n).state = .stopped) ∧ (∀ k, (s.chan k).state = .off) ∧
    (∀ sid, s.open? sid = none) ∧ s.sec.debug = false ∧ s.mgmt.dynValid = false ∧ s.mgmt.eid = 0 ∧ s.mgmt.hjEn = true ∧
    s.mgmt.ibiEn = true ∧ s.mgmt.alertMask = 0 ∧ s.mgmt.alerts = [] ∧ s.pwr.vcoreMax = 750 ∧ s.pwr.vcore = 750 ∧
    s.pwr.throttle = false ∧ s.thermLow = false
end

