-- ==== Sys2Proof/Laws/Tables.lean ====
section
/-! SUPPORT. Reading a sparse table after an entry of it was written. -/

namespace Sys2Proof.Machine

theorem tget_tset {α : Type} (d : α) (t : Tbl α) (k j : Nat) (v : α) :
    tget d (tset t k v) j = if j = k then v else tget d t j := by
  induction t with
  | nil =>
    by_cases h : j = k
    · simp [tset, tget, h]
    · have : ¬ k = j := fun e => h e.symm
      simp [tset, tget, h, this]
  | cons e t ih =>
    obtain ⟨i, w⟩ := e
    simp only [tset]
    split
    · rename_i h
      subst h
      by_cases h : j = i
      · simp [tget, h]
      · have : ¬ i = j := fun e => h e.symm
        simp [tget, h, this]
    · rename_i hik
      split
      · by_cases h : j = k
        · simp [tget, h]
        · have : ¬ k = j := fun e => h e.symm
          simp [tget, h, this]
      · simp only [tget, ih]
        by_cases h : j = k
        · subst h
          simp [hik]
        · simp [h]

@[simp] theorem tget_tset_self {α : Type} (d : α) (t : Tbl α) (k : Nat) (v : α) : tget d (tset t k v) k = v := by
  simp [tget_tset]

theorem tget_tset_of_ne {α : Type} (d : α) (t : Tbl α) {k j : Nat} (v : α) (h : j ≠ k) :
    tget d (tset t k v) j = tget d t j := by
  simp [tget_tset, h]

theorem tget_tmod {α : Type} (d : α) (t : Tbl α) (k j : Nat) (f : α → α) :
    tget d (tmod d t k f) j = if j = k then f (tget d t k) else tget d t j := tget_tset d t k j _

@[simp] theorem tget_tmod_self {α : Type} (d : α) (t : Tbl α) (k : Nat) (f : α → α) :
    tget d (tmod d t k f) k = f (tget d t k) := tget_tset_self d t k _

end Sys2Proof.Machine
end

