-- ==== Sys2Proof/Laws/State.lean ====
section
/-! SUPPORT. What each update of the state leaves and writes, field by field. -/

namespace Sys2Proof.Machine

variable (s : State)

@[simp] theorem State.setPart_parts (p : Nat) (x : Part) : (s.setPart p x).parts = tset s.parts p x := rfl
@[simp] theorem State.modPart_parts (p : Nat) (f : Part → Part) : (s.modPart p f).parts = tset s.parts p (f (s.part p)) := rfl
@[simp] theorem State.modCluster_clus (i : Nat) (f : Cluster → Cluster) : (s.modCluster i f).clus = tmod {} s.clus i f := rfl
@[simp] theorem State.modTile_tiles (i : Nat) (f : Tile → Tile) : (s.modTile i f).tiles = tmod {} s.tiles i f := rfl
@[simp] theorem State.modMem_mem (f : Mem → Mem) : (s.modMem f).mem = f s.mem := rfl
@[simp] theorem State.modChan_mem (i : Nat) (f : Chan → Chan) : (s.modChan i f).mem = { s.mem with chans := tmod (Chan.reset i) s.mem.chans i f } := rfl
@[simp] theorem State.modDie_mem (i : Nat) (f : Die → Die) : (s.modDie i f).mem = { s.mem with dies := tmod {} s.mem.dies i f } := rfl
@[simp] theorem State.modQuad_pwr (i : Nat) (f : Quad → Quad) : (s.modQuad i f).pwr = { s.pwr with quads := tmod {} s.pwr.quads i f } := rfl
@[simp] theorem State.modPwr_pwr (f : Power → Power) : (s.modPwr f).pwr = f s.pwr := rfl
@[simp] theorem State.modSec_sec (f : Security → Security) : (s.modSec f).sec = f s.sec := rfl
@[simp] theorem State.modFlash_flash (f : Flash → Flash) : (s.modFlash f).flash = f s.flash := rfl
@[simp] theorem State.modEv_ev (f : Events → Events) : (s.modEv f).ev = f s.ev := rfl
@[simp] theorem State.modHst_hst (f : HostPort → HostPort) : (s.modHst f).hst = f s.hst := rfl
@[simp] theorem State.modEci_eci (f : Eci → Eci) : (s.modEci f).eci = f s.eci := rfl
@[simp] theorem State.modMgmt_mgmt (f : Mgmt → Mgmt) : (s.modMgmt f).mgmt = f s.mgmt := rfl
@[simp] theorem State.modEng_cdcs (i : Nat) (f : CdcEng → CdcEng) : (s.modEng i f).cdcs = tmod {} s.cdcs i f := rfl
@[simp] theorem State.modPort_nets (i : Nat) (f : NetPort → NetPort) : (s.modPort i f).nets = tmod {} s.nets i f := rfl
@[simp] theorem State.answer_reply (r : Reply) : (s.answer r).reply = r := rfl
@[simp] theorem State.emit_out (o : Out) : (s.emit o).out = o :: s.out := rfl
@[simp] theorem State.useFree_free : (s.useFree).free = s.free + 1 := rfl
@[simp] theorem State.modPfHdr_hdr (i : Nat) (f : PageHdr → PageHdr) : (s.modPfHdr i f).hdr = tmod {} s.hdr i f := rfl
@[simp] theorem State.setPart_pending (p : Nat) (x : Part) : (s.setPart p x).pending = s.pending := rfl
@[simp] theorem State.setPart_free (p : Nat) (x : Part) : (s.setPart p x).free = s.free := rfl
@[simp] theorem State.setPart_nextId (p : Nat) (x : Part) : (s.setPart p x).nextId = s.nextId := rfl
@[simp] theorem State.setPart_reply (p : Nat) (x : Part) : (s.setPart p x).reply = s.reply := rfl
@[simp] theorem State.setPart_out (p : Nat) (x : Part) : (s.setPart p x).out = s.out := rfl
@[simp] theorem State.setPart_fuse (p : Nat) (x : Part) : (s.setPart p x).fuse = s.fuse := rfl
@[simp] theorem State.setPart_flash (p : Nat) (x : Part) : (s.setPart p x).flash = s.flash := rfl
@[simp] theorem State.setPart_pins (p : Nat) (x : Part) : (s.setPart p x).pins = s.pins := rfl
@[simp] theorem State.setPart_pwr (p : Nat) (x : Part) : (s.setPart p x).pwr = s.pwr := rfl
@[simp] theorem State.setPart_mgmt (p : Nat) (x : Part) : (s.setPart p x).mgmt = s.mgmt := rfl
@[simp] theorem State.setPart_sec (p : Nat) (x : Part) : (s.setPart p x).sec = s.sec := rfl
@[simp] theorem State.setPart_ev (p : Nat) (x : Part) : (s.setPart p x).ev = s.ev := rfl
@[simp] theorem State.setPart_hst (p : Nat) (x : Part) : (s.setPart p x).hst = s.hst := rfl
@[simp] theorem State.setPart_eci (p : Nat) (x : Part) : (s.setPart p x).eci = s.eci := rfl
@[simp] theorem State.setPart_mem (p : Nat) (x : Part) : (s.setPart p x).mem = s.mem := rfl
@[simp] theorem State.setPart_clus (p : Nat) (x : Part) : (s.setPart p x).clus = s.clus := rfl
@[simp] theorem State.setPart_tiles (p : Nat) (x : Part) : (s.setPart p x).tiles = s.tiles := rfl
@[simp] theorem State.setPart_movs (p : Nat) (x : Part) : (s.setPart p x).movs = s.movs := rfl
@[simp] theorem State.setPart_seqs (p : Nat) (x : Part) : (s.setPart p x).seqs = s.seqs := rfl
@[simp] theorem State.setPart_cdcs (p : Nat) (x : Part) : (s.setPart p x).cdcs = s.cdcs := rfl
@[simp] theorem State.setPart_nets (p : Nat) (x : Part) : (s.setPart p x).nets = s.nets := rfl
@[simp] theorem State.setPart_hdr (p : Nat) (x : Part) : (s.setPart p x).hdr = s.hdr := rfl
@[simp] theorem State.modPart_pending (p : Nat) (f : Part → Part) : (s.modPart p f).pending = s.pending := rfl
@[simp] theorem State.modPart_free (p : Nat) (f : Part → Part) : (s.modPart p f).free = s.free := rfl
@[simp] theorem State.modPart_nextId (p : Nat) (f : Part → Part) : (s.modPart p f).nextId = s.nextId := rfl
@[simp] theorem State.modPart_reply (p : Nat) (f : Part → Part) : (s.modPart p f).reply = s.reply := rfl
@[simp] theorem State.modPart_out (p : Nat) (f : Part → Part) : (s.modPart p f).out = s.out := rfl
@[simp] theorem State.modPart_fuse (p : Nat) (f : Part → Part) : (s.modPart p f).fuse = s.fuse := rfl
@[simp] theorem State.modPart_flash (p : Nat) (f : Part → Part) : (s.modPart p f).flash = s.flash := rfl
@[simp] theorem State.modPart_pins (p : Nat) (f : Part → Part) : (s.modPart p f).pins = s.pins := rfl
@[simp] theorem State.modPart_pwr (p : Nat) (f : Part → Part) : (s.modPart p f).pwr = s.pwr := rfl
@[simp] theorem State.modPart_mgmt (p : Nat) (f : Part → Part) : (s.modPart p f).mgmt = s.mgmt := rfl
@[simp] theorem State.modPart_sec (p : Nat) (f : Part → Part) : (s.modPart p f).sec = s.sec := rfl
@[simp] theorem State.modPart_ev (p : Nat) (f : Part → Part) : (s.modPart p f).ev = s.ev := rfl
@[simp] theorem State.modPart_hst (p : Nat) (f : Part → Part) : (s.modPart p f).hst = s.hst := rfl
@[simp] theorem State.modPart_eci (p : Nat) (f : Part → Part) : (s.modPart p f).eci = s.eci := rfl
@[simp] theorem State.modPart_mem (p : Nat) (f : Part → Part) : (s.modPart p f).mem = s.mem := rfl
@[simp] theorem State.modPart_clus (p : Nat) (f : Part → Part) : (s.modPart p f).clus = s.clus := rfl
@[simp] theorem State.modPart_tiles (p : Nat) (f : Part → Part) : (s.modPart p f).tiles = s.tiles := rfl
@[simp] theorem State.modPart_movs (p : Nat) (f : Part → Part) : (s.modPart p f).movs = s.movs := rfl
@[simp] theorem State.modPart_seqs (p : Nat) (f : Part → Part) : (s.modPart p f).seqs = s.seqs := rfl
@[simp] theorem State.modPart_cdcs (p : Nat) (f : Part → Part) : (s.modPart p f).cdcs = s.cdcs := rfl
@[simp] theorem State.modPart_nets (p : Nat) (f : Part → Part) : (s.modPart p f).nets = s.nets := rfl
@[simp] theorem State.modPart_hdr (p : Nat) (f : Part → Part) : (s.modPart p f).hdr = s.hdr := rfl
@[simp] theorem State.modSys_pending (p : Nat) (f : CmdSys → CmdSys) : (s.modSys p f).pending = s.pending := rfl
@[simp] theorem State.modSys_free (p : Nat) (f : CmdSys → CmdSys) : (s.modSys p f).free = s.free := rfl
@[simp] theorem State.modSys_nextId (p : Nat) (f : CmdSys → CmdSys) : (s.modSys p f).nextId = s.nextId := rfl
@[simp] theorem State.modSys_reply (p : Nat) (f : CmdSys → CmdSys) : (s.modSys p f).reply = s.reply := rfl
@[simp] theorem State.modSys_out (p : Nat) (f : CmdSys → CmdSys) : (s.modSys p f).out = s.out := rfl
@[simp] theorem State.modSys_fuse (p : Nat) (f : CmdSys → CmdSys) : (s.modSys p f).fuse = s.fuse := rfl
@[simp] theorem State.modSys_flash (p : Nat) (f : CmdSys → CmdSys) : (s.modSys p f).flash = s.flash := rfl
@[simp] theorem State.modSys_pins (p : Nat) (f : CmdSys → CmdSys) : (s.modSys p f).pins = s.pins := rfl
@[simp] theorem State.modSys_pwr (p : Nat) (f : CmdSys → CmdSys) : (s.modSys p f).pwr = s.pwr := rfl
@[simp] theorem State.modSys_mgmt (p : Nat) (f : CmdSys → CmdSys) : (s.modSys p f).mgmt = s.mgmt := rfl
@[simp] theorem State.modSys_sec (p : Nat) (f : CmdSys → CmdSys) : (s.modSys p f).sec = s.sec := rfl
@[simp] theorem State.modSys_ev (p : Nat) (f : CmdSys → CmdSys) : (s.modSys p f).ev = s.ev := rfl
@[simp] theorem State.modSys_hst (p : Nat) (f : CmdSys → CmdSys) : (s.modSys p f).hst = s.hst := rfl
@[simp] theorem State.modSys_eci (p : Nat) (f : CmdSys → CmdSys) : (s.modSys p f).eci = s.eci := rfl
@[simp] theorem State.modSys_mem (p : Nat) (f : CmdSys → CmdSys) : (s.modSys p f).mem = s.mem := rfl
@[simp] theorem State.modSys_clus (p : Nat) (f : CmdSys → CmdSys) : (s.modSys p f).clus = s.clus := rfl
@[simp] theorem State.modSys_tiles (p : Nat) (f : CmdSys → CmdSys) : (s.modSys p f).tiles = s.tiles := rfl
@[simp] theorem State.modSys_movs (p : Nat) (f : CmdSys → CmdSys) : (s.modSys p f).movs = s.movs := rfl
@[simp] theorem State.modSys_seqs (p : Nat) (f : CmdSys → CmdSys) : (s.modSys p f).seqs = s.seqs := rfl
@[simp] theorem State.modSys_cdcs (p : Nat) (f : CmdSys → CmdSys) : (s.modSys p f).cdcs = s.cdcs := rfl
@[simp] theorem State.modSys_nets (p : Nat) (f : CmdSys → CmdSys) : (s.modSys p f).nets = s.nets := rfl
@[simp] theorem State.modSys_hdr (p : Nat) (f : CmdSys → CmdSys) : (s.modSys p f).hdr = s.hdr := rfl
@[simp] theorem State.modCtl_pending (p : Nat) (f : PartCtl → PartCtl) : (s.modCtl p f).pending = s.pending := rfl
@[simp] theorem State.modCtl_free (p : Nat) (f : PartCtl → PartCtl) : (s.modCtl p f).free = s.free := rfl
@[simp] theorem State.modCtl_nextId (p : Nat) (f : PartCtl → PartCtl) : (s.modCtl p f).nextId = s.nextId := rfl
@[simp] theorem State.modCtl_reply (p : Nat) (f : PartCtl → PartCtl) : (s.modCtl p f).reply = s.reply := rfl
@[simp] theorem State.modCtl_out (p : Nat) (f : PartCtl → PartCtl) : (s.modCtl p f).out = s.out := rfl
@[simp] theorem State.modCtl_fuse (p : Nat) (f : PartCtl → PartCtl) : (s.modCtl p f).fuse = s.fuse := rfl
@[simp] theorem State.modCtl_flash (p : Nat) (f : PartCtl → PartCtl) : (s.modCtl p f).flash = s.flash := rfl
@[simp] theorem State.modCtl_pins (p : Nat) (f : PartCtl → PartCtl) : (s.modCtl p f).pins = s.pins := rfl
@[simp] theorem State.modCtl_pwr (p : Nat) (f : PartCtl → PartCtl) : (s.modCtl p f).pwr = s.pwr := rfl
@[simp] theorem State.modCtl_mgmt (p : Nat) (f : PartCtl → PartCtl) : (s.modCtl p f).mgmt = s.mgmt := rfl
@[simp] theorem State.modCtl_sec (p : Nat) (f : PartCtl → PartCtl) : (s.modCtl p f).sec = s.sec := rfl
@[simp] theorem State.modCtl_ev (p : Nat) (f : PartCtl → PartCtl) : (s.modCtl p f).ev = s.ev := rfl
@[simp] theorem State.modCtl_hst (p : Nat) (f : PartCtl → PartCtl) : (s.modCtl p f).hst = s.hst := rfl
@[simp] theorem State.modCtl_eci (p : Nat) (f : PartCtl → PartCtl) : (s.modCtl p f).eci = s.eci := rfl
@[simp] theorem State.modCtl_mem (p : Nat) (f : PartCtl → PartCtl) : (s.modCtl p f).mem = s.mem := rfl
@[simp] theorem State.modCtl_clus (p : Nat) (f : PartCtl → PartCtl) : (s.modCtl p f).clus = s.clus := rfl
@[simp] theorem State.modCtl_tiles (p : Nat) (f : PartCtl → PartCtl) : (s.modCtl p f).tiles = s.tiles := rfl
@[simp] theorem State.modCtl_movs (p : Nat) (f : PartCtl → PartCtl) : (s.modCtl p f).movs = s.movs := rfl
@[simp] theorem State.modCtl_seqs (p : Nat) (f : PartCtl → PartCtl) : (s.modCtl p f).seqs = s.seqs := rfl
@[simp] theorem State.modCtl_cdcs (p : Nat) (f : PartCtl → PartCtl) : (s.modCtl p f).cdcs = s.cdcs := rfl
@[simp] theorem State.modCtl_nets (p : Nat) (f : PartCtl → PartCtl) : (s.modCtl p f).nets = s.nets := rfl
@[simp] theorem State.modCtl_hdr (p : Nat) (f : PartCtl → PartCtl) : (s.modCtl p f).hdr = s.hdr := rfl
@[simp] theorem State.modMtr_pending (p : Nat) (f : Meters → Meters) : (s.modMtr p f).pending = s.pending := rfl
@[simp] theorem State.modMtr_free (p : Nat) (f : Meters → Meters) : (s.modMtr p f).free = s.free := rfl
@[simp] theorem State.modMtr_nextId (p : Nat) (f : Meters → Meters) : (s.modMtr p f).nextId = s.nextId := rfl
@[simp] theorem State.modMtr_reply (p : Nat) (f : Meters → Meters) : (s.modMtr p f).reply = s.reply := rfl
@[simp] theorem State.modMtr_out (p : Nat) (f : Meters → Meters) : (s.modMtr p f).out = s.out := rfl
@[simp] theorem State.modMtr_fuse (p : Nat) (f : Meters → Meters) : (s.modMtr p f).fuse = s.fuse := rfl
@[simp] theorem State.modMtr_flash (p : Nat) (f : Meters → Meters) : (s.modMtr p f).flash = s.flash := rfl
@[simp] theorem State.modMtr_pins (p : Nat) (f : Meters → Meters) : (s.modMtr p f).pins = s.pins := rfl
@[simp] theorem State.modMtr_pwr (p : Nat) (f : Meters → Meters) : (s.modMtr p f).pwr = s.pwr := rfl
@[simp] theorem State.modMtr_mgmt (p : Nat) (f : Meters → Meters) : (s.modMtr p f).mgmt = s.mgmt := rfl
@[simp] theorem State.modMtr_sec (p : Nat) (f : Meters → Meters) : (s.modMtr p f).sec = s.sec := rfl
@[simp] theorem State.modMtr_ev (p : Nat) (f : Meters → Meters) : (s.modMtr p f).ev = s.ev := rfl
@[simp] theorem State.modMtr_hst (p : Nat) (f : Meters → Meters) : (s.modMtr p f).hst = s.hst := rfl
@[simp] theorem State.modMtr_eci (p : Nat) (f : Meters → Meters) : (s.modMtr p f).eci = s.eci := rfl
@[simp] theorem State.modMtr_mem (p : Nat) (f : Meters → Meters) : (s.modMtr p f).mem = s.mem := rfl
@[simp] theorem State.modMtr_clus (p : Nat) (f : Meters → Meters) : (s.modMtr p f).clus = s.clus := rfl
@[simp] theorem State.modMtr_tiles (p : Nat) (f : Meters → Meters) : (s.modMtr p f).tiles = s.tiles := rfl
@[simp] theorem State.modMtr_movs (p : Nat) (f : Meters → Meters) : (s.modMtr p f).movs = s.movs := rfl
@[simp] theorem State.modMtr_seqs (p : Nat) (f : Meters → Meters) : (s.modMtr p f).seqs = s.seqs := rfl
@[simp] theorem State.modMtr_cdcs (p : Nat) (f : Meters → Meters) : (s.modMtr p f).cdcs = s.cdcs := rfl
@[simp] theorem State.modMtr_nets (p : Nat) (f : Meters → Meters) : (s.modMtr p f).nets = s.nets := rfl
@[simp] theorem State.modMtr_hdr (p : Nat) (f : Meters → Meters) : (s.modMtr p f).hdr = s.hdr := rfl
@[simp] theorem State.modLtn_pending (p : Nat) (f : Lantern → Lantern) : (s.modLtn p f).pending = s.pending := rfl
@[simp] theorem State.modLtn_free (p : Nat) (f : Lantern → Lantern) : (s.modLtn p f).free = s.free := rfl
@[simp] theorem State.modLtn_nextId (p : Nat) (f : Lantern → Lantern) : (s.modLtn p f).nextId = s.nextId := rfl
@[simp] theorem State.modLtn_reply (p : Nat) (f : Lantern → Lantern) : (s.modLtn p f).reply = s.reply := rfl
@[simp] theorem State.modLtn_out (p : Nat) (f : Lantern → Lantern) : (s.modLtn p f).out = s.out := rfl
@[simp] theorem State.modLtn_fuse (p : Nat) (f : Lantern → Lantern) : (s.modLtn p f).fuse = s.fuse := rfl
@[simp] theorem State.modLtn_flash (p : Nat) (f : Lantern → Lantern) : (s.modLtn p f).flash = s.flash := rfl
@[simp] theorem State.modLtn_pins (p : Nat) (f : Lantern → Lantern) : (s.modLtn p f).pins = s.pins := rfl
@[simp] theorem State.modLtn_pwr (p : Nat) (f : Lantern → Lantern) : (s.modLtn p f).pwr = s.pwr := rfl
@[simp] theorem State.modLtn_mgmt (p : Nat) (f : Lantern → Lantern) : (s.modLtn p f).mgmt = s.mgmt := rfl
@[simp] theorem State.modLtn_sec (p : Nat) (f : Lantern → Lantern) : (s.modLtn p f).sec = s.sec := rfl
@[simp] theorem State.modLtn_ev (p : Nat) (f : Lantern → Lantern) : (s.modLtn p f).ev = s.ev := rfl
@[simp] theorem State.modLtn_hst (p : Nat) (f : Lantern → Lantern) : (s.modLtn p f).hst = s.hst := rfl
@[simp] theorem State.modLtn_eci (p : Nat) (f : Lantern → Lantern) : (s.modLtn p f).eci = s.eci := rfl
@[simp] theorem State.modLtn_mem (p : Nat) (f : Lantern → Lantern) : (s.modLtn p f).mem = s.mem := rfl
@[simp] theorem State.modLtn_clus (p : Nat) (f : Lantern → Lantern) : (s.modLtn p f).clus = s.clus := rfl
@[simp] theorem State.modLtn_tiles (p : Nat) (f : Lantern → Lantern) : (s.modLtn p f).tiles = s.tiles := rfl
@[simp] theorem State.modLtn_movs (p : Nat) (f : Lantern → Lantern) : (s.modLtn p f).movs = s.movs := rfl
@[simp] theorem State.modLtn_seqs (p : Nat) (f : Lantern → Lantern) : (s.modLtn p f).seqs = s.seqs := rfl
@[simp] theorem State.modLtn_cdcs (p : Nat) (f : Lantern → Lantern) : (s.modLtn p f).cdcs = s.cdcs := rfl
@[simp] theorem State.modLtn_nets (p : Nat) (f : Lantern → Lantern) : (s.modLtn p f).nets = s.nets := rfl
@[simp] theorem State.modLtn_hdr (p : Nat) (f : Lantern → Lantern) : (s.modLtn p f).hdr = s.hdr := rfl
@[simp] theorem State.modSeq_pending (p : Nat) (f : Seq → Seq) : (s.modSeq p f).pending = s.pending := rfl
@[simp] theorem State.modSeq_free (p : Nat) (f : Seq → Seq) : (s.modSeq p f).free = s.free := rfl
@[simp] theorem State.modSeq_nextId (p : Nat) (f : Seq → Seq) : (s.modSeq p f).nextId = s.nextId := rfl
@[simp] theorem State.modSeq_reply (p : Nat) (f : Seq → Seq) : (s.modSeq p f).reply = s.reply := rfl
@[simp] theorem State.modSeq_out (p : Nat) (f : Seq → Seq) : (s.modSeq p f).out = s.out := rfl
@[simp] theorem State.modSeq_fuse (p : Nat) (f : Seq → Seq) : (s.modSeq p f).fuse = s.fuse := rfl
@[simp] theorem State.modSeq_flash (p : Nat) (f : Seq → Seq) : (s.modSeq p f).flash = s.flash := rfl
@[simp] theorem State.modSeq_pins (p : Nat) (f : Seq → Seq) : (s.modSeq p f).pins = s.pins := rfl
@[simp] theorem State.modSeq_pwr (p : Nat) (f : Seq → Seq) : (s.modSeq p f).pwr = s.pwr := rfl
@[simp] theorem State.modSeq_mgmt (p : Nat) (f : Seq → Seq) : (s.modSeq p f).mgmt = s.mgmt := rfl
@[simp] theorem State.modSeq_sec (p : Nat) (f : Seq → Seq) : (s.modSeq p f).sec = s.sec := rfl
@[simp] theorem State.modSeq_ev (p : Nat) (f : Seq → Seq) : (s.modSeq p f).ev = s.ev := rfl
@[simp] theorem State.modSeq_hst (p : Nat) (f : Seq → Seq) : (s.modSeq p f).hst = s.hst := rfl
@[simp] theorem State.modSeq_eci (p : Nat) (f : Seq → Seq) : (s.modSeq p f).eci = s.eci := rfl
@[simp] theorem State.modSeq_mem (p : Nat) (f : Seq → Seq) : (s.modSeq p f).mem = s.mem := rfl
@[simp] theorem State.modSeq_clus (p : Nat) (f : Seq → Seq) : (s.modSeq p f).clus = s.clus := rfl
@[simp] theorem State.modSeq_tiles (p : Nat) (f : Seq → Seq) : (s.modSeq p f).tiles = s.tiles := rfl
@[simp] theorem State.modSeq_movs (p : Nat) (f : Seq → Seq) : (s.modSeq p f).movs = s.movs := rfl
@[simp] theorem State.modSeq_seqs (p : Nat) (f : Seq → Seq) : (s.modSeq p f).seqs = s.seqs := rfl
@[simp] theorem State.modSeq_cdcs (p : Nat) (f : Seq → Seq) : (s.modSeq p f).cdcs = s.cdcs := rfl
@[simp] theorem State.modSeq_nets (p : Nat) (f : Seq → Seq) : (s.modSeq p f).nets = s.nets := rfl
@[simp] theorem State.modSeq_hdr (p : Nat) (f : Seq → Seq) : (s.modSeq p f).hdr = s.hdr := rfl
@[simp] theorem State.modStr_pending (p : Nat) (f : Streams → Streams) : (s.modStr p f).pending = s.pending := rfl
@[simp] theorem State.modStr_free (p : Nat) (f : Streams → Streams) : (s.modStr p f).free = s.free := rfl
@[simp] theorem State.modStr_nextId (p : Nat) (f : Streams → Streams) : (s.modStr p f).nextId = s.nextId := rfl
@[simp] theorem State.modStr_reply (p : Nat) (f : Streams → Streams) : (s.modStr p f).reply = s.reply := rfl
@[simp] theorem State.modStr_out (p : Nat) (f : Streams → Streams) : (s.modStr p f).out = s.out := rfl
@[simp] theorem State.modStr_fuse (p : Nat) (f : Streams → Streams) : (s.modStr p f).fuse = s.fuse := rfl
@[simp] theorem State.modStr_flash (p : Nat) (f : Streams → Streams) : (s.modStr p f).flash = s.flash := rfl
@[simp] theorem State.modStr_pins (p : Nat) (f : Streams → Streams) : (s.modStr p f).pins = s.pins := rfl
@[simp] theorem State.modStr_pwr (p : Nat) (f : Streams → Streams) : (s.modStr p f).pwr = s.pwr := rfl
@[simp] theorem State.modStr_mgmt (p : Nat) (f : Streams → Streams) : (s.modStr p f).mgmt = s.mgmt := rfl
@[simp] theorem State.modStr_sec (p : Nat) (f : Streams → Streams) : (s.modStr p f).sec = s.sec := rfl
@[simp] theorem State.modStr_ev (p : Nat) (f : Streams → Streams) : (s.modStr p f).ev = s.ev := rfl
@[simp] theorem State.modStr_hst (p : Nat) (f : Streams → Streams) : (s.modStr p f).hst = s.hst := rfl
@[simp] theorem State.modStr_eci (p : Nat) (f : Streams → Streams) : (s.modStr p f).eci = s.eci := rfl
@[simp] theorem State.modStr_mem (p : Nat) (f : Streams → Streams) : (s.modStr p f).mem = s.mem := rfl
@[simp] theorem State.modStr_clus (p : Nat) (f : Streams → Streams) : (s.modStr p f).clus = s.clus := rfl
@[simp] theorem State.modStr_tiles (p : Nat) (f : Streams → Streams) : (s.modStr p f).tiles = s.tiles := rfl
@[simp] theorem State.modStr_movs (p : Nat) (f : Streams → Streams) : (s.modStr p f).movs = s.movs := rfl
@[simp] theorem State.modStr_seqs (p : Nat) (f : Streams → Streams) : (s.modStr p f).seqs = s.seqs := rfl
@[simp] theorem State.modStr_cdcs (p : Nat) (f : Streams → Streams) : (s.modStr p f).cdcs = s.cdcs := rfl
@[simp] theorem State.modStr_nets (p : Nat) (f : Streams → Streams) : (s.modStr p f).nets = s.nets := rfl
@[simp] theorem State.modStr_hdr (p : Nat) (f : Streams → Streams) : (s.modStr p f).hdr = s.hdr := rfl
@[simp] theorem State.modObjs_pending (p : Nat) (f : Objs → Objs) : (s.modObjs p f).pending = s.pending := rfl
@[simp] theorem State.modObjs_free (p : Nat) (f : Objs → Objs) : (s.modObjs p f).free = s.free := rfl
@[simp] theorem State.modObjs_nextId (p : Nat) (f : Objs → Objs) : (s.modObjs p f).nextId = s.nextId := rfl
@[simp] theorem State.modObjs_reply (p : Nat) (f : Objs → Objs) : (s.modObjs p f).reply = s.reply := rfl
@[simp] theorem State.modObjs_out (p : Nat) (f : Objs → Objs) : (s.modObjs p f).out = s.out := rfl
@[simp] theorem State.modObjs_fuse (p : Nat) (f : Objs → Objs) : (s.modObjs p f).fuse = s.fuse := rfl
@[simp] theorem State.modObjs_flash (p : Nat) (f : Objs → Objs) : (s.modObjs p f).flash = s.flash := rfl
@[simp] theorem State.modObjs_pins (p : Nat) (f : Objs → Objs) : (s.modObjs p f).pins = s.pins := rfl
@[simp] theorem State.modObjs_pwr (p : Nat) (f : Objs → Objs) : (s.modObjs p f).pwr = s.pwr := rfl
@[simp] theorem State.modObjs_mgmt (p : Nat) (f : Objs → Objs) : (s.modObjs p f).mgmt = s.mgmt := rfl
@[simp] theorem State.modObjs_sec (p : Nat) (f : Objs → Objs) : (s.modObjs p f).sec = s.sec := rfl
@[simp] theorem State.modObjs_ev (p : Nat) (f : Objs → Objs) : (s.modObjs p f).ev = s.ev := rfl
@[simp] theorem State.modObjs_hst (p : Nat) (f : Objs → Objs) : (s.modObjs p f).hst = s.hst := rfl
@[simp] theorem State.modObjs_eci (p : Nat) (f : Objs → Objs) : (s.modObjs p f).eci = s.eci := rfl
@[simp] theorem State.modObjs_mem (p : Nat) (f : Objs → Objs) : (s.modObjs p f).mem = s.mem := rfl
@[simp] theorem State.modObjs_clus (p : Nat) (f : Objs → Objs) : (s.modObjs p f).clus = s.clus := rfl
@[simp] theorem State.modObjs_tiles (p : Nat) (f : Objs → Objs) : (s.modObjs p f).tiles = s.tiles := rfl
@[simp] theorem State.modObjs_movs (p : Nat) (f : Objs → Objs) : (s.modObjs p f).movs = s.movs := rfl
@[simp] theorem State.modObjs_seqs (p : Nat) (f : Objs → Objs) : (s.modObjs p f).seqs = s.seqs := rfl
@[simp] theorem State.modObjs_cdcs (p : Nat) (f : Objs → Objs) : (s.modObjs p f).cdcs = s.cdcs := rfl
@[simp] theorem State.modObjs_nets (p : Nat) (f : Objs → Objs) : (s.modObjs p f).nets = s.nets := rfl
@[simp] theorem State.modObjs_hdr (p : Nat) (f : Objs → Objs) : (s.modObjs p f).hdr = s.hdr := rfl
@[simp] theorem State.modCdc_pending (p : Nat) (f : Cdc → Cdc) : (s.modCdc p f).pending = s.pending := rfl
@[simp] theorem State.modCdc_free (p : Nat) (f : Cdc → Cdc) : (s.modCdc p f).free = s.free := rfl
@[simp] theorem State.modCdc_nextId (p : Nat) (f : Cdc → Cdc) : (s.modCdc p f).nextId = s.nextId := rfl
@[simp] theorem State.modCdc_reply (p : Nat) (f : Cdc → Cdc) : (s.modCdc p f).reply = s.reply := rfl
@[simp] theorem State.modCdc_out (p : Nat) (f : Cdc → Cdc) : (s.modCdc p f).out = s.out := rfl
@[simp] theorem State.modCdc_fuse (p : Nat) (f : Cdc → Cdc) : (s.modCdc p f).fuse = s.fuse := rfl
@[simp] theorem State.modCdc_flash (p : Nat) (f : Cdc → Cdc) : (s.modCdc p f).flash = s.flash := rfl
@[simp] theorem State.modCdc_pins (p : Nat) (f : Cdc → Cdc) : (s.modCdc p f).pins = s.pins := rfl
@[simp] theorem State.modCdc_pwr (p : Nat) (f : Cdc → Cdc) : (s.modCdc p f).pwr = s.pwr := rfl
@[simp] theorem State.modCdc_mgmt (p : Nat) (f : Cdc → Cdc) : (s.modCdc p f).mgmt = s.mgmt := rfl
@[simp] theorem State.modCdc_sec (p : Nat) (f : Cdc → Cdc) : (s.modCdc p f).sec = s.sec := rfl
@[simp] theorem State.modCdc_ev (p : Nat) (f : Cdc → Cdc) : (s.modCdc p f).ev = s.ev := rfl
@[simp] theorem State.modCdc_hst (p : Nat) (f : Cdc → Cdc) : (s.modCdc p f).hst = s.hst := rfl
@[simp] theorem State.modCdc_eci (p : Nat) (f : Cdc → Cdc) : (s.modCdc p f).eci = s.eci := rfl
@[simp] theorem State.modCdc_mem (p : Nat) (f : Cdc → Cdc) : (s.modCdc p f).mem = s.mem := rfl
@[simp] theorem State.modCdc_clus (p : Nat) (f : Cdc → Cdc) : (s.modCdc p f).clus = s.clus := rfl
@[simp] theorem State.modCdc_tiles (p : Nat) (f : Cdc → Cdc) : (s.modCdc p f).tiles = s.tiles := rfl
@[simp] theorem State.modCdc_movs (p : Nat) (f : Cdc → Cdc) : (s.modCdc p f).movs = s.movs := rfl
@[simp] theorem State.modCdc_seqs (p : Nat) (f : Cdc → Cdc) : (s.modCdc p f).seqs = s.seqs := rfl
@[simp] theorem State.modCdc_cdcs (p : Nat) (f : Cdc → Cdc) : (s.modCdc p f).cdcs = s.cdcs := rfl
@[simp] theorem State.modCdc_nets (p : Nat) (f : Cdc → Cdc) : (s.modCdc p f).nets = s.nets := rfl
@[simp] theorem State.modCdc_hdr (p : Nat) (f : Cdc → Cdc) : (s.modCdc p f).hdr = s.hdr := rfl
@[simp] theorem State.modNet_pending (p : Nat) (f : NetPart → NetPart) : (s.modNet p f).pending = s.pending := rfl
@[simp] theorem State.modNet_free (p : Nat) (f : NetPart → NetPart) : (s.modNet p f).free = s.free := rfl
@[simp] theorem State.modNet_nextId (p : Nat) (f : NetPart → NetPart) : (s.modNet p f).nextId = s.nextId := rfl
@[simp] theorem State.modNet_reply (p : Nat) (f : NetPart → NetPart) : (s.modNet p f).reply = s.reply := rfl
@[simp] theorem State.modNet_out (p : Nat) (f : NetPart → NetPart) : (s.modNet p f).out = s.out := rfl
@[simp] theorem State.modNet_fuse (p : Nat) (f : NetPart → NetPart) : (s.modNet p f).fuse = s.fuse := rfl
@[simp] theorem State.modNet_flash (p : Nat) (f : NetPart → NetPart) : (s.modNet p f).flash = s.flash := rfl
@[simp] theorem State.modNet_pins (p : Nat) (f : NetPart → NetPart) : (s.modNet p f).pins = s.pins := rfl
@[simp] theorem State.modNet_pwr (p : Nat) (f : NetPart → NetPart) : (s.modNet p f).pwr = s.pwr := rfl
@[simp] theorem State.modNet_mgmt (p : Nat) (f : NetPart → NetPart) : (s.modNet p f).mgmt = s.mgmt := rfl
@[simp] theorem State.modNet_sec (p : Nat) (f : NetPart → NetPart) : (s.modNet p f).sec = s.sec := rfl
@[simp] theorem State.modNet_ev (p : Nat) (f : NetPart → NetPart) : (s.modNet p f).ev = s.ev := rfl
@[simp] theorem State.modNet_hst (p : Nat) (f : NetPart → NetPart) : (s.modNet p f).hst = s.hst := rfl
@[simp] theorem State.modNet_eci (p : Nat) (f : NetPart → NetPart) : (s.modNet p f).eci = s.eci := rfl
@[simp] theorem State.modNet_mem (p : Nat) (f : NetPart → NetPart) : (s.modNet p f).mem = s.mem := rfl
@[simp] theorem State.modNet_clus (p : Nat) (f : NetPart → NetPart) : (s.modNet p f).clus = s.clus := rfl
@[simp] theorem State.modNet_tiles (p : Nat) (f : NetPart → NetPart) : (s.modNet p f).tiles = s.tiles := rfl
@[simp] theorem State.modNet_movs (p : Nat) (f : NetPart → NetPart) : (s.modNet p f).movs = s.movs := rfl
@[simp] theorem State.modNet_seqs (p : Nat) (f : NetPart → NetPart) : (s.modNet p f).seqs = s.seqs := rfl
@[simp] theorem State.modNet_cdcs (p : Nat) (f : NetPart → NetPart) : (s.modNet p f).cdcs = s.cdcs := rfl
@[simp] theorem State.modNet_nets (p : Nat) (f : NetPart → NetPart) : (s.modNet p f).nets = s.nets := rfl
@[simp] theorem State.modNet_hdr (p : Nat) (f : NetPart → NetPart) : (s.modNet p f).hdr = s.hdr := rfl
@[simp] theorem State.modVf_pending (p : Nat) (f : Vf → Vf) : (s.modVf p f).pending = s.pending := rfl
@[simp] theorem State.modVf_free (p : Nat) (f : Vf → Vf) : (s.modVf p f).free = s.free := rfl
@[simp] theorem State.modVf_nextId (p : Nat) (f : Vf → Vf) : (s.modVf p f).nextId = s.nextId := rfl
@[simp] theorem State.modVf_reply (p : Nat) (f : Vf → Vf) : (s.modVf p f).reply = s.reply := rfl
@[simp] theorem State.modVf_out (p : Nat) (f : Vf → Vf) : (s.modVf p f).out = s.out := rfl
@[simp] theorem State.modVf_fuse (p : Nat) (f : Vf → Vf) : (s.modVf p f).fuse = s.fuse := rfl
@[simp] theorem State.modVf_flash (p : Nat) (f : Vf → Vf) : (s.modVf p f).flash = s.flash := rfl
@[simp] theorem State.modVf_pins (p : Nat) (f : Vf → Vf) : (s.modVf p f).pins = s.pins := rfl
@[simp] theorem State.modVf_pwr (p : Nat) (f : Vf → Vf) : (s.modVf p f).pwr = s.pwr := rfl
@[simp] theorem State.modVf_mgmt (p : Nat) (f : Vf → Vf) : (s.modVf p f).mgmt = s.mgmt := rfl
@[simp] theorem State.modVf_sec (p : Nat) (f : Vf → Vf) : (s.modVf p f).sec = s.sec := rfl
@[simp] theorem State.modVf_ev (p : Nat) (f : Vf → Vf) : (s.modVf p f).ev = s.ev := rfl
@[simp] theorem State.modVf_hst (p : Nat) (f : Vf → Vf) : (s.modVf p f).hst = s.hst := rfl
@[simp] theorem State.modVf_eci (p : Nat) (f : Vf → Vf) : (s.modVf p f).eci = s.eci := rfl
@[simp] theorem State.modVf_mem (p : Nat) (f : Vf → Vf) : (s.modVf p f).mem = s.mem := rfl
@[simp] theorem State.modVf_clus (p : Nat) (f : Vf → Vf) : (s.modVf p f).clus = s.clus := rfl
@[simp] theorem State.modVf_tiles (p : Nat) (f : Vf → Vf) : (s.modVf p f).tiles = s.tiles := rfl
@[simp] theorem State.modVf_movs (p : Nat) (f : Vf → Vf) : (s.modVf p f).movs = s.movs := rfl
@[simp] theorem State.modVf_seqs (p : Nat) (f : Vf → Vf) : (s.modVf p f).seqs = s.seqs := rfl
@[simp] theorem State.modVf_cdcs (p : Nat) (f : Vf → Vf) : (s.modVf p f).cdcs = s.cdcs := rfl
@[simp] theorem State.modVf_nets (p : Nat) (f : Vf → Vf) : (s.modVf p f).nets = s.nets := rfl
@[simp] theorem State.modVf_hdr (p : Nat) (f : Vf → Vf) : (s.modVf p f).hdr = s.hdr := rfl
@[simp] theorem State.modMir_pending (p : Nat) (f : Mirror → Mirror) : (s.modMir p f).pending = s.pending := rfl
@[simp] theorem State.modMir_free (p : Nat) (f : Mirror → Mirror) : (s.modMir p f).free = s.free := rfl
@[simp] theorem State.modMir_nextId (p : Nat) (f : Mirror → Mirror) : (s.modMir p f).nextId = s.nextId := rfl
@[simp] theorem State.modMir_reply (p : Nat) (f : Mirror → Mirror) : (s.modMir p f).reply = s.reply := rfl
@[simp] theorem State.modMir_out (p : Nat) (f : Mirror → Mirror) : (s.modMir p f).out = s.out := rfl
@[simp] theorem State.modMir_fuse (p : Nat) (f : Mirror → Mirror) : (s.modMir p f).fuse = s.fuse := rfl
@[simp] theorem State.modMir_flash (p : Nat) (f : Mirror → Mirror) : (s.modMir p f).flash = s.flash := rfl
@[simp] theorem State.modMir_pins (p : Nat) (f : Mirror → Mirror) : (s.modMir p f).pins = s.pins := rfl
@[simp] theorem State.modMir_pwr (p : Nat) (f : Mirror → Mirror) : (s.modMir p f).pwr = s.pwr := rfl
@[simp] theorem State.modMir_mgmt (p : Nat) (f : Mirror → Mirror) : (s.modMir p f).mgmt = s.mgmt := rfl
@[simp] theorem State.modMir_sec (p : Nat) (f : Mirror → Mirror) : (s.modMir p f).sec = s.sec := rfl
@[simp] theorem State.modMir_ev (p : Nat) (f : Mirror → Mirror) : (s.modMir p f).ev = s.ev := rfl
@[simp] theorem State.modMir_hst (p : Nat) (f : Mirror → Mirror) : (s.modMir p f).hst = s.hst := rfl
@[simp] theorem State.modMir_eci (p : Nat) (f : Mirror → Mirror) : (s.modMir p f).eci = s.eci := rfl
@[simp] theorem State.modMir_mem (p : Nat) (f : Mirror → Mirror) : (s.modMir p f).mem = s.mem := rfl
@[simp] theorem State.modMir_clus (p : Nat) (f : Mirror → Mirror) : (s.modMir p f).clus = s.clus := rfl
@[simp] theorem State.modMir_tiles (p : Nat) (f : Mirror → Mirror) : (s.modMir p f).tiles = s.tiles := rfl
@[simp] theorem State.modMir_movs (p : Nat) (f : Mirror → Mirror) : (s.modMir p f).movs = s.movs := rfl
@[simp] theorem State.modMir_seqs (p : Nat) (f : Mirror → Mirror) : (s.modMir p f).seqs = s.seqs := rfl
@[simp] theorem State.modMir_cdcs (p : Nat) (f : Mirror → Mirror) : (s.modMir p f).cdcs = s.cdcs := rfl
@[simp] theorem State.modMir_nets (p : Nat) (f : Mirror → Mirror) : (s.modMir p f).nets = s.nets := rfl
@[simp] theorem State.modMir_hdr (p : Nat) (f : Mirror → Mirror) : (s.modMir p f).hdr = s.hdr := rfl
@[simp] theorem State.modWdg_pending (p : Nat) (f : Watchdog → Watchdog) : (s.modWdg p f).pending = s.pending := rfl
@[simp] theorem State.modWdg_free (p : Nat) (f : Watchdog → Watchdog) : (s.modWdg p f).free = s.free := rfl
@[simp] theorem State.modWdg_nextId (p : Nat) (f : Watchdog → Watchdog) : (s.modWdg p f).nextId = s.nextId := rfl
@[simp] theorem State.modWdg_reply (p : Nat) (f : Watchdog → Watchdog) : (s.modWdg p f).reply = s.reply := rfl
@[simp] theorem State.modWdg_out (p : Nat) (f : Watchdog → Watchdog) : (s.modWdg p f).out = s.out := rfl
@[simp] theorem State.modWdg_fuse (p : Nat) (f : Watchdog → Watchdog) : (s.modWdg p f).fuse = s.fuse := rfl
@[simp] theorem State.modWdg_flash (p : Nat) (f : Watchdog → Watchdog) : (s.modWdg p f).flash = s.flash := rfl
@[simp] theorem State.modWdg_pins (p : Nat) (f : Watchdog → Watchdog) : (s.modWdg p f).pins = s.pins := rfl
@[simp] theorem State.modWdg_pwr (p : Nat) (f : Watchdog → Watchdog) : (s.modWdg p f).pwr = s.pwr := rfl
@[simp] theorem State.modWdg_mgmt (p : Nat) (f : Watchdog → Watchdog) : (s.modWdg p f).mgmt = s.mgmt := rfl
@[simp] theorem State.modWdg_sec (p : Nat) (f : Watchdog → Watchdog) : (s.modWdg p f).sec = s.sec := rfl
@[simp] theorem State.modWdg_ev (p : Nat) (f : Watchdog → Watchdog) : (s.modWdg p f).ev = s.ev := rfl
@[simp] theorem State.modWdg_hst (p : Nat) (f : Watchdog → Watchdog) : (s.modWdg p f).hst = s.hst := rfl
@[simp] theorem State.modWdg_eci (p : Nat) (f : Watchdog → Watchdog) : (s.modWdg p f).eci = s.eci := rfl
@[simp] theorem State.modWdg_mem (p : Nat) (f : Watchdog → Watchdog) : (s.modWdg p f).mem = s.mem := rfl
@[simp] theorem State.modWdg_clus (p : Nat) (f : Watchdog → Watchdog) : (s.modWdg p f).clus = s.clus := rfl
@[simp] theorem State.modWdg_tiles (p : Nat) (f : Watchdog → Watchdog) : (s.modWdg p f).tiles = s.tiles := rfl
@[simp] theorem State.modWdg_movs (p : Nat) (f : Watchdog → Watchdog) : (s.modWdg p f).movs = s.movs := rfl
@[simp] theorem State.modWdg_seqs (p : Nat) (f : Watchdog → Watchdog) : (s.modWdg p f).seqs = s.seqs := rfl
@[simp] theorem State.modWdg_cdcs (p : Nat) (f : Watchdog → Watchdog) : (s.modWdg p f).cdcs = s.cdcs := rfl
@[simp] theorem State.modWdg_nets (p : Nat) (f : Watchdog → Watchdog) : (s.modWdg p f).nets = s.nets := rfl
@[simp] theorem State.modWdg_hdr (p : Nat) (f : Watchdog → Watchdog) : (s.modWdg p f).hdr = s.hdr := rfl
@[simp] theorem State.modEvt_pending (p : Nat) (f : EvRing → EvRing) : (s.modEvt p f).pending = s.pending := rfl
@[simp] theorem State.modEvt_free (p : Nat) (f : EvRing → EvRing) : (s.modEvt p f).free = s.free := rfl
@[simp] theorem State.modEvt_nextId (p : Nat) (f : EvRing → EvRing) : (s.modEvt p f).nextId = s.nextId := rfl
@[simp] theorem State.modEvt_reply (p : Nat) (f : EvRing → EvRing) : (s.modEvt p f).reply = s.reply := rfl
@[simp] theorem State.modEvt_out (p : Nat) (f : EvRing → EvRing) : (s.modEvt p f).out = s.out := rfl
@[simp] theorem State.modEvt_fuse (p : Nat) (f : EvRing → EvRing) : (s.modEvt p f).fuse = s.fuse := rfl
@[simp] theorem State.modEvt_flash (p : Nat) (f : EvRing → EvRing) : (s.modEvt p f).flash = s.flash := rfl
@[simp] theorem State.modEvt_pins (p : Nat) (f : EvRing → EvRing) : (s.modEvt p f).pins = s.pins := rfl
@[simp] theorem State.modEvt_pwr (p : Nat) (f : EvRing → EvRing) : (s.modEvt p f).pwr = s.pwr := rfl
@[simp] theorem State.modEvt_mgmt (p : Nat) (f : EvRing → EvRing) : (s.modEvt p f).mgmt = s.mgmt := rfl
@[simp] theorem State.modEvt_sec (p : Nat) (f : EvRing → EvRing) : (s.modEvt p f).sec = s.sec := rfl
@[simp] theorem State.modEvt_ev (p : Nat) (f : EvRing → EvRing) : (s.modEvt p f).ev = s.ev := rfl
@[simp] theorem State.modEvt_hst (p : Nat) (f : EvRing → EvRing) : (s.modEvt p f).hst = s.hst := rfl
@[simp] theorem State.modEvt_eci (p : Nat) (f : EvRing → EvRing) : (s.modEvt p f).eci = s.eci := rfl
@[simp] theorem State.modEvt_mem (p : Nat) (f : EvRing → EvRing) : (s.modEvt p f).mem = s.mem := rfl
@[simp] theorem State.modEvt_clus (p : Nat) (f : EvRing → EvRing) : (s.modEvt p f).clus = s.clus := rfl
@[simp] theorem State.modEvt_tiles (p : Nat) (f : EvRing → EvRing) : (s.modEvt p f).tiles = s.tiles := rfl
@[simp] theorem State.modEvt_movs (p : Nat) (f : EvRing → EvRing) : (s.modEvt p f).movs = s.movs := rfl
@[simp] theorem State.modEvt_seqs (p : Nat) (f : EvRing → EvRing) : (s.modEvt p f).seqs = s.seqs := rfl
@[simp] theorem State.modEvt_cdcs (p : Nat) (f : EvRing → EvRing) : (s.modEvt p f).cdcs = s.cdcs := rfl
@[simp] theorem State.modEvt_nets (p : Nat) (f : EvRing → EvRing) : (s.modEvt p f).nets = s.nets := rfl
@[simp] theorem State.modEvt_hdr (p : Nat) (f : EvRing → EvRing) : (s.modEvt p f).hdr = s.hdr := rfl
@[simp] theorem State.modCmd_pending (p i : Nat) (f : Cmd → Cmd) : (s.modCmd p i f).pending = s.pending := rfl
@[simp] theorem State.modCmd_free (p i : Nat) (f : Cmd → Cmd) : (s.modCmd p i f).free = s.free := rfl
@[simp] theorem State.modCmd_nextId (p i : Nat) (f : Cmd → Cmd) : (s.modCmd p i f).nextId = s.nextId := rfl
@[simp] theorem State.modCmd_reply (p i : Nat) (f : Cmd → Cmd) : (s.modCmd p i f).reply = s.reply := rfl
@[simp] theorem State.modCmd_out (p i : Nat) (f : Cmd → Cmd) : (s.modCmd p i f).out = s.out := rfl
@[simp] theorem State.modCmd_fuse (p i : Nat) (f : Cmd → Cmd) : (s.modCmd p i f).fuse = s.fuse := rfl
@[simp] theorem State.modCmd_flash (p i : Nat) (f : Cmd → Cmd) : (s.modCmd p i f).flash = s.flash := rfl
@[simp] theorem State.modCmd_pins (p i : Nat) (f : Cmd → Cmd) : (s.modCmd p i f).pins = s.pins := rfl
@[simp] theorem State.modCmd_pwr (p i : Nat) (f : Cmd → Cmd) : (s.modCmd p i f).pwr = s.pwr := rfl
@[simp] theorem State.modCmd_mgmt (p i : Nat) (f : Cmd → Cmd) : (s.modCmd p i f).mgmt = s.mgmt := rfl
@[simp] theorem State.modCmd_sec (p i : Nat) (f : Cmd → Cmd) : (s.modCmd p i f).sec = s.sec := rfl
@[simp] theorem State.modCmd_ev (p i : Nat) (f : Cmd → Cmd) : (s.modCmd p i f).ev = s.ev := rfl
@[simp] theorem State.modCmd_hst (p i : Nat) (f : Cmd → Cmd) : (s.modCmd p i f).hst = s.hst := rfl
@[simp] theorem State.modCmd_eci (p i : Nat) (f : Cmd → Cmd) : (s.modCmd p i f).eci = s.eci := rfl
@[simp] theorem State.modCmd_mem (p i : Nat) (f : Cmd → Cmd) : (s.modCmd p i f).mem = s.mem := rfl
@[simp] theorem State.modCmd_clus (p i : Nat) (f : Cmd → Cmd) : (s.modCmd p i f).clus = s.clus := rfl
@[simp] theorem State.modCmd_tiles (p i : Nat) (f : Cmd → Cmd) : (s.modCmd p i f).tiles = s.tiles := rfl
@[simp] theorem State.modCmd_movs (p i : Nat) (f : Cmd → Cmd) : (s.modCmd p i f).movs = s.movs := rfl
@[simp] theorem State.modCmd_seqs (p i : Nat) (f : Cmd → Cmd) : (s.modCmd p i f).seqs = s.seqs := rfl
@[simp] theorem State.modCmd_cdcs (p i : Nat) (f : Cmd → Cmd) : (s.modCmd p i f).cdcs = s.cdcs := rfl
@[simp] theorem State.modCmd_nets (p i : Nat) (f : Cmd → Cmd) : (s.modCmd p i f).nets = s.nets := rfl
@[simp] theorem State.modCmd_hdr (p i : Nat) (f : Cmd → Cmd) : (s.modCmd p i f).hdr = s.hdr := rfl
@[simp] theorem State.modRing_pending (p i : Nat) (f : Ring → Ring) : (s.modRing p i f).pending = s.pending := rfl
@[simp] theorem State.modRing_free (p i : Nat) (f : Ring → Ring) : (s.modRing p i f).free = s.free := rfl
@[simp] theorem State.modRing_nextId (p i : Nat) (f : Ring → Ring) : (s.modRing p i f).nextId = s.nextId := rfl
@[simp] theorem State.modRing_reply (p i : Nat) (f : Ring → Ring) : (s.modRing p i f).reply = s.reply := rfl
@[simp] theorem State.modRing_out (p i : Nat) (f : Ring → Ring) : (s.modRing p i f).out = s.out := rfl
@[simp] theorem State.modRing_fuse (p i : Nat) (f : Ring → Ring) : (s.modRing p i f).fuse = s.fuse := rfl
@[simp] theorem State.modRing_flash (p i : Nat) (f : Ring → Ring) : (s.modRing p i f).flash = s.flash := rfl
@[simp] theorem State.modRing_pins (p i : Nat) (f : Ring → Ring) : (s.modRing p i f).pins = s.pins := rfl
@[simp] theorem State.modRing_pwr (p i : Nat) (f : Ring → Ring) : (s.modRing p i f).pwr = s.pwr := rfl
@[simp] theorem State.modRing_mgmt (p i : Nat) (f : Ring → Ring) : (s.modRing p i f).mgmt = s.mgmt := rfl
@[simp] theorem State.modRing_sec (p i : Nat) (f : Ring → Ring) : (s.modRing p i f).sec = s.sec := rfl
@[simp] theorem State.modRing_ev (p i : Nat) (f : Ring → Ring) : (s.modRing p i f).ev = s.ev := rfl
@[simp] theorem State.modRing_hst (p i : Nat) (f : Ring → Ring) : (s.modRing p i f).hst = s.hst := rfl
@[simp] theorem State.modRing_eci (p i : Nat) (f : Ring → Ring) : (s.modRing p i f).eci = s.eci := rfl
@[simp] theorem State.modRing_mem (p i : Nat) (f : Ring → Ring) : (s.modRing p i f).mem = s.mem := rfl
@[simp] theorem State.modRing_clus (p i : Nat) (f : Ring → Ring) : (s.modRing p i f).clus = s.clus := rfl
@[simp] theorem State.modRing_tiles (p i : Nat) (f : Ring → Ring) : (s.modRing p i f).tiles = s.tiles := rfl
@[simp] theorem State.modRing_movs (p i : Nat) (f : Ring → Ring) : (s.modRing p i f).movs = s.movs := rfl
@[simp] theorem State.modRing_seqs (p i : Nat) (f : Ring → Ring) : (s.modRing p i f).seqs = s.seqs := rfl
@[simp] theorem State.modRing_cdcs (p i : Nat) (f : Ring → Ring) : (s.modRing p i f).cdcs = s.cdcs := rfl
@[simp] theorem State.modRing_nets (p i : Nat) (f : Ring → Ring) : (s.modRing p i f).nets = s.nets := rfl
@[simp] theorem State.modRing_hdr (p i : Nat) (f : Ring → Ring) : (s.modRing p i f).hdr = s.hdr := rfl
@[simp] theorem State.modCtx_pending (p i : Nat) (f : Ctx → Ctx) : (s.modCtx p i f).pending = s.pending := rfl
@[simp] theorem State.modCtx_free (p i : Nat) (f : Ctx → Ctx) : (s.modCtx p i f).free = s.free := rfl
@[simp] theorem State.modCtx_nextId (p i : Nat) (f : Ctx → Ctx) : (s.modCtx p i f).nextId = s.nextId := rfl
@[simp] theorem State.modCtx_reply (p i : Nat) (f : Ctx → Ctx) : (s.modCtx p i f).reply = s.reply := rfl
@[simp] theorem State.modCtx_out (p i : Nat) (f : Ctx → Ctx) : (s.modCtx p i f).out = s.out := rfl
@[simp] theorem State.modCtx_fuse (p i : Nat) (f : Ctx → Ctx) : (s.modCtx p i f).fuse = s.fuse := rfl
@[simp] theorem State.modCtx_flash (p i : Nat) (f : Ctx → Ctx) : (s.modCtx p i f).flash = s.flash := rfl
@[simp] theorem State.modCtx_pins (p i : Nat) (f : Ctx → Ctx) : (s.modCtx p i f).pins = s.pins := rfl
@[simp] theorem State.modCtx_pwr (p i : Nat) (f : Ctx → Ctx) : (s.modCtx p i f).pwr = s.pwr := rfl
@[simp] theorem State.modCtx_mgmt (p i : Nat) (f : Ctx → Ctx) : (s.modCtx p i f).mgmt = s.mgmt := rfl
@[simp] theorem State.modCtx_sec (p i : Nat) (f : Ctx → Ctx) : (s.modCtx p i f).sec = s.sec := rfl
@[simp] theorem State.modCtx_ev (p i : Nat) (f : Ctx → Ctx) : (s.modCtx p i f).ev = s.ev := rfl
@[simp] theorem State.modCtx_hst (p i : Nat) (f : Ctx → Ctx) : (s.modCtx p i f).hst = s.hst := rfl
@[simp] theorem State.modCtx_eci (p i : Nat) (f : Ctx → Ctx) : (s.modCtx p i f).eci = s.eci := rfl
@[simp] theorem State.modCtx_mem (p i : Nat) (f : Ctx → Ctx) : (s.modCtx p i f).mem = s.mem := rfl
@[simp] theorem State.modCtx_clus (p i : Nat) (f : Ctx → Ctx) : (s.modCtx p i f).clus = s.clus := rfl
@[simp] theorem State.modCtx_tiles (p i : Nat) (f : Ctx → Ctx) : (s.modCtx p i f).tiles = s.tiles := rfl
@[simp] theorem State.modCtx_movs (p i : Nat) (f : Ctx → Ctx) : (s.modCtx p i f).movs = s.movs := rfl
@[simp] theorem State.modCtx_seqs (p i : Nat) (f : Ctx → Ctx) : (s.modCtx p i f).seqs = s.seqs := rfl
@[simp] theorem State.modCtx_cdcs (p i : Nat) (f : Ctx → Ctx) : (s.modCtx p i f).cdcs = s.cdcs := rfl
@[simp] theorem State.modCtx_nets (p i : Nat) (f : Ctx → Ctx) : (s.modCtx p i f).nets = s.nets := rfl
@[simp] theorem State.modCtx_hdr (p i : Nat) (f : Ctx → Ctx) : (s.modCtx p i f).hdr = s.hdr := rfl
@[simp] theorem State.modToken_pending (p i : Nat) (f : Token → Token) : (s.modToken p i f).pending = s.pending := rfl
@[simp] theorem State.modToken_free (p i : Nat) (f : Token → Token) : (s.modToken p i f).free = s.free := rfl
@[simp] theorem State.modToken_nextId (p i : Nat) (f : Token → Token) : (s.modToken p i f).nextId = s.nextId := rfl
@[simp] theorem State.modToken_reply (p i : Nat) (f : Token → Token) : (s.modToken p i f).reply = s.reply := rfl
@[simp] theorem State.modToken_out (p i : Nat) (f : Token → Token) : (s.modToken p i f).out = s.out := rfl
@[simp] theorem State.modToken_fuse (p i : Nat) (f : Token → Token) : (s.modToken p i f).fuse = s.fuse := rfl
@[simp] theorem State.modToken_flash (p i : Nat) (f : Token → Token) : (s.modToken p i f).flash = s.flash := rfl
@[simp] theorem State.modToken_pins (p i : Nat) (f : Token → Token) : (s.modToken p i f).pins = s.pins := rfl
@[simp] theorem State.modToken_pwr (p i : Nat) (f : Token → Token) : (s.modToken p i f).pwr = s.pwr := rfl
@[simp] theorem State.modToken_mgmt (p i : Nat) (f : Token → Token) : (s.modToken p i f).mgmt = s.mgmt := rfl
@[simp] theorem State.modToken_sec (p i : Nat) (f : Token → Token) : (s.modToken p i f).sec = s.sec := rfl
@[simp] theorem State.modToken_ev (p i : Nat) (f : Token → Token) : (s.modToken p i f).ev = s.ev := rfl
@[simp] theorem State.modToken_hst (p i : Nat) (f : Token → Token) : (s.modToken p i f).hst = s.hst := rfl
@[simp] theorem State.modToken_eci (p i : Nat) (f : Token → Token) : (s.modToken p i f).eci = s.eci := rfl
@[simp] theorem State.modToken_mem (p i : Nat) (f : Token → Token) : (s.modToken p i f).mem = s.mem := rfl
@[simp] theorem State.modToken_clus (p i : Nat) (f : Token → Token) : (s.modToken p i f).clus = s.clus := rfl
@[simp] theorem State.modToken_tiles (p i : Nat) (f : Token → Token) : (s.modToken p i f).tiles = s.tiles := rfl
@[simp] theorem State.modToken_movs (p i : Nat) (f : Token → Token) : (s.modToken p i f).movs = s.movs := rfl
@[simp] theorem State.modToken_seqs (p i : Nat) (f : Token → Token) : (s.modToken p i f).seqs = s.seqs := rfl
@[simp] theorem State.modToken_cdcs (p i : Nat) (f : Token → Token) : (s.modToken p i f).cdcs = s.cdcs := rfl
@[simp] theorem State.modToken_nets (p i : Nat) (f : Token → Token) : (s.modToken p i f).nets = s.nets := rfl
@[simp] theorem State.modToken_hdr (p i : Nat) (f : Token → Token) : (s.modToken p i f).hdr = s.hdr := rfl
@[simp] theorem State.modCall_pending (p i : Nat) (f : Call → Call) : (s.modCall p i f).pending = s.pending := rfl
@[simp] theorem State.modCall_free (p i : Nat) (f : Call → Call) : (s.modCall p i f).free = s.free := rfl
@[simp] theorem State.modCall_nextId (p i : Nat) (f : Call → Call) : (s.modCall p i f).nextId = s.nextId := rfl
@[simp] theorem State.modCall_reply (p i : Nat) (f : Call → Call) : (s.modCall p i f).reply = s.reply := rfl
@[simp] theorem State.modCall_out (p i : Nat) (f : Call → Call) : (s.modCall p i f).out = s.out := rfl
@[simp] theorem State.modCall_fuse (p i : Nat) (f : Call → Call) : (s.modCall p i f).fuse = s.fuse := rfl
@[simp] theorem State.modCall_flash (p i : Nat) (f : Call → Call) : (s.modCall p i f).flash = s.flash := rfl
@[simp] theorem State.modCall_pins (p i : Nat) (f : Call → Call) : (s.modCall p i f).pins = s.pins := rfl
@[simp] theorem State.modCall_pwr (p i : Nat) (f : Call → Call) : (s.modCall p i f).pwr = s.pwr := rfl
@[simp] theorem State.modCall_mgmt (p i : Nat) (f : Call → Call) : (s.modCall p i f).mgmt = s.mgmt := rfl
@[simp] theorem State.modCall_sec (p i : Nat) (f : Call → Call) : (s.modCall p i f).sec = s.sec := rfl
@[simp] theorem State.modCall_ev (p i : Nat) (f : Call → Call) : (s.modCall p i f).ev = s.ev := rfl
@[simp] theorem State.modCall_hst (p i : Nat) (f : Call → Call) : (s.modCall p i f).hst = s.hst := rfl
@[simp] theorem State.modCall_eci (p i : Nat) (f : Call → Call) : (s.modCall p i f).eci = s.eci := rfl
@[simp] theorem State.modCall_mem (p i : Nat) (f : Call → Call) : (s.modCall p i f).mem = s.mem := rfl
@[simp] theorem State.modCall_clus (p i : Nat) (f : Call → Call) : (s.modCall p i f).clus = s.clus := rfl
@[simp] theorem State.modCall_tiles (p i : Nat) (f : Call → Call) : (s.modCall p i f).tiles = s.tiles := rfl
@[simp] theorem State.modCall_movs (p i : Nat) (f : Call → Call) : (s.modCall p i f).movs = s.movs := rfl
@[simp] theorem State.modCall_seqs (p i : Nat) (f : Call → Call) : (s.modCall p i f).seqs = s.seqs := rfl
@[simp] theorem State.modCall_cdcs (p i : Nat) (f : Call → Call) : (s.modCall p i f).cdcs = s.cdcs := rfl
@[simp] theorem State.modCall_nets (p i : Nat) (f : Call → Call) : (s.modCall p i f).nets = s.nets := rfl
@[simp] theorem State.modCall_hdr (p i : Nat) (f : Call → Call) : (s.modCall p i f).hdr = s.hdr := rfl
@[simp] theorem State.modObject_pending (p i : Nat) (f : Obj → Obj) : (s.modObject p i f).pending = s.pending := rfl
@[simp] theorem State.modObject_free (p i : Nat) (f : Obj → Obj) : (s.modObject p i f).free = s.free := rfl
@[simp] theorem State.modObject_nextId (p i : Nat) (f : Obj → Obj) : (s.modObject p i f).nextId = s.nextId := rfl
@[simp] theorem State.modObject_reply (p i : Nat) (f : Obj → Obj) : (s.modObject p i f).reply = s.reply := rfl
@[simp] theorem State.modObject_out (p i : Nat) (f : Obj → Obj) : (s.modObject p i f).out = s.out := rfl
@[simp] theorem State.modObject_fuse (p i : Nat) (f : Obj → Obj) : (s.modObject p i f).fuse = s.fuse := rfl
@[simp] theorem State.modObject_flash (p i : Nat) (f : Obj → Obj) : (s.modObject p i f).flash = s.flash := rfl
@[simp] theorem State.modObject_pins (p i : Nat) (f : Obj → Obj) : (s.modObject p i f).pins = s.pins := rfl
@[simp] theorem State.modObject_pwr (p i : Nat) (f : Obj → Obj) : (s.modObject p i f).pwr = s.pwr := rfl
@[simp] theorem State.modObject_mgmt (p i : Nat) (f : Obj → Obj) : (s.modObject p i f).mgmt = s.mgmt := rfl
@[simp] theorem State.modObject_sec (p i : Nat) (f : Obj → Obj) : (s.modObject p i f).sec = s.sec := rfl
@[simp] theorem State.modObject_ev (p i : Nat) (f : Obj → Obj) : (s.modObject p i f).ev = s.ev := rfl
@[simp] theorem State.modObject_hst (p i : Nat) (f : Obj → Obj) : (s.modObject p i f).hst = s.hst := rfl
@[simp] theorem State.modObject_eci (p i : Nat) (f : Obj → Obj) : (s.modObject p i f).eci = s.eci := rfl
@[simp] theorem State.modObject_mem (p i : Nat) (f : Obj → Obj) : (s.modObject p i f).mem = s.mem := rfl
@[simp] theorem State.modObject_clus (p i : Nat) (f : Obj → Obj) : (s.modObject p i f).clus = s.clus := rfl
@[simp] theorem State.modObject_tiles (p i : Nat) (f : Obj → Obj) : (s.modObject p i f).tiles = s.tiles := rfl
@[simp] theorem State.modObject_movs (p i : Nat) (f : Obj → Obj) : (s.modObject p i f).movs = s.movs := rfl
@[simp] theorem State.modObject_seqs (p i : Nat) (f : Obj → Obj) : (s.modObject p i f).seqs = s.seqs := rfl
@[simp] theorem State.modObject_cdcs (p i : Nat) (f : Obj → Obj) : (s.modObject p i f).cdcs = s.cdcs := rfl
@[simp] theorem State.modObject_nets (p i : Nat) (f : Obj → Obj) : (s.modObject p i f).nets = s.nets := rfl
@[simp] theorem State.modObject_hdr (p i : Nat) (f : Obj → Obj) : (s.modObject p i f).hdr = s.hdr := rfl
@[simp] theorem State.modVfHdr_pending (p i : Nat) (f : PageHdr → PageHdr) : (s.modVfHdr p i f).pending = s.pending := rfl
@[simp] theorem State.modVfHdr_free (p i : Nat) (f : PageHdr → PageHdr) : (s.modVfHdr p i f).free = s.free := rfl
@[simp] theorem State.modVfHdr_nextId (p i : Nat) (f : PageHdr → PageHdr) : (s.modVfHdr p i f).nextId = s.nextId := rfl
@[simp] theorem State.modVfHdr_reply (p i : Nat) (f : PageHdr → PageHdr) : (s.modVfHdr p i f).reply = s.reply := rfl
@[simp] theorem State.modVfHdr_out (p i : Nat) (f : PageHdr → PageHdr) : (s.modVfHdr p i f).out = s.out := rfl
@[simp] theorem State.modVfHdr_fuse (p i : Nat) (f : PageHdr → PageHdr) : (s.modVfHdr p i f).fuse = s.fuse := rfl
@[simp] theorem State.modVfHdr_flash (p i : Nat) (f : PageHdr → PageHdr) : (s.modVfHdr p i f).flash = s.flash := rfl
@[simp] theorem State.modVfHdr_pins (p i : Nat) (f : PageHdr → PageHdr) : (s.modVfHdr p i f).pins = s.pins := rfl
@[simp] theorem State.modVfHdr_pwr (p i : Nat) (f : PageHdr → PageHdr) : (s.modVfHdr p i f).pwr = s.pwr := rfl
@[simp] theorem State.modVfHdr_mgmt (p i : Nat) (f : PageHdr → PageHdr) : (s.modVfHdr p i f).mgmt = s.mgmt := rfl
@[simp] theorem State.modVfHdr_sec (p i : Nat) (f : PageHdr → PageHdr) : (s.modVfHdr p i f).sec = s.sec := rfl
@[simp] theorem State.modVfHdr_ev (p i : Nat) (f : PageHdr → PageHdr) : (s.modVfHdr p i f).ev = s.ev := rfl
@[simp] theorem State.modVfHdr_hst (p i : Nat) (f : PageHdr → PageHdr) : (s.modVfHdr p i f).hst = s.hst := rfl
@[simp] theorem State.modVfHdr_eci (p i : Nat) (f : PageHdr → PageHdr) : (s.modVfHdr p i f).eci = s.eci := rfl
@[simp] theorem State.modVfHdr_mem (p i : Nat) (f : PageHdr → PageHdr) : (s.modVfHdr p i f).mem = s.mem := rfl
@[simp] theorem State.modVfHdr_clus (p i : Nat) (f : PageHdr → PageHdr) : (s.modVfHdr p i f).clus = s.clus := rfl
@[simp] theorem State.modVfHdr_tiles (p i : Nat) (f : PageHdr → PageHdr) : (s.modVfHdr p i f).tiles = s.tiles := rfl
@[simp] theorem State.modVfHdr_movs (p i : Nat) (f : PageHdr → PageHdr) : (s.modVfHdr p i f).movs = s.movs := rfl
@[simp] theorem State.modVfHdr_seqs (p i : Nat) (f : PageHdr → PageHdr) : (s.modVfHdr p i f).seqs = s.seqs := rfl
@[simp] theorem State.modVfHdr_cdcs (p i : Nat) (f : PageHdr → PageHdr) : (s.modVfHdr p i f).cdcs = s.cdcs := rfl
@[simp] theorem State.modVfHdr_nets (p i : Nat) (f : PageHdr → PageHdr) : (s.modVfHdr p i f).nets = s.nets := rfl
@[simp] theorem State.modVfHdr_hdr (p i : Nat) (f : PageHdr → PageHdr) : (s.modVfHdr p i f).hdr = s.hdr := rfl
@[simp] theorem State.modCluster_pending (i : Nat) (f : Cluster → Cluster) : (s.modCluster i f).pending = s.pending := rfl
@[simp] theorem State.modCluster_free (i : Nat) (f : Cluster → Cluster) : (s.modCluster i f).free = s.free := rfl
@[simp] theorem State.modCluster_nextId (i : Nat) (f : Cluster → Cluster) : (s.modCluster i f).nextId = s.nextId := rfl
@[simp] theorem State.modCluster_reply (i : Nat) (f : Cluster → Cluster) : (s.modCluster i f).reply = s.reply := rfl
@[simp] theorem State.modCluster_out (i : Nat) (f : Cluster → Cluster) : (s.modCluster i f).out = s.out := rfl
@[simp] theorem State.modCluster_fuse (i : Nat) (f : Cluster → Cluster) : (s.modCluster i f).fuse = s.fuse := rfl
@[simp] theorem State.modCluster_flash (i : Nat) (f : Cluster → Cluster) : (s.modCluster i f).flash = s.flash := rfl
@[simp] theorem State.modCluster_pins (i : Nat) (f : Cluster → Cluster) : (s.modCluster i f).pins = s.pins := rfl
@[simp] theorem State.modCluster_pwr (i : Nat) (f : Cluster → Cluster) : (s.modCluster i f).pwr = s.pwr := rfl
@[simp] theorem State.modCluster_mgmt (i : Nat) (f : Cluster → Cluster) : (s.modCluster i f).mgmt = s.mgmt := rfl
@[simp] theorem State.modCluster_sec (i : Nat) (f : Cluster → Cluster) : (s.modCluster i f).sec = s.sec := rfl
@[simp] theorem State.modCluster_ev (i : Nat) (f : Cluster → Cluster) : (s.modCluster i f).ev = s.ev := rfl
@[simp] theorem State.modCluster_hst (i : Nat) (f : Cluster → Cluster) : (s.modCluster i f).hst = s.hst := rfl
@[simp] theorem State.modCluster_eci (i : Nat) (f : Cluster → Cluster) : (s.modCluster i f).eci = s.eci := rfl
@[simp] theorem State.modCluster_mem (i : Nat) (f : Cluster → Cluster) : (s.modCluster i f).mem = s.mem := rfl
@[simp] theorem State.modCluster_tiles (i : Nat) (f : Cluster → Cluster) : (s.modCluster i f).tiles = s.tiles := rfl
@[simp] theorem State.modCluster_movs (i : Nat) (f : Cluster → Cluster) : (s.modCluster i f).movs = s.movs := rfl
@[simp] theorem State.modCluster_seqs (i : Nat) (f : Cluster → Cluster) : (s.modCluster i f).seqs = s.seqs := rfl
@[simp] theorem State.modCluster_cdcs (i : Nat) (f : Cluster → Cluster) : (s.modCluster i f).cdcs = s.cdcs := rfl
@[simp] theorem State.modCluster_nets (i : Nat) (f : Cluster → Cluster) : (s.modCluster i f).nets = s.nets := rfl
@[simp] theorem State.modCluster_parts (i : Nat) (f : Cluster → Cluster) : (s.modCluster i f).parts = s.parts := rfl
@[simp] theorem State.modCluster_hdr (i : Nat) (f : Cluster → Cluster) : (s.modCluster i f).hdr = s.hdr := rfl
@[simp] theorem State.modCluster_part (i : Nat) (f : Cluster → Cluster) (q : Nat) : (s.modCluster i f).part q = s.part q := rfl
@[simp] theorem State.modTile_pending (i : Nat) (f : Tile → Tile) : (s.modTile i f).pending = s.pending := rfl
@[simp] theorem State.modTile_free (i : Nat) (f : Tile → Tile) : (s.modTile i f).free = s.free := rfl
@[simp] theorem State.modTile_nextId (i : Nat) (f : Tile → Tile) : (s.modTile i f).nextId = s.nextId := rfl
@[simp] theorem State.modTile_reply (i : Nat) (f : Tile → Tile) : (s.modTile i f).reply = s.reply := rfl
@[simp] theorem State.modTile_out (i : Nat) (f : Tile → Tile) : (s.modTile i f).out = s.out := rfl
@[simp] theorem State.modTile_fuse (i : Nat) (f : Tile → Tile) : (s.modTile i f).fuse = s.fuse := rfl
@[simp] theorem State.modTile_flash (i : Nat) (f : Tile → Tile) : (s.modTile i f).flash = s.flash := rfl
@[simp] theorem State.modTile_pins (i : Nat) (f : Tile → Tile) : (s.modTile i f).pins = s.pins := rfl
@[simp] theorem State.modTile_pwr (i : Nat) (f : Tile → Tile) : (s.modTile i f).pwr = s.pwr := rfl
@[simp] theorem State.modTile_mgmt (i : Nat) (f : Tile → Tile) : (s.modTile i f).mgmt = s.mgmt := rfl
@[simp] theorem State.modTile_sec (i : Nat) (f : Tile → Tile) : (s.modTile i f).sec = s.sec := rfl
@[simp] theorem State.modTile_ev (i : Nat) (f : Tile → Tile) : (s.modTile i f).ev = s.ev := rfl
@[simp] theorem State.modTile_hst (i : Nat) (f : Tile → Tile) : (s.modTile i f).hst = s.hst := rfl
@[simp] theorem State.modTile_eci (i : Nat) (f : Tile → Tile) : (s.modTile i f).eci = s.eci := rfl
@[simp] theorem State.modTile_mem (i : Nat) (f : Tile → Tile) : (s.modTile i f).mem = s.mem := rfl
@[simp] theorem State.modTile_clus (i : Nat) (f : Tile → Tile) : (s.modTile i f).clus = s.clus := rfl
@[simp] theorem State.modTile_movs (i : Nat) (f : Tile → Tile) : (s.modTile i f).movs = s.movs := rfl
@[simp] theorem State.modTile_seqs (i : Nat) (f : Tile → Tile) : (s.modTile i f).seqs = s.seqs := rfl
@[simp] theorem State.modTile_cdcs (i : Nat) (f : Tile → Tile) : (s.modTile i f).cdcs = s.cdcs := rfl
@[simp] theorem State.modTile_nets (i : Nat) (f : Tile → Tile) : (s.modTile i f).nets = s.nets := rfl
@[simp] theorem State.modTile_parts (i : Nat) (f : Tile → Tile) : (s.modTile i f).parts = s.parts := rfl
@[simp] theorem State.modTile_hdr (i : Nat) (f : Tile → Tile) : (s.modTile i f).hdr = s.hdr := rfl
@[simp] theorem State.modTile_part (i : Nat) (f : Tile → Tile) (q : Nat) : (s.modTile i f).part q = s.part q := rfl
@[simp] theorem State.modMem_pending (f : Mem → Mem) : (s.modMem f).pending = s.pending := rfl
@[simp] theorem State.modMem_free (f : Mem → Mem) : (s.modMem f).free = s.free := rfl
@[simp] theorem State.modMem_nextId (f : Mem → Mem) : (s.modMem f).nextId = s.nextId := rfl
@[simp] theorem State.modMem_reply (f : Mem → Mem) : (s.modMem f).reply = s.reply := rfl
@[simp] theorem State.modMem_out (f : Mem → Mem) : (s.modMem f).out = s.out := rfl
@[simp] theorem State.modMem_fuse (f : Mem → Mem) : (s.modMem f).fuse = s.fuse := rfl
@[simp] theorem State.modMem_flash (f : Mem → Mem) : (s.modMem f).flash = s.flash := rfl
@[simp] theorem State.modMem_pins (f : Mem → Mem) : (s.modMem f).pins = s.pins := rfl
@[simp] theorem State.modMem_pwr (f : Mem → Mem) : (s.modMem f).pwr = s.pwr := rfl
@[simp] theorem State.modMem_mgmt (f : Mem → Mem) : (s.modMem f).mgmt = s.mgmt := rfl
@[simp] theorem State.modMem_sec (f : Mem → Mem) : (s.modMem f).sec = s.sec := rfl
@[simp] theorem State.modMem_ev (f : Mem → Mem) : (s.modMem f).ev = s.ev := rfl
@[simp] theorem State.modMem_hst (f : Mem → Mem) : (s.modMem f).hst = s.hst := rfl
@[simp] theorem State.modMem_eci (f : Mem → Mem) : (s.modMem f).eci = s.eci := rfl
@[simp] theorem State.modMem_clus (f : Mem → Mem) : (s.modMem f).clus = s.clus := rfl
@[simp] theorem State.modMem_tiles (f : Mem → Mem) : (s.modMem f).tiles = s.tiles := rfl
@[simp] theorem State.modMem_movs (f : Mem → Mem) : (s.modMem f).movs = s.movs := rfl
@[simp] theorem State.modMem_seqs (f : Mem → Mem) : (s.modMem f).seqs = s.seqs := rfl
@[simp] theorem State.modMem_cdcs (f : Mem → Mem) : (s.modMem f).cdcs = s.cdcs := rfl
@[simp] theorem State.modMem_nets (f : Mem → Mem) : (s.modMem f).nets = s.nets := rfl
@[simp] theorem State.modMem_parts (f : Mem → Mem) : (s.modMem f).parts = s.parts := rfl
@[simp] theorem State.modMem_hdr (f : Mem → Mem) : (s.modMem f).hdr = s.hdr := rfl
@[simp] theorem State.modMem_part (f : Mem → Mem) (q : Nat) : (s.modMem f).part q = s.part q := rfl
@[simp] theorem State.modChan_pending (i : Nat) (f : Chan → Chan) : (s.modChan i f).pending = s.pending := rfl
@[simp] theorem State.modChan_free (i : Nat) (f : Chan → Chan) : (s.modChan i f).free = s.free := rfl
@[simp] theorem State.modChan_nextId (i : Nat) (f : Chan → Chan) : (s.modChan i f).nextId = s.nextId := rfl
@[simp] theorem State.modChan_reply (i : Nat) (f : Chan → Chan) : (s.modChan i f).reply = s.reply := rfl
@[simp] theorem State.modChan_out (i : Nat) (f : Chan → Chan) : (s.modChan i f).out = s.out := rfl
@[simp] theorem State.modChan_fuse (i : Nat) (f : Chan → Chan) : (s.modChan i f).fuse = s.fuse := rfl
@[simp] theorem State.modChan_flash (i : Nat) (f : Chan → Chan) : (s.modChan i f).flash = s.flash := rfl
@[simp] theorem State.modChan_pins (i : Nat) (f : Chan → Chan) : (s.modChan i f).pins = s.pins := rfl
@[simp] theorem State.modChan_pwr (i : Nat) (f : Chan → Chan) : (s.modChan i f).pwr = s.pwr := rfl
@[simp] theorem State.modChan_mgmt (i : Nat) (f : Chan → Chan) : (s.modChan i f).mgmt = s.mgmt := rfl
@[simp] theorem State.modChan_sec (i : Nat) (f : Chan → Chan) : (s.modChan i f).sec = s.sec := rfl
@[simp] theorem State.modChan_ev (i : Nat) (f : Chan → Chan) : (s.modChan i f).ev = s.ev := rfl
@[simp] theorem State.modChan_hst (i : Nat) (f : Chan → Chan) : (s.modChan i f).hst = s.hst := rfl
@[simp] theorem State.modChan_eci (i : Nat) (f : Chan → Chan) : (s.modChan i f).eci = s.eci := rfl
@[simp] theorem State.modChan_clus (i : Nat) (f : Chan → Chan) : (s.modChan i f).clus = s.clus := rfl
@[simp] theorem State.modChan_tiles (i : Nat) (f : Chan → Chan) : (s.modChan i f).tiles = s.tiles := rfl
@[simp] theorem State.modChan_movs (i : Nat) (f : Chan → Chan) : (s.modChan i f).movs = s.movs := rfl
@[simp] theorem State.modChan_seqs (i : Nat) (f : Chan → Chan) : (s.modChan i f).seqs = s.seqs := rfl
@[simp] theorem State.modChan_cdcs (i : Nat) (f : Chan → Chan) : (s.modChan i f).cdcs = s.cdcs := rfl
@[simp] theorem State.modChan_nets (i : Nat) (f : Chan → Chan) : (s.modChan i f).nets = s.nets := rfl
@[simp] theorem State.modChan_parts (i : Nat) (f : Chan → Chan) : (s.modChan i f).parts = s.parts := rfl
@[simp] theorem State.modChan_hdr (i : Nat) (f : Chan → Chan) : (s.modChan i f).hdr = s.hdr := rfl
@[simp] theorem State.modChan_part (i : Nat) (f : Chan → Chan) (q : Nat) : (s.modChan i f).part q = s.part q := rfl
@[simp] theorem State.modDie_pending (i : Nat) (f : Die → Die) : (s.modDie i f).pending = s.pending := rfl
@[simp] theorem State.modDie_free (i : Nat) (f : Die → Die) : (s.modDie i f).free = s.free := rfl
@[simp] theorem State.modDie_nextId (i : Nat) (f : Die → Die) : (s.modDie i f).nextId = s.nextId := rfl
@[simp] theorem State.modDie_reply (i : Nat) (f : Die → Die) : (s.modDie i f).reply = s.reply := rfl
@[simp] theorem State.modDie_out (i : Nat) (f : Die → Die) : (s.modDie i f).out = s.out := rfl
@[simp] theorem State.modDie_fuse (i : Nat) (f : Die → Die) : (s.modDie i f).fuse = s.fuse := rfl
@[simp] theorem State.modDie_flash (i : Nat) (f : Die → Die) : (s.modDie i f).flash = s.flash := rfl
@[simp] theorem State.modDie_pins (i : Nat) (f : Die → Die) : (s.modDie i f).pins = s.pins := rfl
@[simp] theorem State.modDie_pwr (i : Nat) (f : Die → Die) : (s.modDie i f).pwr = s.pwr := rfl
@[simp] theorem State.modDie_mgmt (i : Nat) (f : Die → Die) : (s.modDie i f).mgmt = s.mgmt := rfl
@[simp] theorem State.modDie_sec (i : Nat) (f : Die → Die) : (s.modDie i f).sec = s.sec := rfl
@[simp] theorem State.modDie_ev (i : Nat) (f : Die → Die) : (s.modDie i f).ev = s.ev := rfl
@[simp] theorem State.modDie_hst (i : Nat) (f : Die → Die) : (s.modDie i f).hst = s.hst := rfl
@[simp] theorem State.modDie_eci (i : Nat) (f : Die → Die) : (s.modDie i f).eci = s.eci := rfl
@[simp] theorem State.modDie_clus (i : Nat) (f : Die → Die) : (s.modDie i f).clus = s.clus := rfl
@[simp] theorem State.modDie_tiles (i : Nat) (f : Die → Die) : (s.modDie i f).tiles = s.tiles := rfl
@[simp] theorem State.modDie_movs (i : Nat) (f : Die → Die) : (s.modDie i f).movs = s.movs := rfl
@[simp] theorem State.modDie_seqs (i : Nat) (f : Die → Die) : (s.modDie i f).seqs = s.seqs := rfl
@[simp] theorem State.modDie_cdcs (i : Nat) (f : Die → Die) : (s.modDie i f).cdcs = s.cdcs := rfl
@[simp] theorem State.modDie_nets (i : Nat) (f : Die → Die) : (s.modDie i f).nets = s.nets := rfl
@[simp] theorem State.modDie_parts (i : Nat) (f : Die → Die) : (s.modDie i f).parts = s.parts := rfl
@[simp] theorem State.modDie_hdr (i : Nat) (f : Die → Die) : (s.modDie i f).hdr = s.hdr := rfl
@[simp] theorem State.modDie_part (i : Nat) (f : Die → Die) (q : Nat) : (s.modDie i f).part q = s.part q := rfl
@[simp] theorem State.modQuad_pending (i : Nat) (f : Quad → Quad) : (s.modQuad i f).pending = s.pending := rfl
@[simp] theorem State.modQuad_free (i : Nat) (f : Quad → Quad) : (s.modQuad i f).free = s.free := rfl
@[simp] theorem State.modQuad_nextId (i : Nat) (f : Quad → Quad) : (s.modQuad i f).nextId = s.nextId := rfl
@[simp] theorem State.modQuad_reply (i : Nat) (f : Quad → Quad) : (s.modQuad i f).reply = s.reply := rfl
@[simp] theorem State.modQuad_out (i : Nat) (f : Quad → Quad) : (s.modQuad i f).out = s.out := rfl
@[simp] theorem State.modQuad_fuse (i : Nat) (f : Quad → Quad) : (s.modQuad i f).fuse = s.fuse := rfl
@[simp] theorem State.modQuad_flash (i : Nat) (f : Quad → Quad) : (s.modQuad i f).flash = s.flash := rfl
@[simp] theorem State.modQuad_pins (i : Nat) (f : Quad → Quad) : (s.modQuad i f).pins = s.pins := rfl
@[simp] theorem State.modQuad_mgmt (i : Nat) (f : Quad → Quad) : (s.modQuad i f).mgmt = s.mgmt := rfl
@[simp] theorem State.modQuad_sec (i : Nat) (f : Quad → Quad) : (s.modQuad i f).sec = s.sec := rfl
@[simp] theorem State.modQuad_ev (i : Nat) (f : Quad → Quad) : (s.modQuad i f).ev = s.ev := rfl
@[simp] theorem State.modQuad_hst (i : Nat) (f : Quad → Quad) : (s.modQuad i f).hst = s.hst := rfl
@[simp] theorem State.modQuad_eci (i : Nat) (f : Quad → Quad) : (s.modQuad i f).eci = s.eci := rfl
@[simp] theorem State.modQuad_mem (i : Nat) (f : Quad → Quad) : (s.modQuad i f).mem = s.mem := rfl
@[simp] theorem State.modQuad_clus (i : Nat) (f : Quad → Quad) : (s.modQuad i f).clus = s.clus := rfl
@[simp] theorem State.modQuad_tiles (i : Nat) (f : Quad → Quad) : (s.modQuad i f).tiles = s.tiles := rfl
@[simp] theorem State.modQuad_movs (i : Nat) (f : Quad → Quad) : (s.modQuad i f).movs = s.movs := rfl
@[simp] theorem State.modQuad_seqs (i : Nat) (f : Quad → Quad) : (s.modQuad i f).seqs = s.seqs := rfl
@[simp] theorem State.modQuad_cdcs (i : Nat) (f : Quad → Quad) : (s.modQuad i f).cdcs = s.cdcs := rfl
@[simp] theorem State.modQuad_nets (i : Nat) (f : Quad → Quad) : (s.modQuad i f).nets = s.nets := rfl
@[simp] theorem State.modQuad_parts (i : Nat) (f : Quad → Quad) : (s.modQuad i f).parts = s.parts := rfl
@[simp] theorem State.modQuad_hdr (i : Nat) (f : Quad → Quad) : (s.modQuad i f).hdr = s.hdr := rfl
@[simp] theorem State.modQuad_part (i : Nat) (f : Quad → Quad) (q : Nat) : (s.modQuad i f).part q = s.part q := rfl
@[simp] theorem State.modPwr_pending (f : Power → Power) : (s.modPwr f).pending = s.pending := rfl
@[simp] theorem State.modPwr_free (f : Power → Power) : (s.modPwr f).free = s.free := rfl
@[simp] theorem State.modPwr_nextId (f : Power → Power) : (s.modPwr f).nextId = s.nextId := rfl
@[simp] theorem State.modPwr_reply (f : Power → Power) : (s.modPwr f).reply = s.reply := rfl
@[simp] theorem State.modPwr_out (f : Power → Power) : (s.modPwr f).out = s.out := rfl
@[simp] theorem State.modPwr_fuse (f : Power → Power) : (s.modPwr f).fuse = s.fuse := rfl
@[simp] theorem State.modPwr_flash (f : Power → Power) : (s.modPwr f).flash = s.flash := rfl
@[simp] theorem State.modPwr_pins (f : Power → Power) : (s.modPwr f).pins = s.pins := rfl
@[simp] theorem State.modPwr_mgmt (f : Power → Power) : (s.modPwr f).mgmt = s.mgmt := rfl
@[simp] theorem State.modPwr_sec (f : Power → Power) : (s.modPwr f).sec = s.sec := rfl
@[simp] theorem State.modPwr_ev (f : Power → Power) : (s.modPwr f).ev = s.ev := rfl
@[simp] theorem State.modPwr_hst (f : Power → Power) : (s.modPwr f).hst = s.hst := rfl
@[simp] theorem State.modPwr_eci (f : Power → Power) : (s.modPwr f).eci = s.eci := rfl
@[simp] theorem State.modPwr_mem (f : Power → Power) : (s.modPwr f).mem = s.mem := rfl
@[simp] theorem State.modPwr_clus (f : Power → Power) : (s.modPwr f).clus = s.clus := rfl
@[simp] theorem State.modPwr_tiles (f : Power → Power) : (s.modPwr f).tiles = s.tiles := rfl
@[simp] theorem State.modPwr_movs (f : Power → Power) : (s.modPwr f).movs = s.movs := rfl
@[simp] theorem State.modPwr_seqs (f : Power → Power) : (s.modPwr f).seqs = s.seqs := rfl
@[simp] theorem State.modPwr_cdcs (f : Power → Power) : (s.modPwr f).cdcs = s.cdcs := rfl
@[simp] theorem State.modPwr_nets (f : Power → Power) : (s.modPwr f).nets = s.nets := rfl
@[simp] theorem State.modPwr_parts (f : Power → Power) : (s.modPwr f).parts = s.parts := rfl
@[simp] theorem State.modPwr_hdr (f : Power → Power) : (s.modPwr f).hdr = s.hdr := rfl
@[simp] theorem State.modPwr_part (f : Power → Power) (q : Nat) : (s.modPwr f).part q = s.part q := rfl
@[simp] theorem State.modSec_pending (f : Security → Security) : (s.modSec f).pending = s.pending := rfl
@[simp] theorem State.modSec_free (f : Security → Security) : (s.modSec f).free = s.free := rfl
@[simp] theorem State.modSec_nextId (f : Security → Security) : (s.modSec f).nextId = s.nextId := rfl
@[simp] theorem State.modSec_reply (f : Security → Security) : (s.modSec f).reply = s.reply := rfl
@[simp] theorem State.modSec_out (f : Security → Security) : (s.modSec f).out = s.out := rfl
@[simp] theorem State.modSec_fuse (f : Security → Security) : (s.modSec f).fuse = s.fuse := rfl
@[simp] theorem State.modSec_flash (f : Security → Security) : (s.modSec f).flash = s.flash := rfl
@[simp] theorem State.modSec_pins (f : Security → Security) : (s.modSec f).pins = s.pins := rfl
@[simp] theorem State.modSec_pwr (f : Security → Security) : (s.modSec f).pwr = s.pwr := rfl
@[simp] theorem State.modSec_mgmt (f : Security → Security) : (s.modSec f).mgmt = s.mgmt := rfl
@[simp] theorem State.modSec_ev (f : Security → Security) : (s.modSec f).ev = s.ev := rfl
@[simp] theorem State.modSec_hst (f : Security → Security) : (s.modSec f).hst = s.hst := rfl
@[simp] theorem State.modSec_eci (f : Security → Security) : (s.modSec f).eci = s.eci := rfl
@[simp] theorem State.modSec_mem (f : Security → Security) : (s.modSec f).mem = s.mem := rfl
@[simp] theorem State.modSec_clus (f : Security → Security) : (s.modSec f).clus = s.clus := rfl
@[simp] theorem State.modSec_tiles (f : Security → Security) : (s.modSec f).tiles = s.tiles := rfl
@[simp] theorem State.modSec_movs (f : Security → Security) : (s.modSec f).movs = s.movs := rfl
@[simp] theorem State.modSec_seqs (f : Security → Security) : (s.modSec f).seqs = s.seqs := rfl
@[simp] theorem State.modSec_cdcs (f : Security → Security) : (s.modSec f).cdcs = s.cdcs := rfl
@[simp] theorem State.modSec_nets (f : Security → Security) : (s.modSec f).nets = s.nets := rfl
@[simp] theorem State.modSec_parts (f : Security → Security) : (s.modSec f).parts = s.parts := rfl
@[simp] theorem State.modSec_hdr (f : Security → Security) : (s.modSec f).hdr = s.hdr := rfl
@[simp] theorem State.modSec_part (f : Security → Security) (q : Nat) : (s.modSec f).part q = s.part q := rfl
@[simp] theorem State.modFlash_pending (f : Flash → Flash) : (s.modFlash f).pending = s.pending := rfl
@[simp] theorem State.modFlash_free (f : Flash → Flash) : (s.modFlash f).free = s.free := rfl
@[simp] theorem State.modFlash_nextId (f : Flash → Flash) : (s.modFlash f).nextId = s.nextId := rfl
@[simp] theorem State.modFlash_reply (f : Flash → Flash) : (s.modFlash f).reply = s.reply := rfl
@[simp] theorem State.modFlash_out (f : Flash → Flash) : (s.modFlash f).out = s.out := rfl
@[simp] theorem State.modFlash_fuse (f : Flash → Flash) : (s.modFlash f).fuse = s.fuse := rfl
@[simp] theorem State.modFlash_pins (f : Flash → Flash) : (s.modFlash f).pins = s.pins := rfl
@[simp] theorem State.modFlash_pwr (f : Flash → Flash) : (s.modFlash f).pwr = s.pwr := rfl
@[simp] theorem State.modFlash_mgmt (f : Flash → Flash) : (s.modFlash f).mgmt = s.mgmt := rfl
@[simp] theorem State.modFlash_sec (f : Flash → Flash) : (s.modFlash f).sec = s.sec := rfl
@[simp] theorem State.modFlash_ev (f : Flash → Flash) : (s.modFlash f).ev = s.ev := rfl
@[simp] theorem State.modFlash_hst (f : Flash → Flash) : (s.modFlash f).hst = s.hst := rfl
@[simp] theorem State.modFlash_eci (f : Flash → Flash) : (s.modFlash f).eci = s.eci := rfl
@[simp] theorem State.modFlash_mem (f : Flash → Flash) : (s.modFlash f).mem = s.mem := rfl
@[simp] theorem State.modFlash_clus (f : Flash → Flash) : (s.modFlash f).clus = s.clus := rfl
@[simp] theorem State.modFlash_tiles (f : Flash → Flash) : (s.modFlash f).tiles = s.tiles := rfl
@[simp] theorem State.modFlash_movs (f : Flash → Flash) : (s.modFlash f).movs = s.movs := rfl
@[simp] theorem State.modFlash_seqs (f : Flash → Flash) : (s.modFlash f).seqs = s.seqs := rfl
@[simp] theorem State.modFlash_cdcs (f : Flash → Flash) : (s.modFlash f).cdcs = s.cdcs := rfl
@[simp] theorem State.modFlash_nets (f : Flash → Flash) : (s.modFlash f).nets = s.nets := rfl
@[simp] theorem State.modFlash_parts (f : Flash → Flash) : (s.modFlash f).parts = s.parts := rfl
@[simp] theorem State.modFlash_hdr (f : Flash → Flash) : (s.modFlash f).hdr = s.hdr := rfl
@[simp] theorem State.modFlash_part (f : Flash → Flash) (q : Nat) : (s.modFlash f).part q = s.part q := rfl
@[simp] theorem State.modEv_pending (f : Events → Events) : (s.modEv f).pending = s.pending := rfl
@[simp] theorem State.modEv_free (f : Events → Events) : (s.modEv f).free = s.free := rfl
@[simp] theorem State.modEv_nextId (f : Events → Events) : (s.modEv f).nextId = s.nextId := rfl
@[simp] theorem State.modEv_reply (f : Events → Events) : (s.modEv f).reply = s.reply := rfl
@[simp] theorem State.modEv_out (f : Events → Events) : (s.modEv f).out = s.out := rfl
@[simp] theorem State.modEv_fuse (f : Events → Events) : (s.modEv f).fuse = s.fuse := rfl
@[simp] theorem State.modEv_flash (f : Events → Events) : (s.modEv f).flash = s.flash := rfl
@[simp] theorem State.modEv_pins (f : Events → Events) : (s.modEv f).pins = s.pins := rfl
@[simp] theorem State.modEv_pwr (f : Events → Events) : (s.modEv f).pwr = s.pwr := rfl
@[simp] theorem State.modEv_mgmt (f : Events → Events) : (s.modEv f).mgmt = s.mgmt := rfl
@[simp] theorem State.modEv_sec (f : Events → Events) : (s.modEv f).sec = s.sec := rfl
@[simp] theorem State.modEv_hst (f : Events → Events) : (s.modEv f).hst = s.hst := rfl
@[simp] theorem State.modEv_eci (f : Events → Events) : (s.modEv f).eci = s.eci := rfl
@[simp] theorem State.modEv_mem (f : Events → Events) : (s.modEv f).mem = s.mem := rfl
@[simp] theorem State.modEv_clus (f : Events → Events) : (s.modEv f).clus = s.clus := rfl
@[simp] theorem State.modEv_tiles (f : Events → Events) : (s.modEv f).tiles = s.tiles := rfl
@[simp] theorem State.modEv_movs (f : Events → Events) : (s.modEv f).movs = s.movs := rfl
@[simp] theorem State.modEv_seqs (f : Events → Events) : (s.modEv f).seqs = s.seqs := rfl
@[simp] theorem State.modEv_cdcs (f : Events → Events) : (s.modEv f).cdcs = s.cdcs := rfl
@[simp] theorem State.modEv_nets (f : Events → Events) : (s.modEv f).nets = s.nets := rfl
@[simp] theorem State.modEv_parts (f : Events → Events) : (s.modEv f).parts = s.parts := rfl
@[simp] theorem State.modEv_hdr (f : Events → Events) : (s.modEv f).hdr = s.hdr := rfl
@[simp] theorem State.modEv_part (f : Events → Events) (q : Nat) : (s.modEv f).part q = s.part q := rfl
@[simp] theorem State.modHst_pending (f : HostPort → HostPort) : (s.modHst f).pending = s.pending := rfl
@[simp] theorem State.modHst_free (f : HostPort → HostPort) : (s.modHst f).free = s.free := rfl
@[simp] theorem State.modHst_nextId (f : HostPort → HostPort) : (s.modHst f).nextId = s.nextId := rfl
@[simp] theorem State.modHst_reply (f : HostPort → HostPort) : (s.modHst f).reply = s.reply := rfl
@[simp] theorem State.modHst_out (f : HostPort → HostPort) : (s.modHst f).out = s.out := rfl
@[simp] theorem State.modHst_fuse (f : HostPort → HostPort) : (s.modHst f).fuse = s.fuse := rfl
@[simp] theorem State.modHst_flash (f : HostPort → HostPort) : (s.modHst f).flash = s.flash := rfl
@[simp] theorem State.modHst_pins (f : HostPort → HostPort) : (s.modHst f).pins = s.pins := rfl
@[simp] theorem State.modHst_pwr (f : HostPort → HostPort) : (s.modHst f).pwr = s.pwr := rfl
@[simp] theorem State.modHst_mgmt (f : HostPort → HostPort) : (s.modHst f).mgmt = s.mgmt := rfl
@[simp] theorem State.modHst_sec (f : HostPort → HostPort) : (s.modHst f).sec = s.sec := rfl
@[simp] theorem State.modHst_ev (f : HostPort → HostPort) : (s.modHst f).ev = s.ev := rfl
@[simp] theorem State.modHst_eci (f : HostPort → HostPort) : (s.modHst f).eci = s.eci := rfl
@[simp] theorem State.modHst_mem (f : HostPort → HostPort) : (s.modHst f).mem = s.mem := rfl
@[simp] theorem State.modHst_clus (f : HostPort → HostPort) : (s.modHst f).clus = s.clus := rfl
@[simp] theorem State.modHst_tiles (f : HostPort → HostPort) : (s.modHst f).tiles = s.tiles := rfl
@[simp] theorem State.modHst_movs (f : HostPort → HostPort) : (s.modHst f).movs = s.movs := rfl
@[simp] theorem State.modHst_seqs (f : HostPort → HostPort) : (s.modHst f).seqs = s.seqs := rfl
@[simp] theorem State.modHst_cdcs (f : HostPort → HostPort) : (s.modHst f).cdcs = s.cdcs := rfl
@[simp] theorem State.modHst_nets (f : HostPort → HostPort) : (s.modHst f).nets = s.nets := rfl
@[simp] theorem State.modHst_parts (f : HostPort → HostPort) : (s.modHst f).parts = s.parts := rfl
@[simp] theorem State.modHst_hdr (f : HostPort → HostPort) : (s.modHst f).hdr = s.hdr := rfl
@[simp] theorem State.modHst_part (f : HostPort → HostPort) (q : Nat) : (s.modHst f).part q = s.part q := rfl
@[simp] theorem State.modEci_pending (f : Eci → Eci) : (s.modEci f).pending = s.pending := rfl
@[simp] theorem State.modEci_free (f : Eci → Eci) : (s.modEci f).free = s.free := rfl
@[simp] theorem State.modEci_nextId (f : Eci → Eci) : (s.modEci f).nextId = s.nextId := rfl
@[simp] theorem State.modEci_reply (f : Eci → Eci) : (s.modEci f).reply = s.reply := rfl
@[simp] theorem State.modEci_out (f : Eci → Eci) : (s.modEci f).out = s.out := rfl
@[simp] theorem State.modEci_fuse (f : Eci → Eci) : (s.modEci f).fuse = s.fuse := rfl
@[simp] theorem State.modEci_flash (f : Eci → Eci) : (s.modEci f).flash = s.flash := rfl
@[simp] theorem State.modEci_pins (f : Eci → Eci) : (s.modEci f).pins = s.pins := rfl
@[simp] theorem State.modEci_pwr (f : Eci → Eci) : (s.modEci f).pwr = s.pwr := rfl
@[simp] theorem State.modEci_mgmt (f : Eci → Eci) : (s.modEci f).mgmt = s.mgmt := rfl
@[simp] theorem State.modEci_sec (f : Eci → Eci) : (s.modEci f).sec = s.sec := rfl
@[simp] theorem State.modEci_ev (f : Eci → Eci) : (s.modEci f).ev = s.ev := rfl
@[simp] theorem State.modEci_hst (f : Eci → Eci) : (s.modEci f).hst = s.hst := rfl
@[simp] theorem State.modEci_mem (f : Eci → Eci) : (s.modEci f).mem = s.mem := rfl
@[simp] theorem State.modEci_clus (f : Eci → Eci) : (s.modEci f).clus = s.clus := rfl
@[simp] theorem State.modEci_tiles (f : Eci → Eci) : (s.modEci f).tiles = s.tiles := rfl
@[simp] theorem State.modEci_movs (f : Eci → Eci) : (s.modEci f).movs = s.movs := rfl
@[simp] theorem State.modEci_seqs (f : Eci → Eci) : (s.modEci f).seqs = s.seqs := rfl
@[simp] theorem State.modEci_cdcs (f : Eci → Eci) : (s.modEci f).cdcs = s.cdcs := rfl
@[simp] theorem State.modEci_nets (f : Eci → Eci) : (s.modEci f).nets = s.nets := rfl
@[simp] theorem State.modEci_parts (f : Eci → Eci) : (s.modEci f).parts = s.parts := rfl
@[simp] theorem State.modEci_hdr (f : Eci → Eci) : (s.modEci f).hdr = s.hdr := rfl
@[simp] theorem State.modEci_part (f : Eci → Eci) (q : Nat) : (s.modEci f).part q = s.part q := rfl
@[simp] theorem State.modMgmt_pending (f : Mgmt → Mgmt) : (s.modMgmt f).pending = s.pending := rfl
@[simp] theorem State.modMgmt_free (f : Mgmt → Mgmt) : (s.modMgmt f).free = s.free := rfl
@[simp] theorem State.modMgmt_nextId (f : Mgmt → Mgmt) : (s.modMgmt f).nextId = s.nextId := rfl
@[simp] theorem State.modMgmt_reply (f : Mgmt → Mgmt) : (s.modMgmt f).reply = s.reply := rfl
@[simp] theorem State.modMgmt_out (f : Mgmt → Mgmt) : (s.modMgmt f).out = s.out := rfl
@[simp] theorem State.modMgmt_fuse (f : Mgmt → Mgmt) : (s.modMgmt f).fuse = s.fuse := rfl
@[simp] theorem State.modMgmt_flash (f : Mgmt → Mgmt) : (s.modMgmt f).flash = s.flash := rfl
@[simp] theorem State.modMgmt_pins (f : Mgmt → Mgmt) : (s.modMgmt f).pins = s.pins := rfl
@[simp] theorem State.modMgmt_pwr (f : Mgmt → Mgmt) : (s.modMgmt f).pwr = s.pwr := rfl
@[simp] theorem State.modMgmt_sec (f : Mgmt → Mgmt) : (s.modMgmt f).sec = s.sec := rfl
@[simp] theorem State.modMgmt_ev (f : Mgmt → Mgmt) : (s.modMgmt f).ev = s.ev := rfl
@[simp] theorem State.modMgmt_hst (f : Mgmt → Mgmt) : (s.modMgmt f).hst = s.hst := rfl
@[simp] theorem State.modMgmt_eci (f : Mgmt → Mgmt) : (s.modMgmt f).eci = s.eci := rfl
@[simp] theorem State.modMgmt_mem (f : Mgmt → Mgmt) : (s.modMgmt f).mem = s.mem := rfl
@[simp] theorem State.modMgmt_clus (f : Mgmt → Mgmt) : (s.modMgmt f).clus = s.clus := rfl
@[simp] theorem State.modMgmt_tiles (f : Mgmt → Mgmt) : (s.modMgmt f).tiles = s.tiles := rfl
@[simp] theorem State.modMgmt_movs (f : Mgmt → Mgmt) : (s.modMgmt f).movs = s.movs := rfl
@[simp] theorem State.modMgmt_seqs (f : Mgmt → Mgmt) : (s.modMgmt f).seqs = s.seqs := rfl
@[simp] theorem State.modMgmt_cdcs (f : Mgmt → Mgmt) : (s.modMgmt f).cdcs = s.cdcs := rfl
@[simp] theorem State.modMgmt_nets (f : Mgmt → Mgmt) : (s.modMgmt f).nets = s.nets := rfl
@[simp] theorem State.modMgmt_parts (f : Mgmt → Mgmt) : (s.modMgmt f).parts = s.parts := rfl
@[simp] theorem State.modMgmt_hdr (f : Mgmt → Mgmt) : (s.modMgmt f).hdr = s.hdr := rfl
@[simp] theorem State.modMgmt_part (f : Mgmt → Mgmt) (q : Nat) : (s.modMgmt f).part q = s.part q := rfl
@[simp] theorem State.modEng_pending (i : Nat) (f : CdcEng → CdcEng) : (s.modEng i f).pending = s.pending := rfl
@[simp] theorem State.modEng_free (i : Nat) (f : CdcEng → CdcEng) : (s.modEng i f).free = s.free := rfl
@[simp] theorem State.modEng_nextId (i : Nat) (f : CdcEng → CdcEng) : (s.modEng i f).nextId = s.nextId := rfl
@[simp] theorem State.modEng_reply (i : Nat) (f : CdcEng → CdcEng) : (s.modEng i f).reply = s.reply := rfl
@[simp] theorem State.modEng_out (i : Nat) (f : CdcEng → CdcEng) : (s.modEng i f).out = s.out := rfl
@[simp] theorem State.modEng_fuse (i : Nat) (f : CdcEng → CdcEng) : (s.modEng i f).fuse = s.fuse := rfl
@[simp] theorem State.modEng_flash (i : Nat) (f : CdcEng → CdcEng) : (s.modEng i f).flash = s.flash := rfl
@[simp] theorem State.modEng_pins (i : Nat) (f : CdcEng → CdcEng) : (s.modEng i f).pins = s.pins := rfl
@[simp] theorem State.modEng_pwr (i : Nat) (f : CdcEng → CdcEng) : (s.modEng i f).pwr = s.pwr := rfl
@[simp] theorem State.modEng_mgmt (i : Nat) (f : CdcEng → CdcEng) : (s.modEng i f).mgmt = s.mgmt := rfl
@[simp] theorem State.modEng_sec (i : Nat) (f : CdcEng → CdcEng) : (s.modEng i f).sec = s.sec := rfl
@[simp] theorem State.modEng_ev (i : Nat) (f : CdcEng → CdcEng) : (s.modEng i f).ev = s.ev := rfl
@[simp] theorem State.modEng_hst (i : Nat) (f : CdcEng → CdcEng) : (s.modEng i f).hst = s.hst := rfl
@[simp] theorem State.modEng_eci (i : Nat) (f : CdcEng → CdcEng) : (s.modEng i f).eci = s.eci := rfl
@[simp] theorem State.modEng_mem (i : Nat) (f : CdcEng → CdcEng) : (s.modEng i f).mem = s.mem := rfl
@[simp] theorem State.modEng_clus (i : Nat) (f : CdcEng → CdcEng) : (s.modEng i f).clus = s.clus := rfl
@[simp] theorem State.modEng_tiles (i : Nat) (f : CdcEng → CdcEng) : (s.modEng i f).tiles = s.tiles := rfl
@[simp] theorem State.modEng_movs (i : Nat) (f : CdcEng → CdcEng) : (s.modEng i f).movs = s.movs := rfl
@[simp] theorem State.modEng_seqs (i : Nat) (f : CdcEng → CdcEng) : (s.modEng i f).seqs = s.seqs := rfl
@[simp] theorem State.modEng_nets (i : Nat) (f : CdcEng → CdcEng) : (s.modEng i f).nets = s.nets := rfl
@[simp] theorem State.modEng_parts (i : Nat) (f : CdcEng → CdcEng) : (s.modEng i f).parts = s.parts := rfl
@[simp] theorem State.modEng_hdr (i : Nat) (f : CdcEng → CdcEng) : (s.modEng i f).hdr = s.hdr := rfl
@[simp] theorem State.modEng_part (i : Nat) (f : CdcEng → CdcEng) (q : Nat) : (s.modEng i f).part q = s.part q := rfl
@[simp] theorem State.modPort_pending (i : Nat) (f : NetPort → NetPort) : (s.modPort i f).pending = s.pending := rfl
@[simp] theorem State.modPort_free (i : Nat) (f : NetPort → NetPort) : (s.modPort i f).free = s.free := rfl
@[simp] theorem State.modPort_nextId (i : Nat) (f : NetPort → NetPort) : (s.modPort i f).nextId = s.nextId := rfl
@[simp] theorem State.modPort_reply (i : Nat) (f : NetPort → NetPort) : (s.modPort i f).reply = s.reply := rfl
@[simp] theorem State.modPort_out (i : Nat) (f : NetPort → NetPort) : (s.modPort i f).out = s.out := rfl
@[simp] theorem State.modPort_fuse (i : Nat) (f : NetPort → NetPort) : (s.modPort i f).fuse = s.fuse := rfl
@[simp] theorem State.modPort_flash (i : Nat) (f : NetPort → NetPort) : (s.modPort i f).flash = s.flash := rfl
@[simp] theorem State.modPort_pins (i : Nat) (f : NetPort → NetPort) : (s.modPort i f).pins = s.pins := rfl
@[simp] theorem State.modPort_pwr (i : Nat) (f : NetPort → NetPort) : (s.modPort i f).pwr = s.pwr := rfl
@[simp] theorem State.modPort_mgmt (i : Nat) (f : NetPort → NetPort) : (s.modPort i f).mgmt = s.mgmt := rfl
@[simp] theorem State.modPort_sec (i : Nat) (f : NetPort → NetPort) : (s.modPort i f).sec = s.sec := rfl
@[simp] theorem State.modPort_ev (i : Nat) (f : NetPort → NetPort) : (s.modPort i f).ev = s.ev := rfl
@[simp] theorem State.modPort_hst (i : Nat) (f : NetPort → NetPort) : (s.modPort i f).hst = s.hst := rfl
@[simp] theorem State.modPort_eci (i : Nat) (f : NetPort → NetPort) : (s.modPort i f).eci = s.eci := rfl
@[simp] theorem State.modPort_mem (i : Nat) (f : NetPort → NetPort) : (s.modPort i f).mem = s.mem := rfl
@[simp] theorem State.modPort_clus (i : Nat) (f : NetPort → NetPort) : (s.modPort i f).clus = s.clus := rfl
@[simp] theorem State.modPort_tiles (i : Nat) (f : NetPort → NetPort) : (s.modPort i f).tiles = s.tiles := rfl
@[simp] theorem State.modPort_movs (i : Nat) (f : NetPort → NetPort) : (s.modPort i f).movs = s.movs := rfl
@[simp] theorem State.modPort_seqs (i : Nat) (f : NetPort → NetPort) : (s.modPort i f).seqs = s.seqs := rfl
@[simp] theorem State.modPort_cdcs (i : Nat) (f : NetPort → NetPort) : (s.modPort i f).cdcs = s.cdcs := rfl
@[simp] theorem State.modPort_parts (i : Nat) (f : NetPort → NetPort) : (s.modPort i f).parts = s.parts := rfl
@[simp] theorem State.modPort_hdr (i : Nat) (f : NetPort → NetPort) : (s.modPort i f).hdr = s.hdr := rfl
@[simp] theorem State.modPort_part (i : Nat) (f : NetPort → NetPort) (q : Nat) : (s.modPort i f).part q = s.part q := rfl
@[simp] theorem State.answer_pending (r : Reply) : (s.answer r).pending = s.pending := rfl
@[simp] theorem State.answer_free (r : Reply) : (s.answer r).free = s.free := rfl
@[simp] theorem State.answer_nextId (r : Reply) : (s.answer r).nextId = s.nextId := rfl
@[simp] theorem State.answer_out (r : Reply) : (s.answer r).out = s.out := rfl
@[simp] theorem State.answer_fuse (r : Reply) : (s.answer r).fuse = s.fuse := rfl
@[simp] theorem State.answer_flash (r : Reply) : (s.answer r).flash = s.flash := rfl
@[simp] theorem State.answer_pins (r : Reply) : (s.answer r).pins = s.pins := rfl
@[simp] theorem State.answer_pwr (r : Reply) : (s.answer r).pwr = s.pwr := rfl
@[simp] theorem State.answer_mgmt (r : Reply) : (s.answer r).mgmt = s.mgmt := rfl
@[simp] theorem State.answer_sec (r : Reply) : (s.answer r).sec = s.sec := rfl
@[simp] theorem State.answer_ev (r : Reply) : (s.answer r).ev = s.ev := rfl
@[simp] theorem State.answer_hst (r : Reply) : (s.answer r).hst = s.hst := rfl
@[simp] theorem State.answer_eci (r : Reply) : (s.answer r).eci = s.eci := rfl
@[simp] theorem State.answer_mem (r : Reply) : (s.answer r).mem = s.mem := rfl
@[simp] theorem State.answer_clus (r : Reply) : (s.answer r).clus = s.clus := rfl
@[simp] theorem State.answer_tiles (r : Reply) : (s.answer r).tiles = s.tiles := rfl
@[simp] theorem State.answer_movs (r : Reply) : (s.answer r).movs = s.movs := rfl
@[simp] theorem State.answer_seqs (r : Reply) : (s.answer r).seqs = s.seqs := rfl
@[simp] theorem State.answer_cdcs (r : Reply) : (s.answer r).cdcs = s.cdcs := rfl
@[simp] theorem State.answer_nets (r : Reply) : (s.answer r).nets = s.nets := rfl
@[simp] theorem State.answer_parts (r : Reply) : (s.answer r).parts = s.parts := rfl
@[simp] theorem State.answer_hdr (r : Reply) : (s.answer r).hdr = s.hdr := rfl
@[simp] theorem State.answer_part (r : Reply) (q : Nat) : (s.answer r).part q = s.part q := rfl
@[simp] theorem State.emit_pending (o : Out) : (s.emit o).pending = s.pending := rfl
@[simp] theorem State.emit_free (o : Out) : (s.emit o).free = s.free := rfl
@[simp] theorem State.emit_nextId (o : Out) : (s.emit o).nextId = s.nextId := rfl
@[simp] theorem State.emit_reply (o : Out) : (s.emit o).reply = s.reply := rfl
@[simp] theorem State.emit_fuse (o : Out) : (s.emit o).fuse = s.fuse := rfl
@[simp] theorem State.emit_flash (o : Out) : (s.emit o).flash = s.flash := rfl
@[simp] theorem State.emit_pins (o : Out) : (s.emit o).pins = s.pins := rfl
@[simp] theorem State.emit_pwr (o : Out) : (s.emit o).pwr = s.pwr := rfl
@[simp] theorem State.emit_mgmt (o : Out) : (s.emit o).mgmt = s.mgmt := rfl
@[simp] theorem State.emit_sec (o : Out) : (s.emit o).sec = s.sec := rfl
@[simp] theorem State.emit_ev (o : Out) : (s.emit o).ev = s.ev := rfl
@[simp] theorem State.emit_hst (o : Out) : (s.emit o).hst = s.hst := rfl
@[simp] theorem State.emit_eci (o : Out) : (s.emit o).eci = s.eci := rfl
@[simp] theorem State.emit_mem (o : Out) : (s.emit o).mem = s.mem := rfl
@[simp] theorem State.emit_clus (o : Out) : (s.emit o).clus = s.clus := rfl
@[simp] theorem State.emit_tiles (o : Out) : (s.emit o).tiles = s.tiles := rfl
@[simp] theorem State.emit_movs (o : Out) : (s.emit o).movs = s.movs := rfl
@[simp] theorem State.emit_seqs (o : Out) : (s.emit o).seqs = s.seqs := rfl
@[simp] theorem State.emit_cdcs (o : Out) : (s.emit o).cdcs = s.cdcs := rfl
@[simp] theorem State.emit_nets (o : Out) : (s.emit o).nets = s.nets := rfl
@[simp] theorem State.emit_parts (o : Out) : (s.emit o).parts = s.parts := rfl
@[simp] theorem State.emit_hdr (o : Out) : (s.emit o).hdr = s.hdr := rfl
@[simp] theorem State.emit_part (o : Out) (q : Nat) : (s.emit o).part q = s.part q := rfl
@[simp] theorem State.useFree_pending : (s.useFree).pending = s.pending := rfl
@[simp] theorem State.useFree_nextId : (s.useFree).nextId = s.nextId := rfl
@[simp] theorem State.useFree_reply : (s.useFree).reply = s.reply := rfl
@[simp] theorem State.useFree_out : (s.useFree).out = s.out := rfl
@[simp] theorem State.useFree_fuse : (s.useFree).fuse = s.fuse := rfl
@[simp] theorem State.useFree_flash : (s.useFree).flash = s.flash := rfl
@[simp] theorem State.useFree_pins : (s.useFree).pins = s.pins := rfl
@[simp] theorem State.useFree_pwr : (s.useFree).pwr = s.pwr := rfl
@[simp] theorem State.useFree_mgmt : (s.useFree).mgmt = s.mgmt := rfl
@[simp] theorem State.useFree_sec : (s.useFree).sec = s.sec := rfl
@[simp] theorem State.useFree_ev : (s.useFree).ev = s.ev := rfl
@[simp] theorem State.useFree_hst : (s.useFree).hst = s.hst := rfl
@[simp] theorem State.useFree_eci : (s.useFree).eci = s.eci := rfl
@[simp] theorem State.useFree_mem : (s.useFree).mem = s.mem := rfl
@[simp] theorem State.useFree_clus : (s.useFree).clus = s.clus := rfl
@[simp] theorem State.useFree_tiles : (s.useFree).tiles = s.tiles := rfl
@[simp] theorem State.useFree_movs : (s.useFree).movs = s.movs := rfl
@[simp] theorem State.useFree_seqs : (s.useFree).seqs = s.seqs := rfl
@[simp] theorem State.useFree_cdcs : (s.useFree).cdcs = s.cdcs := rfl
@[simp] theorem State.useFree_nets : (s.useFree).nets = s.nets := rfl
@[simp] theorem State.useFree_parts : (s.useFree).parts = s.parts := rfl
@[simp] theorem State.useFree_hdr : (s.useFree).hdr = s.hdr := rfl
@[simp] theorem State.useFree_part (q : Nat) : (s.useFree).part q = s.part q := rfl
@[simp] theorem State.modPfHdr_pending (i : Nat) (f : PageHdr → PageHdr) : (s.modPfHdr i f).pending = s.pending := rfl
@[simp] theorem State.modPfHdr_free (i : Nat) (f : PageHdr → PageHdr) : (s.modPfHdr i f).free = s.free := rfl
@[simp] theorem State.modPfHdr_nextId (i : Nat) (f : PageHdr → PageHdr) : (s.modPfHdr i f).nextId = s.nextId := rfl
@[simp] theorem State.modPfHdr_reply (i : Nat) (f : PageHdr → PageHdr) : (s.modPfHdr i f).reply = s.reply := rfl
@[simp] theorem State.modPfHdr_out (i : Nat) (f : PageHdr → PageHdr) : (s.modPfHdr i f).out = s.out := rfl
@[simp] theorem State.modPfHdr_fuse (i : Nat) (f : PageHdr → PageHdr) : (s.modPfHdr i f).fuse = s.fuse := rfl
@[simp] theorem State.modPfHdr_flash (i : Nat) (f : PageHdr → PageHdr) : (s.modPfHdr i f).flash = s.flash := rfl
@[simp] theorem State.modPfHdr_pins (i : Nat) (f : PageHdr → PageHdr) : (s.modPfHdr i f).pins = s.pins := rfl
@[simp] theorem State.modPfHdr_pwr (i : Nat) (f : PageHdr → PageHdr) : (s.modPfHdr i f).pwr = s.pwr := rfl
@[simp] theorem State.modPfHdr_mgmt (i : Nat) (f : PageHdr → PageHdr) : (s.modPfHdr i f).mgmt = s.mgmt := rfl
@[simp] theorem State.modPfHdr_sec (i : Nat) (f : PageHdr → PageHdr) : (s.modPfHdr i f).sec = s.sec := rfl
@[simp] theorem State.modPfHdr_ev (i : Nat) (f : PageHdr → PageHdr) : (s.modPfHdr i f).ev = s.ev := rfl
@[simp] theorem State.modPfHdr_hst (i : Nat) (f : PageHdr → PageHdr) : (s.modPfHdr i f).hst = s.hst := rfl
@[simp] theorem State.modPfHdr_eci (i : Nat) (f : PageHdr → PageHdr) : (s.modPfHdr i f).eci = s.eci := rfl
@[simp] theorem State.modPfHdr_mem (i : Nat) (f : PageHdr → PageHdr) : (s.modPfHdr i f).mem = s.mem := rfl
@[simp] theorem State.modPfHdr_clus (i : Nat) (f : PageHdr → PageHdr) : (s.modPfHdr i f).clus = s.clus := rfl
@[simp] theorem State.modPfHdr_tiles (i : Nat) (f : PageHdr → PageHdr) : (s.modPfHdr i f).tiles = s.tiles := rfl
@[simp] theorem State.modPfHdr_movs (i : Nat) (f : PageHdr → PageHdr) : (s.modPfHdr i f).movs = s.movs := rfl
@[simp] theorem State.modPfHdr_seqs (i : Nat) (f : PageHdr → PageHdr) : (s.modPfHdr i f).seqs = s.seqs := rfl
@[simp] theorem State.modPfHdr_cdcs (i : Nat) (f : PageHdr → PageHdr) : (s.modPfHdr i f).cdcs = s.cdcs := rfl
@[simp] theorem State.modPfHdr_nets (i : Nat) (f : PageHdr → PageHdr) : (s.modPfHdr i f).nets = s.nets := rfl
@[simp] theorem State.modPfHdr_parts (i : Nat) (f : PageHdr → PageHdr) : (s.modPfHdr i f).parts = s.parts := rfl
@[simp] theorem State.modPfHdr_part (i : Nat) (f : PageHdr → PageHdr) (q : Nat) : (s.modPfHdr i f).part q = s.part q := rfl
@[simp] theorem State.setPart_chan (p : Nat) (x : Part) (k : Nat) : (s.setPart p x).chan k = s.chan k := rfl
@[simp] theorem State.setPart_die (p : Nat) (x : Part) (k : Nat) : (s.setPart p x).die k = s.die k := rfl
@[simp] theorem State.setPart_cluster (p : Nat) (x : Part) (k : Nat) : (s.setPart p x).cluster k = s.cluster k := rfl
@[simp] theorem State.setPart_tile (p : Nat) (x : Part) (k : Nat) : (s.setPart p x).tile k = s.tile k := rfl
@[simp] theorem State.setPart_quad (p : Nat) (x : Part) (k : Nat) : (s.setPart p x).quad k = s.quad k := rfl
@[simp] theorem State.setPart_pfHdr (p : Nat) (x : Part) (k : Nat) : (s.setPart p x).pfHdr k = s.pfHdr k := rfl
@[simp] theorem State.modPart_chan (p : Nat) (f : Part → Part) (k : Nat) : (s.modPart p f).chan k = s.chan k := rfl
@[simp] theorem State.modPart_die (p : Nat) (f : Part → Part) (k : Nat) : (s.modPart p f).die k = s.die k := rfl
@[simp] theorem State.modPart_cluster (p : Nat) (f : Part → Part) (k : Nat) : (s.modPart p f).cluster k = s.cluster k := rfl
@[simp] theorem State.modPart_tile (p : Nat) (f : Part → Part) (k : Nat) : (s.modPart p f).tile k = s.tile k := rfl
@[simp] theorem State.modPart_quad (p : Nat) (f : Part → Part) (k : Nat) : (s.modPart p f).quad k = s.quad k := rfl
@[simp] theorem State.modPart_pfHdr (p : Nat) (f : Part → Part) (k : Nat) : (s.modPart p f).pfHdr k = s.pfHdr k := rfl
@[simp] theorem State.modSys_chan (p : Nat) (f : CmdSys → CmdSys) (k : Nat) : (s.modSys p f).chan k = s.chan k := rfl
@[simp] theorem State.modSys_die (p : Nat) (f : CmdSys → CmdSys) (k : Nat) : (s.modSys p f).die k = s.die k := rfl
@[simp] theorem State.modSys_cluster (p : Nat) (f : CmdSys → CmdSys) (k : Nat) : (s.modSys p f).cluster k = s.cluster k := rfl
@[simp] theorem State.modSys_tile (p : Nat) (f : CmdSys → CmdSys) (k : Nat) : (s.modSys p f).tile k = s.tile k := rfl
@[simp] theorem State.modSys_quad (p : Nat) (f : CmdSys → CmdSys) (k : Nat) : (s.modSys p f).quad k = s.quad k := rfl
@[simp] theorem State.modSys_pfHdr (p : Nat) (f : CmdSys → CmdSys) (k : Nat) : (s.modSys p f).pfHdr k = s.pfHdr k := rfl
@[simp] theorem State.modCtl_chan (p : Nat) (f : PartCtl → PartCtl) (k : Nat) : (s.modCtl p f).chan k = s.chan k := rfl
@[simp] theorem State.modCtl_die (p : Nat) (f : PartCtl → PartCtl) (k : Nat) : (s.modCtl p f).die k = s.die k := rfl
@[simp] theorem State.modCtl_cluster (p : Nat) (f : PartCtl → PartCtl) (k : Nat) : (s.modCtl p f).cluster k = s.cluster k := rfl
@[simp] theorem State.modCtl_tile (p : Nat) (f : PartCtl → PartCtl) (k : Nat) : (s.modCtl p f).tile k = s.tile k := rfl
@[simp] theorem State.modCtl_quad (p : Nat) (f : PartCtl → PartCtl) (k : Nat) : (s.modCtl p f).quad k = s.quad k := rfl
@[simp] theorem State.modCtl_pfHdr (p : Nat) (f : PartCtl → PartCtl) (k : Nat) : (s.modCtl p f).pfHdr k = s.pfHdr k := rfl
@[simp] theorem State.modMtr_chan (p : Nat) (f : Meters → Meters) (k : Nat) : (s.modMtr p f).chan k = s.chan k := rfl
@[simp] theorem State.modMtr_die (p : Nat) (f : Meters → Meters) (k : Nat) : (s.modMtr p f).die k = s.die k := rfl
@[simp] theorem State.modMtr_cluster (p : Nat) (f : Meters → Meters) (k : Nat) : (s.modMtr p f).cluster k = s.cluster k := rfl
@[simp] theorem State.modMtr_tile (p : Nat) (f : Meters → Meters) (k : Nat) : (s.modMtr p f).tile k = s.tile k := rfl
@[simp] theorem State.modMtr_quad (p : Nat) (f : Meters → Meters) (k : Nat) : (s.modMtr p f).quad k = s.quad k := rfl
@[simp] theorem State.modMtr_pfHdr (p : Nat) (f : Meters → Meters) (k : Nat) : (s.modMtr p f).pfHdr k = s.pfHdr k := rfl
@[simp] theorem State.modLtn_chan (p : Nat) (f : Lantern → Lantern) (k : Nat) : (s.modLtn p f).chan k = s.chan k := rfl
@[simp] theorem State.modLtn_die (p : Nat) (f : Lantern → Lantern) (k : Nat) : (s.modLtn p f).die k = s.die k := rfl
@[simp] theorem State.modLtn_cluster (p : Nat) (f : Lantern → Lantern) (k : Nat) : (s.modLtn p f).cluster k = s.cluster k := rfl
@[simp] theorem State.modLtn_tile (p : Nat) (f : Lantern → Lantern) (k : Nat) : (s.modLtn p f).tile k = s.tile k := rfl
@[simp] theorem State.modLtn_quad (p : Nat) (f : Lantern → Lantern) (k : Nat) : (s.modLtn p f).quad k = s.quad k := rfl
@[simp] theorem State.modLtn_pfHdr (p : Nat) (f : Lantern → Lantern) (k : Nat) : (s.modLtn p f).pfHdr k = s.pfHdr k := rfl
@[simp] theorem State.modSeq_chan (p : Nat) (f : Seq → Seq) (k : Nat) : (s.modSeq p f).chan k = s.chan k := rfl
@[simp] theorem State.modSeq_die (p : Nat) (f : Seq → Seq) (k : Nat) : (s.modSeq p f).die k = s.die k := rfl
@[simp] theorem State.modSeq_cluster (p : Nat) (f : Seq → Seq) (k : Nat) : (s.modSeq p f).cluster k = s.cluster k := rfl
@[simp] theorem State.modSeq_tile (p : Nat) (f : Seq → Seq) (k : Nat) : (s.modSeq p f).tile k = s.tile k := rfl
@[simp] theorem State.modSeq_quad (p : Nat) (f : Seq → Seq) (k : Nat) : (s.modSeq p f).quad k = s.quad k := rfl
@[simp] theorem State.modSeq_pfHdr (p : Nat) (f : Seq → Seq) (k : Nat) : (s.modSeq p f).pfHdr k = s.pfHdr k := rfl
@[simp] theorem State.modStr_chan (p : Nat) (f : Streams → Streams) (k : Nat) : (s.modStr p f).chan k = s.chan k := rfl
@[simp] theorem State.modStr_die (p : Nat) (f : Streams → Streams) (k : Nat) : (s.modStr p f).die k = s.die k := rfl
@[simp] theorem State.modStr_cluster (p : Nat) (f : Streams → Streams) (k : Nat) : (s.modStr p f).cluster k = s.cluster k := rfl
@[simp] theorem State.modStr_tile (p : Nat) (f : Streams → Streams) (k : Nat) : (s.modStr p f).tile k = s.tile k := rfl
@[simp] theorem State.modStr_quad (p : Nat) (f : Streams → Streams) (k : Nat) : (s.modStr p f).quad k = s.quad k := rfl
@[simp] theorem State.modStr_pfHdr (p : Nat) (f : Streams → Streams) (k : Nat) : (s.modStr p f).pfHdr k = s.pfHdr k := rfl
@[simp] theorem State.modObjs_chan (p : Nat) (f : Objs → Objs) (k : Nat) : (s.modObjs p f).chan k = s.chan k := rfl
@[simp] theorem State.modObjs_die (p : Nat) (f : Objs → Objs) (k : Nat) : (s.modObjs p f).die k = s.die k := rfl
@[simp] theorem State.modObjs_cluster (p : Nat) (f : Objs → Objs) (k : Nat) : (s.modObjs p f).cluster k = s.cluster k := rfl
@[simp] theorem State.modObjs_tile (p : Nat) (f : Objs → Objs) (k : Nat) : (s.modObjs p f).tile k = s.tile k := rfl
@[simp] theorem State.modObjs_quad (p : Nat) (f : Objs → Objs) (k : Nat) : (s.modObjs p f).quad k = s.quad k := rfl
@[simp] theorem State.modObjs_pfHdr (p : Nat) (f : Objs → Objs) (k : Nat) : (s.modObjs p f).pfHdr k = s.pfHdr k := rfl
@[simp] theorem State.modCdc_chan (p : Nat) (f : Cdc → Cdc) (k : Nat) : (s.modCdc p f).chan k = s.chan k := rfl
@[simp] theorem State.modCdc_die (p : Nat) (f : Cdc → Cdc) (k : Nat) : (s.modCdc p f).die k = s.die k := rfl
@[simp] theorem State.modCdc_cluster (p : Nat) (f : Cdc → Cdc) (k : Nat) : (s.modCdc p f).cluster k = s.cluster k := rfl
@[simp] theorem State.modCdc_tile (p : Nat) (f : Cdc → Cdc) (k : Nat) : (s.modCdc p f).tile k = s.tile k := rfl
@[simp] theorem State.modCdc_quad (p : Nat) (f : Cdc → Cdc) (k : Nat) : (s.modCdc p f).quad k = s.quad k := rfl
@[simp] theorem State.modCdc_pfHdr (p : Nat) (f : Cdc → Cdc) (k : Nat) : (s.modCdc p f).pfHdr k = s.pfHdr k := rfl
@[simp] theorem State.modNet_chan (p : Nat) (f : NetPart → NetPart) (k : Nat) : (s.modNet p f).chan k = s.chan k := rfl
@[simp] theorem State.modNet_die (p : Nat) (f : NetPart → NetPart) (k : Nat) : (s.modNet p f).die k = s.die k := rfl
@[simp] theorem State.modNet_cluster (p : Nat) (f : NetPart → NetPart) (k : Nat) : (s.modNet p f).cluster k = s.cluster k := rfl
@[simp] theorem State.modNet_tile (p : Nat) (f : NetPart → NetPart) (k : Nat) : (s.modNet p f).tile k = s.tile k := rfl
@[simp] theorem State.modNet_quad (p : Nat) (f : NetPart → NetPart) (k : Nat) : (s.modNet p f).quad k = s.quad k := rfl
@[simp] theorem State.modNet_pfHdr (p : Nat) (f : NetPart → NetPart) (k : Nat) : (s.modNet p f).pfHdr k = s.pfHdr k := rfl
@[simp] theorem State.modVf_chan (p : Nat) (f : Vf → Vf) (k : Nat) : (s.modVf p f).chan k = s.chan k := rfl
@[simp] theorem State.modVf_die (p : Nat) (f : Vf → Vf) (k : Nat) : (s.modVf p f).die k = s.die k := rfl
@[simp] theorem State.modVf_cluster (p : Nat) (f : Vf → Vf) (k : Nat) : (s.modVf p f).cluster k = s.cluster k := rfl
@[simp] theorem State.modVf_tile (p : Nat) (f : Vf → Vf) (k : Nat) : (s.modVf p f).tile k = s.tile k := rfl
@[simp] theorem State.modVf_quad (p : Nat) (f : Vf → Vf) (k : Nat) : (s.modVf p f).quad k = s.quad k := rfl
@[simp] theorem State.modVf_pfHdr (p : Nat) (f : Vf → Vf) (k : Nat) : (s.modVf p f).pfHdr k = s.pfHdr k := rfl
@[simp] theorem State.modMir_chan (p : Nat) (f : Mirror → Mirror) (k : Nat) : (s.modMir p f).chan k = s.chan k := rfl
@[simp] theorem State.modMir_die (p : Nat) (f : Mirror → Mirror) (k : Nat) : (s.modMir p f).die k = s.die k := rfl
@[simp] theorem State.modMir_cluster (p : Nat) (f : Mirror → Mirror) (k : Nat) : (s.modMir p f).cluster k = s.cluster k := rfl
@[simp] theorem State.modMir_tile (p : Nat) (f : Mirror → Mirror) (k : Nat) : (s.modMir p f).tile k = s.tile k := rfl
@[simp] theorem State.modMir_quad (p : Nat) (f : Mirror → Mirror) (k : Nat) : (s.modMir p f).quad k = s.quad k := rfl
@[simp] theorem State.modMir_pfHdr (p : Nat) (f : Mirror → Mirror) (k : Nat) : (s.modMir p f).pfHdr k = s.pfHdr k := rfl
@[simp] theorem State.modWdg_chan (p : Nat) (f : Watchdog → Watchdog) (k : Nat) : (s.modWdg p f).chan k = s.chan k := rfl
@[simp] theorem State.modWdg_die (p : Nat) (f : Watchdog → Watchdog) (k : Nat) : (s.modWdg p f).die k = s.die k := rfl
@[simp] theorem State.modWdg_cluster (p : Nat) (f : Watchdog → Watchdog) (k : Nat) : (s.modWdg p f).cluster k = s.cluster k := rfl
@[simp] theorem State.modWdg_tile (p : Nat) (f : Watchdog → Watchdog) (k : Nat) : (s.modWdg p f).tile k = s.tile k := rfl
@[simp] theorem State.modWdg_quad (p : Nat) (f : Watchdog → Watchdog) (k : Nat) : (s.modWdg p f).quad k = s.quad k := rfl
@[simp] theorem State.modWdg_pfHdr (p : Nat) (f : Watchdog → Watchdog) (k : Nat) : (s.modWdg p f).pfHdr k = s.pfHdr k := rfl
@[simp] theorem State.modEvt_chan (p : Nat) (f : EvRing → EvRing) (k : Nat) : (s.modEvt p f).chan k = s.chan k := rfl
@[simp] theorem State.modEvt_die (p : Nat) (f : EvRing → EvRing) (k : Nat) : (s.modEvt p f).die k = s.die k := rfl
@[simp] theorem State.modEvt_cluster (p : Nat) (f : EvRing → EvRing) (k : Nat) : (s.modEvt p f).cluster k = s.cluster k := rfl
@[simp] theorem State.modEvt_tile (p : Nat) (f : EvRing → EvRing) (k : Nat) : (s.modEvt p f).tile k = s.tile k := rfl
@[simp] theorem State.modEvt_quad (p : Nat) (f : EvRing → EvRing) (k : Nat) : (s.modEvt p f).quad k = s.quad k := rfl
@[simp] theorem State.modEvt_pfHdr (p : Nat) (f : EvRing → EvRing) (k : Nat) : (s.modEvt p f).pfHdr k = s.pfHdr k := rfl
@[simp] theorem State.modCmd_chan (p i : Nat) (f : Cmd → Cmd) (k : Nat) : (s.modCmd p i f).chan k = s.chan k := rfl
@[simp] theorem State.modCmd_die (p i : Nat) (f : Cmd → Cmd) (k : Nat) : (s.modCmd p i f).die k = s.die k := rfl
@[simp] theorem State.modCmd_cluster (p i : Nat) (f : Cmd → Cmd) (k : Nat) : (s.modCmd p i f).cluster k = s.cluster k := rfl
@[simp] theorem State.modCmd_tile (p i : Nat) (f : Cmd → Cmd) (k : Nat) : (s.modCmd p i f).tile k = s.tile k := rfl
@[simp] theorem State.modCmd_quad (p i : Nat) (f : Cmd → Cmd) (k : Nat) : (s.modCmd p i f).quad k = s.quad k := rfl
@[simp] theorem State.modCmd_pfHdr (p i : Nat) (f : Cmd → Cmd) (k : Nat) : (s.modCmd p i f).pfHdr k = s.pfHdr k := rfl
@[simp] theorem State.modRing_chan (p i : Nat) (f : Ring → Ring) (k : Nat) : (s.modRing p i f).chan k = s.chan k := rfl
@[simp] theorem State.modRing_die (p i : Nat) (f : Ring → Ring) (k : Nat) : (s.modRing p i f).die k = s.die k := rfl
@[simp] theorem State.modRing_cluster (p i : Nat) (f : Ring → Ring) (k : Nat) : (s.modRing p i f).cluster k = s.cluster k := rfl
@[simp] theorem State.modRing_tile (p i : Nat) (f : Ring → Ring) (k : Nat) : (s.modRing p i f).tile k = s.tile k := rfl
@[simp] theorem State.modRing_quad (p i : Nat) (f : Ring → Ring) (k : Nat) : (s.modRing p i f).quad k = s.quad k := rfl
@[simp] theorem State.modRing_pfHdr (p i : Nat) (f : Ring → Ring) (k : Nat) : (s.modRing p i f).pfHdr k = s.pfHdr k := rfl
@[simp] theorem State.modCtx_chan (p i : Nat) (f : Ctx → Ctx) (k : Nat) : (s.modCtx p i f).chan k = s.chan k := rfl
@[simp] theorem State.modCtx_die (p i : Nat) (f : Ctx → Ctx) (k : Nat) : (s.modCtx p i f).die k = s.die k := rfl
@[simp] theorem State.modCtx_cluster (p i : Nat) (f : Ctx → Ctx) (k : Nat) : (s.modCtx p i f).cluster k = s.cluster k := rfl
@[simp] theorem State.modCtx_tile (p i : Nat) (f : Ctx → Ctx) (k : Nat) : (s.modCtx p i f).tile k = s.tile k := rfl
@[simp] theorem State.modCtx_quad (p i : Nat) (f : Ctx → Ctx) (k : Nat) : (s.modCtx p i f).quad k = s.quad k := rfl
@[simp] theorem State.modCtx_pfHdr (p i : Nat) (f : Ctx → Ctx) (k : Nat) : (s.modCtx p i f).pfHdr k = s.pfHdr k := rfl
@[simp] theorem State.modToken_chan (p i : Nat) (f : Token → Token) (k : Nat) : (s.modToken p i f).chan k = s.chan k := rfl
@[simp] theorem State.modToken_die (p i : Nat) (f : Token → Token) (k : Nat) : (s.modToken p i f).die k = s.die k := rfl
@[simp] theorem State.modToken_cluster (p i : Nat) (f : Token → Token) (k : Nat) : (s.modToken p i f).cluster k = s.cluster k := rfl
@[simp] theorem State.modToken_tile (p i : Nat) (f : Token → Token) (k : Nat) : (s.modToken p i f).tile k = s.tile k := rfl
@[simp] theorem State.modToken_quad (p i : Nat) (f : Token → Token) (k : Nat) : (s.modToken p i f).quad k = s.quad k := rfl
@[simp] theorem State.modToken_pfHdr (p i : Nat) (f : Token → Token) (k : Nat) : (s.modToken p i f).pfHdr k = s.pfHdr k := rfl
@[simp] theorem State.modCall_chan (p i : Nat) (f : Call → Call) (k : Nat) : (s.modCall p i f).chan k = s.chan k := rfl
@[simp] theorem State.modCall_die (p i : Nat) (f : Call → Call) (k : Nat) : (s.modCall p i f).die k = s.die k := rfl
@[simp] theorem State.modCall_cluster (p i : Nat) (f : Call → Call) (k : Nat) : (s.modCall p i f).cluster k = s.cluster k := rfl
@[simp] theorem State.modCall_tile (p i : Nat) (f : Call → Call) (k : Nat) : (s.modCall p i f).tile k = s.tile k := rfl
@[simp] theorem State.modCall_quad (p i : Nat) (f : Call → Call) (k : Nat) : (s.modCall p i f).quad k = s.quad k := rfl
@[simp] theorem State.modCall_pfHdr (p i : Nat) (f : Call → Call) (k : Nat) : (s.modCall p i f).pfHdr k = s.pfHdr k := rfl
@[simp] theorem State.modObject_chan (p i : Nat) (f : Obj → Obj) (k : Nat) : (s.modObject p i f).chan k = s.chan k := rfl
@[simp] theorem State.modObject_die (p i : Nat) (f : Obj → Obj) (k : Nat) : (s.modObject p i f).die k = s.die k := rfl
@[simp] theorem State.modObject_cluster (p i : Nat) (f : Obj → Obj) (k : Nat) : (s.modObject p i f).cluster k = s.cluster k := rfl
@[simp] theorem State.modObject_tile (p i : Nat) (f : Obj → Obj) (k : Nat) : (s.modObject p i f).tile k = s.tile k := rfl
@[simp] theorem State.modObject_quad (p i : Nat) (f : Obj → Obj) (k : Nat) : (s.modObject p i f).quad k = s.quad k := rfl
@[simp] theorem State.modObject_pfHdr (p i : Nat) (f : Obj → Obj) (k : Nat) : (s.modObject p i f).pfHdr k = s.pfHdr k := rfl
@[simp] theorem State.modVfHdr_chan (p i : Nat) (f : PageHdr → PageHdr) (k : Nat) : (s.modVfHdr p i f).chan k = s.chan k := rfl
@[simp] theorem State.modVfHdr_die (p i : Nat) (f : PageHdr → PageHdr) (k : Nat) : (s.modVfHdr p i f).die k = s.die k := rfl
@[simp] theorem State.modVfHdr_cluster (p i : Nat) (f : PageHdr → PageHdr) (k : Nat) : (s.modVfHdr p i f).cluster k = s.cluster k := rfl
@[simp] theorem State.modVfHdr_tile (p i : Nat) (f : PageHdr → PageHdr) (k : Nat) : (s.modVfHdr p i f).tile k = s.tile k := rfl
@[simp] theorem State.modVfHdr_quad (p i : Nat) (f : PageHdr → PageHdr) (k : Nat) : (s.modVfHdr p i f).quad k = s.quad k := rfl
@[simp] theorem State.modVfHdr_pfHdr (p i : Nat) (f : PageHdr → PageHdr) (k : Nat) : (s.modVfHdr p i f).pfHdr k = s.pfHdr k := rfl
@[simp] theorem State.modCluster_chan (i : Nat) (f : Cluster → Cluster) (k : Nat) : (s.modCluster i f).chan k = s.chan k := rfl
@[simp] theorem State.modCluster_die (i : Nat) (f : Cluster → Cluster) (k : Nat) : (s.modCluster i f).die k = s.die k := rfl
@[simp] theorem State.modCluster_tile (i : Nat) (f : Cluster → Cluster) (k : Nat) : (s.modCluster i f).tile k = s.tile k := rfl
@[simp] theorem State.modCluster_quad (i : Nat) (f : Cluster → Cluster) (k : Nat) : (s.modCluster i f).quad k = s.quad k := rfl
@[simp] theorem State.modCluster_pfHdr (i : Nat) (f : Cluster → Cluster) (k : Nat) : (s.modCluster i f).pfHdr k = s.pfHdr k := rfl
@[simp] theorem State.modCluster_ring (i : Nat) (f : Cluster → Cluster) (q k : Nat) : (s.modCluster i f).ring q k = s.ring q k := rfl
@[simp] theorem State.modCluster_ctx (i : Nat) (f : Cluster → Cluster) (q k : Nat) : (s.modCluster i f).ctx q k = s.ctx q k := rfl
@[simp] theorem State.modCluster_token (i : Nat) (f : Cluster → Cluster) (q k : Nat) : (s.modCluster i f).token q k = s.token q k := rfl
@[simp] theorem State.modCluster_object (i : Nat) (f : Cluster → Cluster) (q k : Nat) : (s.modCluster i f).object q k = s.object q k := rfl
@[simp] theorem State.modCluster_cmd (i : Nat) (f : Cluster → Cluster) (q k : Nat) : (s.modCluster i f).cmd? q k = s.cmd? q k := rfl
@[simp] theorem State.modTile_chan (i : Nat) (f : Tile → Tile) (k : Nat) : (s.modTile i f).chan k = s.chan k := rfl
@[simp] theorem State.modTile_die (i : Nat) (f : Tile → Tile) (k : Nat) : (s.modTile i f).die k = s.die k := rfl
@[simp] theorem State.modTile_cluster (i : Nat) (f : Tile → Tile) (k : Nat) : (s.modTile i f).cluster k = s.cluster k := rfl
@[simp] theorem State.modTile_quad (i : Nat) (f : Tile → Tile) (k : Nat) : (s.modTile i f).quad k = s.quad k := rfl
@[simp] theorem State.modTile_pfHdr (i : Nat) (f : Tile → Tile) (k : Nat) : (s.modTile i f).pfHdr k = s.pfHdr k := rfl
@[simp] theorem State.modTile_ring (i : Nat) (f : Tile → Tile) (q k : Nat) : (s.modTile i f).ring q k = s.ring q k := rfl
@[simp] theorem State.modTile_ctx (i : Nat) (f : Tile → Tile) (q k : Nat) : (s.modTile i f).ctx q k = s.ctx q k := rfl
@[simp] theorem State.modTile_token (i : Nat) (f : Tile → Tile) (q k : Nat) : (s.modTile i f).token q k = s.token q k := rfl
@[simp] theorem State.modTile_object (i : Nat) (f : Tile → Tile) (q k : Nat) : (s.modTile i f).object q k = s.object q k := rfl
@[simp] theorem State.modTile_cmd (i : Nat) (f : Tile → Tile) (q k : Nat) : (s.modTile i f).cmd? q k = s.cmd? q k := rfl
@[simp] theorem State.modMem_cluster (f : Mem → Mem) (k : Nat) : (s.modMem f).cluster k = s.cluster k := rfl
@[simp] theorem State.modMem_tile (f : Mem → Mem) (k : Nat) : (s.modMem f).tile k = s.tile k := rfl
@[simp] theorem State.modMem_quad (f : Mem → Mem) (k : Nat) : (s.modMem f).quad k = s.quad k := rfl
@[simp] theorem State.modMem_pfHdr (f : Mem → Mem) (k : Nat) : (s.modMem f).pfHdr k = s.pfHdr k := rfl
@[simp] theorem State.modMem_ring (f : Mem → Mem) (q k : Nat) : (s.modMem f).ring q k = s.ring q k := rfl
@[simp] theorem State.modMem_ctx (f : Mem → Mem) (q k : Nat) : (s.modMem f).ctx q k = s.ctx q k := rfl
@[simp] theorem State.modMem_token (f : Mem → Mem) (q k : Nat) : (s.modMem f).token q k = s.token q k := rfl
@[simp] theorem State.modMem_object (f : Mem → Mem) (q k : Nat) : (s.modMem f).object q k = s.object q k := rfl
@[simp] theorem State.modMem_cmd (f : Mem → Mem) (q k : Nat) : (s.modMem f).cmd? q k = s.cmd? q k := rfl
@[simp] theorem State.modChan_cluster (i : Nat) (f : Chan → Chan) (k : Nat) : (s.modChan i f).cluster k = s.cluster k := rfl
@[simp] theorem State.modChan_tile (i : Nat) (f : Chan → Chan) (k : Nat) : (s.modChan i f).tile k = s.tile k := rfl
@[simp] theorem State.modChan_quad (i : Nat) (f : Chan → Chan) (k : Nat) : (s.modChan i f).quad k = s.quad k := rfl
@[simp] theorem State.modChan_pfHdr (i : Nat) (f : Chan → Chan) (k : Nat) : (s.modChan i f).pfHdr k = s.pfHdr k := rfl
@[simp] theorem State.modChan_ring (i : Nat) (f : Chan → Chan) (q k : Nat) : (s.modChan i f).ring q k = s.ring q k := rfl
@[simp] theorem State.modChan_ctx (i : Nat) (f : Chan → Chan) (q k : Nat) : (s.modChan i f).ctx q k = s.ctx q k := rfl
@[simp] theorem State.modChan_token (i : Nat) (f : Chan → Chan) (q k : Nat) : (s.modChan i f).token q k = s.token q k := rfl
@[simp] theorem State.modChan_object (i : Nat) (f : Chan → Chan) (q k : Nat) : (s.modChan i f).object q k = s.object q k := rfl
@[simp] theorem State.modChan_cmd (i : Nat) (f : Chan → Chan) (q k : Nat) : (s.modChan i f).cmd? q k = s.cmd? q k := rfl
@[simp] theorem State.modDie_cluster (i : Nat) (f : Die → Die) (k : Nat) : (s.modDie i f).cluster k = s.cluster k := rfl
@[simp] theorem State.modDie_tile (i : Nat) (f : Die → Die) (k : Nat) : (s.modDie i f).tile k = s.tile k := rfl
@[simp] theorem State.modDie_quad (i : Nat) (f : Die → Die) (k : Nat) : (s.modDie i f).quad k = s.quad k := rfl
@[simp] theorem State.modDie_pfHdr (i : Nat) (f : Die → Die) (k : Nat) : (s.modDie i f).pfHdr k = s.pfHdr k := rfl
@[simp] theorem State.modDie_ring (i : Nat) (f : Die → Die) (q k : Nat) : (s.modDie i f).ring q k = s.ring q k := rfl
@[simp] theorem State.modDie_ctx (i : Nat) (f : Die → Die) (q k : Nat) : (s.modDie i f).ctx q k = s.ctx q k := rfl
@[simp] theorem State.modDie_token (i : Nat) (f : Die → Die) (q k : Nat) : (s.modDie i f).token q k = s.token q k := rfl
@[simp] theorem State.modDie_object (i : Nat) (f : Die → Die) (q k : Nat) : (s.modDie i f).object q k = s.object q k := rfl
@[simp] theorem State.modDie_cmd (i : Nat) (f : Die → Die) (q k : Nat) : (s.modDie i f).cmd? q k = s.cmd? q k := rfl
@[simp] theorem State.modQuad_chan (i : Nat) (f : Quad → Quad) (k : Nat) : (s.modQuad i f).chan k = s.chan k := rfl
@[simp] theorem State.modQuad_die (i : Nat) (f : Quad → Quad) (k : Nat) : (s.modQuad i f).die k = s.die k := rfl
@[simp] theorem State.modQuad_cluster (i : Nat) (f : Quad → Quad) (k : Nat) : (s.modQuad i f).cluster k = s.cluster k := rfl
@[simp] theorem State.modQuad_tile (i : Nat) (f : Quad → Quad) (k : Nat) : (s.modQuad i f).tile k = s.tile k := rfl
@[simp] theorem State.modQuad_pfHdr (i : Nat) (f : Quad → Quad) (k : Nat) : (s.modQuad i f).pfHdr k = s.pfHdr k := rfl
@[simp] theorem State.modQuad_ring (i : Nat) (f : Quad → Quad) (q k : Nat) : (s.modQuad i f).ring q k = s.ring q k := rfl
@[simp] theorem State.modQuad_ctx (i : Nat) (f : Quad → Quad) (q k : Nat) : (s.modQuad i f).ctx q k = s.ctx q k := rfl
@[simp] theorem State.modQuad_token (i : Nat) (f : Quad → Quad) (q k : Nat) : (s.modQuad i f).token q k = s.token q k := rfl
@[simp] theorem State.modQuad_object (i : Nat) (f : Quad → Quad) (q k : Nat) : (s.modQuad i f).object q k = s.object q k := rfl
@[simp] theorem State.modQuad_cmd (i : Nat) (f : Quad → Quad) (q k : Nat) : (s.modQuad i f).cmd? q k = s.cmd? q k := rfl
@[simp] theorem State.modPwr_chan (f : Power → Power) (k : Nat) : (s.modPwr f).chan k = s.chan k := rfl
@[simp] theorem State.modPwr_die (f : Power → Power) (k : Nat) : (s.modPwr f).die k = s.die k := rfl
@[simp] theorem State.modPwr_cluster (f : Power → Power) (k : Nat) : (s.modPwr f).cluster k = s.cluster k := rfl
@[simp] theorem State.modPwr_tile (f : Power → Power) (k : Nat) : (s.modPwr f).tile k = s.tile k := rfl
@[simp] theorem State.modPwr_pfHdr (f : Power → Power) (k : Nat) : (s.modPwr f).pfHdr k = s.pfHdr k := rfl
@[simp] theorem State.modPwr_ring (f : Power → Power) (q k : Nat) : (s.modPwr f).ring q k = s.ring q k := rfl
@[simp] theorem State.modPwr_ctx (f : Power → Power) (q k : Nat) : (s.modPwr f).ctx q k = s.ctx q k := rfl
@[simp] theorem State.modPwr_token (f : Power → Power) (q k : Nat) : (s.modPwr f).token q k = s.token q k := rfl
@[simp] theorem State.modPwr_object (f : Power → Power) (q k : Nat) : (s.modPwr f).object q k = s.object q k := rfl
@[simp] theorem State.modPwr_cmd (f : Power → Power) (q k : Nat) : (s.modPwr f).cmd? q k = s.cmd? q k := rfl
@[simp] theorem State.modSec_chan (f : Security → Security) (k : Nat) : (s.modSec f).chan k = s.chan k := rfl
@[simp] theorem State.modSec_die (f : Security → Security) (k : Nat) : (s.modSec f).die k = s.die k := rfl
@[simp] theorem State.modSec_cluster (f : Security → Security) (k : Nat) : (s.modSec f).cluster k = s.cluster k := rfl
@[simp] theorem State.modSec_tile (f : Security → Security) (k : Nat) : (s.modSec f).tile k = s.tile k := rfl
@[simp] theorem State.modSec_quad (f : Security → Security) (k : Nat) : (s.modSec f).quad k = s.quad k := rfl
@[simp] theorem State.modSec_pfHdr (f : Security → Security) (k : Nat) : (s.modSec f).pfHdr k = s.pfHdr k := rfl
@[simp] theorem State.modSec_ring (f : Security → Security) (q k : Nat) : (s.modSec f).ring q k = s.ring q k := rfl
@[simp] theorem State.modSec_ctx (f : Security → Security) (q k : Nat) : (s.modSec f).ctx q k = s.ctx q k := rfl
@[simp] theorem State.modSec_token (f : Security → Security) (q k : Nat) : (s.modSec f).token q k = s.token q k := rfl
@[simp] theorem State.modSec_object (f : Security → Security) (q k : Nat) : (s.modSec f).object q k = s.object q k := rfl
@[simp] theorem State.modSec_cmd (f : Security → Security) (q k : Nat) : (s.modSec f).cmd? q k = s.cmd? q k := rfl
@[simp] theorem State.modFlash_chan (f : Flash → Flash) (k : Nat) : (s.modFlash f).chan k = s.chan k := rfl
@[simp] theorem State.modFlash_die (f : Flash → Flash) (k : Nat) : (s.modFlash f).die k = s.die k := rfl
@[simp] theorem State.modFlash_cluster (f : Flash → Flash) (k : Nat) : (s.modFlash f).cluster k = s.cluster k := rfl
@[simp] theorem State.modFlash_tile (f : Flash → Flash) (k : Nat) : (s.modFlash f).tile k = s.tile k := rfl
@[simp] theorem State.modFlash_quad (f : Flash → Flash) (k : Nat) : (s.modFlash f).quad k = s.quad k := rfl
@[simp] theorem State.modFlash_pfHdr (f : Flash → Flash) (k : Nat) : (s.modFlash f).pfHdr k = s.pfHdr k := rfl
@[simp] theorem State.modFlash_ring (f : Flash → Flash) (q k : Nat) : (s.modFlash f).ring q k = s.ring q k := rfl
@[simp] theorem State.modFlash_ctx (f : Flash → Flash) (q k : Nat) : (s.modFlash f).ctx q k = s.ctx q k := rfl
@[simp] theorem State.modFlash_token (f : Flash → Flash) (q k : Nat) : (s.modFlash f).token q k = s.token q k := rfl
@[simp] theorem State.modFlash_object (f : Flash → Flash) (q k : Nat) : (s.modFlash f).object q k = s.object q k := rfl
@[simp] theorem State.modFlash_cmd (f : Flash → Flash) (q k : Nat) : (s.modFlash f).cmd? q k = s.cmd? q k := rfl
@[simp] theorem State.modEv_chan (f : Events → Events) (k : Nat) : (s.modEv f).chan k = s.chan k := rfl
@[simp] theorem State.modEv_die (f : Events → Events) (k : Nat) : (s.modEv f).die k = s.die k := rfl
@[simp] theorem State.modEv_cluster (f : Events → Events) (k : Nat) : (s.modEv f).cluster k = s.cluster k := rfl
@[simp] theorem State.modEv_tile (f : Events → Events) (k : Nat) : (s.modEv f).tile k = s.tile k := rfl
@[simp] theorem State.modEv_quad (f : Events → Events) (k : Nat) : (s.modEv f).quad k = s.quad k := rfl
@[simp] theorem State.modEv_pfHdr (f : Events → Events) (k : Nat) : (s.modEv f).pfHdr k = s.pfHdr k := rfl
@[simp] theorem State.modEv_ring (f : Events → Events) (q k : Nat) : (s.modEv f).ring q k = s.ring q k := rfl
@[simp] theorem State.modEv_ctx (f : Events → Events) (q k : Nat) : (s.modEv f).ctx q k = s.ctx q k := rfl
@[simp] theorem State.modEv_token (f : Events → Events) (q k : Nat) : (s.modEv f).token q k = s.token q k := rfl
@[simp] theorem State.modEv_object (f : Events → Events) (q k : Nat) : (s.modEv f).object q k = s.object q k := rfl
@[simp] theorem State.modEv_cmd (f : Events → Events) (q k : Nat) : (s.modEv f).cmd? q k = s.cmd? q k := rfl
@[simp] theorem State.modHst_chan (f : HostPort → HostPort) (k : Nat) : (s.modHst f).chan k = s.chan k := rfl
@[simp] theorem State.modHst_die (f : HostPort → HostPort) (k : Nat) : (s.modHst f).die k = s.die k := rfl
@[simp] theorem State.modHst_cluster (f : HostPort → HostPort) (k : Nat) : (s.modHst f).cluster k = s.cluster k := rfl
@[simp] theorem State.modHst_tile (f : HostPort → HostPort) (k : Nat) : (s.modHst f).tile k = s.tile k := rfl
@[simp] theorem State.modHst_quad (f : HostPort → HostPort) (k : Nat) : (s.modHst f).quad k = s.quad k := rfl
@[simp] theorem State.modHst_pfHdr (f : HostPort → HostPort) (k : Nat) : (s.modHst f).pfHdr k = s.pfHdr k := rfl
@[simp] theorem State.modHst_ring (f : HostPort → HostPort) (q k : Nat) : (s.modHst f).ring q k = s.ring q k := rfl
@[simp] theorem State.modHst_ctx (f : HostPort → HostPort) (q k : Nat) : (s.modHst f).ctx q k = s.ctx q k := rfl
@[simp] theorem State.modHst_token (f : HostPort → HostPort) (q k : Nat) : (s.modHst f).token q k = s.token q k := rfl
@[simp] theorem State.modHst_object (f : HostPort → HostPort) (q k : Nat) : (s.modHst f).object q k = s.object q k := rfl
@[simp] theorem State.modHst_cmd (f : HostPort → HostPort) (q k : Nat) : (s.modHst f).cmd? q k = s.cmd? q k := rfl
@[simp] theorem State.modEci_chan (f : Eci → Eci) (k : Nat) : (s.modEci f).chan k = s.chan k := rfl
@[simp] theorem State.modEci_die (f : Eci → Eci) (k : Nat) : (s.modEci f).die k = s.die k := rfl
@[simp] theorem State.modEci_cluster (f : Eci → Eci) (k : Nat) : (s.modEci f).cluster k = s.cluster k := rfl
@[simp] theorem State.modEci_tile (f : Eci → Eci) (k : Nat) : (s.modEci f).tile k = s.tile k := rfl
@[simp] theorem State.modEci_quad (f : Eci → Eci) (k : Nat) : (s.modEci f).quad k = s.quad k := rfl
@[simp] theorem State.modEci_pfHdr (f : Eci → Eci) (k : Nat) : (s.modEci f).pfHdr k = s.pfHdr k := rfl
@[simp] theorem State.modEci_ring (f : Eci → Eci) (q k : Nat) : (s.modEci f).ring q k = s.ring q k := rfl
@[simp] theorem State.modEci_ctx (f : Eci → Eci) (q k : Nat) : (s.modEci f).ctx q k = s.ctx q k := rfl
@[simp] theorem State.modEci_token (f : Eci → Eci) (q k : Nat) : (s.modEci f).token q k = s.token q k := rfl
@[simp] theorem State.modEci_object (f : Eci → Eci) (q k : Nat) : (s.modEci f).object q k = s.object q k := rfl
@[simp] theorem State.modEci_cmd (f : Eci → Eci) (q k : Nat) : (s.modEci f).cmd? q k = s.cmd? q k := rfl
@[simp] theorem State.modMgmt_chan (f : Mgmt → Mgmt) (k : Nat) : (s.modMgmt f).chan k = s.chan k := rfl
@[simp] theorem State.modMgmt_die (f : Mgmt → Mgmt) (k : Nat) : (s.modMgmt f).die k = s.die k := rfl
@[simp] theorem State.modMgmt_cluster (f : Mgmt → Mgmt) (k : Nat) : (s.modMgmt f).cluster k = s.cluster k := rfl
@[simp] theorem State.modMgmt_tile (f : Mgmt → Mgmt) (k : Nat) : (s.modMgmt f).tile k = s.tile k := rfl
@[simp] theorem State.modMgmt_quad (f : Mgmt → Mgmt) (k : Nat) : (s.modMgmt f).quad k = s.quad k := rfl
@[simp] theorem State.modMgmt_pfHdr (f : Mgmt → Mgmt) (k : Nat) : (s.modMgmt f).pfHdr k = s.pfHdr k := rfl
@[simp] theorem State.modMgmt_ring (f : Mgmt → Mgmt) (q k : Nat) : (s.modMgmt f).ring q k = s.ring q k := rfl
@[simp] theorem State.modMgmt_ctx (f : Mgmt → Mgmt) (q k : Nat) : (s.modMgmt f).ctx q k = s.ctx q k := rfl
@[simp] theorem State.modMgmt_token (f : Mgmt → Mgmt) (q k : Nat) : (s.modMgmt f).token q k = s.token q k := rfl
@[simp] theorem State.modMgmt_object (f : Mgmt → Mgmt) (q k : Nat) : (s.modMgmt f).object q k = s.object q k := rfl
@[simp] theorem State.modMgmt_cmd (f : Mgmt → Mgmt) (q k : Nat) : (s.modMgmt f).cmd? q k = s.cmd? q k := rfl
@[simp] theorem State.modEng_chan (i : Nat) (f : CdcEng → CdcEng) (k : Nat) : (s.modEng i f).chan k = s.chan k := rfl
@[simp] theorem State.modEng_die (i : Nat) (f : CdcEng → CdcEng) (k : Nat) : (s.modEng i f).die k = s.die k := rfl
@[simp] theorem State.modEng_cluster (i : Nat) (f : CdcEng → CdcEng) (k : Nat) : (s.modEng i f).cluster k = s.cluster k := rfl
@[simp] theorem State.modEng_tile (i : Nat) (f : CdcEng → CdcEng) (k : Nat) : (s.modEng i f).tile k = s.tile k := rfl
@[simp] theorem State.modEng_quad (i : Nat) (f : CdcEng → CdcEng) (k : Nat) : (s.modEng i f).quad k = s.quad k := rfl
@[simp] theorem State.modEng_pfHdr (i : Nat) (f : CdcEng → CdcEng) (k : Nat) : (s.modEng i f).pfHdr k = s.pfHdr k := rfl
@[simp] theorem State.modEng_ring (i : Nat) (f : CdcEng → CdcEng) (q k : Nat) : (s.modEng i f).ring q k = s.ring q k := rfl
@[simp] theorem State.modEng_ctx (i : Nat) (f : CdcEng → CdcEng) (q k : Nat) : (s.modEng i f).ctx q k = s.ctx q k := rfl
@[simp] theorem State.modEng_token (i : Nat) (f : CdcEng → CdcEng) (q k : Nat) : (s.modEng i f).token q k = s.token q k := rfl
@[simp] theorem State.modEng_object (i : Nat) (f : CdcEng → CdcEng) (q k : Nat) : (s.modEng i f).object q k = s.object q k := rfl
@[simp] theorem State.modEng_cmd (i : Nat) (f : CdcEng → CdcEng) (q k : Nat) : (s.modEng i f).cmd? q k = s.cmd? q k := rfl
@[simp] theorem State.modPort_chan (i : Nat) (f : NetPort → NetPort) (k : Nat) : (s.modPort i f).chan k = s.chan k := rfl
@[simp] theorem State.modPort_die (i : Nat) (f : NetPort → NetPort) (k : Nat) : (s.modPort i f).die k = s.die k := rfl
@[simp] theorem State.modPort_cluster (i : Nat) (f : NetPort → NetPort) (k : Nat) : (s.modPort i f).cluster k = s.cluster k := rfl
@[simp] theorem State.modPort_tile (i : Nat) (f : NetPort → NetPort) (k : Nat) : (s.modPort i f).tile k = s.tile k := rfl
@[simp] theorem State.modPort_quad (i : Nat) (f : NetPort → NetPort) (k : Nat) : (s.modPort i f).quad k = s.quad k := rfl
@[simp] theorem State.modPort_pfHdr (i : Nat) (f : NetPort → NetPort) (k : Nat) : (s.modPort i f).pfHdr k = s.pfHdr k := rfl
@[simp] theorem State.modPort_ring (i : Nat) (f : NetPort → NetPort) (q k : Nat) : (s.modPort i f).ring q k = s.ring q k := rfl
@[simp] theorem State.modPort_ctx (i : Nat) (f : NetPort → NetPort) (q k : Nat) : (s.modPort i f).ctx q k = s.ctx q k := rfl
@[simp] theorem State.modPort_token (i : Nat) (f : NetPort → NetPort) (q k : Nat) : (s.modPort i f).token q k = s.token q k := rfl
@[simp] theorem State.modPort_object (i : Nat) (f : NetPort → NetPort) (q k : Nat) : (s.modPort i f).object q k = s.object q k := rfl
@[simp] theorem State.modPort_cmd (i : Nat) (f : NetPort → NetPort) (q k : Nat) : (s.modPort i f).cmd? q k = s.cmd? q k := rfl
@[simp] theorem State.answer_chan (r : Reply) (k : Nat) : (s.answer r).chan k = s.chan k := rfl
@[simp] theorem State.answer_die (r : Reply) (k : Nat) : (s.answer r).die k = s.die k := rfl
@[simp] theorem State.answer_cluster (r : Reply) (k : Nat) : (s.answer r).cluster k = s.cluster k := rfl
@[simp] theorem State.answer_tile (r : Reply) (k : Nat) : (s.answer r).tile k = s.tile k := rfl
@[simp] theorem State.answer_quad (r : Reply) (k : Nat) : (s.answer r).quad k = s.quad k := rfl
@[simp] theorem State.answer_pfHdr (r : Reply) (k : Nat) : (s.answer r).pfHdr k = s.pfHdr k := rfl
@[simp] theorem State.answer_ring (r : Reply) (q k : Nat) : (s.answer r).ring q k = s.ring q k := rfl
@[simp] theorem State.answer_ctx (r : Reply) (q k : Nat) : (s.answer r).ctx q k = s.ctx q k := rfl
@[simp] theorem State.answer_token (r : Reply) (q k : Nat) : (s.answer r).token q k = s.token q k := rfl
@[simp] theorem State.answer_object (r : Reply) (q k : Nat) : (s.answer r).object q k = s.object q k := rfl
@[simp] theorem State.answer_cmd (r : Reply) (q k : Nat) : (s.answer r).cmd? q k = s.cmd? q k := rfl
@[simp] theorem State.emit_chan (o : Out) (k : Nat) : (s.emit o).chan k = s.chan k := rfl
@[simp] theorem State.emit_die (o : Out) (k : Nat) : (s.emit o).die k = s.die k := rfl
@[simp] theorem State.emit_cluster (o : Out) (k : Nat) : (s.emit o).cluster k = s.cluster k := rfl
@[simp] theorem State.emit_tile (o : Out) (k : Nat) : (s.emit o).tile k = s.tile k := rfl
@[simp] theorem State.emit_quad (o : Out) (k : Nat) : (s.emit o).quad k = s.quad k := rfl
@[simp] theorem State.emit_pfHdr (o : Out) (k : Nat) : (s.emit o).pfHdr k = s.pfHdr k := rfl
@[simp] theorem State.emit_ring (o : Out) (q k : Nat) : (s.emit o).ring q k = s.ring q k := rfl
@[simp] theorem State.emit_ctx (o : Out) (q k : Nat) : (s.emit o).ctx q k = s.ctx q k := rfl
@[simp] theorem State.emit_token (o : Out) (q k : Nat) : (s.emit o).token q k = s.token q k := rfl
@[simp] theorem State.emit_object (o : Out) (q k : Nat) : (s.emit o).object q k = s.object q k := rfl
@[simp] theorem State.emit_cmd (o : Out) (q k : Nat) : (s.emit o).cmd? q k = s.cmd? q k := rfl
@[simp] theorem State.useFree_chan (k : Nat) : (s.useFree).chan k = s.chan k := rfl
@[simp] theorem State.useFree_die (k : Nat) : (s.useFree).die k = s.die k := rfl
@[simp] theorem State.useFree_cluster (k : Nat) : (s.useFree).cluster k = s.cluster k := rfl
@[simp] theorem State.useFree_tile (k : Nat) : (s.useFree).tile k = s.tile k := rfl
@[simp] theorem State.useFree_quad (k : Nat) : (s.useFree).quad k = s.quad k := rfl
@[simp] theorem State.useFree_pfHdr (k : Nat) : (s.useFree).pfHdr k = s.pfHdr k := rfl
@[simp] theorem State.useFree_ring (q k : Nat) : (s.useFree).ring q k = s.ring q k := rfl
@[simp] theorem State.useFree_ctx (q k : Nat) : (s.useFree).ctx q k = s.ctx q k := rfl
@[simp] theorem State.useFree_token (q k : Nat) : (s.useFree).token q k = s.token q k := rfl
@[simp] theorem State.useFree_object (q k : Nat) : (s.useFree).object q k = s.object q k := rfl
@[simp] theorem State.useFree_cmd (q k : Nat) : (s.useFree).cmd? q k = s.cmd? q k := rfl
@[simp] theorem State.modPfHdr_chan (i : Nat) (f : PageHdr → PageHdr) (k : Nat) : (s.modPfHdr i f).chan k = s.chan k := rfl
@[simp] theorem State.modPfHdr_die (i : Nat) (f : PageHdr → PageHdr) (k : Nat) : (s.modPfHdr i f).die k = s.die k := rfl
@[simp] theorem State.modPfHdr_cluster (i : Nat) (f : PageHdr → PageHdr) (k : Nat) : (s.modPfHdr i f).cluster k = s.cluster k := rfl
@[simp] theorem State.modPfHdr_tile (i : Nat) (f : PageHdr → PageHdr) (k : Nat) : (s.modPfHdr i f).tile k = s.tile k := rfl
@[simp] theorem State.modPfHdr_quad (i : Nat) (f : PageHdr → PageHdr) (k : Nat) : (s.modPfHdr i f).quad k = s.quad k := rfl
@[simp] theorem State.modPfHdr_ring (i : Nat) (f : PageHdr → PageHdr) (q k : Nat) : (s.modPfHdr i f).ring q k = s.ring q k := rfl
@[simp] theorem State.modPfHdr_ctx (i : Nat) (f : PageHdr → PageHdr) (q k : Nat) : (s.modPfHdr i f).ctx q k = s.ctx q k := rfl
@[simp] theorem State.modPfHdr_token (i : Nat) (f : PageHdr → PageHdr) (q k : Nat) : (s.modPfHdr i f).token q k = s.token q k := rfl
@[simp] theorem State.modPfHdr_object (i : Nat) (f : PageHdr → PageHdr) (q k : Nat) : (s.modPfHdr i f).object q k = s.object q k := rfl
@[simp] theorem State.modPfHdr_cmd (i : Nat) (f : PageHdr → PageHdr) (q k : Nat) : (s.modPfHdr i f).cmd? q k = s.cmd? q k := rfl

theorem State.setPart_part (p q : Nat) (x : Part) : (s.setPart p x).part q = if q = p then x else s.part q :=
  tget_tset _ s.parts p q x
@[simp] theorem State.setPart_part_self (p : Nat) (x : Part) : (s.setPart p x).part p = x := by simp [State.setPart_part]
theorem State.modPart_part (p q : Nat) (f : Part → Part) :
    (s.modPart p f).part q = if q = p then f (s.part p) else s.part q := s.setPart_part p q _
@[simp] theorem State.modPart_part_self (p : Nat) (f : Part → Part) : (s.modPart p f).part p = f (s.part p) := by
  simp [State.modPart_part]

theorem State.modSys_part (p q : Nat) (f : CmdSys → CmdSys) :
    (s.modSys p f).part q = if q = p then { s.part p with cmd := f (s.part p).cmd } else s.part q := s.setPart_part p q _
@[simp] theorem State.modSys_part_self (p : Nat) (f : CmdSys → CmdSys) :
    (s.modSys p f).part p = { s.part p with cmd := f (s.part p).cmd } := by simp [State.modSys_part]
theorem State.modCtl_part (p q : Nat) (f : PartCtl → PartCtl) :
    (s.modCtl p f).part q = if q = p then { s.part p with ctl := f (s.part p).ctl } else s.part q := s.setPart_part p q _
@[simp] theorem State.modCtl_part_self (p : Nat) (f : PartCtl → PartCtl) :
    (s.modCtl p f).part p = { s.part p with ctl := f (s.part p).ctl } := by simp [State.modCtl_part]
theorem State.modMtr_part (p q : Nat) (f : Meters → Meters) :
    (s.modMtr p f).part q = if q = p then { s.part p with mtr := f (s.part p).mtr } else s.part q := s.setPart_part p q _
@[simp] theorem State.modMtr_part_self (p : Nat) (f : Meters → Meters) :
    (s.modMtr p f).part p = { s.part p with mtr := f (s.part p).mtr } := by simp [State.modMtr_part]
theorem State.modLtn_part (p q : Nat) (f : Lantern → Lantern) :
    (s.modLtn p f).part q = if q = p then { s.part p with ltn := f (s.part p).ltn } else s.part q := s.setPart_part p q _
@[simp] theorem State.modLtn_part_self (p : Nat) (f : Lantern → Lantern) :
    (s.modLtn p f).part p = { s.part p with ltn := f (s.part p).ltn } := by simp [State.modLtn_part]
theorem State.modSeq_part (p q : Nat) (f : Seq → Seq) :
    (s.modSeq p f).part q = if q = p then { s.part p with seq := f (s.part p).seq } else s.part q := s.setPart_part p q _
@[simp] theorem State.modSeq_part_self (p : Nat) (f : Seq → Seq) :
    (s.modSeq p f).part p = { s.part p with seq := f (s.part p).seq } := by simp [State.modSeq_part]
theorem State.modStr_part (p q : Nat) (f : Streams → Streams) :
    (s.modStr p f).part q = if q = p then { s.part p with str := f (s.part p).str } else s.part q := s.setPart_part p q _
@[simp] theorem State.modStr_part_self (p : Nat) (f : Streams → Streams) :
    (s.modStr p f).part p = { s.part p with str := f (s.part p).str } := by simp [State.modStr_part]
theorem State.modObjs_part (p q : Nat) (f : Objs → Objs) :
    (s.modObjs p f).part q = if q = p then { s.part p with obj := f (s.part p).obj } else s.part q := s.setPart_part p q _
@[simp] theorem State.modObjs_part_self (p : Nat) (f : Objs → Objs) :
    (s.modObjs p f).part p = { s.part p with obj := f (s.part p).obj } := by simp [State.modObjs_part]
theorem State.modCdc_part (p q : Nat) (f : Cdc → Cdc) :
    (s.modCdc p f).part q = if q = p then { s.part p with cdc := f (s.part p).cdc } else s.part q := s.setPart_part p q _
@[simp] theorem State.modCdc_part_self (p : Nat) (f : Cdc → Cdc) :
    (s.modCdc p f).part p = { s.part p with cdc := f (s.part p).cdc } := by simp [State.modCdc_part]
theorem State.modNet_part (p q : Nat) (f : NetPart → NetPart) :
    (s.modNet p f).part q = if q = p then { s.part p with net := f (s.part p).net } else s.part q := s.setPart_part p q _
@[simp] theorem State.modNet_part_self (p : Nat) (f : NetPart → NetPart) :
    (s.modNet p f).part p = { s.part p with net := f (s.part p).net } := by simp [State.modNet_part]
theorem State.modVf_part (p q : Nat) (f : Vf → Vf) :
    (s.modVf p f).part q = if q = p then { s.part p with vf := f (s.part p).vf } else s.part q := s.setPart_part p q _
@[simp] theorem State.modVf_part_self (p : Nat) (f : Vf → Vf) :
    (s.modVf p f).part p = { s.part p with vf := f (s.part p).vf } := by simp [State.modVf_part]
theorem State.modMir_part (p q : Nat) (f : Mirror → Mirror) :
    (s.modMir p f).part q = if q = p then { s.part p with mir := f (s.part p).mir } else s.part q := s.setPart_part p q _
@[simp] theorem State.modMir_part_self (p : Nat) (f : Mirror → Mirror) :
    (s.modMir p f).part p = { s.part p with mir := f (s.part p).mir } := by simp [State.modMir_part]
theorem State.modWdg_part (p q : Nat) (f : Watchdog → Watchdog) :
    (s.modWdg p f).part q = if q = p then { s.part p with wdg := f (s.part p).wdg } else s.part q := s.setPart_part p q _
@[simp] theorem State.modWdg_part_self (p : Nat) (f : Watchdog → Watchdog) :
    (s.modWdg p f).part p = { s.part p with wdg := f (s.part p).wdg } := by simp [State.modWdg_part]
theorem State.modEvt_part (p q : Nat) (f : EvRing → EvRing) :
    (s.modEvt p f).part q = if q = p then { s.part p with evt := f (s.part p).evt } else s.part q := s.setPart_part p q _
@[simp] theorem State.modEvt_part_self (p : Nat) (f : EvRing → EvRing) :
    (s.modEvt p f).part p = { s.part p with evt := f (s.part p).evt } := by simp [State.modEvt_part]

@[simp] theorem State.modRing_ring (p n : Nat) (f : Ring → Ring) : (s.modRing p n f).ring p n = f (s.ring p n) := by
  simp [State.modRing, State.ring]
@[simp] theorem State.modCtx_ctx (p n : Nat) (f : Ctx → Ctx) : (s.modCtx p n f).ctx p n = f (s.ctx p n) := by
  simp [State.modCtx, State.ctx]
@[simp] theorem State.modToken_token (p n : Nat) (f : Token → Token) : (s.modToken p n f).token p n = f (s.token p n) := by
  simp [State.modToken, State.token]
@[simp] theorem State.modObject_object (p n : Nat) (f : Obj → Obj) : (s.modObject p n f).object p n = f (s.object p n) := by
  simp [State.modObject, State.object]
@[simp] theorem State.modCluster_cluster (k : Nat) (f : Cluster → Cluster) : (s.modCluster k f).cluster k = f (s.cluster k) := by
  simp [State.modCluster, State.cluster]
@[simp] theorem State.modTile_tile (k : Nat) (f : Tile → Tile) : (s.modTile k f).tile k = f (s.tile k) := by
  simp [State.modTile, State.tile]
@[simp] theorem State.modChan_chan (k : Nat) (f : Chan → Chan) : (s.modChan k f).chan k = f (s.chan k) := by
  simp [State.modChan, State.modMem, State.chan]
@[simp] theorem State.modDie_die (k : Nat) (f : Die → Die) : (s.modDie k f).die k = f (s.die k) := by
  simp [State.modDie, State.modMem, State.die]
@[simp] theorem State.modQuad_quad (k : Nat) (f : Quad → Quad) : (s.modQuad k f).quad k = f (s.quad k) := by
  simp [State.modQuad, State.quad]

end Sys2Proof.Machine
end

