-- ==== Sys2Proof/Laws/Memory.lean ====
section
/-! SUPPORT. The memories: a read after a write, and that every memory operation keeps the canonical form. -/

namespace Sys2Proof.Machine

/-- What each round of a fold keeps, the fold keeps. -/
theorem foldl_keeps {α β : Type} (P : α → Prop) (f : α → β → α) (hf : ∀ a b, P a → P (f a b)) (l : List β) {a : α} (h : P a) :
    P (l.foldl f a) := by
  induction l generalizing a with
  | nil => exact h
  | cons b t ih => exact ih (hf a b h)

/-- The canonical form as a statement about the whole list. -/
theorem Memory.wf_iff (l : List Host.Cell) :
    Memory.wf l = true ↔ (∀ e ∈ l, e.2 ≠ 0) ∧ l.Pairwise fun a b => a.1 < b.1 := by
  induction l with
  | nil => simp [Memory.wf]
  | cons e t ih =>
    cases t with
    | nil => simp [Memory.wf]
    | cons f t =>
      simp only [Memory.wf, Bool.and_eq_true, bne_iff_ne, ne_eq, decide_eq_true_eq, ih]
      constructor
      · rintro ⟨⟨h0, h1⟩, h2, h3⟩
        refine ⟨?_, ?_⟩
        · intro x hx
          rcases List.mem_cons.1 hx with rfl | hx
          · exact h0
          · exact h2 x hx
        · refine List.pairwise_cons.2 ⟨?_, h3⟩
          intro x hx
          rcases List.mem_cons.1 hx with rfl | hx
          · exact h1
          · exact Nat.lt_trans h1 ((List.pairwise_cons.1 h3).1 x hx)
      · rintro ⟨h2, h3⟩
        have h4 := List.pairwise_cons.1 h3
        exact ⟨⟨h2 e (by simp), h4.1 f (by simp)⟩, fun x hx => h2 x (by simp [hx]), h4.2⟩

theorem Memory.wf_filter {l : List Host.Cell} (q : Host.Cell → Bool) (h : Memory.wf l = true) : Memory.wf (l.filter q) = true := by
  rw [Memory.wf_iff] at *
  exact ⟨fun e he => h.1 e (List.mem_filter.1 he).1, h.2.filter q⟩

theorem mem_tset {l : List Host.Cell} {a : Nat} {b : Byte} {e : Host.Cell} (h : e ∈ tset l a b) : e = (a, b) ∨ e ∈ l := by
  induction l with
  | nil => simpa [tset] using h
  | cons x t ih =>
    obtain ⟨i, w⟩ := x
    simp only [tset] at h
    split at h
    · rename_i hi
      subst hi
      rcases List.mem_cons.1 h with h | h
      · exact .inl h
      · exact .inr (List.mem_cons_of_mem _ h)
    · split at h
      · rcases List.mem_cons.1 h with h | h
        · exact .inl h
        · exact .inr h
      · rcases List.mem_cons.1 h with h | h
        · exact .inr (by simp [h])
        · rcases ih h with h | h
          · exact .inl h
          · exact .inr (List.mem_cons_of_mem _ h)

theorem Memory.wf_tset {l : List Host.Cell} {a : Nat} {b : Byte} (hb : b ≠ 0) (h : Memory.wf l = true) :
    Memory.wf (tset l a b) = true := by
  rw [Memory.wf_iff] at *
  refine ⟨fun e he => ?_, ?_⟩
  · rcases mem_tset he with rfl | he
    · exact hb
    · exact h.1 e he
  · obtain ⟨-, h⟩ := h
    induction l with
    | nil => simp [tset]
    | cons x t ih =>
      obtain ⟨i, w⟩ := x
      obtain ⟨h1, h2⟩ := List.pairwise_cons.1 h
      simp only [tset]
      split
      · rename_i hi
        subst hi
        exact List.pairwise_cons.2 ⟨h1, h2⟩
      · rename_i hi
        split
        · rename_i hlt
          refine List.pairwise_cons.2 ⟨fun e he => ?_, h⟩
          rcases List.mem_cons.1 he with rfl | he
          · exact hlt
          · exact Nat.lt_trans hlt (h1 e he)
        · refine List.pairwise_cons.2 ⟨fun e he => ?_, ih h2⟩
          rcases mem_tset he with rfl | he
          · show i < a
            omega
          · exact h1 e he

theorem Memory.wf_cellSet {l : List Host.Cell} (a : Nat) (b : Byte) (h : Memory.wf l = true) : Memory.wf (cellSet l a b) = true := by
  unfold cellSet
  split
  · exact Memory.wf_filter _ h
  · exact Memory.wf_tset ‹_› h

theorem Memory.wf_cellsSet (bs : List Byte) (l : List Host.Cell) (a : Nat) (h : Memory.wf l = true) :
    Memory.wf (cellsSet l a bs) = true := by
  induction bs generalizing l a with
  | nil => exact h
  | cons b t ih => exact ih _ _ (Memory.wf_cellSet a b h)

theorem tget_filter_ne (l : List Host.Cell) (a j : Nat) :
    tget 0 (l.filter fun e => decide (e.1 ≠ a)) j = if j = a then 0 else tget 0 l j := by
  induction l with
  | nil => simp [tget]
  | cons x t ih =>
    obtain ⟨i, w⟩ := x
    by_cases hi : i = a
    · subst hi
      by_cases hj : j = i
      · subst hj
        simpa using ih
      · have : ¬ i = j := fun e => hj e.symm
        simp [hj, tget, this] at ih ⊢
        exact ih
    · simp only [decide_not, List.filter_cons, hi, decide_false, Bool.not_false, if_true, tget]
      simp only [decide_not] at ih
      rw [ih]
      by_cases hj : j = a
      · subst hj
        simp [hi]
      · simp [hj]

/-- A byte written reads back, and every other byte reads as before. -/
theorem cellGet_cellSet (l : List Host.Cell) (a j : Nat) (b : Byte) :
    cellGet (cellSet l a b) j = if j = a then b else cellGet l j := by
  unfold cellGet cellSet
  split
  · rename_i hb
    rw [tget_filter_ne, hb]
  · exact tget_tset _ _ _ _ _

/-- A cell outside the bytes written reads as before. -/
theorem cellGet_cellsSet_of_not_mem (bs : List Byte) (l : List Host.Cell) (a j : Nat) (h : j < a ∨ a + bs.length ≤ j) :
    cellGet (cellsSet l a bs) j = cellGet l j := by
  induction bs generalizing l a with
  | nil => rfl
  | cons b t ih =>
    simp only [cellsSet]
    simp only [List.length_cons] at h
    rw [ih _ _ (by omega), cellGet_cellSet, if_neg (by omega)]

/-- Byte `i` of the bytes written reads back. -/
theorem cellGet_cellsSet (bs : List Byte) (l : List Host.Cell) (a i : Nat) (h : i < bs.length) :
    cellGet (cellsSet l a bs) (a + i) = bs[i] := by
  induction bs generalizing l a i with
  | nil => simp at h
  | cons b t ih =>
    simp only [cellsSet]
    cases i with
    | zero => rw [cellGet_cellsSet_of_not_mem _ _ _ _ (by omega), cellGet_cellSet, if_pos (by omega)]; rfl
    | succ i =>
      have h' : i < t.length := by simpa using h
      have := ih (cellSet l a b) (a + 1) i h'
      rw [show a + (i + 1) = a + 1 + i by omega, this]
      rfl

/-- All five memories of `m` are in canonical form. -/
def Mem.canon (m : Mem) : Prop := ∀ sp, Memory.wf (m.cells sp) = true

theorem memoryCanonical_iff (s : State) : MemoryCanonical s ↔ s.mem.canon := by
  constructor
  · rintro ⟨h1, h2, h3, h4, h5⟩ sp
    cases sp <;> assumption
  · intro h
    exact ⟨h .sram, h .hamper, h .hbm, h .lpddr, h .host⟩

@[simp] theorem Mem.cells_setCells (m : Mem) (sp sp' : Space) (l : List Host.Cell) :
    (m.setCells sp l).cells sp' = if sp' = sp then l else m.cells sp' := by
  cases sp <;> cases sp' <;> rfl

@[simp] theorem Mem.cells_setLineKey (m : Mem) (sp sp' : Space) (line k : Nat) : (m.setLineKey sp line k).cells sp' = m.cells sp' := by
  cases sp <;> cases sp' <;> rfl

@[simp] theorem Mem.cells_clearPoison (m : Mem) (sp sp' : Space) (line : Nat) : (m.clearPoison sp line).cells sp' = m.cells sp' := by
  cases sp' <;> rfl

@[simp] theorem Mem.cells_addPoison (m : Mem) (sp sp' : Space) (line : Nat) (q : W64) : (m.addPoison sp line q).cells sp' = m.cells sp' := by
  unfold Mem.addPoison
  split
  · rfl
  · cases sp' <;> rfl

theorem Mem.canon_setCells {m : Mem} (h : m.canon) {sp : Space} {l : List Host.Cell} (hl : Memory.wf l = true) : (m.setCells sp l).canon := by
  intro sp'
  rw [Mem.cells_setCells]
  split
  · exact hl
  · exact h sp'

theorem Mem.canon_setLineKey {m : Mem} (h : m.canon) (sp : Space) (line k : Nat) : (m.setLineKey sp line k).canon := fun sp' => by
  rw [Mem.cells_setLineKey]
  exact h sp'

theorem Mem.canon_clearPoison {m : Mem} (h : m.canon) (sp : Space) (line : Nat) : (m.clearPoison sp line).canon := fun sp' => by
  rw [Mem.cells_clearPoison]
  exact h sp'

theorem Mem.canon_addPoison {m : Mem} (h : m.canon) (sp : Space) (line : Nat) (q : W64) : (m.addPoison sp line q).canon := fun sp' => by
  rw [Mem.cells_addPoison]
  exact h sp'

theorem Mem.canon_rekey {m : Mem} (h : m.canon) (key : Nat) (sp : Space) (line : Nat) : (m.rekey key sp line).canon := by
  unfold Mem.rekey
  dsimp only
  split
  · exact Mem.canon_setLineKey h _ _ _
  · exact Mem.canon_setLineKey (Mem.canon_setCells h (Memory.wf_cellsSet _ _ _ (h sp))) _ _ _

theorem Mem.canon_poke {m : Mem} (h : m.canon) (key : Nat) (sp : Space) (a : Nat) (bs : List Byte) : (m.poke key sp a bs).canon :=
  Mem.canon_setCells (Mem.canon_rekey h _ _ _) (Memory.wf_cellsSet _ _ _ (Mem.canon_rekey h _ _ _ sp))

theorem Mem.canon_writeLine {m : Mem} (h : m.canon) (key : Nat) (sp : Space) (a : Nat) (bs : List Byte) :
    (m.writeLine key sp a bs).1.canon := by
  unfold Mem.writeLine
  split
  · exact Mem.canon_poke h _ _ _ _
  · split
    · exact Mem.canon_clearPoison (Mem.canon_poke h _ _ _ _) _ _
    · exact h

/-- A change of the memories that keeps their cells keeps the canonical form. -/
theorem Mem.canon_congr {m n : Mem} (h : m.canon) (e : ∀ sp, n.cells sp = m.cells sp) : n.canon := fun sp => by
  rw [e]
  exact h sp

/-- The state after reset has its memories in canonical form. -/
theorem reset_canon : State.reset.mem.canon := fun sp => by cases sp <;> rfl

theorem State.modMem_canon {s : State} {f : Mem → Mem} (h : s.mem.canon) (hf : ∀ m : Mem, m.canon → (f m).canon) : (s.modMem f).mem.canon :=
  hf _ h

theorem State.setHost_canon {s : State} (h : s.mem.canon) (a : Nat) (bs : List Byte) : (s.setHost a bs).mem.canon := fun sp => by
  cases sp
  case host => exact Memory.wf_cellsSet _ _ _ (h .host)
  case sram => exact h .sram
  case hamper => exact h .hamper
  case hbm => exact h .hbm
  case lpddr => exact h .lpddr

theorem State.modChan_canon {s : State} (h : s.mem.canon) (k : Nat) (f : Chan → Chan) : (s.modChan k f).mem.canon :=
  Mem.canon_congr h fun sp => by cases sp <;> rfl

@[simp] theorem State.meterCredits_mem (s : State) (p r n : Nat) : (s.meterCredits p r n).mem = s.mem := by
  unfold State.meterCredits State.count
  repeat' split
  all_goals simp

@[simp] theorem State.charge_mem (s : State) (p r b n : Nat) : (s.charge p r b n).mem = s.mem := by
  unfold State.charge
  dsimp only
  split <;> simp [State.modReg]

theorem State.countLine_canon {s : State} (h : s.mem.canon) (p : Nat) (sp : Space) (a : Nat) : (s.countLine p sp a).mem.canon := by
  unfold State.countLine
  split
  · exact h
  · simp only [State.charge_mem]
    exact State.modChan_canon h _ _

theorem State.countArea_canon {s : State} (h : s.mem.canon) (p off n : Nat) : (s.countArea p off n).mem.canon := by
  unfold State.countArea
  exact foldl_keeps (fun s : State => s.mem.canon) _ (fun _ _ h => State.countLine_canon h _ _ _) _ h

theorem State.countRange_canon {s : State} (h : s.mem.canon) (p : Nat) (pl : Place) (off n : Nat) : (s.countRange p pl off n).mem.canon := by
  unfold State.countRange
  split
  · exact h
  · exact h
  · generalize lineSegs off n = l
    exact foldl_keeps (fun s : State => s.mem.canon) _ (fun _ _ h => State.countLine_canon h _ _ _) l h

/-- Bytes written at a place keep the canonical form. -/
theorem State.poke_canon {s : State} (h : s.mem.canon) (p : Nat) (pl : Place) (off : Nat) (bs : List Byte) :
    (s.poke p pl off bs).1.mem.canon := by
  unfold State.poke
  dsimp only
  exact foldl_keeps (fun r : State × Option W64 => r.1.mem.canon) _
    (fun _ _ h => State.countLine_canon (Mem.canon_writeLine h _ _ _ _) _ _ _) _ h

/-- Bytes that the pair link writes keep the canonical form. -/
theorem State.pokeQuiet_canon {s : State} (h : s.mem.canon) (p : Nat) (pl : Place) (off : Nat) (bs : List Byte) :
    (s.pokeQuiet p pl off bs).mem.canon := by
  unfold State.pokeQuiet
  exact foldl_keeps (fun s : State => s.mem.canon) _ (fun _ _ h => Mem.canon_writeLine h _ _ _ _) _ h

@[simp] theorem State.markDirty_mem (s : State) (p : Nat) (d : Dirty) : (s.markDirty p d).mem = s.mem := by
  unfold State.markDirty
  dsimp only
  split <;> rfl

@[simp] theorem State.dirtyRange_mem (s : State) (p h off n : Nat) : (s.dirtyRange p h off n).mem = s.mem := by
  unfold State.dirtyRange
  split
  · exact foldl_keeps (fun t : State => t.mem = s.mem) _ (fun _ _ h => by rw [State.markDirty_mem, h]) _ rfl
  · rfl

theorem State.pokeO_canon {s : State} (h : s.mem.canon) (p : Nat) (r : ORef) (bs : List Byte) : (s.pokeO p r bs).1.mem.canon := by
  unfold State.pokeO
  simp only [State.dirtyRange_mem]
  exact State.poke_canon h _ _ _ _

theorem State.pokeAll_canon {s : State} (h : s.mem.canon) (p : Nat) (ws : List (ORef × List Byte)) : (s.pokeAll p ws).1.mem.canon := by
  unfold State.pokeAll
  refine foldl_keeps (fun r : State × Option W64 => r.1.mem.canon) _ (fun r w hr => ?_) ws (a := (s, none)) h
  exact State.pokeO_canon (s := r.1) hr _ _ _

theorem State.modDie_canon {s : State} (h : s.mem.canon) (k : Nat) (f : Die → Die) : (s.modDie k f).mem.canon :=
  Mem.canon_congr h fun sp => by cases sp <;> rfl

/-- A memory-side operation keeps the canonical form. -/
theorem State.memOp_canon {s : State} (h : s.mem.canon) (p : Nat) (o : AddOp) (r : ORef) (v : Nat) : (s.memOp p o r v).1.mem.canon := by
  have hc := State.countLine_canon h p (s.phys p (s.object p r.handle).src r.off).space (s.phys p (s.object p r.handle).src r.off).addr
  unfold State.memOp
  dsimp only
  generalize (s.countLine p _ _) = u at hc ⊢
  split
  · split
    · exact State.modDie_canon hc _ _
    · exact hc
  · split
    · refine State.modDie_canon ?_ _ _
      rw [State.dirtyRange_mem]
      exact Mem.canon_poke hc _ _ _ _
    · show Mem.canon (State.dirtyRange _ _ _ _ _).mem
      rw [State.dirtyRange_mem]
      exact Mem.canon_poke hc _ _ _ _

/-- A write of a compute command keeps the canonical form. -/
theorem State.applyWr_canon {s : State} (h : s.mem.canon) (p : Nat) (w : Wr) : (s.applyWr p w).1.mem.canon := by
  cases w with
  | store r bs => exact State.pokeO_canon h p r bs
  | red o r v =>
    show Mem.canon (s.memOp p o r v).1.mem
    exact State.memOp_canon h p o r v

/-- A loss of power leaves the host's memory as it was, and the others as after reset. -/
theorem State.blank_canon {s : State} (h : s.mem.canon) : s.blank.mem.canon := fun sp => by
  cases sp
  case host => exact h .host
  all_goals rfl

end Sys2Proof.Machine
end

