-- ==== Sys2Proof/Laws/Events.lean ====
section
/-! SUPPORT. What raising an event may change: everything else of the state stays. -/

namespace Sys2Proof.Machine

/-- All that an event told to the PF ring may change between `s` and `t`: the event system, the alert queue, messages to the host,
EVENT_WAYMARK of a PF page, and host memory. -/
structure PfTold (s t : State) : Prop where
  rest : t = { s with ev := t.ev, mgmt := t.mgmt, out := t.out, hdr := t.hdr, mem := { s.mem with host := t.mem.host } }
  canon : s.mem.canon → t.mem.canon

/-- All that an event told to the ring of partition `p` may change besides: that partition's ring, its pending vectors, page headers,
meters, buckets and dirty marks, and the memories' cells with the bytes counted of a channel. -/
structure PartTold (p : Nat) (s t : State) : Prop where
  rest : t = { s with ev := t.ev, mgmt := t.mgmt, out := t.out, hdr := t.hdr, mem := t.mem, parts := t.parts }
  mine : t.part p = { s.part p with
    evt := (t.part p).evt, vf := { (s.part p).vf with msixPend := (t.part p).vf.msixPend }, hdr := (t.part p).hdr
    mtr := (t.part p).mtr, mir := { (s.part p).mir with dirty := (t.part p).mir.dirty } }
  others : ∀ q, q ≠ p → t.part q = s.part q
  dies : t.mem.dies = s.mem.dies
  keys : t.mem.keys = s.mem.keys
  canon : s.mem.canon → t.mem.canon

theorem PfTold.refl (s : State) : PfTold s s := ⟨rfl, id⟩

theorem PfTold.trans {s t u : State} (h : PfTold s t) (k : PfTold t u) : PfTold s u := by
  refine ⟨?_, fun c => k.canon (h.canon c)⟩
  have hr := h.rest
  have kr := k.rest
  rw [hr] at kr
  rw [kr]

theorem PfTold.modEv (s : State) (f : Events → Events) : PfTold s (s.modEv f) := ⟨rfl, id⟩
theorem PfTold.modMgmt (s : State) (f : Mgmt → Mgmt) : PfTold s (s.modMgmt f) := ⟨rfl, id⟩
theorem PfTold.emit (s : State) (o : Out) : PfTold s (s.emit o) := ⟨rfl, id⟩
theorem PfTold.modPfHdr (s : State) (k : Nat) (f : PageHdr → PageHdr) : PfTold s (s.modPfHdr k f) := ⟨rfl, id⟩
theorem PfTold.setHost (s : State) (a : Nat) (bs : List Byte) : PfTold s (s.setHost a bs) := ⟨rfl, fun h => State.setHost_canon h a bs⟩

theorem PfTold.msixPf (s : State) (v : Nat) : PfTold s (s.msixPf v) := by
  unfold State.msixPf
  split
  · exact .refl s
  · split
    · exact .modEv s _
    · exact .emit s _

theorem PfTold.link (s : State) (q : W64) (cause : W16) (src : Src) (part : Option Nat) : PfTold s (s.link q cause src part) := .modEv s _

theorem PfTold.alert (s : State) (x : EvRec) : PfTold s (s.alert x) := by
  unfold State.alert
  dsimp only
  split
  · split
    · split
      · exact (PfTold.modMgmt s _).trans (.emit _ _)
      · exact .modMgmt s _
    · exact .modMgmt s _
  · exact .refl s

theorem PfTold.noteWm (s : State) (src : Src) (wm : W32) : PfTold s (s.noteWm src wm none) := by
  unfold State.noteWm
  dsimp only
  split
  · exact .refl s
  · split
    · exact .modPfHdr s _ _
    · exact .refl s

theorem PfTold.writePfRec {s t : State} {x : EvRec} (h : s.writePfRec x = some t) : PfTold s t := by
  unfold State.writePfRec at h
  dsimp only at h
  split at h
  · cases h
  · simp only [Option.some.injEq] at h
    subst h
    split
    · exact ((PfTold.setHost s _ _).trans (.modEv _ _)).trans (.msixPf _ _)
    · exact (PfTold.setHost s _ _).trans (.modEv _ _)

theorem PfTold.aerPf (s : State) (cor unc : W32) : PfTold s (s.aerPf cor unc) := by
  unfold State.aerPf
  dsimp only
  split
  · exact .refl s
  · exact (PfTold.modEv s _).trans (.msixPf _ _)

/-- A record told to the PF ring. -/
theorem PfTold.recPf (s : State) (q : W64) (cause : W16) (cls : BitVec 2) (src : Src) (part : Option Nat) (wm : W32)
    (detail : List Byte) (late : Bool) : PfTold s (s.recPf q cause cls src part wm detail late) := by
  unfold State.recPf
  split
  · exact .refl s
  · dsimp only
    generalize hx : (EvRec.mk _ _ _ _ _ _ _ _ _) = x
    generalize hu : State.alert _ x = u
    have hsu : PfTold s u := by
      rw [← hu]
      exact ((PfTold.modEv s _).trans (.noteWm _ _ _)).trans (.alert _ _)
    generalize hv : (if cls = 3 ∧ cause ≠ Cause.linkDown then u.aerPf 0 0x400000#32 else u) = v
    have huv : PfTold u v := by
      rw [← hv]
      split
      · exact .aerPf u _ _
      · exact .refl u
    refine (hsu.trans huv).trans ?_
    cases h : v.writePfRec x with
    | some t => exact .writePfRec h
    | none => exact PfTold.modEv v fun e => { e with pf := e.pf.buffered 256 x }

/-- A fault told to the PF ring. -/
theorem PfTold.raisePf (s : State) (cause : W16) (src : Src) (part : Option Nat) (detail : List Byte) :
    PfTold s (s.raisePf cause src part detail) :=
  ((PfTold.modEv s _).trans (.link _ _ _ _ _)).trans (.recPf _ _ _ _ _ _ _ _ _)

theorem PfTold.flushPf (n : Nat) (s : State) : PfTold s (s.flushPf n) := by
  induction n generalizing s with
  | zero => exact .refl s
  | succ n ih =>
    unfold State.flushPf
    split
    · exact .refl s
    · split
      · rename_i h
        exact ((PfTold.modEv s _).trans (.writePfRec h)).trans (ih _)
      · exact .refl s

theorem PartTold.refl (p : Nat) (s : State) : PartTold p s s := ⟨rfl, rfl, fun _ _ => rfl, rfl, rfl, id⟩

theorem PartTold.trans {p : Nat} {s t u : State} (h : PartTold p s t) (k : PartTold p t u) : PartTold p s u where
  rest := by
    have hr := h.rest
    have kr := k.rest
    rw [hr] at kr
    rw [kr]
  mine := by
    have hm := h.mine
    have km := k.mine
    rw [hm] at km
    rw [km]
  others q hq := (k.others q hq).trans (h.others q hq)
  dies := k.dies.trans h.dies
  keys := k.keys.trans h.keys
  canon c := k.canon (h.canon c)

theorem PfTold.toPart {s t : State} (p : Nat) (h : PfTold s t) : PartTold p s t := by
  have hr := h.rest
  have hp : t.parts = s.parts := by rw [hr]
  refine ⟨?_, ?_, fun q _ => ?_, ?_, ?_, h.canon⟩
  · rw [hr]
  · simp only [State.part, hp]
  · simp only [State.part, hp]
  · rw [hr]
  · rw [hr]

theorem PartTold.modEvt (p : Nat) (s : State) (f : EvRing → EvRing) : PartTold p s (s.modEvt p f) where
  rest := rfl
  mine := by simp
  others q hq := by simp [State.modEvt_part, hq]
  dies := rfl
  keys := rfl
  canon := id

theorem PartTold.modVfHdr (p : Nat) (s : State) (k : Nat) (f : PageHdr → PageHdr) : PartTold p s (s.modVfHdr p k f) where
  rest := rfl
  mine := by simp [State.modVfHdr]
  others q hq := by simp [State.modVfHdr, State.modPart_part, hq]
  dies := rfl
  keys := rfl
  canon := id

theorem PartTold.modMtr (p : Nat) (s : State) (f : Meters → Meters) : PartTold p s (s.modMtr p f) where
  rest := rfl
  mine := by simp
  others q hq := by simp [State.modMtr_part, hq]
  dies := rfl
  keys := rfl
  canon := id

theorem PartTold.count (p : Nat) (s : State) (i n : Nat) : PartTold p s (s.count p i n) := by
  unfold State.count
  split
  · exact .refl p s
  · exact .modMtr p s _

theorem PartTold.modReg (p : Nat) (s : State) (r : Nat) (f : Regulator → Regulator) : PartTold p s (s.modReg p r f) := .modMtr p s _

theorem PartTold.meterCredits (p : Nat) (s : State) (r n : Nat) : PartTold p s (s.meterCredits p r n) := by
  unfold State.meterCredits
  split
  · exact .count p s _ _
  · exact .refl p s

theorem PartTold.charge (p : Nat) (s : State) (r b n : Nat) : PartTold p s (s.charge p r b n) := by
  unfold State.charge
  dsimp only
  split
  · exact .modReg p s _ _
  · exact (PartTold.modReg p s _ _).trans (.meterCredits p _ _ _)

theorem PartTold.countHost (p : Nat) (s : State) (n : Nat) (asked : Bool) : PartTold p s (s.countHost p n asked) := by
  unfold State.countHost
  dsimp only
  split
  · exact (PartTold.modReg p s _ _).trans (.meterCredits p _ _ _)
  · exact .charge p s _ _ _

theorem PartTold.countLine (p : Nat) (s : State) (sp : Space) (a : Nat) : PartTold p s (s.countLine p sp a) := by
  unfold State.countLine
  split
  · exact .refl p s
  · refine PartTold.trans ?_ (.charge p _ _ _ _)
    exact ⟨rfl, rfl, fun _ _ => rfl, rfl, rfl, fun h => State.modChan_canon h _ _⟩

theorem PartTold.markDirty (p : Nat) (s : State) (d : Dirty) : PartTold p s (s.markDirty p d) := by
  unfold State.markDirty
  dsimp only
  split
  · exact ⟨rfl, by simp, fun q hq => by simp [State.modMir_part, hq], rfl, rfl, id⟩
  · exact .refl p s

theorem Mem.writeLine_dies (m : Mem) (key : Nat) (sp : Space) (a : Nat) (bs : List Byte) :
    (m.writeLine key sp a bs).1.dies = m.dies ∧ (m.writeLine key sp a bs).1.keys = m.keys := by
  have hs (m : Mem) (sp : Space) (l : List Host.Cell) : (m.setCells sp l).dies = m.dies ∧ (m.setCells sp l).keys = m.keys := by
    cases sp <;> exact ⟨rfl, rfl⟩
  have hk (m : Mem) (sp : Space) (l k : Nat) : (m.setLineKey sp l k).dies = m.dies ∧ (m.setLineKey sp l k).keys = m.keys := by
    cases sp <;> exact ⟨rfl, rfl⟩
  have hr (m : Mem) (sp : Space) (l : Nat) : (m.rekey key sp l).dies = m.dies ∧ (m.rekey key sp l).keys = m.keys := by
    unfold Mem.rekey
    dsimp only
    split
    · exact hk _ _ _ _
    · exact ⟨(hk _ _ _ _).1.trans (hs _ _ _).1, (hk _ _ _ _).2.trans (hs _ _ _).2⟩
  have hp (m : Mem) : (m.poke key sp a bs).dies = m.dies ∧ (m.poke key sp a bs).keys = m.keys :=
    ⟨(hs _ _ _).1.trans (hr _ _ _).1, (hs _ _ _).2.trans (hr _ _ _).2⟩
  unfold Mem.writeLine
  split
  · exact hp m
  · split
    · exact hp m
    · exact ⟨rfl, rfl⟩

/-- Bytes written at a place of a partition: its meters, buckets and the memories change. -/
theorem PartTold.poke (p : Nat) (s : State) (pl : Place) (off : Nat) (bs : List Byte) : PartTold p s (s.poke p pl off bs).1 := by
  unfold State.poke
  dsimp only
  refine foldl_keeps (fun r : State × Option W64 => PartTold p s r.1) _ (fun r e hr => ?_) _ (a := (s, none)) (.refl p s)
  refine hr.trans (PartTold.trans ?_ (PartTold.countLine p _ _ _))
  exact ⟨rfl, rfl, fun _ _ => rfl, (Mem.writeLine_dies _ _ _ _ _).1, (Mem.writeLine_dies _ _ _ _ _).2,
    fun h => Mem.canon_writeLine h _ _ _ _⟩

theorem PartTold.pokeO (p : Nat) (s : State) (r : ORef) (bs : List Byte) : PartTold p s (s.pokeO p r bs).1 := by
  unfold State.pokeO State.dirtyRange
  dsimp only
  refine (PartTold.poke p s (s.object p r.handle).src r.off bs).trans ?_
  split
  · refine foldl_keeps (fun t : State => PartTold p _ t) _ (fun t e ht => ?_) _ (.refl p _)
    exact ht.trans (PartTold.markDirty p t (.page r.handle (r.off / 4096 + e)))
  · exact .refl p _

theorem PartTold.msixVf (p : Nat) (s : State) (v : Nat) : PartTold p s (s.msixVf p v) := by
  unfold State.msixVf
  dsimp only
  split
  · split
    · exact ⟨rfl, by simp, fun q hq => by simp [State.modVf_part, hq], rfl, rfl, id⟩
    · exact (PfTold.emit s _).toPart p
  · exact .refl p s

theorem PartTold.noteWm (p : Nat) (s : State) (src : Src) (wm : W32) (o : Option Nat) (h : o = none ∨ o = some p) :
    PartTold p s (s.noteWm src wm o) := by
  unfold State.noteWm
  dsimp only
  split
  · exact .refl p s
  · have first : PartTold p s (match s.srcPage src o with
        | some k => s.modPfHdr k fun h => { h with evWaymark := wm }
        | none => s) := by
      split
      · exact (PfTold.modPfHdr s _ _).toPart p
      · exact .refl p s
    refine first.trans ?_
    rcases h with rfl | rfl
    · exact .refl p _
    · cases src.vfPage with
      | none => exact .refl p _
      | some k => exact PartTold.modVfHdr p _ k fun h => { h with evWaymark := wm }

theorem PartTold.writePartRec {p : Nat} {s t : State} {x : EvRec} (h : s.writePartRec p x = some t) : PartTold p s t := by
  unfold State.writePartRec at h
  dsimp only at h
  have after (u : State) (v : Nat) (b : Bool) :
      PartTold p u (if b = true then (u.modEvt p fun r => { r with tail := r.tail + 1 }).msixVf p v
        else u.modEvt p fun r => { r with tail := r.tail + 1 }) := by
    split
    · exact (PartTold.modEvt p u _).trans (.msixVf p _ v)
    · exact .modEvt p u _
  split at h
  · cases h
  · split at h
    · split at h
      · cases h
      · split at h
        · simp only [Option.some.injEq] at h
          subst h
          exact (PartTold.pokeO p s _ _).trans (after _ _ _)
        · simp only [Option.some.injEq] at h
          subst h
          exact .modEvt p s _
    · split at h
      · simp only [Option.some.injEq] at h
        subst h
        exact (((PfTold.setHost s _ _).toPart p).trans (.countHost p _ _ _)).trans (after _ _ _)
      · cases h

theorem PartTold.flushPart (p : Nat) (n : Nat) (s : State) : PartTold p s (s.flushPart p n) := by
  induction n generalizing s with
  | zero => exact .refl p s
  | succ n ih =>
    unfold State.flushPart
    split
    · exact .refl p s
    · dsimp only
      split
      · rename_i h
        split
        · exact ((PartTold.modEvt p s _).trans (.writePartRec h)).trans (ih _)
        · exact .modEvt p s _
      · exact .refl p s

/-- A record handed to the ring of partition `p`. -/
theorem PartTold.postRec (p : Nat) (s : State) (x : EvRec) : PartTold p s (s.postRec p x) := by
  unfold State.postRec
  dsimp only
  generalize hu : (if (s.part p).evt.buffer.isEmpty = true then s else s.flushPart p 64) = u
  have hsu : PartTold p s u := by
    rw [← hu]
    split
    · exact .refl p s
    · exact .flushPart p 64 s
  refine hsu.trans ?_
  split
  · cases h : u.writePartRec p x with
    | some t => exact .writePartRec h
    | none => exact PartTold.modEvt p u fun r => r.buffered 64 x
  · exact .modEvt p u _

/-- A record told to the ring of partition `p`. -/
theorem PartTold.recPart (p : Nat) (s : State) (q : W64) (cause : W16) (cls : BitVec 2) (src : Src) (wm : W32) (detail : List Byte) :
    PartTold p s (s.recPart p q cause cls src wm detail) := by
  unfold State.recPart
  split
  · exact .refl p s
  · dsimp only
    generalize hx : (EvRec.mk _ _ _ _ _ _ _ _ _) = x
    generalize hu : State.noteWm _ src wm (some p) = u
    have hsu : PartTold p s u := by
      rw [← hu]
      exact (PartTold.modEvt p s _).trans (.noteWm p _ _ _ _ (.inr rfl))
    exact hsu.trans (.postRec p u x)

/-- A fault told to the ring of partition `p`. -/
theorem PartTold.raisePart (p : Nat) (s : State) (cause : W16) (src : Src) (wm : W32) (detail : List Byte) :
    PartTold p s (s.raisePart p cause src wm detail) :=
  (((PfTold.modEv s _).trans (.link _ _ _ _ _)).toPart p).trans (.recPart p _ _ _ _ _ _ _)

/-- A fault told to the ring of partition `p` and to the PF ring. -/
theorem PartTold.raiseBoth (p : Nat) (s : State) (cause : W16) (src : Src) (wm : W32) (detail : List Byte) :
    PartTold p s (s.raiseBoth p cause src wm detail) :=
  ((((PfTold.modEv s _).trans (.link _ _ _ _ _)).toPart p).trans (.recPart p _ _ _ _ _ _ _)).trans
    ((PfTold.recPf _ _ _ _ _ _ _ _ _).toPart p)

/-- A consequence told to the ring of partition `p`. -/
theorem PartTold.raiseIn (p : Nat) (s : State) (q : W64) (cause : W16) (src : Src) (wm : W32) (detail : List Byte) :
    PartTold p s (s.raiseIn p q cause src wm detail) :=
  ((PfTold.link s _ _ _ _).toPart p).trans (.recPart p _ _ _ _ _ _ _)

end Sys2Proof.Machine
end

