-- ==== Sys2Proof/Laws/EventFields.lean ====
section
/-! SUPPORT. Field by field, what raising an event leaves. -/

namespace Sys2Proof.Machine

variable (s : State)

@[simp] theorem State.raisePf_pending (cause : W16) (src : Src) (part : Option Nat) (detail : List Byte) :
    (s.raisePf cause src part detail).pending = s.pending := (congrArg State.pending (PfTold.raisePf s _ _ _ _).rest).trans rfl
@[simp] theorem State.raisePf_free (cause : W16) (src : Src) (part : Option Nat) (detail : List Byte) :
    (s.raisePf cause src part detail).free = s.free := (congrArg State.free (PfTold.raisePf s _ _ _ _).rest).trans rfl
@[simp] theorem State.raisePf_nextId (cause : W16) (src : Src) (part : Option Nat) (detail : List Byte) :
    (s.raisePf cause src part detail).nextId = s.nextId := (congrArg State.nextId (PfTold.raisePf s _ _ _ _).rest).trans rfl
@[simp] theorem State.raisePf_reply (cause : W16) (src : Src) (part : Option Nat) (detail : List Byte) :
    (s.raisePf cause src part detail).reply = s.reply := (congrArg State.reply (PfTold.raisePf s _ _ _ _).rest).trans rfl
@[simp] theorem State.raisePf_fuse (cause : W16) (src : Src) (part : Option Nat) (detail : List Byte) :
    (s.raisePf cause src part detail).fuse = s.fuse := (congrArg State.fuse (PfTold.raisePf s _ _ _ _).rest).trans rfl
@[simp] theorem State.raisePf_flash (cause : W16) (src : Src) (part : Option Nat) (detail : List Byte) :
    (s.raisePf cause src part detail).flash = s.flash := (congrArg State.flash (PfTold.raisePf s _ _ _ _).rest).trans rfl
@[simp] theorem State.raisePf_pins (cause : W16) (src : Src) (part : Option Nat) (detail : List Byte) :
    (s.raisePf cause src part detail).pins = s.pins := (congrArg State.pins (PfTold.raisePf s _ _ _ _).rest).trans rfl
@[simp] theorem State.raisePf_pwr (cause : W16) (src : Src) (part : Option Nat) (detail : List Byte) :
    (s.raisePf cause src part detail).pwr = s.pwr := (congrArg State.pwr (PfTold.raisePf s _ _ _ _).rest).trans rfl
@[simp] theorem State.raisePf_sec (cause : W16) (src : Src) (part : Option Nat) (detail : List Byte) :
    (s.raisePf cause src part detail).sec = s.sec := (congrArg State.sec (PfTold.raisePf s _ _ _ _).rest).trans rfl
@[simp] theorem State.raisePf_hst (cause : W16) (src : Src) (part : Option Nat) (detail : List Byte) :
    (s.raisePf cause src part detail).hst = s.hst := (congrArg State.hst (PfTold.raisePf s _ _ _ _).rest).trans rfl
@[simp] theorem State.raisePf_eci (cause : W16) (src : Src) (part : Option Nat) (detail : List Byte) :
    (s.raisePf cause src part detail).eci = s.eci := (congrArg State.eci (PfTold.raisePf s _ _ _ _).rest).trans rfl
@[simp] theorem State.raisePf_clus (cause : W16) (src : Src) (part : Option Nat) (detail : List Byte) :
    (s.raisePf cause src part detail).clus = s.clus := (congrArg State.clus (PfTold.raisePf s _ _ _ _).rest).trans rfl
@[simp] theorem State.raisePf_tiles (cause : W16) (src : Src) (part : Option Nat) (detail : List Byte) :
    (s.raisePf cause src part detail).tiles = s.tiles := (congrArg State.tiles (PfTold.raisePf s _ _ _ _).rest).trans rfl
@[simp] theorem State.raisePf_movs (cause : W16) (src : Src) (part : Option Nat) (detail : List Byte) :
    (s.raisePf cause src part detail).movs = s.movs := (congrArg State.movs (PfTold.raisePf s _ _ _ _).rest).trans rfl
@[simp] theorem State.raisePf_seqs (cause : W16) (src : Src) (part : Option Nat) (detail : List Byte) :
    (s.raisePf cause src part detail).seqs = s.seqs := (congrArg State.seqs (PfTold.raisePf s _ _ _ _).rest).trans rfl
@[simp] theorem State.raisePf_cdcs (cause : W16) (src : Src) (part : Option Nat) (detail : List Byte) :
    (s.raisePf cause src part detail).cdcs = s.cdcs := (congrArg State.cdcs (PfTold.raisePf s _ _ _ _).rest).trans rfl
@[simp] theorem State.raisePf_nets (cause : W16) (src : Src) (part : Option Nat) (detail : List Byte) :
    (s.raisePf cause src part detail).nets = s.nets := (congrArg State.nets (PfTold.raisePf s _ _ _ _).rest).trans rfl
@[simp] theorem State.raisePf_parts (cause : W16) (src : Src) (part : Option Nat) (detail : List Byte) :
    (s.raisePf cause src part detail).parts = s.parts := (congrArg State.parts (PfTold.raisePf s _ _ _ _).rest).trans rfl
@[simp] theorem State.recPf_pending (q : W64) (cause : W16) (cls : BitVec 2) (src : Src) (part : Option Nat) (wm : W32) (detail : List Byte) (late : Bool) :
    (s.recPf q cause cls src part wm detail late).pending = s.pending := (congrArg State.pending (PfTold.recPf s _ _ _ _ _ _ _ _).rest).trans rfl
@[simp] theorem State.recPf_free (q : W64) (cause : W16) (cls : BitVec 2) (src : Src) (part : Option Nat) (wm : W32) (detail : List Byte) (late : Bool) :
    (s.recPf q cause cls src part wm detail late).free = s.free := (congrArg State.free (PfTold.recPf s _ _ _ _ _ _ _ _).rest).trans rfl
@[simp] theorem State.recPf_nextId (q : W64) (cause : W16) (cls : BitVec 2) (src : Src) (part : Option Nat) (wm : W32) (detail : List Byte) (late : Bool) :
    (s.recPf q cause cls src part wm detail late).nextId = s.nextId := (congrArg State.nextId (PfTold.recPf s _ _ _ _ _ _ _ _).rest).trans rfl
@[simp] theorem State.recPf_reply (q : W64) (cause : W16) (cls : BitVec 2) (src : Src) (part : Option Nat) (wm : W32) (detail : List Byte) (late : Bool) :
    (s.recPf q cause cls src part wm detail late).reply = s.reply := (congrArg State.reply (PfTold.recPf s _ _ _ _ _ _ _ _).rest).trans rfl
@[simp] theorem State.recPf_fuse (q : W64) (cause : W16) (cls : BitVec 2) (src : Src) (part : Option Nat) (wm : W32) (detail : List Byte) (late : Bool) :
    (s.recPf q cause cls src part wm detail late).fuse = s.fuse := (congrArg State.fuse (PfTold.recPf s _ _ _ _ _ _ _ _).rest).trans rfl
@[simp] theorem State.recPf_flash (q : W64) (cause : W16) (cls : BitVec 2) (src : Src) (part : Option Nat) (wm : W32) (detail : List Byte) (late : Bool) :
    (s.recPf q cause cls src part wm detail late).flash = s.flash := (congrArg State.flash (PfTold.recPf s _ _ _ _ _ _ _ _).rest).trans rfl
@[simp] theorem State.recPf_pins (q : W64) (cause : W16) (cls : BitVec 2) (src : Src) (part : Option Nat) (wm : W32) (detail : List Byte) (late : Bool) :
    (s.recPf q cause cls src part wm detail late).pins = s.pins := (congrArg State.pins (PfTold.recPf s _ _ _ _ _ _ _ _).rest).trans rfl
@[simp] theorem State.recPf_pwr (q : W64) (cause : W16) (cls : BitVec 2) (src : Src) (part : Option Nat) (wm : W32) (detail : List Byte) (late : Bool) :
    (s.recPf q cause cls src part wm detail late).pwr = s.pwr := (congrArg State.pwr (PfTold.recPf s _ _ _ _ _ _ _ _).rest).trans rfl
@[simp] theorem State.recPf_sec (q : W64) (cause : W16) (cls : BitVec 2) (src : Src) (part : Option Nat) (wm : W32) (detail : List Byte) (late : Bool) :
    (s.recPf q cause cls src part wm detail late).sec = s.sec := (congrArg State.sec (PfTold.recPf s _ _ _ _ _ _ _ _).rest).trans rfl
@[simp] theorem State.recPf_hst (q : W64) (cause : W16) (cls : BitVec 2) (src : Src) (part : Option Nat) (wm : W32) (detail : List Byte) (late : Bool) :
    (s.recPf q cause cls src part wm detail late).hst = s.hst := (congrArg State.hst (PfTold.recPf s _ _ _ _ _ _ _ _).rest).trans rfl
@[simp] theorem State.recPf_eci (q : W64) (cause : W16) (cls : BitVec 2) (src : Src) (part : Option Nat) (wm : W32) (detail : List Byte) (late : Bool) :
    (s.recPf q cause cls src part wm detail late).eci = s.eci := (congrArg State.eci (PfTold.recPf s _ _ _ _ _ _ _ _).rest).trans rfl
@[simp] theorem State.recPf_clus (q : W64) (cause : W16) (cls : BitVec 2) (src : Src) (part : Option Nat) (wm : W32) (detail : List Byte) (late : Bool) :
    (s.recPf q cause cls src part wm detail late).clus = s.clus := (congrArg State.clus (PfTold.recPf s _ _ _ _ _ _ _ _).rest).trans rfl
@[simp] theorem State.recPf_tiles (q : W64) (cause : W16) (cls : BitVec 2) (src : Src) (part : Option Nat) (wm : W32) (detail : List Byte) (late : Bool) :
    (s.recPf q cause cls src part wm detail late).tiles = s.tiles := (congrArg State.tiles (PfTold.recPf s _ _ _ _ _ _ _ _).rest).trans rfl
@[simp] theorem State.recPf_movs (q : W64) (cause : W16) (cls : BitVec 2) (src : Src) (part : Option Nat) (wm : W32) (detail : List Byte) (late : Bool) :
    (s.recPf q cause cls src part wm detail late).movs = s.movs := (congrArg State.movs (PfTold.recPf s _ _ _ _ _ _ _ _).rest).trans rfl
@[simp] theorem State.recPf_seqs (q : W64) (cause : W16) (cls : BitVec 2) (src : Src) (part : Option Nat) (wm : W32) (detail : List Byte) (late : Bool) :
    (s.recPf q cause cls src part wm detail late).seqs = s.seqs := (congrArg State.seqs (PfTold.recPf s _ _ _ _ _ _ _ _).rest).trans rfl
@[simp] theorem State.recPf_cdcs (q : W64) (cause : W16) (cls : BitVec 2) (src : Src) (part : Option Nat) (wm : W32) (detail : List Byte) (late : Bool) :
    (s.recPf q cause cls src part wm detail late).cdcs = s.cdcs := (congrArg State.cdcs (PfTold.recPf s _ _ _ _ _ _ _ _).rest).trans rfl
@[simp] theorem State.recPf_nets (q : W64) (cause : W16) (cls : BitVec 2) (src : Src) (part : Option Nat) (wm : W32) (detail : List Byte) (late : Bool) :
    (s.recPf q cause cls src part wm detail late).nets = s.nets := (congrArg State.nets (PfTold.recPf s _ _ _ _ _ _ _ _).rest).trans rfl
@[simp] theorem State.recPf_parts (q : W64) (cause : W16) (cls : BitVec 2) (src : Src) (part : Option Nat) (wm : W32) (detail : List Byte) (late : Bool) :
    (s.recPf q cause cls src part wm detail late).parts = s.parts := (congrArg State.parts (PfTold.recPf s _ _ _ _ _ _ _ _).rest).trans rfl
@[simp] theorem State.flushPf_pending (n : Nat) :
    (s.flushPf n).pending = s.pending := (congrArg State.pending (PfTold.flushPf n s).rest).trans rfl
@[simp] theorem State.flushPf_free (n : Nat) :
    (s.flushPf n).free = s.free := (congrArg State.free (PfTold.flushPf n s).rest).trans rfl
@[simp] theorem State.flushPf_nextId (n : Nat) :
    (s.flushPf n).nextId = s.nextId := (congrArg State.nextId (PfTold.flushPf n s).rest).trans rfl
@[simp] theorem State.flushPf_reply (n : Nat) :
    (s.flushPf n).reply = s.reply := (congrArg State.reply (PfTold.flushPf n s).rest).trans rfl
@[simp] theorem State.flushPf_fuse (n : Nat) :
    (s.flushPf n).fuse = s.fuse := (congrArg State.fuse (PfTold.flushPf n s).rest).trans rfl
@[simp] theorem State.flushPf_flash (n : Nat) :
    (s.flushPf n).flash = s.flash := (congrArg State.flash (PfTold.flushPf n s).rest).trans rfl
@[simp] theorem State.flushPf_pins (n : Nat) :
    (s.flushPf n).pins = s.pins := (congrArg State.pins (PfTold.flushPf n s).rest).trans rfl
@[simp] theorem State.flushPf_pwr (n : Nat) :
    (s.flushPf n).pwr = s.pwr := (congrArg State.pwr (PfTold.flushPf n s).rest).trans rfl
@[simp] theorem State.flushPf_sec (n : Nat) :
    (s.flushPf n).sec = s.sec := (congrArg State.sec (PfTold.flushPf n s).rest).trans rfl
@[simp] theorem State.flushPf_hst (n : Nat) :
    (s.flushPf n).hst = s.hst := (congrArg State.hst (PfTold.flushPf n s).rest).trans rfl
@[simp] theorem State.flushPf_eci (n : Nat) :
    (s.flushPf n).eci = s.eci := (congrArg State.eci (PfTold.flushPf n s).rest).trans rfl
@[simp] theorem State.flushPf_clus (n : Nat) :
    (s.flushPf n).clus = s.clus := (congrArg State.clus (PfTold.flushPf n s).rest).trans rfl
@[simp] theorem State.flushPf_tiles (n : Nat) :
    (s.flushPf n).tiles = s.tiles := (congrArg State.tiles (PfTold.flushPf n s).rest).trans rfl
@[simp] theorem State.flushPf_movs (n : Nat) :
    (s.flushPf n).movs = s.movs := (congrArg State.movs (PfTold.flushPf n s).rest).trans rfl
@[simp] theorem State.flushPf_seqs (n : Nat) :
    (s.flushPf n).seqs = s.seqs := (congrArg State.seqs (PfTold.flushPf n s).rest).trans rfl
@[simp] theorem State.flushPf_cdcs (n : Nat) :
    (s.flushPf n).cdcs = s.cdcs := (congrArg State.cdcs (PfTold.flushPf n s).rest).trans rfl
@[simp] theorem State.flushPf_nets (n : Nat) :
    (s.flushPf n).nets = s.nets := (congrArg State.nets (PfTold.flushPf n s).rest).trans rfl
@[simp] theorem State.flushPf_parts (n : Nat) :
    (s.flushPf n).parts = s.parts := (congrArg State.parts (PfTold.flushPf n s).rest).trans rfl
@[simp] theorem State.raisePart_pending (p : Nat) (cause : W16) (src : Src) (wm : W32) (detail : List Byte) :
    (s.raisePart p cause src wm detail).pending = s.pending := (congrArg State.pending (PartTold.raisePart p s _ _ _ _).rest).trans rfl
@[simp] theorem State.raisePart_free (p : Nat) (cause : W16) (src : Src) (wm : W32) (detail : List Byte) :
    (s.raisePart p cause src wm detail).free = s.free := (congrArg State.free (PartTold.raisePart p s _ _ _ _).rest).trans rfl
@[simp] theorem State.raisePart_nextId (p : Nat) (cause : W16) (src : Src) (wm : W32) (detail : List Byte) :
    (s.raisePart p cause src wm detail).nextId = s.nextId := (congrArg State.nextId (PartTold.raisePart p s _ _ _ _).rest).trans rfl
@[simp] theorem State.raisePart_reply (p : Nat) (cause : W16) (src : Src) (wm : W32) (detail : List Byte) :
    (s.raisePart p cause src wm detail).reply = s.reply := (congrArg State.reply (PartTold.raisePart p s _ _ _ _).rest).trans rfl
@[simp] theorem State.raisePart_fuse (p : Nat) (cause : W16) (src : Src) (wm : W32) (detail : List Byte) :
    (s.raisePart p cause src wm detail).fuse = s.fuse := (congrArg State.fuse (PartTold.raisePart p s _ _ _ _).rest).trans rfl
@[simp] theorem State.raisePart_flash (p : Nat) (cause : W16) (src : Src) (wm : W32) (detail : List Byte) :
    (s.raisePart p cause src wm detail).flash = s.flash := (congrArg State.flash (PartTold.raisePart p s _ _ _ _).rest).trans rfl
@[simp] theorem State.raisePart_pins (p : Nat) (cause : W16) (src : Src) (wm : W32) (detail : List Byte) :
    (s.raisePart p cause src wm detail).pins = s.pins := (congrArg State.pins (PartTold.raisePart p s _ _ _ _).rest).trans rfl
@[simp] theorem State.raisePart_pwr (p : Nat) (cause : W16) (src : Src) (wm : W32) (detail : List Byte) :
    (s.raisePart p cause src wm detail).pwr = s.pwr := (congrArg State.pwr (PartTold.raisePart p s _ _ _ _).rest).trans rfl
@[simp] theorem State.raisePart_sec (p : Nat) (cause : W16) (src : Src) (wm : W32) (detail : List Byte) :
    (s.raisePart p cause src wm detail).sec = s.sec := (congrArg State.sec (PartTold.raisePart p s _ _ _ _).rest).trans rfl
@[simp] theorem State.raisePart_hst (p : Nat) (cause : W16) (src : Src) (wm : W32) (detail : List Byte) :
    (s.raisePart p cause src wm detail).hst = s.hst := (congrArg State.hst (PartTold.raisePart p s _ _ _ _).rest).trans rfl
@[simp] theorem State.raisePart_eci (p : Nat) (cause : W16) (src : Src) (wm : W32) (detail : List Byte) :
    (s.raisePart p cause src wm detail).eci = s.eci := (congrArg State.eci (PartTold.raisePart p s _ _ _ _).rest).trans rfl
@[simp] theorem State.raisePart_clus (p : Nat) (cause : W16) (src : Src) (wm : W32) (detail : List Byte) :
    (s.raisePart p cause src wm detail).clus = s.clus := (congrArg State.clus (PartTold.raisePart p s _ _ _ _).rest).trans rfl
@[simp] theorem State.raisePart_tiles (p : Nat) (cause : W16) (src : Src) (wm : W32) (detail : List Byte) :
    (s.raisePart p cause src wm detail).tiles = s.tiles := (congrArg State.tiles (PartTold.raisePart p s _ _ _ _).rest).trans rfl
@[simp] theorem State.raisePart_movs (p : Nat) (cause : W16) (src : Src) (wm : W32) (detail : List Byte) :
    (s.raisePart p cause src wm detail).movs = s.movs := (congrArg State.movs (PartTold.raisePart p s _ _ _ _).rest).trans rfl
@[simp] theorem State.raisePart_seqs (p : Nat) (cause : W16) (src : Src) (wm : W32) (detail : List Byte) :
    (s.raisePart p cause src wm detail).seqs = s.seqs := (congrArg State.seqs (PartTold.raisePart p s _ _ _ _).rest).trans rfl
@[simp] theorem State.raisePart_cdcs (p : Nat) (cause : W16) (src : Src) (wm : W32) (detail : List Byte) :
    (s.raisePart p cause src wm detail).cdcs = s.cdcs := (congrArg State.cdcs (PartTold.raisePart p s _ _ _ _).rest).trans rfl
@[simp] theorem State.raisePart_nets (p : Nat) (cause : W16) (src : Src) (wm : W32) (detail : List Byte) :
    (s.raisePart p cause src wm detail).nets = s.nets := (congrArg State.nets (PartTold.raisePart p s _ _ _ _).rest).trans rfl
@[simp] theorem State.raisePart_part_cmd (p : Nat) (cause : W16) (src : Src) (wm : W32) (detail : List Byte) :
    ((s.raisePart p cause src wm detail).part p).cmd = (s.part p).cmd := (congrArg Part.cmd (PartTold.raisePart p s _ _ _ _).mine).trans rfl
@[simp] theorem State.raisePart_part_ctl (p : Nat) (cause : W16) (src : Src) (wm : W32) (detail : List Byte) :
    ((s.raisePart p cause src wm detail).part p).ctl = (s.part p).ctl := (congrArg Part.ctl (PartTold.raisePart p s _ _ _ _).mine).trans rfl
@[simp] theorem State.raisePart_part_ltn (p : Nat) (cause : W16) (src : Src) (wm : W32) (detail : List Byte) :
    ((s.raisePart p cause src wm detail).part p).ltn = (s.part p).ltn := (congrArg Part.ltn (PartTold.raisePart p s _ _ _ _).mine).trans rfl
@[simp] theorem State.raisePart_part_seq (p : Nat) (cause : W16) (src : Src) (wm : W32) (detail : List Byte) :
    ((s.raisePart p cause src wm detail).part p).seq = (s.part p).seq := (congrArg Part.seq (PartTold.raisePart p s _ _ _ _).mine).trans rfl
@[simp] theorem State.raisePart_part_str (p : Nat) (cause : W16) (src : Src) (wm : W32) (detail : List Byte) :
    ((s.raisePart p cause src wm detail).part p).str = (s.part p).str := (congrArg Part.str (PartTold.raisePart p s _ _ _ _).mine).trans rfl
@[simp] theorem State.raisePart_part_obj (p : Nat) (cause : W16) (src : Src) (wm : W32) (detail : List Byte) :
    ((s.raisePart p cause src wm detail).part p).obj = (s.part p).obj := (congrArg Part.obj (PartTold.raisePart p s _ _ _ _).mine).trans rfl
@[simp] theorem State.raisePart_part_cdc (p : Nat) (cause : W16) (src : Src) (wm : W32) (detail : List Byte) :
    ((s.raisePart p cause src wm detail).part p).cdc = (s.part p).cdc := (congrArg Part.cdc (PartTold.raisePart p s _ _ _ _).mine).trans rfl
@[simp] theorem State.raisePart_part_net (p : Nat) (cause : W16) (src : Src) (wm : W32) (detail : List Byte) :
    ((s.raisePart p cause src wm detail).part p).net = (s.part p).net := (congrArg Part.net (PartTold.raisePart p s _ _ _ _).mine).trans rfl
@[simp] theorem State.raisePart_part_wdg (p : Nat) (cause : W16) (src : Src) (wm : W32) (detail : List Byte) :
    ((s.raisePart p cause src wm detail).part p).wdg = (s.part p).wdg := (congrArg Part.wdg (PartTold.raisePart p s _ _ _ _).mine).trans rfl
@[simp] theorem State.raiseBoth_pending (p : Nat) (cause : W16) (src : Src) (wm : W32) (detail : List Byte) :
    (s.raiseBoth p cause src wm detail).pending = s.pending := (congrArg State.pending (PartTold.raiseBoth p s _ _ _ _).rest).trans rfl
@[simp] theorem State.raiseBoth_free (p : Nat) (cause : W16) (src : Src) (wm : W32) (detail : List Byte) :
    (s.raiseBoth p cause src wm detail).free = s.free := (congrArg State.free (PartTold.raiseBoth p s _ _ _ _).rest).trans rfl
@[simp] theorem State.raiseBoth_nextId (p : Nat) (cause : W16) (src : Src) (wm : W32) (detail : List Byte) :
    (s.raiseBoth p cause src wm detail).nextId = s.nextId := (congrArg State.nextId (PartTold.raiseBoth p s _ _ _ _).rest).trans rfl
@[simp] theorem State.raiseBoth_reply (p : Nat) (cause : W16) (src : Src) (wm : W32) (detail : List Byte) :
    (s.raiseBoth p cause src wm detail).reply = s.reply := (congrArg State.reply (PartTold.raiseBoth p s _ _ _ _).rest).trans rfl
@[simp] theorem State.raiseBoth_fuse (p : Nat) (cause : W16) (src : Src) (wm : W32) (detail : List Byte) :
    (s.raiseBoth p cause src wm detail).fuse = s.fuse := (congrArg State.fuse (PartTold.raiseBoth p s _ _ _ _).rest).trans rfl
@[simp] theorem State.raiseBoth_flash (p : Nat) (cause : W16) (src : Src) (wm : W32) (detail : List Byte) :
    (s.raiseBoth p cause src wm detail).flash = s.flash := (congrArg State.flash (PartTold.raiseBoth p s _ _ _ _).rest).trans rfl
@[simp] theorem State.raiseBoth_pins (p : Nat) (cause : W16) (src : Src) (wm : W32) (detail : List Byte) :
    (s.raiseBoth p cause src wm detail).pins = s.pins := (congrArg State.pins (PartTold.raiseBoth p s _ _ _ _).rest).trans rfl
@[simp] theorem State.raiseBoth_pwr (p : Nat) (cause : W16) (src : Src) (wm : W32) (detail : List Byte) :
    (s.raiseBoth p cause src wm detail).pwr = s.pwr := (congrArg State.pwr (PartTold.raiseBoth p s _ _ _ _).rest).trans rfl
@[simp] theorem State.raiseBoth_sec (p : Nat) (cause : W16) (src : Src) (wm : W32) (detail : List Byte) :
    (s.raiseBoth p cause src wm detail).sec = s.sec := (congrArg State.sec (PartTold.raiseBoth p s _ _ _ _).rest).trans rfl
@[simp] theorem State.raiseBoth_hst (p : Nat) (cause : W16) (src : Src) (wm : W32) (detail : List Byte) :
    (s.raiseBoth p cause src wm detail).hst = s.hst := (congrArg State.hst (PartTold.raiseBoth p s _ _ _ _).rest).trans rfl
@[simp] theorem State.raiseBoth_eci (p : Nat) (cause : W16) (src : Src) (wm : W32) (detail : List Byte) :
    (s.raiseBoth p cause src wm detail).eci = s.eci := (congrArg State.eci (PartTold.raiseBoth p s _ _ _ _).rest).trans rfl
@[simp] theorem State.raiseBoth_clus (p : Nat) (cause : W16) (src : Src) (wm : W32) (detail : List Byte) :
    (s.raiseBoth p cause src wm detail).clus = s.clus := (congrArg State.clus (PartTold.raiseBoth p s _ _ _ _).rest).trans rfl
@[simp] theorem State.raiseBoth_tiles (p : Nat) (cause : W16) (src : Src) (wm : W32) (detail : List Byte) :
    (s.raiseBoth p cause src wm detail).tiles = s.tiles := (congrArg State.tiles (PartTold.raiseBoth p s _ _ _ _).rest).trans rfl
@[simp] theorem State.raiseBoth_movs (p : Nat) (cause : W16) (src : Src) (wm : W32) (detail : List Byte) :
    (s.raiseBoth p cause src wm detail).movs = s.movs := (congrArg State.movs (PartTold.raiseBoth p s _ _ _ _).rest).trans rfl
@[simp] theorem State.raiseBoth_seqs (p : Nat) (cause : W16) (src : Src) (wm : W32) (detail : List Byte) :
    (s.raiseBoth p cause src wm detail).seqs = s.seqs := (congrArg State.seqs (PartTold.raiseBoth p s _ _ _ _).rest).trans rfl
@[simp] theorem State.raiseBoth_cdcs (p : Nat) (cause : W16) (src : Src) (wm : W32) (detail : List Byte) :
    (s.raiseBoth p cause src wm detail).cdcs = s.cdcs := (congrArg State.cdcs (PartTold.raiseBoth p s _ _ _ _).rest).trans rfl
@[simp] theorem State.raiseBoth_nets (p : Nat) (cause : W16) (src : Src) (wm : W32) (detail : List Byte) :
    (s.raiseBoth p cause src wm detail).nets = s.nets := (congrArg State.nets (PartTold.raiseBoth p s _ _ _ _).rest).trans rfl
@[simp] theorem State.raiseBoth_part_cmd (p : Nat) (cause : W16) (src : Src) (wm : W32) (detail : List Byte) :
    ((s.raiseBoth p cause src wm detail).part p).cmd = (s.part p).cmd := (congrArg Part.cmd (PartTold.raiseBoth p s _ _ _ _).mine).trans rfl
@[simp] theorem State.raiseBoth_part_ctl (p : Nat) (cause : W16) (src : Src) (wm : W32) (detail : List Byte) :
    ((s.raiseBoth p cause src wm detail).part p).ctl = (s.part p).ctl := (congrArg Part.ctl (PartTold.raiseBoth p s _ _ _ _).mine).trans rfl
@[simp] theorem State.raiseBoth_part_ltn (p : Nat) (cause : W16) (src : Src) (wm : W32) (detail : List Byte) :
    ((s.raiseBoth p cause src wm detail).part p).ltn = (s.part p).ltn := (congrArg Part.ltn (PartTold.raiseBoth p s _ _ _ _).mine).trans rfl
@[simp] theorem State.raiseBoth_part_seq (p : Nat) (cause : W16) (src : Src) (wm : W32) (detail : List Byte) :
    ((s.raiseBoth p cause src wm detail).part p).seq = (s.part p).seq := (congrArg Part.seq (PartTold.raiseBoth p s _ _ _ _).mine).trans rfl
@[simp] theorem State.raiseBoth_part_str (p : Nat) (cause : W16) (src : Src) (wm : W32) (detail : List Byte) :
    ((s.raiseBoth p cause src wm detail).part p).str = (s.part p).str := (congrArg Part.str (PartTold.raiseBoth p s _ _ _ _).mine).trans rfl
@[simp] theorem State.raiseBoth_part_obj (p : Nat) (cause : W16) (src : Src) (wm : W32) (detail : List Byte) :
    ((s.raiseBoth p cause src wm detail).part p).obj = (s.part p).obj := (congrArg Part.obj (PartTold.raiseBoth p s _ _ _ _).mine).trans rfl
@[simp] theorem State.raiseBoth_part_cdc (p : Nat) (cause : W16) (src : Src) (wm : W32) (detail : List Byte) :
    ((s.raiseBoth p cause src wm detail).part p).cdc = (s.part p).cdc := (congrArg Part.cdc (PartTold.raiseBoth p s _ _ _ _).mine).trans rfl
@[simp] theorem State.raiseBoth_part_net (p : Nat) (cause : W16) (src : Src) (wm : W32) (detail : List Byte) :
    ((s.raiseBoth p cause src wm detail).part p).net = (s.part p).net := (congrArg Part.net (PartTold.raiseBoth p s _ _ _ _).mine).trans rfl
@[simp] theorem State.raiseBoth_part_wdg (p : Nat) (cause : W16) (src : Src) (wm : W32) (detail : List Byte) :
    ((s.raiseBoth p cause src wm detail).part p).wdg = (s.part p).wdg := (congrArg Part.wdg (PartTold.raiseBoth p s _ _ _ _).mine).trans rfl
@[simp] theorem State.raiseIn_pending (p : Nat) (q : W64) (cause : W16) (src : Src) (wm : W32) (detail : List Byte) :
    (s.raiseIn p q cause src wm detail).pending = s.pending := (congrArg State.pending (PartTold.raiseIn p s _ _ _ _ _).rest).trans rfl
@[simp] theorem State.raiseIn_free (p : Nat) (q : W64) (cause : W16) (src : Src) (wm : W32) (detail : List Byte) :
    (s.raiseIn p q cause src wm detail).free = s.free := (congrArg State.free (PartTold.raiseIn p s _ _ _ _ _).rest).trans rfl
@[simp] theorem State.raiseIn_nextId (p : Nat) (q : W64) (cause : W16) (src : Src) (wm : W32) (detail : List Byte) :
    (s.raiseIn p q cause src wm detail).nextId = s.nextId := (congrArg State.nextId (PartTold.raiseIn p s _ _ _ _ _).rest).trans rfl
@[simp] theorem State.raiseIn_reply (p : Nat) (q : W64) (cause : W16) (src : Src) (wm : W32) (detail : List Byte) :
    (s.raiseIn p q cause src wm detail).reply = s.reply := (congrArg State.reply (PartTold.raiseIn p s _ _ _ _ _).rest).trans rfl
@[simp] theorem State.raiseIn_fuse (p : Nat) (q : W64) (cause : W16) (src : Src) (wm : W32) (detail : List Byte) :
    (s.raiseIn p q cause src wm detail).fuse = s.fuse := (congrArg State.fuse (PartTold.raiseIn p s _ _ _ _ _).rest).trans rfl
@[simp] theorem State.raiseIn_flash (p : Nat) (q : W64) (cause : W16) (src : Src) (wm : W32) (detail : List Byte) :
    (s.raiseIn p q cause src wm detail).flash = s.flash := (congrArg State.flash (PartTold.raiseIn p s _ _ _ _ _).rest).trans rfl
@[simp] theorem State.raiseIn_pins (p : Nat) (q : W64) (cause : W16) (src : Src) (wm : W32) (detail : List Byte) :
    (s.raiseIn p q cause src wm detail).pins = s.pins := (congrArg State.pins (PartTold.raiseIn p s _ _ _ _ _).rest).trans rfl
@[simp] theorem State.raiseIn_pwr (p : Nat) (q : W64) (cause : W16) (src : Src) (wm : W32) (detail : List Byte) :
    (s.raiseIn p q cause src wm detail).pwr = s.pwr := (congrArg State.pwr (PartTold.raiseIn p s _ _ _ _ _).rest).trans rfl
@[simp] theorem State.raiseIn_sec (p : Nat) (q : W64) (cause : W16) (src : Src) (wm : W32) (detail : List Byte) :
    (s.raiseIn p q cause src wm detail).sec = s.sec := (congrArg State.sec (PartTold.raiseIn p s _ _ _ _ _).rest).trans rfl
@[simp] theorem State.raiseIn_hst (p : Nat) (q : W64) (cause : W16) (src : Src) (wm : W32) (detail : List Byte) :
    (s.raiseIn p q cause src wm detail).hst = s.hst := (congrArg State.hst (PartTold.raiseIn p s _ _ _ _ _).rest).trans rfl
@[simp] theorem State.raiseIn_eci (p : Nat) (q : W64) (cause : W16) (src : Src) (wm : W32) (detail : List Byte) :
    (s.raiseIn p q cause src wm detail).eci = s.eci := (congrArg State.eci (PartTold.raiseIn p s _ _ _ _ _).rest).trans rfl
@[simp] theorem State.raiseIn_clus (p : Nat) (q : W64) (cause : W16) (src : Src) (wm : W32) (detail : List Byte) :
    (s.raiseIn p q cause src wm detail).clus = s.clus := (congrArg State.clus (PartTold.raiseIn p s _ _ _ _ _).rest).trans rfl
@[simp] theorem State.raiseIn_tiles (p : Nat) (q : W64) (cause : W16) (src : Src) (wm : W32) (detail : List Byte) :
    (s.raiseIn p q cause src wm detail).tiles = s.tiles := (congrArg State.tiles (PartTold.raiseIn p s _ _ _ _ _).rest).trans rfl
@[simp] theorem State.raiseIn_movs (p : Nat) (q : W64) (cause : W16) (src : Src) (wm : W32) (detail : List Byte) :
    (s.raiseIn p q cause src wm detail).movs = s.movs := (congrArg State.movs (PartTold.raiseIn p s _ _ _ _ _).rest).trans rfl
@[simp] theorem State.raiseIn_seqs (p : Nat) (q : W64) (cause : W16) (src : Src) (wm : W32) (detail : List Byte) :
    (s.raiseIn p q cause src wm detail).seqs = s.seqs := (congrArg State.seqs (PartTold.raiseIn p s _ _ _ _ _).rest).trans rfl
@[simp] theorem State.raiseIn_cdcs (p : Nat) (q : W64) (cause : W16) (src : Src) (wm : W32) (detail : List Byte) :
    (s.raiseIn p q cause src wm detail).cdcs = s.cdcs := (congrArg State.cdcs (PartTold.raiseIn p s _ _ _ _ _).rest).trans rfl
@[simp] theorem State.raiseIn_nets (p : Nat) (q : W64) (cause : W16) (src : Src) (wm : W32) (detail : List Byte) :
    (s.raiseIn p q cause src wm detail).nets = s.nets := (congrArg State.nets (PartTold.raiseIn p s _ _ _ _ _).rest).trans rfl
@[simp] theorem State.raiseIn_part_cmd (p : Nat) (q : W64) (cause : W16) (src : Src) (wm : W32) (detail : List Byte) :
    ((s.raiseIn p q cause src wm detail).part p).cmd = (s.part p).cmd := (congrArg Part.cmd (PartTold.raiseIn p s _ _ _ _ _).mine).trans rfl
@[simp] theorem State.raiseIn_part_ctl (p : Nat) (q : W64) (cause : W16) (src : Src) (wm : W32) (detail : List Byte) :
    ((s.raiseIn p q cause src wm detail).part p).ctl = (s.part p).ctl := (congrArg Part.ctl (PartTold.raiseIn p s _ _ _ _ _).mine).trans rfl
@[simp] theorem State.raiseIn_part_ltn (p : Nat) (q : W64) (cause : W16) (src : Src) (wm : W32) (detail : List Byte) :
    ((s.raiseIn p q cause src wm detail).part p).ltn = (s.part p).ltn := (congrArg Part.ltn (PartTold.raiseIn p s _ _ _ _ _).mine).trans rfl
@[simp] theorem State.raiseIn_part_seq (p : Nat) (q : W64) (cause : W16) (src : Src) (wm : W32) (detail : List Byte) :
    ((s.raiseIn p q cause src wm detail).part p).seq = (s.part p).seq := (congrArg Part.seq (PartTold.raiseIn p s _ _ _ _ _).mine).trans rfl
@[simp] theorem State.raiseIn_part_str (p : Nat) (q : W64) (cause : W16) (src : Src) (wm : W32) (detail : List Byte) :
    ((s.raiseIn p q cause src wm detail).part p).str = (s.part p).str := (congrArg Part.str (PartTold.raiseIn p s _ _ _ _ _).mine).trans rfl
@[simp] theorem State.raiseIn_part_obj (p : Nat) (q : W64) (cause : W16) (src : Src) (wm : W32) (detail : List Byte) :
    ((s.raiseIn p q cause src wm detail).part p).obj = (s.part p).obj := (congrArg Part.obj (PartTold.raiseIn p s _ _ _ _ _).mine).trans rfl
@[simp] theorem State.raiseIn_part_cdc (p : Nat) (q : W64) (cause : W16) (src : Src) (wm : W32) (detail : List Byte) :
    ((s.raiseIn p q cause src wm detail).part p).cdc = (s.part p).cdc := (congrArg Part.cdc (PartTold.raiseIn p s _ _ _ _ _).mine).trans rfl
@[simp] theorem State.raiseIn_part_net (p : Nat) (q : W64) (cause : W16) (src : Src) (wm : W32) (detail : List Byte) :
    ((s.raiseIn p q cause src wm detail).part p).net = (s.part p).net := (congrArg Part.net (PartTold.raiseIn p s _ _ _ _ _).mine).trans rfl
@[simp] theorem State.raiseIn_part_wdg (p : Nat) (q : W64) (cause : W16) (src : Src) (wm : W32) (detail : List Byte) :
    ((s.raiseIn p q cause src wm detail).part p).wdg = (s.part p).wdg := (congrArg Part.wdg (PartTold.raiseIn p s _ _ _ _ _).mine).trans rfl
@[simp] theorem State.recPart_pending (p : Nat) (q : W64) (cause : W16) (cls : BitVec 2) (src : Src) (wm : W32) (detail : List Byte) :
    (s.recPart p q cause cls src wm detail).pending = s.pending := (congrArg State.pending (PartTold.recPart p s _ _ _ _ _ _).rest).trans rfl
@[simp] theorem State.recPart_free (p : Nat) (q : W64) (cause : W16) (cls : BitVec 2) (src : Src) (wm : W32) (detail : List Byte) :
    (s.recPart p q cause cls src wm detail).free = s.free := (congrArg State.free (PartTold.recPart p s _ _ _ _ _ _).rest).trans rfl
@[simp] theorem State.recPart_nextId (p : Nat) (q : W64) (cause : W16) (cls : BitVec 2) (src : Src) (wm : W32) (detail : List Byte) :
    (s.recPart p q cause cls src wm detail).nextId = s.nextId := (congrArg State.nextId (PartTold.recPart p s _ _ _ _ _ _).rest).trans rfl
@[simp] theorem State.recPart_reply (p : Nat) (q : W64) (cause : W16) (cls : BitVec 2) (src : Src) (wm : W32) (detail : List Byte) :
    (s.recPart p q cause cls src wm detail).reply = s.reply := (congrArg State.reply (PartTold.recPart p s _ _ _ _ _ _).rest).trans rfl
@[simp] theorem State.recPart_fuse (p : Nat) (q : W64) (cause : W16) (cls : BitVec 2) (src : Src) (wm : W32) (detail : List Byte) :
    (s.recPart p q cause cls src wm detail).fuse = s.fuse := (congrArg State.fuse (PartTold.recPart p s _ _ _ _ _ _).rest).trans rfl
@[simp] theorem State.recPart_flash (p : Nat) (q : W64) (cause : W16) (cls : BitVec 2) (src : Src) (wm : W32) (detail : List Byte) :
    (s.recPart p q cause cls src wm detail).flash = s.flash := (congrArg State.flash (PartTold.recPart p s _ _ _ _ _ _).rest).trans rfl
@[simp] theorem State.recPart_pins (p : Nat) (q : W64) (cause : W16) (cls : BitVec 2) (src : Src) (wm : W32) (detail : List Byte) :
    (s.recPart p q cause cls src wm detail).pins = s.pins := (congrArg State.pins (PartTold.recPart p s _ _ _ _ _ _).rest).trans rfl
@[simp] theorem State.recPart_pwr (p : Nat) (q : W64) (cause : W16) (cls : BitVec 2) (src : Src) (wm : W32) (detail : List Byte) :
    (s.recPart p q cause cls src wm detail).pwr = s.pwr := (congrArg State.pwr (PartTold.recPart p s _ _ _ _ _ _).rest).trans rfl
@[simp] theorem State.recPart_sec (p : Nat) (q : W64) (cause : W16) (cls : BitVec 2) (src : Src) (wm : W32) (detail : List Byte) :
    (s.recPart p q cause cls src wm detail).sec = s.sec := (congrArg State.sec (PartTold.recPart p s _ _ _ _ _ _).rest).trans rfl
@[simp] theorem State.recPart_hst (p : Nat) (q : W64) (cause : W16) (cls : BitVec 2) (src : Src) (wm : W32) (detail : List Byte) :
    (s.recPart p q cause cls src wm detail).hst = s.hst := (congrArg State.hst (PartTold.recPart p s _ _ _ _ _ _).rest).trans rfl
@[simp] theorem State.recPart_eci (p : Nat) (q : W64) (cause : W16) (cls : BitVec 2) (src : Src) (wm : W32) (detail : List Byte) :
    (s.recPart p q cause cls src wm detail).eci = s.eci := (congrArg State.eci (PartTold.recPart p s _ _ _ _ _ _).rest).trans rfl
@[simp] theorem State.recPart_clus (p : Nat) (q : W64) (cause : W16) (cls : BitVec 2) (src : Src) (wm : W32) (detail : List Byte) :
    (s.recPart p q cause cls src wm detail).clus = s.clus := (congrArg State.clus (PartTold.recPart p s _ _ _ _ _ _).rest).trans rfl
@[simp] theorem State.recPart_tiles (p : Nat) (q : W64) (cause : W16) (cls : BitVec 2) (src : Src) (wm : W32) (detail : List Byte) :
    (s.recPart p q cause cls src wm detail).tiles = s.tiles := (congrArg State.tiles (PartTold.recPart p s _ _ _ _ _ _).rest).trans rfl
@[simp] theorem State.recPart_movs (p : Nat) (q : W64) (cause : W16) (cls : BitVec 2) (src : Src) (wm : W32) (detail : List Byte) :
    (s.recPart p q cause cls src wm detail).movs = s.movs := (congrArg State.movs (PartTold.recPart p s _ _ _ _ _ _).rest).trans rfl
@[simp] theorem State.recPart_seqs (p : Nat) (q : W64) (cause : W16) (cls : BitVec 2) (src : Src) (wm : W32) (detail : List Byte) :
    (s.recPart p q cause cls src wm detail).seqs = s.seqs := (congrArg State.seqs (PartTold.recPart p s _ _ _ _ _ _).rest).trans rfl
@[simp] theorem State.recPart_cdcs (p : Nat) (q : W64) (cause : W16) (cls : BitVec 2) (src : Src) (wm : W32) (detail : List Byte) :
    (s.recPart p q cause cls src wm detail).cdcs = s.cdcs := (congrArg State.cdcs (PartTold.recPart p s _ _ _ _ _ _).rest).trans rfl
@[simp] theorem State.recPart_nets (p : Nat) (q : W64) (cause : W16) (cls : BitVec 2) (src : Src) (wm : W32) (detail : List Byte) :
    (s.recPart p q cause cls src wm detail).nets = s.nets := (congrArg State.nets (PartTold.recPart p s _ _ _ _ _ _).rest).trans rfl
@[simp] theorem State.recPart_part_cmd (p : Nat) (q : W64) (cause : W16) (cls : BitVec 2) (src : Src) (wm : W32) (detail : List Byte) :
    ((s.recPart p q cause cls src wm detail).part p).cmd = (s.part p).cmd := (congrArg Part.cmd (PartTold.recPart p s _ _ _ _ _ _).mine).trans rfl
@[simp] theorem State.recPart_part_ctl (p : Nat) (q : W64) (cause : W16) (cls : BitVec 2) (src : Src) (wm : W32) (detail : List Byte) :
    ((s.recPart p q cause cls src wm detail).part p).ctl = (s.part p).ctl := (congrArg Part.ctl (PartTold.recPart p s _ _ _ _ _ _).mine).trans rfl
@[simp] theorem State.recPart_part_ltn (p : Nat) (q : W64) (cause : W16) (cls : BitVec 2) (src : Src) (wm : W32) (detail : List Byte) :
    ((s.recPart p q cause cls src wm detail).part p).ltn = (s.part p).ltn := (congrArg Part.ltn (PartTold.recPart p s _ _ _ _ _ _).mine).trans rfl
@[simp] theorem State.recPart_part_seq (p : Nat) (q : W64) (cause : W16) (cls : BitVec 2) (src : Src) (wm : W32) (detail : List Byte) :
    ((s.recPart p q cause cls src wm detail).part p).seq = (s.part p).seq := (congrArg Part.seq (PartTold.recPart p s _ _ _ _ _ _).mine).trans rfl
@[simp] theorem State.recPart_part_str (p : Nat) (q : W64) (cause : W16) (cls : BitVec 2) (src : Src) (wm : W32) (detail : List Byte) :
    ((s.recPart p q cause cls src wm detail).part p).str = (s.part p).str := (congrArg Part.str (PartTold.recPart p s _ _ _ _ _ _).mine).trans rfl
@[simp] theorem State.recPart_part_obj (p : Nat) (q : W64) (cause : W16) (cls : BitVec 2) (src : Src) (wm : W32) (detail : List Byte) :
    ((s.recPart p q cause cls src wm detail).part p).obj = (s.part p).obj := (congrArg Part.obj (PartTold.recPart p s _ _ _ _ _ _).mine).trans rfl
@[simp] theorem State.recPart_part_cdc (p : Nat) (q : W64) (cause : W16) (cls : BitVec 2) (src : Src) (wm : W32) (detail : List Byte) :
    ((s.recPart p q cause cls src wm detail).part p).cdc = (s.part p).cdc := (congrArg Part.cdc (PartTold.recPart p s _ _ _ _ _ _).mine).trans rfl
@[simp] theorem State.recPart_part_net (p : Nat) (q : W64) (cause : W16) (cls : BitVec 2) (src : Src) (wm : W32) (detail : List Byte) :
    ((s.recPart p q cause cls src wm detail).part p).net = (s.part p).net := (congrArg Part.net (PartTold.recPart p s _ _ _ _ _ _).mine).trans rfl
@[simp] theorem State.recPart_part_wdg (p : Nat) (q : W64) (cause : W16) (cls : BitVec 2) (src : Src) (wm : W32) (detail : List Byte) :
    ((s.recPart p q cause cls src wm detail).part p).wdg = (s.part p).wdg := (congrArg Part.wdg (PartTold.recPart p s _ _ _ _ _ _).mine).trans rfl
@[simp] theorem State.flushPart_pending (p n : Nat) :
    (s.flushPart p n).pending = s.pending := (congrArg State.pending (PartTold.flushPart p n s).rest).trans rfl
@[simp] theorem State.flushPart_free (p n : Nat) :
    (s.flushPart p n).free = s.free := (congrArg State.free (PartTold.flushPart p n s).rest).trans rfl
@[simp] theorem State.flushPart_nextId (p n : Nat) :
    (s.flushPart p n).nextId = s.nextId := (congrArg State.nextId (PartTold.flushPart p n s).rest).trans rfl
@[simp] theorem State.flushPart_reply (p n : Nat) :
    (s.flushPart p n).reply = s.reply := (congrArg State.reply (PartTold.flushPart p n s).rest).trans rfl
@[simp] theorem State.flushPart_fuse (p n : Nat) :
    (s.flushPart p n).fuse = s.fuse := (congrArg State.fuse (PartTold.flushPart p n s).rest).trans rfl
@[simp] theorem State.flushPart_flash (p n : Nat) :
    (s.flushPart p n).flash = s.flash := (congrArg State.flash (PartTold.flushPart p n s).rest).trans rfl
@[simp] theorem State.flushPart_pins (p n : Nat) :
    (s.flushPart p n).pins = s.pins := (congrArg State.pins (PartTold.flushPart p n s).rest).trans rfl
@[simp] theorem State.flushPart_pwr (p n : Nat) :
    (s.flushPart p n).pwr = s.pwr := (congrArg State.pwr (PartTold.flushPart p n s).rest).trans rfl
@[simp] theorem State.flushPart_sec (p n : Nat) :
    (s.flushPart p n).sec = s.sec := (congrArg State.sec (PartTold.flushPart p n s).rest).trans rfl
@[simp] theorem State.flushPart_hst (p n : Nat) :
    (s.flushPart p n).hst = s.hst := (congrArg State.hst (PartTold.flushPart p n s).rest).trans rfl
@[simp] theorem State.flushPart_eci (p n : Nat) :
    (s.flushPart p n).eci = s.eci := (congrArg State.eci (PartTold.flushPart p n s).rest).trans rfl
@[simp] theorem State.flushPart_clus (p n : Nat) :
    (s.flushPart p n).clus = s.clus := (congrArg State.clus (PartTold.flushPart p n s).rest).trans rfl
@[simp] theorem State.flushPart_tiles (p n : Nat) :
    (s.flushPart p n).tiles = s.tiles := (congrArg State.tiles (PartTold.flushPart p n s).rest).trans rfl
@[simp] theorem State.flushPart_movs (p n : Nat) :
    (s.flushPart p n).movs = s.movs := (congrArg State.movs (PartTold.flushPart p n s).rest).trans rfl
@[simp] theorem State.flushPart_seqs (p n : Nat) :
    (s.flushPart p n).seqs = s.seqs := (congrArg State.seqs (PartTold.flushPart p n s).rest).trans rfl
@[simp] theorem State.flushPart_cdcs (p n : Nat) :
    (s.flushPart p n).cdcs = s.cdcs := (congrArg State.cdcs (PartTold.flushPart p n s).rest).trans rfl
@[simp] theorem State.flushPart_nets (p n : Nat) :
    (s.flushPart p n).nets = s.nets := (congrArg State.nets (PartTold.flushPart p n s).rest).trans rfl
@[simp] theorem State.flushPart_part_cmd (p n : Nat) :
    ((s.flushPart p n).part p).cmd = (s.part p).cmd := (congrArg Part.cmd (PartTold.flushPart p n s).mine).trans rfl
@[simp] theorem State.flushPart_part_ctl (p n : Nat) :
    ((s.flushPart p n).part p).ctl = (s.part p).ctl := (congrArg Part.ctl (PartTold.flushPart p n s).mine).trans rfl
@[simp] theorem State.flushPart_part_ltn (p n : Nat) :
    ((s.flushPart p n).part p).ltn = (s.part p).ltn := (congrArg Part.ltn (PartTold.flushPart p n s).mine).trans rfl
@[simp] theorem State.flushPart_part_seq (p n : Nat) :
    ((s.flushPart p n).part p).seq = (s.part p).seq := (congrArg Part.seq (PartTold.flushPart p n s).mine).trans rfl
@[simp] theorem State.flushPart_part_str (p n : Nat) :
    ((s.flushPart p n).part p).str = (s.part p).str := (congrArg Part.str (PartTold.flushPart p n s).mine).trans rfl
@[simp] theorem State.flushPart_part_obj (p n : Nat) :
    ((s.flushPart p n).part p).obj = (s.part p).obj := (congrArg Part.obj (PartTold.flushPart p n s).mine).trans rfl
@[simp] theorem State.flushPart_part_cdc (p n : Nat) :
    ((s.flushPart p n).part p).cdc = (s.part p).cdc := (congrArg Part.cdc (PartTold.flushPart p n s).mine).trans rfl
@[simp] theorem State.flushPart_part_net (p n : Nat) :
    ((s.flushPart p n).part p).net = (s.part p).net := (congrArg Part.net (PartTold.flushPart p n s).mine).trans rfl
@[simp] theorem State.flushPart_part_wdg (p n : Nat) :
    ((s.flushPart p n).part p).wdg = (s.part p).wdg := (congrArg Part.wdg (PartTold.flushPart p n s).mine).trans rfl

end Sys2Proof.Machine
end

