-- ==== Sys2Proof/Laws/Commands.lean ====
section
/-! SUPPORT. What the operations that the commands of the engines share answer. -/

namespace Sys2Proof.Machine

/-- Command `id` after a command of its partition was changed, where the change keeps its number. -/
theorem State.modCmd_cmd (s : State) (p id n : Nat) (f : Cmd → Cmd) (hf : ∀ c, (f c).id = c.id) :
    (s.modCmd p id f).cmd? p n = (s.cmd? p n).map fun c => if c.id = id then f c else c := by
  have hp : ∀ c : Cmd, (((fun c : Cmd => c.id == n) ∘ fun c => if c.id = id then f c else c) c) = (c.id == n) := by
    intro c
    dsimp only [Function.comp]
    split
    · rw [hf]
    · rfl
  simp only [State.modCmd, State.cmd?, State.modSys_part_self, List.find?_map]
  congr 1
  exact congrArg (fun q => List.find? q (s.part p).cmd.cmds) (funext hp)

/-- Command `id` after it was changed. -/
theorem State.modCmd_cmd_self (s : State) (p id : Nat) (f : Cmd → Cmd) (hf : ∀ c, (f c).id = c.id) :
    (s.modCmd p id f).cmd? p id = (s.cmd? p id).map f := by
  rw [State.modCmd_cmd s p id id f hf]
  cases h : s.cmd? p id with
  | none => rfl
  | some c =>
    have : c.id = id := by
      have := List.find?_some h
      simpa using this
    simp [this]

/-- A command found under a number has that number. -/
theorem State.cmd_id {s : State} {p id : Nat} {c : Cmd} (h : s.cmd? p id = some c) : c.id = id := by
  have := List.find?_some h
  simpa using this

@[simp] theorem State.leaveCluster_parts (s : State) (p id : Nat) : (s.leaveCluster p id).parts = s.parts := by
  unfold State.leaveCluster
  split <;> rfl

@[simp] theorem State.leaveCluster_part (s : State) (p q id : Nat) : (s.leaveCluster p id).part q = s.part q := by
  simp [State.part]

/-- All that the end of a command changes: its cluster's buffer and arming, and its partition's commands and queues. -/
theorem State.finish_rest (s : State) (p id : Nat) (st : Status) (cause : W16) (detail : Nat) (part : Bool) :
    s.finish p id st cause detail part =
      { s with clus := (s.finish p id st cause detail part).clus, parts := (s.finish p id st cause detail part).parts } := by
  unfold State.finish State.leaveCluster
  cases (s.cmd? p id).bind (·.cluster) <;> rfl

/-- The command that ended, as it waits for its terminal record. -/
theorem State.finish_cmd (s : State) (p id : Nat) (st : Status) (cause : W16) (detail : Nat) (part : Bool) :
    (s.finish p id st cause detail part).cmd? p id = (s.cmd? p id).map fun c =>
      { c with
        phase := .ended, status := st, cause := cause, detail := BitVec.ofNat 32 detail, partialDone := part
        owed := s.asked p } := by
  unfold State.finish
  rw [State.modCmd_cmd_self]
  · simp [State.cmd?, CmdSys.unqueue]
  · intro c
    rfl

@[simp] theorem State.finish_mem (s : State) (p id : Nat) (st : Status) (cause : W16) (detail : Nat) (part : Bool) :
    (s.finish p id st cause detail part).mem = s.mem := (congrArg State.mem (s.finish_rest p id st cause detail part)).trans rfl

@[simp] theorem State.done_mem (s : State) (p id detail : Nat) : (s.done p id detail).mem = s.mem := s.finish_mem _ _ _ _ _ _

@[simp] theorem State.skip_mem (s : State) (p id : Nat) (cause : W16) : (s.skip p id cause).mem = s.mem := s.finish_mem _ _ _ _ _ _

@[simp] theorem State.finishBy_mem (s : State) (p id : Nat) (cause : W16) (q : Option W64) (detail : Nat) :
    (s.finishBy p id cause q detail).mem = s.mem := s.finish_mem p id .done cause detail false

@[simp] theorem State.finishWrites_mem (s : State) (p id : Nat) (bad : Option W64) (detail : Nat) :
    (s.finishWrites p id bad detail).mem = s.mem := by
  cases bad
  · exact s.finish_mem p id .done 0 detail false
  · exact s.finishBy_mem p id Cause.poisonWrite _ detail

/-- A row on a command that has started and is the row's opcode runs the row's operation. -/
theorem onStarted_of {s : State} {p id e op : Nat} {c : Cmd} (h : Started s p id e op c) (f : Cmd → State) :
    onStarted s p id e op f = f c := by
  obtain ⟨h1, h2⟩ := h
  simp [onStarted, h1, h2]

@[simp] theorem State.eccHits_nil (s : State) (p : Nat) (c : Cmd) (how : Finder) : s.eccHits p c how [] = s := rfl

@[simp] theorem State.eccRead_nil (s : State) (p id : Nat) (mine : Cmd → Bool) (how : State → Cmd → List Finder) :
    s.eccRead p id mine how [] = s := by
  unfold State.eccRead
  split
  · split <;> rfl
  · rfl

@[simp] theorem State.eccWrite_nil (s : State) (p id : Nat) (how : Cmd → Finder) : s.eccWrite p id how [] = s := by
  unfold State.eccWrite
  split <;> rfl

@[simp] theorem State.eccStart_nil (s : State) (p : Nat) (slot : StartSlot) : s.eccStart p slot [] = s := by
  unfold State.eccStart
  split <;> simp

@[simp] theorem State.eccSlots_nil (s t : State) (p count : Nat) : s.eccSlots t p count [] = s := by
  unfold State.eccSlots
  split
  · dsimp only
    split <;> rfl
  · rfl

/-- No chain breaks on a cluster on which nothing is armed. -/
theorem State.breakChains_of_none {s : State} {p k : Nat} {c : Cmd} (keep : Option Nat) (h : c.cluster = some k)
    (hl : (s.cluster k).l.armed = none) (hr : (s.cluster k).r.armed = none) : s.breakChains p c keep = s := by
  simp [State.breakChains, h, hl, hr, List.eraseDups]

/-- At its turn a command runs on its cluster. -/
theorem State.onCluster_of {s : State} {p k : Nat} {c : Cmd} {dests : List Nat} (h : AtTurn s p c k dests) (w : Nat → Work)
    (keep : Option Nat) (f : State → Nat → State) : s.onCluster p c dests [] w keep f = f s k := by
  obtain ⟨h1, h2, h3, h4, h5, h6⟩ := h
  simp [State.onCluster, h1, h2, h3, h4, State.breakChains_of_none keep h1 h5 h6]

/-- Work that meets no poisoned operand is carried out in full. -/
theorem State.runWork_of {s : State} {p id k : Nat} {w : Work} (h : WorkClear s p w) : s.runWork p id (some k) w = Carried s p id k w := by
  obtain ⟨h1, h2⟩ := h
  simp only [State.runWork, h1, h2, Carried]
  rfl

end Sys2Proof.Machine
end

