-- ==== Sys2Proof/Laws/Journal.lean ====
section
/-! SUPPORT. What a journal entry, and the rejection of a write, leave. -/

namespace Sys2Proof.Machine

/-- All that a journal entry changes: the journal and its counters, and what JOURNAL_FAIL tells where it fails. -/
structure Noted (s t : State) : Prop where
  rest : t = { s with
    ev := t.ev, mgmt := t.mgmt, out := t.out, hdr := t.hdr, mem := { s.mem with host := t.mem.host }
    flash := { s.flash with journalA := t.flash.journalA, journalB := t.flash.journalB, jrnHead := t.flash.jrnHead }
    sec := { s.sec with jrnFailed := t.sec.jrnFailed, suppressed := t.sec.suppressed, noneRun := t.sec.noneRun } }
  canon : s.mem.canon → t.mem.canon

theorem Noted.of_told {s t : State} (h : PfTold s t) : Noted s t := by
  have hr := h.rest
  refine ⟨?_, h.canon⟩
  rw [hr]

theorem Noted.trans {s t u : State} (h : Noted s t) (k : Noted t u) : Noted s u := by
  refine ⟨?_, fun c => k.canon (h.canon c)⟩
  have hr := h.rest
  have kr := k.rest
  rw [hr] at kr
  rw [kr]

/-- An entry the device writes. -/
theorem Noted.note (s : State) (n : JrnNote) : Noted s (s.note n) := by
  unfold State.note
  split
  · unfold State.journal
    dsimp only
    split
    · exact ⟨rfl, id⟩
    · refine ⟨?_, id⟩
      cases n.action == .refused && n.who.role == 4 <;> rfl
  · unfold State.journalFails
    split
    · exact ⟨rfl, id⟩
    · have h : Noted s (s.modSec fun x => { x with jrnFailed := true }) := ⟨rfl, id⟩
      exact h.trans (.of_told (.raisePf _ _ _ _ _))

/-- A write rejected on a PF page. -/
theorem Noted.rejectPf (s : State) (off bit : Nat) (cause : W16) (who : Writer) (part : Option Nat) (value old : W64) :
    Noted s (s.rejectPf off bit cause who part value old) :=
  (Noted.of_told (.modPfHdr s _ _)).trans (.note _ _)

/-- A write rejected on a page of VF `p + 1`. -/
theorem State.rejectVf_noted (s : State) (p k off bit : Nat) (cause : W16) (value old : W64) :
    Noted (s.modVfHdr p k fun h => h.reject bit 4 off cause) (s.rejectVf p k off bit cause value old) := .note _ _

@[simp] theorem State.note_pending (s : State) (n : JrnNote) :
    (s.note n).pending = s.pending := (congrArg State.pending (Noted.note s n).rest).trans rfl
@[simp] theorem State.note_free (s : State) (n : JrnNote) :
    (s.note n).free = s.free := (congrArg State.free (Noted.note s n).rest).trans rfl
@[simp] theorem State.note_nextId (s : State) (n : JrnNote) :
    (s.note n).nextId = s.nextId := (congrArg State.nextId (Noted.note s n).rest).trans rfl
@[simp] theorem State.note_reply (s : State) (n : JrnNote) :
    (s.note n).reply = s.reply := (congrArg State.reply (Noted.note s n).rest).trans rfl
@[simp] theorem State.note_fuse (s : State) (n : JrnNote) :
    (s.note n).fuse = s.fuse := (congrArg State.fuse (Noted.note s n).rest).trans rfl
@[simp] theorem State.note_pins (s : State) (n : JrnNote) :
    (s.note n).pins = s.pins := (congrArg State.pins (Noted.note s n).rest).trans rfl
@[simp] theorem State.note_pwr (s : State) (n : JrnNote) :
    (s.note n).pwr = s.pwr := (congrArg State.pwr (Noted.note s n).rest).trans rfl
@[simp] theorem State.note_hst (s : State) (n : JrnNote) :
    (s.note n).hst = s.hst := (congrArg State.hst (Noted.note s n).rest).trans rfl
@[simp] theorem State.note_eci (s : State) (n : JrnNote) :
    (s.note n).eci = s.eci := (congrArg State.eci (Noted.note s n).rest).trans rfl
@[simp] theorem State.note_clus (s : State) (n : JrnNote) :
    (s.note n).clus = s.clus := (congrArg State.clus (Noted.note s n).rest).trans rfl
@[simp] theorem State.note_tiles (s : State) (n : JrnNote) :
    (s.note n).tiles = s.tiles := (congrArg State.tiles (Noted.note s n).rest).trans rfl
@[simp] theorem State.note_movs (s : State) (n : JrnNote) :
    (s.note n).movs = s.movs := (congrArg State.movs (Noted.note s n).rest).trans rfl
@[simp] theorem State.note_seqs (s : State) (n : JrnNote) :
    (s.note n).seqs = s.seqs := (congrArg State.seqs (Noted.note s n).rest).trans rfl
@[simp] theorem State.note_cdcs (s : State) (n : JrnNote) :
    (s.note n).cdcs = s.cdcs := (congrArg State.cdcs (Noted.note s n).rest).trans rfl
@[simp] theorem State.note_nets (s : State) (n : JrnNote) :
    (s.note n).nets = s.nets := (congrArg State.nets (Noted.note s n).rest).trans rfl
@[simp] theorem State.note_parts (s : State) (n : JrnNote) :
    (s.note n).parts = s.parts := (congrArg State.parts (Noted.note s n).rest).trans rfl
@[simp] theorem State.note_running (s : State) (n : JrnNote) :
    (s.note n).flash.running = s.flash.running := (congrArg (fun t => t.flash.running) (Noted.note s n).rest).trans rfl
@[simp] theorem State.note_activeB (s : State) (n : JrnNote) :
    (s.note n).flash.activeB = s.flash.activeB := (congrArg (fun t => t.flash.activeB) (Noted.note s n).rest).trans rfl
@[simp] theorem State.note_imageA (s : State) (n : JrnNote) :
    (s.note n).flash.imageA = s.flash.imageA := (congrArg (fun t => t.flash.imageA) (Noted.note s n).rest).trans rfl
@[simp] theorem State.note_imageB (s : State) (n : JrnNote) :
    (s.note n).flash.imageB = s.flash.imageB := (congrArg (fun t => t.flash.imageB) (Noted.note s n).rest).trans rfl
@[simp] theorem State.note_fusedSvn (s : State) (n : JrnNote) :
    (s.note n).flash.fusedSvn = s.flash.fusedSvn := (congrArg (fun t => t.flash.fusedSvn) (Noted.note s n).rest).trans rfl
@[simp] theorem State.note_creds (s : State) (n : JrnNote) :
    (s.note n).flash.creds = s.flash.creds := (congrArg (fun t => t.flash.creds) (Noted.note s n).rest).trans rfl
@[simp] theorem State.note_retired (s : State) (n : JrnNote) :
    (s.note n).flash.retired = s.flash.retired := (congrArg (fun t => t.flash.retired) (Noted.note s n).rest).trans rfl
@[simp] theorem State.note_peerDigest (s : State) (n : JrnNote) :
    (s.note n).flash.peerDigest = s.flash.peerDigest := (congrArg (fun t => t.flash.peerDigest) (Noted.note s n).rest).trans rfl
@[simp] theorem State.note_sessions (s : State) (n : JrnNote) :
    (s.note n).sec.sessions = s.sec.sessions := (congrArg (fun t => t.sec.sessions) (Noted.note s n).rest).trans rfl
@[simp] theorem State.note_ports (s : State) (n : JrnNote) :
    (s.note n).sec.ports = s.sec.ports := (congrArg (fun t => t.sec.ports) (Noted.note s n).rest).trans rfl
@[simp] theorem State.note_debug (s : State) (n : JrnNote) :
    (s.note n).sec.debug = s.sec.debug := (congrArg (fun t => t.sec.debug) (Noted.note s n).rest).trans rfl
@[simp] theorem State.note_lockedOut (s : State) (n : JrnNote) :
    (s.note n).sec.lockedOut = s.sec.lockedOut := (congrArg (fun t => t.sec.lockedOut) (Noted.note s n).rest).trans rfl
@[simp] theorem State.note_consent (s : State) (n : JrnNote) :
    (s.note n).sec.consent = s.sec.consent := (congrArg (fun t => t.sec.consent) (Noted.note s n).rest).trans rfl
@[simp] theorem State.note_staging (s : State) (n : JrnNote) :
    (s.note n).sec.staging = s.sec.staging := (congrArg (fun t => t.sec.staging) (Noted.note s n).rest).trans rfl
@[simp] theorem State.rejectPf_pending (s : State) (off bit : Nat) (cause : W16) (who : Writer) (part : Option Nat) (value old : W64) :
    (s.rejectPf off bit cause who part value old).pending = s.pending := (congrArg State.pending (Noted.rejectPf s _ _ _ _ _ _ _).rest).trans rfl
@[simp] theorem State.rejectPf_free (s : State) (off bit : Nat) (cause : W16) (who : Writer) (part : Option Nat) (value old : W64) :
    (s.rejectPf off bit cause who part value old).free = s.free := (congrArg State.free (Noted.rejectPf s _ _ _ _ _ _ _).rest).trans rfl
@[simp] theorem State.rejectPf_nextId (s : State) (off bit : Nat) (cause : W16) (who : Writer) (part : Option Nat) (value old : W64) :
    (s.rejectPf off bit cause who part value old).nextId = s.nextId := (congrArg State.nextId (Noted.rejectPf s _ _ _ _ _ _ _).rest).trans rfl
@[simp] theorem State.rejectPf_reply (s : State) (off bit : Nat) (cause : W16) (who : Writer) (part : Option Nat) (value old : W64) :
    (s.rejectPf off bit cause who part value old).reply = s.reply := (congrArg State.reply (Noted.rejectPf s _ _ _ _ _ _ _).rest).trans rfl
@[simp] theorem State.rejectPf_fuse (s : State) (off bit : Nat) (cause : W16) (who : Writer) (part : Option Nat) (value old : W64) :
    (s.rejectPf off bit cause who part value old).fuse = s.fuse := (congrArg State.fuse (Noted.rejectPf s _ _ _ _ _ _ _).rest).trans rfl
@[simp] theorem State.rejectPf_pins (s : State) (off bit : Nat) (cause : W16) (who : Writer) (part : Option Nat) (value old : W64) :
    (s.rejectPf off bit cause who part value old).pins = s.pins := (congrArg State.pins (Noted.rejectPf s _ _ _ _ _ _ _).rest).trans rfl
@[simp] theorem State.rejectPf_pwr (s : State) (off bit : Nat) (cause : W16) (who : Writer) (part : Option Nat) (value old : W64) :
    (s.rejectPf off bit cause who part value old).pwr = s.pwr := (congrArg State.pwr (Noted.rejectPf s _ _ _ _ _ _ _).rest).trans rfl
@[simp] theorem State.rejectPf_hst (s : State) (off bit : Nat) (cause : W16) (who : Writer) (part : Option Nat) (value old : W64) :
    (s.rejectPf off bit cause who part value old).hst = s.hst := (congrArg State.hst (Noted.rejectPf s _ _ _ _ _ _ _).rest).trans rfl
@[simp] theorem State.rejectPf_eci (s : State) (off bit : Nat) (cause : W16) (who : Writer) (part : Option Nat) (value old : W64) :
    (s.rejectPf off bit cause who part value old).eci = s.eci := (congrArg State.eci (Noted.rejectPf s _ _ _ _ _ _ _).rest).trans rfl
@[simp] theorem State.rejectPf_clus (s : State) (off bit : Nat) (cause : W16) (who : Writer) (part : Option Nat) (value old : W64) :
    (s.rejectPf off bit cause who part value old).clus = s.clus := (congrArg State.clus (Noted.rejectPf s _ _ _ _ _ _ _).rest).trans rfl
@[simp] theorem State.rejectPf_tiles (s : State) (off bit : Nat) (cause : W16) (who : Writer) (part : Option Nat) (value old : W64) :
    (s.rejectPf off bit cause who part value old).tiles = s.tiles := (congrArg State.tiles (Noted.rejectPf s _ _ _ _ _ _ _).rest).trans rfl
@[simp] theorem State.rejectPf_movs (s : State) (off bit : Nat) (cause : W16) (who : Writer) (part : Option Nat) (value old : W64) :
    (s.rejectPf off bit cause who part value old).movs = s.movs := (congrArg State.movs (Noted.rejectPf s _ _ _ _ _ _ _).rest).trans rfl
@[simp] theorem State.rejectPf_seqs (s : State) (off bit : Nat) (cause : W16) (who : Writer) (part : Option Nat) (value old : W64) :
    (s.rejectPf off bit cause who part value old).seqs = s.seqs := (congrArg State.seqs (Noted.rejectPf s _ _ _ _ _ _ _).rest).trans rfl
@[simp] theorem State.rejectPf_cdcs (s : State) (off bit : Nat) (cause : W16) (who : Writer) (part : Option Nat) (value old : W64) :
    (s.rejectPf off bit cause who part value old).cdcs = s.cdcs := (congrArg State.cdcs (Noted.rejectPf s _ _ _ _ _ _ _).rest).trans rfl
@[simp] theorem State.rejectPf_nets (s : State) (off bit : Nat) (cause : W16) (who : Writer) (part : Option Nat) (value old : W64) :
    (s.rejectPf off bit cause who part value old).nets = s.nets := (congrArg State.nets (Noted.rejectPf s _ _ _ _ _ _ _).rest).trans rfl
@[simp] theorem State.rejectPf_parts (s : State) (off bit : Nat) (cause : W16) (who : Writer) (part : Option Nat) (value old : W64) :
    (s.rejectPf off bit cause who part value old).parts = s.parts := (congrArg State.parts (Noted.rejectPf s _ _ _ _ _ _ _).rest).trans rfl
@[simp] theorem State.rejectPf_running (s : State) (off bit : Nat) (cause : W16) (who : Writer) (part : Option Nat) (value old : W64) :
    (s.rejectPf off bit cause who part value old).flash.running = s.flash.running := (congrArg (fun t => t.flash.running) (Noted.rejectPf s _ _ _ _ _ _ _).rest).trans rfl
@[simp] theorem State.rejectPf_activeB (s : State) (off bit : Nat) (cause : W16) (who : Writer) (part : Option Nat) (value old : W64) :
    (s.rejectPf off bit cause who part value old).flash.activeB = s.flash.activeB := (congrArg (fun t => t.flash.activeB) (Noted.rejectPf s _ _ _ _ _ _ _).rest).trans rfl
@[simp] theorem State.rejectPf_imageA (s : State) (off bit : Nat) (cause : W16) (who : Writer) (part : Option Nat) (value old : W64) :
    (s.rejectPf off bit cause who part value old).flash.imageA = s.flash.imageA := (congrArg (fun t => t.flash.imageA) (Noted.rejectPf s _ _ _ _ _ _ _).rest).trans rfl
@[simp] theorem State.rejectPf_imageB (s : State) (off bit : Nat) (cause : W16) (who : Writer) (part : Option Nat) (value old : W64) :
    (s.rejectPf off bit cause who part value old).flash.imageB = s.flash.imageB := (congrArg (fun t => t.flash.imageB) (Noted.rejectPf s _ _ _ _ _ _ _).rest).trans rfl
@[simp] theorem State.rejectPf_fusedSvn (s : State) (off bit : Nat) (cause : W16) (who : Writer) (part : Option Nat) (value old : W64) :
    (s.rejectPf off bit cause who part value old).flash.fusedSvn = s.flash.fusedSvn := (congrArg (fun t => t.flash.fusedSvn) (Noted.rejectPf s _ _ _ _ _ _ _).rest).trans rfl
@[simp] theorem State.rejectPf_creds (s : State) (off bit : Nat) (cause : W16) (who : Writer) (part : Option Nat) (value old : W64) :
    (s.rejectPf off bit cause who part value old).flash.creds = s.flash.creds := (congrArg (fun t => t.flash.creds) (Noted.rejectPf s _ _ _ _ _ _ _).rest).trans rfl
@[simp] theorem State.rejectPf_retired (s : State) (off bit : Nat) (cause : W16) (who : Writer) (part : Option Nat) (value old : W64) :
    (s.rejectPf off bit cause who part value old).flash.retired = s.flash.retired := (congrArg (fun t => t.flash.retired) (Noted.rejectPf s _ _ _ _ _ _ _).rest).trans rfl
@[simp] theorem State.rejectPf_peerDigest (s : State) (off bit : Nat) (cause : W16) (who : Writer) (part : Option Nat) (value old : W64) :
    (s.rejectPf off bit cause who part value old).flash.peerDigest = s.flash.peerDigest := (congrArg (fun t => t.flash.peerDigest) (Noted.rejectPf s _ _ _ _ _ _ _).rest).trans rfl
@[simp] theorem State.rejectPf_sessions (s : State) (off bit : Nat) (cause : W16) (who : Writer) (part : Option Nat) (value old : W64) :
    (s.rejectPf off bit cause who part value old).sec.sessions = s.sec.sessions := (congrArg (fun t => t.sec.sessions) (Noted.rejectPf s _ _ _ _ _ _ _).rest).trans rfl
@[simp] theorem State.rejectPf_ports (s : State) (off bit : Nat) (cause : W16) (who : Writer) (part : Option Nat) (value old : W64) :
    (s.rejectPf off bit cause who part value old).sec.ports = s.sec.ports := (congrArg (fun t => t.sec.ports) (Noted.rejectPf s _ _ _ _ _ _ _).rest).trans rfl
@[simp] theorem State.rejectPf_debug (s : State) (off bit : Nat) (cause : W16) (who : Writer) (part : Option Nat) (value old : W64) :
    (s.rejectPf off bit cause who part value old).sec.debug = s.sec.debug := (congrArg (fun t => t.sec.debug) (Noted.rejectPf s _ _ _ _ _ _ _).rest).trans rfl
@[simp] theorem State.rejectPf_lockedOut (s : State) (off bit : Nat) (cause : W16) (who : Writer) (part : Option Nat) (value old : W64) :
    (s.rejectPf off bit cause who part value old).sec.lockedOut = s.sec.lockedOut := (congrArg (fun t => t.sec.lockedOut) (Noted.rejectPf s _ _ _ _ _ _ _).rest).trans rfl
@[simp] theorem State.rejectPf_consent (s : State) (off bit : Nat) (cause : W16) (who : Writer) (part : Option Nat) (value old : W64) :
    (s.rejectPf off bit cause who part value old).sec.consent = s.sec.consent := (congrArg (fun t => t.sec.consent) (Noted.rejectPf s _ _ _ _ _ _ _).rest).trans rfl
@[simp] theorem State.rejectPf_staging (s : State) (off bit : Nat) (cause : W16) (who : Writer) (part : Option Nat) (value old : W64) :
    (s.rejectPf off bit cause who part value old).sec.staging = s.sec.staging := (congrArg (fun t => t.sec.staging) (Noted.rejectPf s _ _ _ _ _ _ _).rest).trans rfl

end Sys2Proof.Machine
end

