-- ==== Sys2Proof/WellFormed.lean ====
section
/-!
DEFINITION. Which commands are well formed: the limits on an operand that its type does not hold. A command that is not
well formed is no command a sender can send; exec is total on it all the same.
-/

namespace Sys2Proof

/-- A physical cluster: 20 tiles of 42 (R472). -/
def okCluster (c : Nat) : Bool := decide (c < 840)

/-- A logical quad of the larger grade (R304). -/
def okQuad (q : Nat) : Bool := decide (q < 80)

/-- A Hamper granule: a tile and one of its 32 granules (Table 9.1). -/
def okGranule (g : Nat × Nat) : Bool := decide (g.1 < 20) && decide (g.2 < 32)

/-- The limits on a command's operands. -/
def Instr.wf : Instr → Bool
  | .arrayFault c _ _ row col _ _ => okCluster c && decide (row.toNat < 66) && decide (col.toNat < 64)
  | .arrayTimeout c _ _ _ => okCluster c
  | .selfCheck c h _ => okCluster c && h != .full
  | .wickFault c _ _ _ _ => okCluster c
  | .patrolScrub (.sram c b) _ => okCluster c && decide (b < 64)
  | .patrolScrub (.hamper _ b) _ => decide (b < 128)
  | .regWrite _ es => decide (1 ≤ es.length) && decide (es.length ≤ 32)
  | .regRead _ es => decide (1 ≤ es.length) && decide (es.length ≤ 32)
  | .challenge _ n => decide (n.length = 32)
  | .getMeasurements _ _ n => decide (n.length = 32)
  | .getCertificate _ slot _ _ => decide (slot.toNat < 8)
  | .teardownComplete _ qs gs => qs.all okQuad && gs.all okGranule
  | .startup _ hs gs => hs.all (fun h => okCluster h.1) && gs.all okGranule
  | .selftestDone q hs _ => okQuad q && hs.all (fun h => okCluster h.1)
  | .apertureRead _ off n _ => decide (1 ≤ n) && decide (off.toNat % 64 + n ≤ 64)
  | .apertureWrite _ off bs _ _ => decide (1 ≤ bs.length) && decide (off.toNat % 64 + bs.length ≤ 64)
  | .hdmAccess _ off (some bs) _ _ => decide (1 ≤ bs.length) && decide (off.val + bs.length ≤ 64)
  | .frameReceive _ f _ _ => decide (60 ≤ f.length) && decide (f.length ≤ 9212)
  | .chunkSend _ _ _ _ c _ => decide (1 ≤ c.length)
  | .atsInvalidation _ pages => decide (1 ≤ pages.length)
  | .participantTakeIndex _ _ k _ => decide (k < 800)
  | .tileWatchExpiry _ _ k => decide (k < 800)
  | _ => true

end Sys2Proof
end

