-- ==== Sys2Proof/Tests/Slice0.lean ====
section
/-! SUPPORT. Tests: the smoke test of WellFormed, and for each statement a state and operands that meet its hypotheses. -/

namespace Sys2Proof.Tests

open Sys2Proof.Machine

theorem test_wf_cluster : Instr.wf (.arrayTimeout 840 .full 0 0) = false := by decide
theorem test_wf_row : Instr.wf (.arrayFault 0 .left .drainTag 66 0 0 0) = false := by decide
theorem test_wf_column : Instr.wf (.arrayFault 0 .left .drainTag 0 64 0 0) = false := by decide
theorem test_wf_fault_cluster : Instr.wf (.arrayFault 840 .left .drainTag 0 0 0 0) = false := by decide
theorem test_wf_selfCheck : Instr.wf (.selfCheck 3 .full true) = false := by decide
theorem test_wf_selfCheck_cluster : Instr.wf (.selfCheck 840 .left true) = false := by decide
theorem test_wf_wickFault : Instr.wf (.wickFault 840 .left (.stage 0) 0 0) = false := by decide
theorem test_wf_patrol_bank : Instr.wf (.patrolScrub (.sram 0 64) .clean) = false := by decide
theorem test_wf_patrol_cluster : Instr.wf (.patrolScrub (.sram 840 0) .clean) = false := by decide
theorem test_wf_patrol_hamper : Instr.wf (.patrolScrub (.hamper 0 128) .clean) = false := by decide
theorem test_wf_regWrite : Instr.wf (.regWrite 0 []) = false := by decide
theorem test_wf_regWrite_many :
    Instr.wf (.regWrite 0 (List.replicate 33 { offset := 0, width := 4, pad := 0, value := 0 })) = false := by decide
theorem test_wf_regRead : Instr.wf (.regRead 0 []) = false := by decide
theorem test_wf_regRead_many : Instr.wf (.regRead 0 (List.replicate 33 0)) = false := by decide
theorem test_wf_challenge : Instr.wf (.challenge .pfDoe []) = false := by decide
theorem test_wf_measurements : Instr.wf (.getMeasurements .pfDoe none []) = false := by decide
theorem test_wf_certificate : Instr.wf (.getCertificate .pfDoe 8 0 0) = false := by decide
theorem test_wf_teardown : Instr.wf (.teardownComplete 0 [80] []) = false := by decide
theorem test_wf_teardown_granule : Instr.wf (.teardownComplete 0 [] [(0, 32)]) = false := by decide
theorem test_wf_startup : Instr.wf (.startup .ok [(840, .left)] []) = false := by decide
theorem test_wf_startup_granule : Instr.wf (.startup .ok [] [(20, 0)]) = false := by decide
theorem test_wf_selftest : Instr.wf (.selftestDone 80 [] []) = false := by decide
theorem test_wf_selftest_half : Instr.wf (.selftestDone 0 [(840, .left)] []) = false := by decide
theorem test_wf_aperture_read : Instr.wf (.apertureRead 0 60 8 .clean) = false := by decide
theorem test_wf_aperture_read_none : Instr.wf (.apertureRead 0 60 0 .clean) = false := by decide
theorem test_wf_aperture_write : Instr.wf (.apertureWrite 0 60 [1, 2, 3, 4, 5] false .clean) = false := by decide
theorem test_wf_aperture_write_none : Instr.wf (.apertureWrite 0 60 [] false .clean) = false := by decide
theorem test_wf_hdm : Instr.wf (.hdmAccess 0 63 (some [1, 2]) false .clean) = false := by decide
theorem test_wf_hdm_none : Instr.wf (.hdmAccess 0 63 (some []) false .clean) = false := by decide
theorem test_wf_frame : Instr.wf (.frameReceive 0 [] .good []) = false := by decide
theorem test_wf_chunk : Instr.wf (.chunkSend .pfDoe 0 0 true [] none) = false := by decide
theorem test_wf_ats : Instr.wf (.atsInvalidation 0 []) = false := by decide
theorem test_wf_participant : Instr.wf (.participantTakeIndex 0 0 800 []) = false := by decide
theorem test_wf_watch : Instr.wf (.tileWatchExpiry 0 0 800) = false := by decide

/-- A descriptor of `n` bytes: engine, opcode, header flags from bit 13 on, and fields as offset, length and value. -/
def desc (n e op flags : Nat) (fs : List (Nat × Nat × Nat)) : List Byte :=
  ((0, 4, e + 8 * op + 8192 * flags) :: fs).foldl (fun d f => d.take f.1 ++ leBytes f.2.1 f.2.2 ++ d.drop (f.1 + f.2.1)) (List.replicate n 0)

/-- A RUNNING partition of one quad, with a resident context 0 and some H, L and Hamper. -/
def part0 : Part := {
  ctl := { state := .running, quads := 1, quadMap := [(0, 0)], seqCap := 64, streamCap := 8, hmap := [0], lmap := [0], hgran := [0], key := 1 }
  cmd := { ctxs := [(0, { enable := true, state := .resident })] }
  vf := { enabled := true } }

/-- A device that is READY, its link up, with `x` as partition 0. -/
def dev (x : Part) : State := { pwr := { stage := .ready }, hst := { link := .up }, parts := [(0, x)] }

/-- Partition 0 with command system `y`, keeping its context. -/
def devCmd (y : CmdSys) : State := dev { part0 with cmd := { y with ctxs := part0.cmd.ctxs } }

/-- The device with one command of partition 0 that has started: number 1, its descriptor and its stage, on cluster 0 where `k`. -/
def run (d : List Byte) (stage : Nat := 0) (k : Bool := false) : State :=
  { devCmd { cmds := [{ id := 1, desc := d, phase := .started, stage := stage, unit := unitOf (dEngine d) (dUnit d)
                        cluster := if k then some 0 else none, left := k, right := k }] } with
    clus := [(0, { buffer := if k then [1] else [] })], nextId := 2 }

/-- The command of `run`. -/
def cmd1 (d : List Byte) (stage : Nat := 0) (k : Bool := false) : Cmd :=
  { id := 1, desc := d, phase := .started, stage := stage, unit := unitOf (dEngine d) (dUnit d)
    cluster := if k then some 0 else none, left := k, right := k }

/-- A ring of 64 slots with a completion ring. -/
def ring0 (st : RingState) (head tail : W32) : Ring := { base := 0x10000, cplBase := 0x20000, cplCfg := 6, state := st, head := head, tail := tail }

/-- An object of 4 KiB at the first free byte of the partition's H. -/
def obj0 : Obj := { state := .present, src := { home := .h, addr := 1048576 }, size := 4096 }

theorem wit_doorbell_stopped : ((dev part0).mmio 0).vfRw 0 = true ∧ ((dev part0).mmio 0).behind 0 = false ∧
    (((dev part0).mmio 0).ring 0 15).started = false := by refine ⟨?_, ?_, ?_⟩ <;> rfl
theorem wit_doorbell_not_running :
    let u := (dev { part0 with ctl := { part0.ctl with state := .draining } }).mmio 0
    u.vfRw 0 = true ∧ u.behind 0 = false ∧ (u.part 0).ctl.state ≠ .running := by decide
theorem wit_doorbell_full :
    let u := (devCmd { rings := [(0, ring0 .idle 5 5)] }).mmio 0
    u.vfRw 0 = true ∧ u.behind 0 = false ∧ (u.ring 0 0).started = true ∧ (u.part 0).ctl.state = .running ∧
      ((69 : W32) - (u.ring 0 0).head).toNat ≤ (u.ring 0 0).slots ∧ later (u.ring 0 0).tail 69 = false := by decide
theorem wit_doorbell_overrun :
    let u := (devCmd { rings := [(0, ring0 .idle 5 5)] }).mmio 0
    u.vfRw 0 = true ∧ u.behind 0 = false ∧ (u.ring 0 0).started = true ∧ (u.part 0).ctl.state = .running ∧
      (u.ring 0 0).slots < ((70 : W32) - (u.ring 0 0).head).toNat ∧ later (u.ring 0 0).tail 4 = true := by decide
theorem wit_doorbell_held :
    let u := (dev { part0 with vf := { enabled := true, aprHeld := [3] } }).mmio 0
    u.vfRw 0 = true ∧ (u.part 0).vf.aprHeld ≠ [] ∧ (u.part 0).vf.reads = [] := by decide
theorem wit_ring_start :
    let u := (devCmd { rings := [(0, ring0 .stopped 0 64)] }).mmio 0
    u.vfOpen 0 = true ∧ (u.ring 0 0).state = .stopped ∧ u.ringConfigOk 0 0 = true ∧ (u.ring 0 0).avail ≤ (u.ring 0 0).slots ∧
      u.behind 0 = false := by decide
theorem wit_ring_start_overrun :
    let u := (devCmd { rings := [(0, ring0 .stopped 0 65)] }).mmio 0
    u.vfOpen 0 = true ∧ (u.ring 0 0).state = .stopped ∧ u.ringConfigOk 0 0 = true ∧ (u.ring 0 0).slots < (u.ring 0 0).avail ∧
      u.behind 0 = false := by decide
theorem wit_ring_start_config :
    let u := (dev part0).mmio 0
    u.vfOpen 0 = true ∧ (u.ring 0 0).state = .stopped ∧ u.ringConfigOk 0 0 = false ∧
      u.behind 0 = false := by decide
theorem wit_ring_start_started :
    ((devCmd { rings := [(15, ring0 .idle 0 0)] }).mmio 0).vfOpen 0 = true ∧ (((devCmd { rings := [(15, ring0 .idle 0 0)] }).mmio 0).ring 0 15).state ≠ .stopped ∧
      ((devCmd { rings := [(15, ring0 .idle 0 0)] }).mmio 0).behind 0 = false := by decide
theorem wit_vf_shut : ((dev { part0 with ctl := { part0.ctl with state := .teardown } }).mmio 0).vfOpen 0 = false ∧
      ((dev { part0 with ctl := { part0.ctl with state := .teardown } }).mmio 0).behind 0 = false := by refine ⟨?_, ?_⟩ <;> first | rfl | decide
/-- A device with a descriptor in slot 0 of ring 0. -/
def fetchDev (d : List Byte) : State := (devCmd { rings := [(0, ring0 .fetching 0 1)] }).setHost 0x10000 d
theorem wit_fetch (k : Fin 8) :
    let d := desc 64 2 0x12 0 [(4, 4, 1)]
    let s := fetchDev d
    s.fetches 0 = true ∧ s.ringTurn 0 = some 0 ∧ s.nextDesc 0 0 .ok = .got d ∧ endsAtFetch d = false ∧
      unitOf (dEngine d) (dUnit d) = some .seq ∧ s.fuse.grade.has .seq = true ∧ s.canRoute 0 (s.ring 0 0).ctx (unitNo .seq) = true ∧
      (k = 0 ∨ (s.ring 0 0).avail = d.length / 64) ∧
      BarsQuiet s 0 := by
  refine ⟨?_, ?_, ?_, ?_, ?_, ?_, ?_, Or.inr ?_, ?_⟩ <;> first | rfl | decide
/-- `fetchDev` with a command of waymark 7 queued for MOV. -/
def snuffDev (d : List Byte) : State :=
  { (fetchDev d).modSys 0 fun y => { y with
      cmds := [{ id := 1, desc := desc 64 1 Op.wait 0 [(4, 4, 7)], unit := some .mov }], queues := [(16, [1])] } with nextId := 2 }
/-- A SNUFF of kind WAYMARK that names waymark `m`, and one of kind CONTEXT that names context `m`. -/
def snuffOf (ctx : Bool) (m : Nat) : List Byte := desc 64 0 Op.snuff 0 (if ctx then [(4, 4, 1), (35, 1, 1), (37, 1, m)] else [(4, 4, 1), (40, 4, m)])
theorem wit_snuff (ctx : Bool) :
    let d := snuffOf ctx 0
    let s := fetchDev d
    s.fetches 0 = true ∧ s.ringTurn 0 = some 0 ∧ s.nextDesc 0 0 .ok = .got d ∧ dOpcode d = Op.snuff ∧ dEngine d ≤ 4 ∧
      (s.ring 0 0).canReserve = true ∧ s.fetchCause 0 0 d = 0 ∧ (s.part 0).cmd.cmds = [] ∧ dEngine d = 0 ∧ dUnit d = 0 ∧
      fieldAt d 35 1 = ctx.toNat ∧ zeroAt d 36 8 = true ∧ zeroAt d 44 20 = true ∧ d.length = 64 ∧
      BarsQuiet s 0 := by
  cases ctx <;> refine ⟨?_, ?_, ?_, ?_, ?_, ?_, ?_, ?_, ?_, ?_, ?_, ?_, ?_, ?_, ?_⟩ <;> first | rfl | decide
theorem wit_snuff_cause :
    let d := desc 64 0 Op.snuff 0 [(4, 4, 1), (8, 4, 0xFFFFFFFF), (1, 1, 0xC0)]
    let s := fetchDev d
    s.fetches 0 = true ∧ s.ringTurn 0 = some 0 ∧ s.nextDesc 0 0 .ok = .got d ∧ dOpcode d = Op.snuff ∧ dEngine d ≤ 4 ∧
      (s.ring 0 0).canReserve = true ∧ (s.part 0).cmd.cmds = [] ∧ s.fetchCause 0 0 d ≠ 0 ∧
      BarsQuiet s 0 := by
  refine ⟨?_, ?_, ?_, ?_, ?_, ?_, ?_, ?_, ?_⟩ <;> first | rfl | decide
theorem wit_snuff_queued (ctx : Bool) :
    let d := snuffOf ctx (if ctx then 0 else 7)
    let s := snuffDev d
    s.fetches 0 = true ∧ s.ringTurn 0 = some 0 ∧ s.nextDesc 0 0 .ok = .got d ∧ (s.ring 0 0).canReserve = true ∧ s.fetchCause 0 0 d = 0 ∧
      (∀ x ∈ (s.part 0).cmd.cmds, x.id < s.nextId) ∧
      ((s.part 0).cmd.cmds.filter fun x => x.isTarget && if fieldAt d 35 1 = 0 then x.wm == word32 d 40 else x.ctx == fieldAt d 37 1) =
        [{ id := 1, desc := desc 64 1 Op.wait 0 [(4, 4, 7)], unit := some .mov }] ∧
      BarsQuiet s 0 := by
  cases ctx <;> refine ⟨?_, ?_, ?_, ?_, ?_, ?_, ?_, ?_⟩ <;> first | rfl | decide
theorem wit_start (b : Bool) :
    let d := desc 64 1 Op.wait 0 []
    let c : Cmd := { id := 1, desc := d, unit := some .mov, reserved := true, noted := if b then Cause.badOperand else 0 }
    let s := devCmd { cmds := [c], queues := [(16, [1])], rings := [(0, ring0 .idle 1 1)] }
    s.headsOf 0 (unitNo .mov) = [c] ∧ s.cmd? 0 1 = some c ∧ s.letStart 0 c = true ∧ s.waitsMet 0 c = true ∧
      s.unitReady 0 c true = true ∧ s.canReserve 0 c = true ∧ s.flaggedWaits 0 c = [] ∧ c.engine ≠ 0 ∧ c.engine ≠ 3 ∧
      c.onACluster = false ∧ c.fallback ≠ 3 ∧ (s.reserve 0 1).opCheck 0 ((s.reserve 0 1).prepared 0 c) = 0 ∧
      c.judged.getD (s.lateHere 0 c) = [] ∧ (c.noted == 0) = !b := by
  cases b <;> refine ⟨?_, ?_, ?_, ?_, ?_, ?_, ?_, ?_, ?_, ?_, ?_, ?_, ?_, ?_⟩ <;> first | rfl | decide
theorem wit_waits :
    let d := desc 64 1 Op.wait 2 [(8, 4, 1), (12, 2, 3)]
    let c : Cmd := { id := 1, desc := d, unit := some .mov }
    let s := devCmd { cmds := [c], queues := [(16, [1])] }
    s.headsOf 0 (unitNo .mov) = [c] ∧ c.waitsAny = false ∧ c.extraWaits = [] ∧ dNwait d = 1 ∧ s.met 0 (dToken d 0, dTarget d 0) = false := by
  refine ⟨?_, ?_, ?_, ?_, ?_⟩ <;> rfl
theorem wit_common (op : Nat) (h : op ∈ [Op.wait, Op.fence, Op.signal]) :
    let s := run (desc 64 1 op 0 [])
    s.cmd? 0 1 = some (cmd1 (desc 64 1 op 0 [])) ∧ (cmd1 (desc 64 1 op 0 [])).op = op ∧ (cmd1 (desc 64 1 op 0 [])).phase = .started := by
  revert op
  decide
theorem wit_listLoad :
    let d := desc 64 0 Op.listLoad 0 [(36, 4, 64)]
    (run d).cmd? 0 1 = some (cmd1 d) ∧ (cmd1 d).op = Op.listLoad ∧ ((run d).listSlot 0 ((cmd1 d).fld 35 1)).loaded = none ∧
      (((run d).modList 0 0 fun l => { l with loadWaiting := l.loadWaiting.filter (· != 1) }).peekO 0 (cmd1 d).listSource 64).fault = none := by
  refine ⟨?_, ?_, ?_, ?_⟩ <;> rfl
theorem wit_listSwitch :
    let d := desc 64 0 Op.listLoad 0 []
    let s := (run d 1).modList 0 0 fun l => { l with loaded := some 1 }
    s.cmd? 0 1 = some (cmd1 d 1) ∧ (s.listSlot 0 ((cmd1 d 1).fld 35 1)).loaded = some 1 := by
  refine ⟨?_, ?_⟩ <;> rfl
theorem wit_end : (run (desc 64 1 Op.wait 0 []) 0 true).cmd? 0 1 = some (cmd1 (desc 64 1 Op.wait 0 []) 0 true) := by rfl
/-- A WAIT of MOV that ended DONE, on ring 0, with the header flags and the ring given. -/
def endedDev (flags : Nat) (r : Ring) : State :=
  devCmd { cmds := [{ id := 1, desc := desc 64 1 Op.wait flags [], phase := .ended, reserved := true, unit := some .mov }], rings := [(0, r)] }
theorem wit_terminal (b : Bool) :
    let d := desc 64 1 Op.wait (if b then 40 else 8) []
    let c : Cmd := { id := 1, desc := d, phase := .ended, reserved := true, unit := some .mov }
    let s := endedDev (if b then 40 else 8) (ring0 .idle 1 1)
    s.cmd? 0 1 = some c ∧ c.status = .done ∧ c.cause = 0 ∧ s.paid 0 c = true ∧ dCpl d = b ∧ dIrq d = false ∧ c.parent = none ∧ c.autoTok = none ∧
      c.engine ≠ 0 ∧ c.engine ≠ 2 ∧ dSigEn d = true ∧ (s.part 0).mir.heldSteps = [] ∧ (s.part 0).vf.flr = 0 ∧ s.hostUp = true ∧
      s.regHolds 0 2 0 1 = false ∧ (s.ring 0 0).cplInDevice = false ∧ (s.ring 0 0).waiting = [] ∧
      s.framesWait 0 c = false ∧ s.writesHeld 0 c = false := by
  cases b <;> refine ⟨?_, ?_, ?_, ?_, ?_, ?_, ?_, ?_, ?_, ?_, ?_, ?_, ?_, ?_, ?_, ?_, ?_, ?_, ?_⟩ <;> first | rfl | decide
theorem wit_terminal_device :
    let s := (endedDev 40 { ring0 .idle 1 1 with cplBase := 5, cplCfg := 0x106 }).modObjs 0 fun y => { y with table := [(5, obj0)] }
    let c : Cmd := { id := 1, desc := desc 64 1 Op.wait 40 [], phase := .ended, reserved := true, unit := some .mov }
    s.cmd? 0 1 = some c ∧ s.paid 0 c = true ∧ (s.ring 0 0).cplInDevice = true ∧ (s.ring 0 0).waiting = [] ∧
      (s.pokeO 0 ((baseRef (s.ring 0 0).cplBase).add (16 * ((s.ring 0 0).cplTail.toNat % (s.ring 0 0).records))) c.record).2 = none ∧
      s.framesWait 0 c = false ∧ s.writesHeld 0 c = false ∧ s.notNow 0 ((baseRef (s.ring 0 0).cplBase).add (16 * ((s.ring 0 0).cplTail.toNat % (s.ring 0 0).records))) 16 = false := by
  refine ⟨?_, ?_, ?_, ?_, ?_, ?_, ?_, ?_⟩ <;> first | rfl | decide
theorem wit_context_enable :
    let u := (dev part0).mmio 0
    u.vfRw 0 = true ∧ (u.ctx 0 1).state = .free ∧ u.freeSlot 0 = some 1 ∧ (u.ctx 0 0).state ≠ .free ∧
      u.behind 0 = false := by refine ⟨?_, ?_, ?_, ?_, ?_⟩ <;> first | rfl | decide
/-- A partition with its four slots occupied. -/
def fullDev : State := dev { part0 with cmd := { ctxs := (List.range 4).map fun n => (n, { enable := true, state := .resident, slot := BitVec.ofNat 2 n }) } }
theorem wit_context_enable_full : (fullDev.mmio 0).vfRw 0 = true ∧ ((fullDev.mmio 0).ctx 0 4).state = .free ∧ (fullDev.mmio 0).freeSlot 0 = none ∧
      (fullDev.mmio 0).behind 0 = false := by
  refine ⟨?_, ?_, ?_, ?_⟩ <;> first | rfl | decide
theorem wit_context_disable : (fullDev.mmio 0).vfRw 0 = true ∧ ((fullDev.mmio 0).ctx 0 3).state = .resident ∧ (fullDev.mmio 0).ctxQuiet 0 3 = true ∧
      (fullDev.mmio 0).behind 0 = false := by
  refine ⟨?_, ?_, ?_, ?_⟩ <;> first | rfl | decide
theorem wit_context_busy :
    let s := devCmd { cmds := [{ id := 1, desc := desc 64 1 Op.wait 0 [] }] }
    (s.mmio 0).vfRw 0 = true ∧ ((s.mmio 0).ctx 0 0).state = .resident ∧ (s.mmio 0).ctxQuiet 0 0 = false ∧
      (s.mmio 0).behind 0 = false := by refine ⟨?_, ?_, ?_, ?_⟩ <;> first | rfl | decide
/-- A partition with context 1 swapped out and runnable. -/
def swapDev (st : CtxState) : State := dev { part0 with cmd := {
  ctxs := [(0, { enable := true, state := .resident }), (1, { enable := true, state := st, image := 64, slot := 1 })]
  rings := [(0, { ring0 .idle 0 1 with cfg := 0x10006 })] } }
theorem wit_swap_in :
    let s := swapDev .swapped
    (s.part 0).vf.flr = 0 ∧ (s.part 0).ctl.state = .running ∧ (s.part 0).cmd.swapIn = none ∧ s.atBoundary 0 = true ∧
      (s.modSys 0 fun y => { y with boundary := false }).candidate 0 = some 1 ∧
      (s.modSys 0 fun y => { y with boundary := false }).freeSlot 0 = some 1 := by refine ⟨?_, ?_, ?_, ?_, ?_, ?_⟩ <;> rfl
theorem wit_swap_out : ((swapDev .evicting).part 0).vf.flr = 0 ∧ ((swapDev .evicting).part 0).cmd.swapIn = none ∧ ((swapDev .evicting).ctx 0 1).state = .evicting ∧
    (∀ c ∈ ((swapDev .evicting).part 0).cmd.cmds, c.ctx ≠ 1) ∧ (((swapDev .evicting).mmio 0).ctx 0 1).state = .evicting ∧ ((swapDev .evicting).mmio 0).vfRw 0 = true ∧
      ((swapDev .evicting).mmio 0).behind 0 = false := by
  refine ⟨?_, ?_, ?_, ?_, ?_, ?_, ?_⟩ <;> first | rfl | decide
theorem wit_swap_restore : ((swapDev .restoring).part 0).vf.flr = 0 ∧ ((swapDev .restoring).ctx 0 1).state = .restoring := by refine ⟨?_, ?_⟩ <;> rfl

/-- A started CMP command of opcode `op` on cluster 0. -/
def tile (op flags : Nat) (fs : List (Nat × Nat × Nat)) : List Byte := desc 128 0 op (1 + flags) fs
theorem wit_gemm :
    let d := tile 0x10 0 [(44, 1, 1), (45, 1, 1), (40, 2, 1), (42, 2, 1), (48, 2, 1), (50, 2, 1)]
    let c := cmd1 d 0 true
    Started (run d 0 true) 0 1 0 0x10 c ∧ AtTurn (run d 0 true) 0 c 0 [c.gemm.d.handle] ∧ WorkClear (run d 0 true) 0 ((run d 0 true).gemmWork 0 c 0) ∧
      c.gemm.isEmpty = false := by
  refine ⟨⟨?_, ?_⟩, ⟨?_, ?_, ?_, ?_, ?_, ?_⟩, ⟨?_, ?_⟩, ?_⟩ <;> rfl
theorem wit_conv :
    let d := tile 0x16 0 []
    let c := cmd1 d 0 true
    Started (run d 0 true) 0 1 0 0x16 c ∧ AtTurn (run d 0 true) 0 c 0 [c.conv.out.handle] ∧ WorkClear (run d 0 true) 0 ((run d 0 true).convWork 0 c 0) := by
  refine ⟨⟨?_, ?_⟩, ⟨?_, ?_, ?_, ?_, ?_, ?_⟩, ⟨?_, ?_⟩⟩ <;> rfl
theorem wit_attn :
    let d := tile 0x17 0 []
    let c := cmd1 d 0 true
    Started (run d 0 true) 0 1 0 0x17 c ∧ AtTurn (run d 0 true) 0 c 0 [if c.attn.final then c.attn.out.handle else c.attn.acc.handle] ∧
      WorkClear (run d 0 true) 0 ((run d 0 true).attnWork 0 c 0) := by
  refine ⟨⟨?_, ?_⟩, ⟨?_, ?_, ?_, ?_, ?_, ?_⟩, ⟨?_, ?_⟩⟩ <;> rfl
theorem wit_scan :
    let d := tile 0x19 0 []
    let c := cmd1 d 0 true
    Started (run d 0 true) 0 1 0 0x19 c ∧ AtTurn (run d 0 true) 0 c 0 ((run d 0 true).scanDests 0 c.scan) ∧
      WorkClear (run d 0 true) 0 ((run d 0 true).scanWork 0 c 0) := by
  refine ⟨⟨?_, ?_⟩, ⟨?_, ?_, ?_, ?_, ?_, ?_⟩, ⟨?_, ?_⟩⟩ <;> rfl
theorem wit_wick :
    let d := tile 0x12 0 []
    let c := cmd1 d 0 true
    Started (run d 0 true) 0 1 0 0x12 c ∧ c.wick.chain = false ∧ AtTurn (run d 0 true) 0 c 0 c.wick.dests ∧
      WorkClear (run d 0 true) 0 ((run d 0 true).wickWork 0 c ((run d 0 true).wickIn0 0 c.wick)) := by
  refine ⟨⟨?_, ?_⟩, ?_, ⟨?_, ?_, ?_, ?_, ?_, ?_⟩, ⟨?_, ?_⟩⟩ <;> rfl
theorem wit_norm :
    let d := tile 0x13 0 []
    let c := cmd1 d 0 true
    Started (run d 0 true) 0 1 0 0x13 c ∧ AtTurn (run d 0 true) 0 c 0 [c.norm.out.handle] ∧ WorkClear (run d 0 true) 0 ((run d 0 true).normWork 0 c) := by
  refine ⟨⟨?_, ?_⟩, ⟨?_, ?_, ?_, ?_, ?_, ?_⟩, ⟨?_, ?_⟩⟩ <;> rfl
theorem wit_wick_chained :
    let d := tile 0x12 0 [(35, 1, 4)]
    let s := run d 0 true
    let c := cmd1 d 0 true
    Started s 0 1 0 0x12 c ∧ c.wick.chain = true ∧ c.armed = false ∧ c.cluster = some 0 ∧ (s.cluster 0).anyHalf c .offline = false ∧
      (s.cluster 0).anyHalf c .selfCheck = false ∧ (s.cluster 0).l.armed = none ∧ (s.cluster 0).r.armed = none := by
  refine ⟨⟨?_, ?_⟩, ?_, ?_, ?_, ?_, ?_, ?_, ?_⟩ <;> rfl
theorem wit_reduce :
    let d := tile 0x11 0 []
    let s := run d 0 true
    let c := cmd1 d 0 true
    Started s 0 1 0 0x11 c ∧ AtTurn s 0 c 0 (c.gemm.d.handle :: if c.gemm.claimEn then [c.gemm.claim.handle] else []) ∧
      s.workStopped 0 (s.reduceWork 0 c 0) = false ∧ c.gemm.claimEn = false ∧
      WorkClear (s.modCmd 0 1 fun c => { c with stage := 1 }) 0 (s.reduceWork 0 c 0) := by
  refine ⟨⟨?_, ?_⟩, ⟨?_, ?_, ?_, ?_, ?_, ?_⟩, ?_, ?_, ⟨?_, ?_⟩⟩ <;> rfl
theorem wit_reduce_lost :
    let d := tile 0x11 0 [(47, 1, 1), (120, 8, 5)]
    let s := (({ run d 0 true with mem := { hbm := [(1048576, 1)] } } : State).modObjs 0 fun y => { y with table := [(5, obj0)] })
    let c := cmd1 d 0 true
    Started s 0 1 0 0x11 c ∧ AtTurn s 0 c 0 (c.gemm.d.handle :: if c.gemm.claimEn then [c.gemm.claim.handle] else []) ∧
      s.workStopped 0 (s.reduceWork 0 c 0) = false ∧ c.gemm.claimEn = true ∧ (s.claimBit 0 c.gemm.claim c.gemm.seed).2 = .lost := by
  refine ⟨⟨?_, ?_⟩, ⟨?_, ?_, ?_, ?_, ?_, ?_⟩, ?_, ?_, ?_⟩ <;> rfl
theorem wit_reduce_refused :
    let d := tile 0x11 0 [(47, 1, 1), (120, 8, 5)]
    let s := (({ run d 0 true with mem := { poison := [{ space := .hbm, line := 16384, seq := 9 }] } } : State).modObjs 0 fun y => { y with table := [(5, obj0)] })
    let c := cmd1 d 0 true
    Started s 0 1 0 0x11 c ∧ AtTurn s 0 c 0 [c.gemm.d.handle, c.gemm.claim.handle] ∧
      s.workStopped 0 (s.reduceWork 0 c 0) = false ∧ c.gemm.claimEn = true ∧ (s.claimBit 0 c.gemm.claim c.gemm.seed).2 = .refused 9 := by
  refine ⟨⟨?_, ?_⟩, ⟨?_, ?_, ?_, ?_, ?_, ?_⟩, ?_, ?_, ?_⟩ <;> rfl
theorem wit_reduce_won :
    let d := tile 0x11 0 [(47, 1, 1), (120, 8, 5)]
    let s := (run d 0 true).modObjs 0 fun y => { y with table := [(5, obj0)] }
    let c := cmd1 d 0 true
    let u := (s.claimBit 0 c.gemm.claim c.gemm.seed).1
    Started s 0 1 0 0x11 c ∧ AtTurn s 0 c 0 [c.gemm.d.handle, c.gemm.claim.handle] ∧
      s.workStopped 0 (s.reduceWork 0 c 0) = false ∧ c.gemm.claimEn = true ∧ (s.claimBit 0 c.gemm.claim c.gemm.seed).2 = .won ∧
      WorkClear (u.modCmd 0 1 fun c => { c with stage := 1 }) 0 (u.reduceWork 0 c 0) := by
  refine ⟨⟨?_, ?_⟩, ⟨?_, ?_, ?_, ?_, ?_, ?_⟩, ?_, ?_, ?_, ⟨?_, ?_⟩⟩ <;> rfl
theorem wit_array_fault :
    let d := tile 0x10 0 []
    let s := run d 0 true
    s.clusterOwner 0 = some (0, 0) ∧ s.runningOn 0 0 .full = some (cmd1 d 0 true) ∧ s.cmd? 0 1 = some (cmd1 d 0 true) ∧
      (cmd1 d 0 true).op ≠ 0x11 ∧ (cmd1 d 0 true).usesArray = true := by
  refine ⟨?_, ?_, ?_, ?_, ?_⟩ <;> first | rfl | decide
theorem wit_wick_fault :
    let d := tile 0x13 0 []
    let s := run d 0 true
    let c := cmd1 d 0 true
    s.clusterOwner 0 = some (0, 0) ∧ s.runningOn 0 0 .full = some c ∧ s.cmd? 0 1 = some c ∧ c.op ≠ 0x11 ∧
      c.usesWick (c.op == 0x10 && (s.bound? 0 c 0).isSome) = true := by
  refine ⟨?_, ?_, ?_, ?_, ?_⟩ <;> first | rfl | decide
theorem wit_self_check :
    (({ dev part0 with clus := [(839, { l := { state := .selfCheck }, r := { state := .selfCheck } })] } : State).cluster 839).l.state = .selfCheck ∧
      (({ dev part0 with clus := [(839, { l := { state := .selfCheck }, r := { state := .selfCheck } })] } : State).cluster 839).r.state = .selfCheck := by
  refine ⟨?_, ?_⟩ <;> rfl
theorem wit_lantern_active :
    let d := desc 64 0 0x14 0 []
    Started (run d) 0 1 0 0x14 (cmd1 d) ∧ ((run d).part 0).ltn.active = bitOf ((cmd1 d).fld 35 1) 0 ∧ ((run d).part 0).ltn.loadWaiting.contains 1 = false := by
  refine ⟨⟨?_, ?_⟩, ?_, ?_⟩ <;> first | rfl | decide
theorem wit_lantern_load :
    let d := desc 64 0 0x14 0 [(35, 1, 1)]
    Started (run d) 0 1 0 0x14 (cmd1 d) ∧ ((run d).part 0).ltn.active ≠ bitOf ((cmd1 d).fld 35 1) 0 ∧ (run d).bankHeld 0 true = false := by
  refine ⟨⟨?_, ?_⟩, ?_, ?_⟩ <;> first | rfl | decide
theorem wit_lantern_waits :
    let d := desc 64 0 0x14 0 [(35, 1, 1)]
    let s := (run d).modSys 0 fun y => { y with cmds := y.cmds ++ [{ id := 2, desc := desc 64 0 0x13 0 [], phase := .started, bank := some true }] }
    Started s 0 1 0 0x14 (cmd1 d) ∧ (s.part 0).ltn.active ≠ bitOf ((cmd1 d).fld 35 1) 0 ∧ s.bankHeld 0 true = true := by
  refine ⟨⟨?_, ?_⟩, ?_, ?_⟩ <;> first | rfl | decide
theorem wit_lantern_write :
    let d := desc 64 0 0x14 0 [(35, 1, 1)]
    let s := run d 1
    let c := cmd1 d 1
    let rd := s.peekO 0 (c.ref 44) (c.fld 40 4)
    Started s 0 1 0 0x14 c ∧ s.bankHeld 0 true = false ∧ rd.fault = none ∧ parseImages 683 rd.bytes = some [] ∧
      bankSegs (loadBank (((s.countO 0 (c.ref 44) (c.fld 40 4)).part 0).ltn.bank true) (bitOf (c.fld 36 1) 0) []) ≤ 1024 := by
  refine ⟨⟨?_, ?_⟩, ?_, ?_, ?_, ?_⟩ <;> first | rfl | decide
theorem wit_lantern_switch :
    let d := desc 64 0 0x15 0 [(35, 1, 1)]
    Started (run d) 0 1 0 0x15 (cmd1 d) ∧ ((run d).part 0).cmd.cmds = [cmd1 d] := by
  refine ⟨⟨?_, ?_⟩, ?_⟩ <;> rfl

/-- `run` with partition 0 changed by `f`, and bytes `bs` where object 5 lies. -/
def runP (d : List Byte) (f : Part → Part) (bs : List Byte := []) (stage : Nat := 0) : State :=
  { ((run d stage).modPart 0 f).modObjs 0 fun y => { y with table := [(5, obj0)] } with mem := { hbm := cellsSet [] 1048576 bs } }
theorem wit_fixed_call :
    let d := tile 0x18 0 [(48, 8, 5)]
    let inner := desc 64 0 Op.wait 0 []
    let s := runP d (fun x => { x with cmd := { x.cmd with lists := [(0, { buf0 := inner })] } })
    let c := cmd1 d
    let u := s.countO 0 c.call.block 576
    Started s 0 1 0 0x18 c ∧ c.call.shared = false ∧ c.call.bucketSel = false ∧ c.call.nfill = 0 ∧ (s.peekO 0 c.call.block 576).fault = none ∧
      zeroAt (s.peekO 0 c.call.block 576).bytes 0 64 = true ∧ (u.listSlot 0 c.call.slot).current ≠ [] ∧
      listContentOk false c.call.group (listDescs (u.listSlot 0 c.call.slot).current) = true := by
  refine ⟨⟨?_, ?_⟩, ?_, ?_, ?_, ?_, ?_, ?_, ?_⟩ <;> first | rfl | decide
/-- A SHARED call of one participant and one tile. -/
def call1 : Call := { shared := true, groups := [[(0, desc 128 0 0x10 1 [])]], counterRef := 5, claimRef := 2 ^ 20 * 64 + 5, participants := [{ left := false }] }
/-- The device with `k` in progress. -/
def callDev (k : Call) : State := runP (tile 0x18 0 []) (fun x => { x with cmd := { x.cmd with calls := [(1, k)] } }) [] 1
theorem wit_take :
    let s := callDev call1
    s.cmd? 0 1 = some (cmd1 (tile 0x18 0 []) 1) ∧ s.call? 0 1 = some call1 ∧ call1.participants[0]? = some { left := false } ∧
      s.relCluster 0 (call1.clusterBase + 0) = some 0 ∧ (s.cluster 0).l.state = .idle ∧ (s.cluster 0).r.state = .idle ∧ call1.replay = [] ∧
      s.anyMoving 0 (counterDests call1.counterRef call1.claimRef) = false ∧ (s.memOp 0 .fetchAdd (ORef.of call1.counterRef.toNat) 1).2 = (0, none) ∧ 0 < call1.groups.length ∧ call1.reduces 0 = false ∧
      ((s.memOp 0 .fetchAdd (ORef.of call1.counterRef.toNat) 1).1.claimBit 0 (ORef.of call1.claimRef.toNat) 0).2 = .won := by
  refine ⟨?_, ?_, ?_, ?_, ?_, ?_, ?_, ?_, ?_, ?_, ?_, ?_⟩ <;> first | rfl | decide
theorem wit_take_exhausted :
    let s := { callDev call1 with mem := { hbm := [(1048576, 1)] } }
    s.cmd? 0 1 = some (cmd1 (tile 0x18 0 []) 1) ∧ s.call? 0 1 = some call1 ∧ s.relCluster 0 (call1.clusterBase + 0) = some 0 ∧
      (s.memOp 0 .fetchAdd (ORef.of call1.counterRef.toNat) 1).2 = (1, none) ∧ call1.groups.length ≤ 1 := by
  refine ⟨?_, ?_, ?_, ?_, ?_⟩ <;> first | rfl | decide
theorem wit_take_reduced :
    let k := { call1 with groups := [[(0, desc 128 0 0x11 1 [])]] }
    let s := callDev k
    s.cmd? 0 1 = some (cmd1 (tile 0x18 0 []) 1) ∧ s.call? 0 1 = some k ∧ k.participants[0]? = some { left := false } ∧
      s.relCluster 0 (k.clusterBase + 0) = some 0 ∧ (s.cluster 0).l.state = .idle ∧ (s.cluster 0).r.state = .idle ∧ k.replay = [] ∧
      (s.memOp 0 .fetchAdd (ORef.of k.counterRef.toNat) 1).2 = (0, none) ∧ 0 < k.groups.length ∧ k.reduces 0 = true := by
  refine ⟨?_, ?_, ?_, ?_, ?_, ?_, ?_, ?_, ?_, ?_⟩ <;> first | rfl | decide
theorem wit_take_replay :
    let k := { call1 with replay := [0] }
    let s := callDev k
    s.cmd? 0 1 = some (cmd1 (tile 0x18 0 []) 1) ∧ s.call? 0 1 = some k ∧ k.participants[0]? = some { left := false } ∧ k.snuffed = false ∧
      s.relCluster 0 (k.clusterBase + 0) = some 0 ∧ (s.cluster 0).l.state = .idle ∧ (s.cluster 0).r.state = .idle := by
  refine ⟨?_, ?_, ?_, ?_, ?_, ?_, ?_⟩ <;> rfl
theorem wit_tile_watch :
    let k := { call1 with participants := [{ index := some 0, run := [7] }] }
    (callDev k).cmd? 0 1 = some (cmd1 (tile 0x18 0 []) 1) ∧ (callDev k).call? 0 1 = some k ∧ k.participants[0]? = some { index := some 0, run := [7] } := by
  refine ⟨?_, ?_, ?_⟩ <;> rfl
/-- The SEQ page started over a small pool. -/
def seqOn (t : Tbl SeqEntry) (x : Part) : Part := { x with seq := { started := true, blocks := 8, cfg := 4, table := t } }
theorem peek_clean (s : State) (p : Nat) (pl : Place) (off n : Nat) (h : s.mem.poison = []) (k : s.mem.chans = []) :
    (s.peek p pl off n).poison = none := by
  simp only [State.peek, List.findSome?_eq_none_iff]
  intro e _
  have hc : ∀ j, (tget (Chan.reset j) s.mem.chans j).state ≠ .failed := by
    intro j
    rw [k]
    simp [tget, Chan.reset]
  simp [Mem.poisonAt, h, hc]
theorem readBlocks_clean (s : State) (p i : Nat) (wm : W32) (h : s.mem.poison = []) (k : s.mem.chans = []) (hl : s.badListLines p i = []) :
    s.readBlocks p i wm {} = (s, {}) := by
  have hr : ∀ b, s.recordPoison p b = none := by
    intro b
    simp [State.recordPoison, Rd.fault, peek_clean s p _ _ _ h k]
  simp only [State.readBlocks, State.readLists, hl, List.foldl_nil, State.readRecords]
  generalize (s.part p).seq.blocksOf i = l
  induction l with
  | nil => rfl
  | cons e t ih => simpa [hr] using ih
set_option maxRecDepth 8000 in
theorem wit_seq_add :
    let d := desc 64 2 0x10 0 [(36, 2, 3), (40, 8, 5)]
    let bs := desc 128 0 0 0 [(4, 4, 1), (80, 2, 0xFFF), (82, 2, 0xFFFF), (88, 4, 0xFFFFFFFF)]
    let s := runP d (seqOn []) bs
    let c := cmd1 d
    let rd := s.peekO 0 (c.ref 40) 128
    SeqTurn s 0 1 0x10 c ∧ bitOf (c.fld 35 1) 1 = false ∧ (s.seqEntry 0 3).state = .empty ∧ rd.fault = none ∧ addImageZero rd.bytes = true ∧
      { SeqEntry.ofBytes rd.bytes .idle false with parent := 0xFFFFFFFF#32 }.ok (64 * ((s.countO 0 (c.ref 40) 128).part 0).seq.maxBlocks) = true ∧
      fieldAt rd.bytes 82 2 = 0xFFFF ∧ fieldAt rd.bytes 80 2 = 0xFFF := by
  refine ⟨⟨⟨?_, ?_⟩, ?_, ?_⟩, ?_, ?_, ?_, ?_, ?_, ?_, ?_⟩ <;> first | rfl | decide
set_option maxRecDepth 8000 in
theorem wit_seq_update :
    let d := desc 64 2 0x10 0 [(35, 1, 1), (36, 2, 3), (40, 8, 5)]
    let bs := desc 128 0 0 0 [(4, 4, 1), (88, 4, 0xFFFFFFFF)]
    let s := runP d (seqOn [(3, { state := .idle, rows := 1, stream := 0xFFFFFFFF })]) bs
    let c := cmd1 d
    let rd := s.peekO 0 (c.ref 40) 128
    SeqTurn s 0 1 0x10 c ∧ (s.seqEntry 0 3).state = .idle ∧ rd.fault = none ∧
      ((s.seqEntry 0 3).update (SeqEntry.ofBytes rd.bytes .idle false)).ok (64 * ((s.countO 0 (c.ref 40) 128).part 0).seq.maxBlocks) = true ∧
      fieldAt rd.bytes 82 2 = 0 ∧ fieldAt rd.bytes 80 2 = 0 := by
  refine ⟨⟨⟨?_, ?_⟩, ?_, ?_⟩, ?_, ?_, ?_, ?_, ?_⟩ <;> first | rfl | decide
theorem wit_seq_fork :
    let d := desc 128 2 0x11 1 [(36, 2, 3), (40, 2, 62), (44, 2, 2), (112, 2, 0xFFFF), (114, 2, 0xFFFF)]
    let s := runP d (seqOn [(3, { state := .idle, pos := 64 })])
    let c := cmd1 d
    let e := s.seqEntry 0 3
    SeqTurn s 0 1 0x11 c ∧ e.state = .idle ∧ e.streamEn = false ∧ e.pos.toNat % 64 = 0 ∧ c.fld 35 1 = 0 ∧ c.fld 64 8 = 0 ∧ c.fld 44 2 = 2 ∧
      c.fld 40 2 + 2 ≤ (s.part 0).ctl.seqCap.toNat ∧ (∀ j < 2, (s.seqEntry 0 (c.fld 40 2 + j)).state = .empty) ∧ c.fld 112 2 = 0xFFFF ∧
      c.fld 114 2 = 0xFFFF ∧ c.fld 96 4 = 0 ∧ s.readBlocks 0 3 c.wm {} = (s, {}) ∧
      ((List.range 2).foldl (fun (r : ForkRun) j => r.child 0 c e j (forkSeed e.seed j)) { s := s }).poison = none := by
  refine ⟨⟨⟨?_, ?_⟩, ?_, ?_⟩, ?_, ?_, ?_, ?_, ?_, ?_, ?_, ?_, ?_, ?_, ?_, ?_, ?_⟩ <;> first | rfl | decide
theorem wit_seq_end :
    let d := desc 64 2 0x12 0 [(36, 2, 63)]
    let s := runP d (seqOn [(63, { state := .idle })])
    SeqTurn s 0 1 0x12 (cmd1 d) ∧ (s.seqEntry 0 63).state ≠ .empty ∧ (s.seqEntry 0 63).state ≠ .inStep ∧ bitOf ((cmd1 d).fld 35 1) 0 = false ∧
      s.readBlocks 0 63 (cmd1 d).wm {} = (s, {}) := by
  refine ⟨⟨⟨?_, ?_⟩, ?_, ?_⟩, ?_, ?_, ?_, ?_⟩ <;> first | rfl | decide
theorem wit_lookup :
    let d := desc 64 2 0x14 0 [(36, 2, 3)]
    let s := runP d (seqOn [(3, { state := .idle, pend := 64 })])
    SeqTurn s 0 1 0x14 (cmd1 d) ∧ (s.seqEntry 0 3).state ≠ .inStep ∧ s.readBlocks 0 3 (cmd1 d).wm {} = (s, {}) ∧ s.lookupReady 0 3 = true := by
  refine ⟨⟨⟨?_, ?_⟩, ?_, ?_⟩, ?_, ?_, ?_⟩ <;> first | rfl | decide
theorem wit_pin :
    let d := desc 64 2 0x15 0 [(36, 2, 3), (44, 4, 1)]
    let q : Seq := {
      started := true, blocks := 8, cfg := 4, pinLimit := 1, table := [(3, { state := .idle })]
      pool' := [(7, { state := .sealed, pins := 1 })], lists := [(4096 * 3, some 7)] }
    let s := runP d fun x => { x with seq := q }
    let c := cmd1 d
    SeqTurn s 0 1 0x15 c ∧ (s.seqEntry 0 3).state = .idle ∧ s.readBlocks 0 3 c.wm {} = (s, {}) ∧ c.fld 40 4 + c.fld 44 4 ≤ (s.part 0).seq.maxBlocks ∧
      ((List.range (c.fld 44 4)).map fun j => (s.part 0).seq.entry 3 (c.fld 40 4 + j)) = [7].map some ∧
      ((s.part 0).seq.block 7).state = .sealed ∧ ((s.part 0).seq.block 7).pins ≠ 0 := by
  refine ⟨⟨⟨?_, ?_⟩, ?_, ?_⟩, ?_, readBlocks_clean _ _ _ _ rfl rfl rfl, ?_, ?_, ?_, ?_⟩ <;> first | rfl | decide
/-- Objects that satisfy the SEQ page: pool, meta, page lists and content. -/
def poolDev (st : Bool) : State := dev { part0 with
  seq := { started := st, blocks := 1, cfg := 1, pool := 1, metaObj := 2, pl := 3, content := 4 }
  obj := { table := (List.range 4).map fun h => (h + 1, { obj0 with size := 65536 }) } }
theorem wit_seq_start :
    let u := (poolDev false).mmio 0
    (poolDev false).vfOpen 0 = true ∧ (u.part 0).seq.started = false ∧ u.seqConfigOk 0 = true ∧ (u.part 0).seq.table = [] ∧
      (poolDev false).behind 0 = false := by
  refine ⟨?_, ?_, ?_, ?_, ?_⟩ <;> first | rfl | decide
theorem wit_seq_stop : (poolDev true).vfOpen 0 = true ∧ (((poolDev true).mmio 0).part 0).seq.started = true ∧
    (((poolDev true).mmio 0).part 0).cmd.cmds = [] ∧
      (poolDev true).behind 0 = false := by
  refine ⟨?_, ?_, ?_, ?_⟩ <;> first | rfl | decide
theorem wit_seq_stop_busy :
    let s := runP (desc 64 2 0x12 0 []) (seqOn [])
    s.vfOpen 0 = true ∧ s.behind 0 = false ∧ ((s.mmio 0).part 0).seq.started = true ∧ ∃ x ∈ ((s.mmio 0).part 0).cmd.cmds, x.engine = 2 := by
  refine ⟨?_, ?_, ?_, cmd1 (desc 64 2 0x12 0 []), ?_, ?_⟩ <;> first | rfl | decide

/-- A STEP's plan of one phase, one row, one member, and the objects that hold it and its workspace. -/
def stepDev (r : Option StepRun) (stage : Nat) : State :=
  let s := runP (desc 64 2 0x13 0 [(40, 8, 5), (48, 8, 6)]) (fun x => { x with seq := { started := true, blocks := 8, cfg := 4, run := r } })
    (desc 128 0 0 0 [(0, 4, 1), (4, 4, 1), (8, 4, 1), (12, 4, 64), (65, 1, 1)]) stage
  s.modObjs 0 fun y => { y with table := y.table ++ [(6, { obj0 with src := { home := .h, addr := 2097152 }, size := 1048576 })] }
/-- The phase of that plan. -/
def phase1 : Phase := { perSeq := false, rowmask := 1, callRef := 0, fillRef := 0, callBytes := List.replicate 13 0 }
set_option maxRecDepth 8000 in
theorem wit_step :
    let s := stepDev none 0
    let c := cmd1 (desc 64 2 0x13 0 [(40, 8, 5), (48, 8, 6)])
    let u := s.countO 0 (c.ref 40) 128
    Started s 0 1 2 0x13 c ∧ c.stage = 0 ∧ (s.object 0 (c.ref 40).handle).usable = true ∧ (s.object 0 (c.ref 48).handle).usable = true ∧
      s.readPlan 0 c = some (none, some { nphase := 1, maxRows := 1, maxMembers := 1, chunk := 64, phases := [phase1] }) ∧
      s.destCheck 0 (c.ref 48).handle = 0 ∧ s.anyMoving 0 [(c.ref 48).handle] = false ∧ u.readEntries 0 c.wm [] = (u, none) ∧
      ((u.part 0).seq.table.filter fun e => e.2.state != .empty && e.2.state != .faulted) = [] ∧
      (s.part 0).mir.enable = false := by
  refine ⟨⟨?_, ?_⟩, ?_, ?_, ?_, ?_, ?_, ?_, ?_, ?_, ?_⟩ <;> rfl
set_option maxRecDepth 8000 in
theorem wit_step_member :
    let e : SeqEntry := { state := .idle, kind := 1, rows := 1 }
    let s := (stepDev none 0).modSeq 0 fun q => { q with table := [(3, e)] }
    let c := cmd1 (desc 64 2 0x13 0 [(40, 8, 5), (48, 8, 6)])
    let u := s.countO 0 (c.ref 40) 128
    let m := (u.seqEntry 0 3).contribution 3 64
    let v := ((u.modSeqEntry 0 3 fun e => { e with state := .inStep }).countDrops 0 {}).countSchedule 0 [m]
    Started s 0 1 2 0x13 c ∧ s.readPlan 0 c = some (none, some { nphase := 1, maxRows := 1, maxMembers := 1, chunk := 64, phases := [phase1] }) ∧
      ((u.part 0).seq.table.filter fun e => e.2.state != .empty && e.2.state != .faulted).map (·.1) = [3] ∧
      u.readEntries 0 c.wm [3] = (u, none) ∧ u.runnable 0 (u.seqEntry 0 3) = true ∧ u.readBlocks 0 3 c.wm {} = (u, {}) ∧ m.kind = 2 ∧ m.rows = 1 ∧
      (v.schedule 0 (v.seqEntry 0 3)).fault = none ∧ (v.pokeAll 0 (v.workspace 0 (c.ref 48) 1 1 [m])).2 = none ∧
      (s.part 0).mir.enable = false := by
  refine ⟨⟨?_, ?_⟩, ?_, ?_, ?_, ?_, ?_, ?_, ?_, ?_, ?_, ?_⟩ <;> first | rfl | decide
theorem wit_step_issue (b : Bool) :
    let r : StepRun := { id := 1, phases := if b then [] else [phase1] }
    let s := stepDev (some r) 1
    Started s 0 1 2 0x13 (cmd1 (desc 64 2 0x13 0 [(40, 8, 5), (48, 8, 6)]) 1) ∧ (s.part 0).seq.run = some r ∧ r.allIssued = false ∧
      (decide (r.phases.length ≤ r.phase) = b) ∧
      (s.part 0).mir.enable = false := by
  cases b <;> refine ⟨⟨?_, ?_⟩, ?_, ?_, ?_, ?_⟩ <;> first | rfl | decide
theorem wit_step_commit :
    let m : Member := { seq := 3, kind := 2, guide := false, recompute := false, first := 0, count := 1, rows := 1, row0 := 0 }
    let r : StepRun := { id := 1, members := [m], allIssued := true }
    let s := (stepDev (some r) 1).modSeq 0 fun q => { q with table := [(3, { state := .inStep, kind := 1, rows := 1 })] }
    let c := cmd1 (desc 64 2 0x13 0 [(40, 8, 5), (48, 8, 6)]) 1
    Started s 0 1 2 0x13 c ∧ (s.part 0).seq.run = some r ∧ s.callsOver 0 r = true ∧ r.failed = none ∧ r.snuffed = false ∧
      (s.part 0).mir.enable = false ∧ s.readEntries 0 c.wm [3] = (s, none) ∧ s.readBlocks 0 3 c.wm {} = (s, {}) ∧
      (s.seqEntry 0 3).step + 1 ≠ (s.seqEntry 0 3).target ∧ r.refused = none ∧ r.drops.any = false := by
  refine ⟨⟨?_, ?_⟩, ?_, ?_, ?_, ?_, ?_, ?_, readBlocks_clean _ _ _ _ rfl rfl rfl, ?_, ?_, ?_⟩ <;> first | rfl | decide
theorem wit_step_snuffed :
    let r : StepRun := { id := 1, snuffed := true }
    Started (stepDev (some r) 1) 0 1 2 0x13 (cmd1 (desc 64 2 0x13 0 [(40, 8, 5), (48, 8, 6)]) 1) ∧ ((stepDev (some r) 1).part 0).seq.run = some r ∧
      (stepDev (some r) 1).callsOver 0 r = true := by
  refine ⟨⟨?_, ?_⟩, ?_, ?_⟩ <;> rfl
theorem wit_step_failed (n : Nat) :
    let r : StepRun := { id := 1, failed := some (0, 3, Cause.poison), drop1 := n }
    Started (stepDev (some r) 1) 0 1 2 0x13 (cmd1 (desc 64 2 0x13 0 [(40, 8, 5), (48, 8, 6)]) 1) ∧ ((stepDev (some r) 1).part 0).seq.run = some r ∧
      (stepDev (some r) 1).callsOver 0 r = true ∧ r.snuffed = false ∧ (n = 0 → r.drops.any = false) := by
  refine ⟨⟨?_, ?_⟩, ?_, ?_, ?_, ?_⟩ <;> first | rfl | (rintro rfl; rfl)
/-- A STREAM_CHUNK of operation `op` over streams 6 and 7, the last two of the partition. -/
def chunk (op : Nat) : List Byte := desc 128 2 0x16 1 [(35, 1, op), (38, 2, 6), (40, 2, 2), (48, 8, 5)]
/-- The partition with those streams in state `st`. -/
def chunkDev (op : Nat) (st : StreamState) (bs : List Byte := []) : State :=
  runP (chunk op) (fun x => { x with str := { table := [(6, { state := st, stateWords := 1, stateRef := 5 }), (7, { state := st, stateWords := 1, stateRef := 5 })] } }) bs
theorem wit_chunk_reset : ChunkTurn (chunkDev 2 .broken) 0 1 2 (cmd1 (chunk 2)) Stream.open' false := by
  refine ⟨⟨?_, ?_⟩, ?_, ?_, ?_, ?_, ?_, ?_⟩ <;> first | rfl | decide
theorem wit_chunk_clear : ChunkTurn (chunkDev 3 .broken) 0 1 3 (cmd1 (chunk 3)) (·.state == .broken) false := by
  refine ⟨⟨?_, ?_⟩, ?_, ?_, ?_, ?_, ?_, ?_⟩ <;> first | rfl | decide
theorem wit_chunk_close : ChunkTurn (chunkDev 4 .live) 0 1 4 (cmd1 (chunk 4)) (fun x => x.state != .empty) true := by
  refine ⟨⟨?_, ?_⟩, ?_, ?_, ?_, ?_, ?_, ?_⟩ <;> first | rfl | decide
/-- An image of a stream of one word in object 5. -/
def streamImage : List Byte := desc 64 0 0 0 [(4, 2, 1), (8, 8, 5)]
set_option maxRecDepth 8000 in
theorem wit_chunk_open :
    let s := chunkDev 0 .empty streamImage
    let c := cmd1 (chunk 0)
    let rd := s.peekO 0 (c.ref 48) 64
    let img := Stream.ofBytes rd.bytes .live
    ChunkTurn s 0 1 0 c (·.state == .empty) false ∧ rd.fault = none ∧ fieldAt rd.bytes 37 1 = 0 ∧ bitsOf (fieldAt rd.bytes 0 4) 0 7 = 0 ∧
      bitsOf (fieldAt rd.bytes 0 4) 9 23 = 0 ∧ fieldAt rd.bytes 6 2 = 0 ∧ zeroAt rd.bytes 24 8 = true ∧ zeroAt rd.bytes 38 26 = true ∧
      img.stateWords.toNat = 1 ∧ ∀ k ∈ c.chunkIds, s.streamRangesOk 0 (chunkEntry img (c.fld 44 4) (k - c.fld 38 2) true (s.stream 0 k)) = true := by
  refine ⟨⟨⟨?_, ?_⟩, ?_, ?_, ?_, ?_, ?_, ?_⟩, ?_, ?_, ?_, ?_, ?_, ?_, ?_, ?_, ?_⟩ <;> first | rfl | decide
set_option maxRecDepth 8000 in
theorem wit_chunk_update :
    let s := chunkDev 1 .live streamImage
    let c := cmd1 (chunk 1)
    let rd := s.peekO 0 (c.ref 48) 64
    ChunkTurn s 0 1 1 c Stream.open' true ∧ rd.fault = none ∧ fieldAt rd.bytes 37 1 = 0 ∧
      ∀ k ∈ c.chunkIds, s.streamRangesOk 0 (chunkEntry (Stream.ofBytes rd.bytes .live) (c.fld 44 4) (k - c.fld 38 2) false (s.stream 0 k)) = true := by
  refine ⟨⟨⟨?_, ?_⟩, ?_, ?_, ?_, ?_, ?_, ?_⟩, ?_, ?_, ?_⟩ <;> first | rfl | decide
/-- The partition with a DEFINE set up for H, and object 5. -/
def defDev : State := dev { part0 with obj := { table := [(5, obj0)], defSize := 4096, defAddr := 1048576 } }
theorem wit_obj_define :
    defDev.vfRw 0 = true ∧ (1023#20).toNat < (defDev.part 0).ctl.objCap.toNat ∧ (defDev.object 0 1023).state = .free ∧
      defDev.rangeCheck 0 (Home.ofCode 2) 0 1048576 4096 = (0, 0) ∧
      defDev.behind 0 = false := by refine ⟨?_, ?_, ?_, ?_, ?_⟩ <;> first | rfl | decide
theorem wit_obj_release :
    defDev.vfRw 0 = true ∧ (5#20).toNat < (defDev.part 0).ctl.objCap.toNat ∧ (defDev.object 0 5).state = .present ∧ defDev.movNames 0 5 = false ∧
      defDev.ringObject 0 5 = false ∧ defDev.seqOwns 0 5 = false ∧ defDev.streamObject 0 5 = false ∧ defDev.sessionOwns 0 5 = false ∧
      defDev.behind 0 = false := by
  refine ⟨?_, ?_, ?_, ?_, ?_, ?_, ?_, ?_, ?_⟩ <;> first | rfl | decide
/-- A move of object 5 to byte `a` of home `h`. -/
def mv (op h a : Nat) : List Byte := desc 64 1 op 0 [(36, 1, h), (40, 4, 5), (48, 8, a)]
theorem wit_move :
    let s := runP (mv 0x10 2 1052672) id
    let c := cmd1 (mv 0x10 2 1052672)
    let o := s.object 0 5
    c.movHandle = 5 ∧ s.ringObject 0 5 = false ∧ s.destCheck 0 5 = 0 ∧ s.chunksPending 0 5 = false ∧ o.state = .present ∧
      s.moveBefore 0 c = false ∧ moveHome c o = 0 ∧ s.rangeCheck 0 .h 0 1052672 4096 = (0, 0) ∧ Started s 0 1 1 0x10 c ∧ c.mvDest o ≠ o.src ∧ (c.mvDest o).home = o.src.home ∧
      (c.mvDest o).place = o.src.place ∧ o.src.addr.toNat + o.size.toNat ≤ (c.mvDest o).addr.toNat := by
  refine ⟨?_, ?_, ?_, ?_, ?_, ?_, ?_, ?_, ⟨?_, ?_⟩, ?_, ?_, ?_, ?_⟩ <;> first | rfl | decide
theorem wit_move_same :
    let s := runP (mv 0x10 2 1048576) id
    let c := cmd1 (mv 0x10 2 1048576)
    Started s 0 1 1 0x10 c ∧ c.mvDest (s.object 0 5) = (s.object 0 5).src ∧ (s.object 0 5).state = .present ∧
      moveHome c (s.object 0 5) = 0 ∧ s.rangeCheck 0 .h 0 1048576 4096 = (0, 0) := by refine ⟨⟨?_, ?_⟩, ?_, ?_, ?_, ?_⟩ <;> rfl
/-- The object swapped out of the Hamper, with an automatic SWAP_IN due. -/
def swapObj : Obj := { obj0 with originValid := true, origin := { home := .c } }
theorem wit_auto_swap :
    let a : AutoSwap := { handle := 5, waymark := 1, ctx := 0, ring := 0, tok := 0 }
    let s := dev { part0 with obj := { table := [(5, swapObj)] }, str := { swaps := [a] } }
    (s.part 0).str.swaps.find? (·.handle == 5) = some a ∧ a.move = none ∧ (s.part 0).ctl.state = .running ∧ (s.part 0).vf.flr = 0 ∧
      s.movRunning 0 = 0 ∧ (s.object 0 5).state = .present ∧ (s.object 0 5).src.home.near = false ∧ (s.object 0 5).originValid = true ∧
      (s.object 0 5).origin.home = .c ∧ s.ringObject 0 5 = false ∧ s.destCheck 0 5 = 0 ∧ (s.part 0).cmd.cmds = [] ∧
      s.rangeCheck 0 .c 0 0 4096 = (0, 0) := by
  refine ⟨?_, ?_, ?_, ?_, ?_, ?_, ?_, ?_, ?_, ?_, ?_, ?_, ?_⟩ <;> rfl
theorem wit_commit :
    let o : Obj := { obj0 with state := .moving, size := 64, dst := { home := .l } }
    let s := (run (mv 0x13 3 0) 2).modObjs 0 fun y => { y with table := [(5, o)] }
    let c := cmd1 (mv 0x13 3 0) 2
    s.cmd? 0 1 = some c ∧ c.movHandle = 5 ∧ s.object 0 5 = o ∧ c.engine = 1 ∧ c.op = 0x13 ∧ s.stoppedAt 0 o.src 0 64 = false ∧
      s.stoppedAt 0 o.dst 0 64 = false ∧ s.destFailed 0 o = none ∧ (s.copyLines 0 o 1).2 = none ∧ s.chunksPending 0 5 = false ∧
      BarsQuiet s 0 ∧ (s.part 0).evt.buffer = [] := by
  refine ⟨?_, ?_, ?_, ?_, ?_, ?_, ?_, ?_, ?_, ?_, ?_, ?_⟩ <;> first | rfl | decide
theorem wit_fill :
    let d := desc 64 1 0x14 0 [(36, 4, 5), (48, 8, 64)]
    let s := runP d id
    (s.object 0 (cmd1 d).movHandle).state ≠ .moving ∧ s.stoppedAt 0 (s.object 0 (cmd1 d).movHandle).src ((cmd1 d).fld 40 8) ((cmd1 d).fld 48 8) = false ∧
      Started s 0 1 1 0x14 (cmd1 d) := by refine ⟨?_, ?_, ⟨?_, ?_⟩⟩ <;> first | rfl | decide
theorem wit_scrub (b : Fin 2) :
    let d := desc 64 1 0x15 0 [(35, 1, b.val), (36, 4, 5), (48, 8, 64)]
    let s := runP d id
    (s.object 0 (cmd1 d).movHandle).state = .present ∧ s.stoppedAt 0 (s.object 0 (cmd1 d).movHandle).src ((cmd1 d).fld 40 8) ((cmd1 d).fld 48 8) = false ∧
      Started s 0 1 1 0x15 (cmd1 d) ∧ (cmd1 d).mvForce = decide (b = 1) := by
  match b with
  | 0 => refine ⟨?_, ?_, ⟨?_, ?_⟩, ?_⟩ <;> rfl
  | 1 => refine ⟨?_, ?_, ⟨?_, ?_⟩, ?_⟩ <;> rfl
/-- A channel as it stands after start-up, in a state. -/
def chanDev (k : Nat) (st : ChanState) : State := { dev part0 with mem := { chans := [(k, { Chan.reset k with state := st })] } }
theorem wit_patrol : (chanDev 255 .ready).patrolOn 255 = true := by rfl
theorem wit_patrol_lpddr : (chanDev 319 .ready).patrolOn (256 + 63) = true := by rfl
/-- The device with power domains 0 and 80 ON. -/
def domDev : State := { dev part0 with pwr := { stage := .ready, domains := [(0, { state := .on }), (80, { state := .on })] } }
theorem wit_patrol_banks : domDev.clusterPowered 0 = true ∧ domDev.domainOn (80 + 0) = true := by refine ⟨?_, ?_⟩ <;> rfl
theorem wit_poisoned : ({ dev part0 with mem := { poison := [{ space := .hbm, line := 1, seq := 9 }] } } : State).mem.poisonAt .hbm 1 = some 9 := by rfl
theorem wit_ecc_new : (dev part0).mem.poisonAt .hbm 1 = none ∧ (dev part0).ev.pf.state ≠ .running ∧ (dev part0).lineOwner .hbm 1 = some 0 ∧
    ((dev part0).part 0).evt.state ≠ .running := by refine ⟨?_, ?_, ?_, ?_⟩ <;> first | rfl | decide
theorem wit_channel_failed : ((chanDev 319 .failed).chan (chanNo (.lpddr 63))).state = .failed := by rfl
theorem wit_channel_fail : ((chanDev 0 .ready).chan (chanNo (.hbm 0))).state ≠ .failed := by decide
theorem wit_line_failed : ({ chans := [(0, { Chan.reset 0 with state := .failed, failSeq := 3 })] } : Mem).poisonAt .hbm 0 = some 3 ∧
    ({ chans := [(0, { Chan.reset 0 with state := .failed, failSeq := 3 })] } : Mem).chanFailed .hbm 0 = true := by refine ⟨?_, ?_⟩ <;> rfl
theorem wit_line_poisoned : ({ poison := [{ space := .sram, line := 1, seq := 9 }] } : Mem).poisonAt .sram (64 / 64) = some 9 ∧
    ({ poison := [{ space := .sram, line := 1, seq := 9 }] } : Mem).chanFailed .sram 64 = false := by refine ⟨?_, ?_⟩ <;> rfl
theorem wit_line_good : ({} : Mem).poisonAt .lpddr (63 / 64) = none ∧ 63 % 64 + ([1] : List Byte).length ≤ 64 := by refine ⟨?_, ?_⟩ <;> first | rfl | decide

/-- The device with CDC[0] running (or holding) the command of `run`, and the partition's sessions. -/
def cdcDev (d : List Byte) (ss : Tbl Session) (held : Bool := false) : State :=
  { runP d (fun x => { x with ctl := { x.ctl with cdcGrant := 1 }, cdc := { sessions := ss } }) with
    cdcs := [(0, if held then { suspended := some (0, 1) } else { running := some (0, 1) })] }
theorem wit_session_open :
    let d := desc 128 3 0x10 1 []
    CdcTurn (cdcDev d []) 0 1 0x10 (cmd1 d) ∧ (cdcDev d []).openSessions 0 0 < (cdcDev d []).cdcGrant 0 0 := by
  refine ⟨⟨⟨?_, ?_⟩, ?_, ?_⟩, ?_⟩ <;> first | rfl | decide
theorem wit_session_close : CdcTurn (cdcDev (desc 64 3 0x13 0 []) []) 0 1 0x13 (cmd1 (desc 64 3 0x13 0 [])) := by
  refine ⟨⟨?_, ?_⟩, ?_, ?_⟩ <;> rfl
theorem wit_cdc_fault :
    let s := cdcDev (desc 64 3 0x13 0 []) []
    s.cmd? 0 1 = some (cmd1 (desc 64 3 0x13 0 [])) ∧ s.engRuns 0 = some (0, 1) ∧ s.engHolds 0 = none := by refine ⟨?_, ?_, ?_⟩ <;> rfl
theorem wit_resume :
    let s := cdcDev (desc 64 3 0x13 0 []) [] true
    s.cmd? 0 1 = some (cmd1 (desc 64 3 0x13 0 [])) ∧ s.engHolds 0 = some (0, 1) ∧ s.engRuns 0 = none ∧ s.liveWaits 0 = false := by
  refine ⟨?_, ?_, ?_, ?_⟩ <;> rfl
theorem wit_suspend :
    let d := desc 64 3 0x13 0 []
    let s := (cdcDev d [(1, { state := .open', live := true })]).modSys 0 fun y =>
      { y with cmds := y.cmds ++ [{ id := 2, desc := desc 64 3 0x13 0 [(36, 1, 1)], unit := some (.cdc 0), reserved := true }], queues := [(48, [2])] }
    s.cmd? 0 1 = some (cmd1 d) ∧ s.engRuns 0 = some (0, 1) ∧ s.engHolds 0 = none ∧ s.liveWaits 0 = true ∧ s.isLive 0 (cmd1 d) = false := by
  refine ⟨?_, ?_, ?_, ?_, ?_⟩ <;> rfl
theorem peekO_clean (s : State) (p : Nat) (r : ORef) (n : Nat) (h : s.mem.poison = []) (k : s.mem.chans = []) : (s.peekO p r n).fault = none := by
  simp [Rd.fault, State.peekO, peek_clean s p _ _ _ h k]
/-- A session of two buffers of one block. -/
def sess1 : Session := { state := .open', codec := 1, nbuf := 2, width := 64, height := 64, poolRef := 5 }
/-- A DECODE_UNIT with `n` bytes of bits. -/
def dec (n : Nat) : List Byte := desc 128 3 0x11 1 [(40, 4, n), (48, 8, 5), (56, 8, 5)]
theorem wit_place : (cmd1 (dec 0)).engine = 3 ∧ (cmd1 (dec 0)).op = 0x11 := by refine ⟨?_, ?_⟩ <;> rfl
theorem wit_decode_none :
    let s := cdcDev (dec 0) [(0, sess1)]
    CdcTurn s 0 1 0x11 (cmd1 (dec 0)) ∧ (cmd1 (dec 0)).fld 37 1 = 0 ∧ s.poolStopped 0 sess1 = false ∧ s.stoppedO 0 ((cmd1 (dec 0)).ref 48) ((cmd1 (dec 0)).fld 40 4) = false ∧ (cmd1 (dec 0)).fld 40 4 = 0 := by
  refine ⟨⟨⟨?_, ?_⟩, ?_, ?_⟩, ?_, ?_, ?_, ?_⟩ <;> rfl
theorem wit_decode :
    let s := cdcDev (dec 1) [(0, sess1)]
    CdcTurn s 0 1 0x11 (cmd1 (dec 1)) ∧ (cmd1 (dec 1)).fld 37 1 = 0 ∧ s.session 0 0 0 = sess1 ∧ s.poolStopped 0 sess1 = false ∧
      s.stoppedO 0 ((cmd1 (dec 1)).ref 48) ((cmd1 (dec 1)).fld 40 4) = false ∧ s.anyMoving 0 [sess1.pool.1.handle] = false ∧
      (cmd1 (dec 1)).fld 40 4 = 1 ∧ sess1.freeBuf = some 0 ∧ bitOf ((cmd1 (dec 1)).fld 35 1) 1 = false ∧
      (s.peekO 0 ((cmd1 (dec 1)).ref 48) 1).fault = none ∧ ∀ i < sess1.nbuf, (s.peekO 0 (sess1.buf i) sess1.planeBytes).fault = none := by
  refine ⟨⟨⟨?_, ?_⟩, ?_, ?_⟩, ?_, ?_, ?_, ?_, ?_, ?_, ?_, ?_, peekO_clean _ _ _ _ rfl rfl,
    fun i _ => peekO_clean _ _ _ _ rfl rfl⟩ <;> first | rfl | decide
theorem wit_decode_full (k : Fin 2) :
    let x := { sess1 with codec := BitVec.ofNat 2 k.val, marks := [(0, 5), (1, 5)] }
    let s := cdcDev (dec 1) [(0, x)]
    CdcTurn s 0 1 0x11 (cmd1 (dec 1)) ∧ (cmd1 (dec 1)).fld 37 1 = 0 ∧ s.poolStopped 0 x = false ∧
      s.stoppedO 0 ((cmd1 (dec 1)).ref 48) ((cmd1 (dec 1)).fld 40 4) = false ∧ s.anyMoving 0 [x.pool.1.handle] = false ∧ (cmd1 (dec 1)).fld 40 4 ≠ 0 ∧
      x.freeBuf = none ∧ ((List.range x.nbuf).filter fun i => bitsOf (x.mark i) 2 8 != 0) = [0, 1] := by
  match k with
  | 0 => refine ⟨⟨⟨?_, ?_⟩, ?_, ?_⟩, ?_, ?_, ?_, ?_, ?_, ?_, ?_⟩ <;> first | rfl | decide
  | 1 => refine ⟨⟨⟨?_, ?_⟩, ?_, ?_⟩, ?_, ?_, ?_, ?_, ?_, ?_, ?_⟩ <;> first | rfl | decide
set_option maxRecDepth 8000 in
theorem wit_encode (full : Bool) :
    let d := desc 128 3 0x12 1 [(35, 1, 3), (38, 1, 0xFF), (39, 1, 0xFF), (56, 8, 5)]
    let x := { sess1 with encode := true, marks := if full then [(0, 5), (1, 5)] else [] }
    let s := cdcDev d [(0, x)]
    let c := cmd1 d
    let v := (s.countO 0 (c.ref 68) 0).nameSource 0 c
    CdcTurn s 0 1 0x12 c ∧ c.fld 37 1 = 0 ∧ s.anyMoving 0 [(c.ref 56).handle, x.pool.1.handle] = false ∧ s.poolStopped 0 x = false ∧
      s.stoppedO 0 (c.ref 56) (c.fld 64 4) = false ∧ x.encodeOk c [] = true ∧ (v.session 0 c.cdcUnit c.sess).freeBuf = (if full then none else some 0) ∧
      bitOf (c.fld 35 1) 1 = true ∧ (v.peekO 0 (c.ref 48) (32 * x.width * x.height)).fault = none ∧
      [c.fld 38 1, c.fld 39 1].filter (· != 0xFF) = [] := by
  cases full <;> refine ⟨⟨⟨?_, ?_⟩, ?_, ?_⟩, ?_, ?_, ?_, ?_, ?_, ?_, ?_, peekO_clean _ _ _ _ rfl rfl, ?_⟩ <;> first | rfl | decide
/-- A READY device with session 0 of role `r` over transport `t`, and `x` as partition 0. -/
def sessDev (r : Role) (t : Transport) (x : Part) : State :=
  { dev x with sec := { sessions := [(0, some { cred := 0x20, role := r, transport := t, established := true, heartbeat := 1 })] } }
/-- That session. -/
def sess0 (r : Role) (t : Transport) : SpdmSession := { cred := 0x20, role := r, transport := t, established := true, heartbeat := 1 }
/-- Partition 0 in a state. -/
def inState (st : PartState) : Part := { part0 with ctl := { part0.ctl with state := st } }
theorem wit_operator (st : PartState) :
    let s := sessDev .operator .pfDoe (inState st)
    SessionUp s 0 (sess0 .operator .pfDoe) .operator ∧ PageFree s (partPage 0 0) 0 ∧ (s.part 0).vf.flr = 0 ∧ (s.part 0).ctl.state = st ∧
      s.testRuns 0 = false ∧ (s.part 0).mir.state ≠ .standby ∧ (s.part 0).mir.state ≠ .standbyEmpty := by
  have h : (((sessDev .operator .pfDoe (inState st)).part 0).mir.state) = .none := rfl
  refine ⟨⟨?_, ?_, ?_, ?_, ?_⟩, ?_, ?_, ?_, ?_, by rw [h]; decide, by rw [h]; decide⟩
  case refine_6 => intro l h; cases h
  all_goals rfl
set_option maxRecDepth 8000 in
theorem wit_part_commit :
    let x : Part := { vf := { enabled := true }, ctl := { state := .configuring, quads := 1, quadMap := [(0, 79)], seqCap := 64, hamper := [(0, 1)] } }
    let s := sessDev .operator .pfDoe x
    SessionUp s 0 (sess0 .operator .pfDoe) .operator ∧ PageFree s (partPage 0 0) 0 ∧ s.sec.debug = false ∧ (s.commitCheck 0).1 = 0 := by
  refine ⟨⟨?_, ?_, ?_, ?_, ?_⟩, ?_, ?_, ?_⟩
  case refine_6 => intro l h; cases h
  all_goals rfl
theorem wit_part_commit_fails :
    let s := sessDev .operator .pfDoe (inState .configuring)
    s.sec.debug = false ∧ (s.commitCheck 0).1 ≠ 0 := by refine ⟨?_, ?_⟩ <;> first | rfl | decide
theorem wit_part_start_held :
    let s := (sessDev .operator .pfDoe (inState .stopped)).modQuad 0 fun y => { y with state := .selftest }
    let u := sessDev .operator .pfDoe { inState .stopped with mir := { enable := true, standby := true, state := .standby } }
    SessionUp s 0 (sess0 .operator .pfDoe) .operator ∧ PageFree s (partPage 0 0) 0 ∧ (s.part 0).vf.flr = 0 ∧ (s.part 0).ctl.state = .stopped ∧
      s.testRuns 0 = true ∧ SessionUp u 0 (sess0 .operator .pfDoe) .operator ∧ PageFree u (partPage 0 0) 0 ∧ (u.part 0).vf.flr = 0 ∧
      (u.part 0).ctl.state = .stopped ∧ u.testRuns 0 = false ∧ (u.part 0).mir.state = .standby := by
  refine ⟨⟨?_, ?_, ?_, ?_, ?_⟩, ?_, ?_, ?_, ?_, ⟨?_, ?_, ?_, ?_, ?_⟩, ?_, ?_, ?_, ?_, ?_⟩
  case refine_6 => intro l h; cases h
  case refine_15 => intro l h; cases h
  all_goals rfl
theorem wit_drained : ((dev (inState .draining)).part 0).ctl.state = .draining ∧ (dev (inState .draining)).drained 0 = true ∧
    ((dev (inState .draining)).part 0).vf.flr = 0 ∧
      (dev (inState .draining)).journalOk = true := by refine ⟨?_, ?_, ?_, ?_⟩ <;> first | rfl | decide
theorem wit_drain_timeout :
    let s := (run (desc 64 1 Op.wait 0 [])).modCtl 0 fun c => { c with state := .draining }
    (s.part 0).vf.flr = 0 ∧ (s.part 0).ctl.state = .draining ∧ s.drained 0 = false ∧ (s.part 0).ctl.drainTimeout = false := by
  refine ⟨?_, ?_, ?_, ?_⟩ <;> rfl
theorem wit_teardown : ((dev (inState .teardown)).part 0).ctl.state = .teardown ∧ ((dev (inState .teardown)).part 0).vf.flr = 0 ∧
    bitOf ((dev (inState .teardown)).part 0).evt.cfg.toNat 8 = false ∧
      (dev (inState .teardown)).journalOk = true := by
  refine ⟨?_, ?_, ?_, ?_⟩ <;> first | rfl | decide
theorem wit_snapshot :
    let s := sessDev .operator .sideband (inState .draining)
    s.pwr.stage = .ready ∧ PageFree s (partPage 0 3) 0 ∧ (s.part 0).mtr.snap.busy = false ∧ (s.part 0).ctl.state = .draining := by
  refine ⟨?_, ?_, ?_, ?_⟩
  case refine_2 => intro l h; cases h
  all_goals rfl
theorem wit_refill : (dev part0).live 0 = true ∧ (4 : Nat) < 3 + (dev part0).fuse.grade.ports ∧ nth [] ((dev part0).regulator 0 4).queue 0 = [] ∧
    nth false ((dev part0).regulator 0 4).waited 0 = false ∧
      BarsQuiet (dev part0) 0 ∧ ((dev part0).part 0).evt.buffer = [] := by refine ⟨?_, ?_, ?_, ?_, ?_, ?_⟩ <;> first | rfl | decide
theorem wit_serves (p : PartId) (h : p = 0) : (dev part0).serves .sideband = true ∧ (dev part0).serves .pfDoe = true ∧
    (dev part0).serves (.vfDoe p) = true ∧ (dev part0).servesAll = true := by
  subst h
  refine ⟨?_, ?_, ?_, ?_⟩ <;> rfl
theorem wit_not_served (t : Transport) (h : t = .sideband ∨ t = .pfDoe ∨ t = .vfDoe 31) : ({ pwr := { stage := .off } } : State).serves t = false := by
  rcases h with rfl | rfl | rfl <;> rfl
/-- The device with an SPDM connection negotiated on the sideband, and an operator's key in slot 0x23. -/
def spdmDev : State := { dev part0 with
  flash := { creds := [(0x10, [1]), (0x23, [1])] } }.modSpdm .sideband fun x => { x with negotiated := true }
theorem wit_key_exchange :
    spdmDev.serves .sideband = true ∧ (spdmDev.spdm .sideband).negotiated = true ∧ credRole 0x10 = some .installer ∧ spdmDev.credValid 0x10 = true ∧
      spdmDev.sec.sessions = [] ∧ spdmDev.session? 0 = none := by refine ⟨?_, ?_, ?_, ?_, ?_, ?_⟩ <;> rfl
theorem wit_key_exchange_invalid : spdmDev.serves .sideband = true ∧ (spdmDev.spdm .sideband).negotiated = true ∧ credRole 0x20 = some .operator ∧
    spdmDev.credValid 0x20 = false := by refine ⟨?_, ?_, ?_, ?_⟩ <;> rfl
theorem wit_key_exchange_operator :
    let s : State := { spdmDev with flash := { spdmDev.flash with policy := 4 } }
    s.serves .sideband = true ∧ (s.spdm .sideband).negotiated = true ∧ credRole 0x23 = some .operator ∧ s.credValid 0x23 = true ∧ s.credKey 0x10 ≠ [] ∧
      s.servesAll = true ∧ bitOf s.flash.policy.toNat 2 = true ∧ s.sec.sessions = [] ∧ s.session? 0 = none := by
  refine ⟨?_, ?_, ?_, ?_, ?_, ?_, ?_, ?_, ?_⟩ <;> first | rfl | decide
theorem wit_key_exchange_unclaimed :
    let s : State := { spdmDev with flash := { creds := [(0x23, [1])] } }
    s.serves .sideband = true ∧ (s.spdm .sideband).negotiated = true ∧ credRole 0x23 = some .operator ∧ s.credValid 0x23 = true ∧ s.credKey 0x10 = [] := by
  refine ⟨?_, ?_, ?_, ?_, ?_⟩ <;> first | rfl | decide
theorem wit_chunk :
    let s := spdmDev.modSpdm .sideband fun x => { x with chunkHandle := 3, chunkNext := 1, response := [7], respHandle := 2, respNext := 0 }
    s.serves .sideband = true ∧ (1 : W16) ≠ 0 ∧ (3 : Byte) = (s.spdm .sideband).chunkHandle ∧ (1 : W16) = (s.spdm .sideband).chunkNext ∧
      (2 : W16) ≠ (s.spdm .sideband).chunkNext ∧ (s.spdm .sideband).response ≠ [] ∧
      s.chunkFits .sideband 0 [1] = true ∧ s.chunkFits .sideband 1 [1] = true ∧ vfMailbox .sideband = false ∧ s.chunkFits (.vfDoe 0) 0 [1] = false := by
  refine ⟨?_, ?_, ?_, ?_, ?_, ?_, ?_, ?_, ?_, ?_⟩ <;> first | rfl | decide
theorem wit_finish :
    let x := { sess0 .operator .sideband with cred := 0x23, established := false }
    let s := { spdmDev with sec := { spdmDev.sec with sessions := [(7, some x)] } }
    s.serves .sideband = true ∧ s.session? 7 = some x ∧ x.established = false ∧ s.credValid x.cred = true := by refine ⟨?_, ?_, ?_, ?_⟩ <;> rfl
theorem wit_open : (sessDev .operator .sideband part0).open? 0 = some (sess0 .operator .sideband) ∧ (sess0 .operator .sideband).heartbeat ≠ 0 ∧
    (sessDev .operator .sideband part0).serves .sideband = true := by refine ⟨?_, ?_, ?_⟩ <;> first | rfl | decide
theorem wit_claim : (dev part0).journalOk = true ∧ (dev part0).servesAll = true ∧ (dev part0).serves .sideband = true ∧ (dev part0).sec.lockedOut = false ∧
    (dev part0).credKey 0x10 = [] ∧ (List.replicate 1312 (0 : Byte)).length = 1312 := by refine ⟨?_, ?_, ?_, ?_, ?_, List.length_replicate ..⟩ <;> rfl
theorem wit_claimed : spdmDev.journalOk = true ∧ spdmDev.credKey 0x10 ≠ [] := by refine ⟨?_, ?_⟩ <;> first | rfl | decide
theorem wit_installer :
    let s := sessDev .installer .sideband {}
    s.journalOk = true ∧ s.servesAll = true ∧ s.open? 0 = some (sess0 .installer .sideband) ∧ s.serves .sideband = true ∧ s.allEmpty = true ∧
      bitOf s.flash.policy.toNat 3 = false := by refine ⟨?_, ?_, ?_, ?_, ?_, ?_⟩ <;> rfl
theorem wit_maker :
    let s := { sessDev .maker .sideband {} with sec := { (sessDev .maker .sideband {}).sec with consent := some 5 } }
    s.journalOk = true ∧ s.open? 0 = some (sess0 .maker .sideband) ∧ s.sec.consent = some 5 ∧ s.allEmpty = true := by
  refine ⟨?_, ?_, ?_, ?_⟩ <;> rfl
theorem wit_owner_other :
    (let s := sessDev .operator .sideband {};
      s.journalOk = true ∧ s.servesAll = true ∧ s.open? 0 = some (sess0 .operator .sideband) ∧ s.serves .sideband = true ∧
        bitOf s.flash.policy.toNat 1 = false ∧ bitOf ({ s.flash with policy := 2 } : Flash).policy.toNat 1 = true) ∧
    (sessDev .installer .sideband part0).allEmpty = false ∧ ({ dev part0 with sec := { lockedOut := true } } : State).sec.lockedOut = true ∧
    ({ dev part0 with sec := { lockedOut := true } } : State).journalOk = true ∧ (sess0 .maker .pfDoe).transport ≠ .sideband ∧
    bitOf ({ policy := 8 } : Flash).policy.toNat 3 = true := by
  refine ⟨⟨?_, ?_, ?_, ?_, ?_, ?_⟩, ?_, ?_, ?_, ?_, ?_⟩ <;> first | rfl | decide
/-- A session of the installer with a stage in progress, and a valid inactive image. -/
def fwDev (st : Option (Nat × List Byte)) (x : Part) : State :=
  let s := sessDev .installer .sideband x
  { s with sec := { s.sec with staging := st }, flash := { imageB := { valid := true }, fusedSvn := 2 } }
theorem wit_fw (st : Option (Nat × List Byte)) (x : Part) (h : x = {} ∨ x = part0) :
    SessionUp (fwDev st x) 0 (sess0 .installer .sideband) .installer ∧ (fwDev st x).sec.staging = st ∧ (fwDev st x).flash.fusedSvn = 2 ∧
      (fwDev st x).flash.inactive.valid = true := by
  rcases h with rfl | rfl <;> refine ⟨⟨?_, ?_, ?_, ?_, ?_⟩, ?_, ?_, ?_⟩ <;> rfl
theorem wit_fw_empty : (fwDev none {}).allEmpty = true ∧ (fwDev none part0).allEmpty = false := by refine ⟨?_, ?_⟩ <;> rfl
theorem wit_fw_form (b r : Bool) (bs : List Byte) (hb : bs.length = 6516) :
    let h : ImageHead := { slot1 := b }
    let n := h.bodyLen.getD (([] ++ bs).length - imageSize 0)
    let s := { fwDev (some (0, [])) {} with fuse := { revoked := r } }
    h.magicOk = true ∧ n ≤ 65011712 ∧ ([] ++ bs).length = imageSize n ∧ SessionUp s 0 (sess0 .installer .sideband) .installer ∧
      s.sec.staging = some (0, []) ∧ s.fuse.revoked = r ∧ h.slot1 = b ∧ s.flash.fusedSvn.toNat ≤ (2 : BitVec 6).toNat ∧
      (1 : BitVec 6).toNat < s.flash.fusedSvn.toNat := by
  refine ⟨rfl, ?_, ?_, ⟨rfl, rfl, rfl, rfl, rfl⟩, rfl, rfl, rfl, Nat.le_refl 2, Nat.lt_succ_self 1⟩ <;> simp [hb, imageSize]
theorem wit_fw_image : ∃ bs : List Byte, bs.length = 6516 := ⟨List.replicate 6516 0, List.length_replicate ..⟩
theorem wit_fw_bad_form : ¬ (({ magicOk := false } : ImageHead).magicOk = true) := by decide
theorem wit_tdisp :
    let s := sessDev .operator .pfDoe part0
    s.servesAll = true ∧ s.open? 0 = some (sess0 .operator .pfDoe) ∧ s.serves .pfDoe = true := by refine ⟨?_, ?_, ?_⟩ <;> rfl
theorem wit_tdisp_refused :
    let s := sessDev .installer .pfDoe part0
    s.servesAll = true ∧ s.open? 0 = some (sess0 .installer .pfDoe) ∧ s.serves .pfDoe = true ∧ (sess0 .installer .pfDoe).role ≠ .operator := by
  refine ⟨?_, ?_, ?_, ?_⟩ <;> first | rfl | decide

theorem page_free (s : State) (k sid : Nat) (h : (s.pfHdr k).lock = none) : PageFree s k sid := by
  intro l hl; rw [h] at hl; cases hl
theorem wit_write_ignored :
    let s := sessDev .operator .pfDoe part0
    SessionUp s 0 (sess0 .operator .pfDoe) .operator ∧ ∃ g r i b, (0x1040 : W32).toNat % 4 = 0 ∧ s.pfPage ((0x1040 : W32).toNat / 4096) = some g ∧ g.vf = none ∧
      g.find ((0x1040 : W32).toNat % 4096) = some (r, i, b) ∧ r.width ≠ 8 ∧ r.acc.ignores = true := by
  refine ⟨⟨?_, ?_, ?_, ?_, ?_⟩, _, _, _, _, ?_, rfl, ?_, rfl, ?_, ?_⟩ <;> first | rfl | decide
theorem wit_write :
    let s := sessDev .operator .pfDoe part0
    let e : WEnv := { who := (sess0 .operator .pfDoe).writer, sid := some 0 }
    SessionUp s 0 (sess0 .operator .pfDoe) .operator ∧ ∃ g r i b, (0x1054 : W32).toNat % 4 = 0 ∧ s.pfPage ((0x1054 : W32).toNat / 4096) = some g ∧ g.vf = none ∧
      g.find ((0x1054 : W32).toNat % 4096) = some (r, i, b) ∧ r.width ≠ 8 ∧ r.acc.ignores = false ∧ g.heldFrom s (some 0) = false ∧
      g.owner &&& ownerBit Role.operator.code ≠ 0 ∧ r.owner &&& ownerBit Role.operator.code ≠ 0 ∧ r.ownEntry = false ∧
      (r.set e i (600 : W32).toNat s).cause = 0 ∧ (r.set e i (850 : W32).toNat s).cause = 0 ∧
      r.absent i s = false := by
  refine ⟨⟨?_, ?_, ?_, ?_, ?_⟩, _, _, _, _, ?_, rfl, ?_, rfl, ?_, ?_, ?_, ?_, ?_, ?_, ?_, ?_, ?_⟩ <;> first | rfl | decide
theorem wit_write_denied :
    let s := sessDev .maker .pfDoe part0
    SessionUp s 0 (sess0 .maker .pfDoe) .maker ∧ ∃ g r i b, (0x1054 : W32).toNat % 4 = 0 ∧ s.pfPage ((0x1054 : W32).toNat / 4096) = some g ∧ g.vf = none ∧
      g.find ((0x1054 : W32).toNat % 4096) = some (r, i, b) ∧ r.width ≠ 8 ∧ r.acc.ignores = false ∧ g.owner &&& ownerBit Role.maker.code = 0 ∧
      r.absent i s = false := by
  refine ⟨⟨?_, ?_, ?_, ?_, ?_⟩, _, _, _, _, ?_, rfl, ?_, rfl, ?_, ?_, ?_, ?_⟩ <;> first | rfl | decide
set_option maxRecDepth 8000 in
theorem wit_write_absent :
    let s := { sessDev .operator .pfDoe part0 with fuse := { grade := .se720a } }
    let off : W32 := 0x102070
    SessionUp s 0 (sess0 .operator .pfDoe) .operator ∧ ∃ g r i b, off.toNat % 4 = 0 ∧ s.pfPage (off.toNat / 4096) = some g ∧ g.vf = none ∧
      g.find (off.toNat % 4096) = some (r, i, b) ∧ r.width ≠ 8 ∧ r.absent i s = true := by
  refine ⟨⟨?_, ?_, ?_, ?_, ?_⟩, _, _, _, _, ?_, rfl, ?_, rfl, ?_, ?_⟩ <;> first | rfl | decide
theorem wit_write_rc (b : Bool) :
    let role : Role := if b then .operator else .maker
    let s := sessDev role .pfDoe part0
    SessionUp s 0 (sess0 role .pfDoe) role ∧ ∃ g r i b', (0x1078 : W32).toNat % 4 = 0 ∧ s.pfPage ((0x1078 : W32).toNat / 4096) = some g ∧ g.vf = none ∧
      g.find ((0x1078 : W32).toNat % 4096) = some (r, i, b') ∧ r.width ≠ 8 ∧ r.acc = .rc ∧ g.heldFrom s (some 0) = false ∧
      (g.owner &&& ownerBit role.code ≠ 0 ∧ r.owner &&& ownerBit role.code ≠ 0 ↔ b = true) ∧
      r.absent i s = false := by
  cases b <;> refine ⟨⟨?_, ?_, ?_, ?_, ?_⟩, _, _, _, _, ?_, rfl, ?_, rfl, ?_, ?_, ?_, ?_, ?_⟩ <;> first | rfl | decide
theorem wit_write_no_session :
    (dev part0).servesAll = true ∧ (dev part0).open? 0 = none ∧ ((dev part0).pfPage ((0x1054 : W32).toNat / 4096)).isSome = true := by
  refine ⟨?_, ?_, ?_⟩ <;> rfl
theorem wit_read_vf :
    ∃ g r, vfPage 0 ((0x0 : W32).toNat / 4096) = some g ∧ g.find ((0x0 : W32).toNat % 4096) = some (r, 0, 0) ∧ r.width = 4 ∧
      ((dev part0).mmio 0).vfReads 0 0 = true := by
  refine ⟨_, _, rfl, rfl, ?_, ?_⟩ <;> rfl
theorem wit_read :
    let s := sessDev .operator .pfDoe part0
    s.servesAll = true ∧ s.open? 0 = some (sess0 .operator .pfDoe) ∧ s.serves .pfDoe = true ∧ s.hostUp = true ∧
      ∃ g r, s.pfPage ((0x1078 : W32).toNat / 4096) = some g ∧ (0x1078 : W32).toNat % 4 = 0 ∧ g.find ((0x1078 : W32).toNat % 4096) = some (r, 0, 0) ∧
        r.width = 4 ∧ r.acc = .rc := by
  refine ⟨?_, ?_, ?_, ?_, _, _, rfl, ?_, rfl, ?_, ?_⟩ <;> rfl
theorem wit_read_odd : (0x1079 : W32).toNat / 4096 = (0x1078 : W32).toNat / 4096 ∧ (0x1079 : W32).toNat % 4 ≠ 0 := by decide
theorem wit_mmio :
    let s := dev (inState .draining)
    s.hostUp = true ∧ (s.pfPage ((0x1054 : W32).toNat / 4096)).isSome = true ∧ (0x1054 : W32).toNat / 4096 ≠ 0xFE ∧ (0x1054 : W32).toNat / 4096 ≠ 0xFF ∧
      (0x3D000 : W32).toNat / 4096 ≠ 0x3E ∧ (State.vfRw s 1) = false ∧ (0x3E000 : W32).toNat / 4096 = 0x3E ∧
      s.behind 0 = false ∧ s.behind 1 = false := by
  refine ⟨?_, ?_, ?_, ?_, ?_, ?_, ?_, ?_, ?_⟩ <;> first | rfl | decide
theorem wit_lock :
    let s := sessDev .operator .pfDoe part0
    SessionUp s 0 (sess0 .operator .pfDoe) .operator ∧ ∃ g, s.pfPage ((0x1000 : W32).toNat / 4096) = some g ∧ g.vf = none ∧ g.num = (0x1000 : W32).toNat / 4096 ∧
      g.owner &&& ownerBit Role.operator.code ≠ 0 ∧ g.lockable = true ∧ (0x1000 : W32).toNat / 4096 < 2 ^ 19 ∧ (s.pfHdr g.num).lock = none := by
  refine ⟨⟨?_, ?_, ?_, ?_, ?_⟩, _, rfl, ?_, ?_, ?_, ?_, ?_, ?_⟩ <;> first | rfl | decide
theorem wit_evt (k : W32) (h : k = 6 ∨ k = 16) :
    let s := dev { part0 with evt := { cfg := k } }
    s.vfOpen 0 = true ∧ ((s.mmio 0).part 0).evt.state = .stopped ∧ (s.mmio 0).evtConfigOk 0 = true ∧
      s.behind 0 = false := by
  rcases h with rfl | rfl <;> refine ⟨?_, ?_, ?_, ?_⟩ <;> first | rfl | decide
theorem wit_pev (e : Bool) :
    let s := { sessDev .operator .pfDoe part0 with ev := { pfEnable := e, pf := { cfg := if e then 6 else 0 } } }
    SessionUp s 0 (sess0 .operator .pfDoe) .operator ∧ PageFree s 4 0 ∧ s.ev.pfEnable = e := by
  refine ⟨⟨?_, ?_, ?_, ?_, ?_⟩, page_free _ _ _ ?_, ?_⟩ <;> rfl
theorem wit_pev_on : bitOf (0x80000010 : W32).toNat 31 = true ∧ bitsOf (0x80000010 : W32).toNat 0 5 = 16 ∧ bitsOf (0x80000006 : W32).toNat 0 5 = 6 ∧
    bitOf (6 : W32).toNat 31 = false ∧ (6 : W32).toNat = bitsOf (6 : W32).toNat 0 5 + 1024 * bitsOf (6 : W32).toNat 10 2 := by decide
/-- The device of the operator's registers: an address retired, a quad of no partition, the first virtual port enabled. -/
def regDev (v : VPort) : State :=
  { sessDev .operator .pfDoe { part0 with net := { vports := [(63, v)] } } with flash := { retired := [(.h, 0)] }, hst := { link := .up, hdmGib := 512 } }
/-- VP_CTRL of VLAN 0 and MTU 576. -/
def vpWord : W32 := 576
theorem wit_ret_page :
    let s := regDev {}
    SessionUp s 0 (sess0 .operator .pfDoe) .operator ∧ PageFree s 0x2052 0 ∧ bitsOf (0x8000000000000000 : W64).toNat 62 2 = 2 ∧
      (Home.h, (0 : W32)) ∈ s.flash.retired ∧ (Home.h, (1 : W32)) ∉ s.flash.retired ∧ s.flash.retired.length < 4096 := by
  refine ⟨⟨?_, ?_, ?_, ?_, ?_⟩, page_free _ _ _ ?_, ?_, ?_, ?_, ?_⟩ <;> first | rfl | decide
theorem wit_vport_enable :
    let s := regDev {}
    let y : VPort := { s.vport 0 63 with enable := true, pcp := BitVec.ofNat 3 (bitsOf vpWord.toNat 28 3), vid := BitVec.ofNat 12 (bitsOf vpWord.toNat 16 12), mtu := BitVec.ofNat 14 vpWord.toNat }
    PageFree s (partPage 0 4) 0 ∧ s.fuse.grade.ports ≠ 0 ∧ s.tdiHeld 0 = false ∧ bitsOf vpWord.toNat 0 14 = 576 ∧ bitsOf (9194 : W32).toNat 0 14 = 9194 ∧
      (s.vport 0 63).enable = false ∧ s.vportCount (vportPort 63) = 0 ∧ s.vportConflict (vportPort 63) 0 63 y = false := by
  refine ⟨page_free _ _ _ ?_, ?_, ?_, ?_, ?_, ?_, ?_, ?_⟩ <;> first | rfl | decide
theorem wit_vport_disable :
    let s := regDev { enable := true, mtu := 576 }
    let y : VPort := { s.vport 0 63 with enable := true, pcp := BitVec.ofNat 3 (bitsOf vpWord.toNat 28 3), vid := BitVec.ofNat 12 (bitsOf vpWord.toNat 16 12), mtu := BitVec.ofNat 14 vpWord.toNat }
    (s.vport 0 63).enable = true ∧ y = s.vport 0 63 := by refine ⟨?_, ?_⟩ <;> rfl
theorem wit_st_req :
    let s := regDev {}
    PageFree s 1 0 ∧ (1 : BitVec 7).toNat < s.fuse.grade.quads ∧ s.quadOwner 1 = none ∧ (s.quad 1).pending = false ∧ (s.quad 1).state ≠ .selftest := by
  refine ⟨page_free _ _ _ ?_, ?_, ?_, ?_, ?_⟩ <;> first | rfl | decide
theorem wit_hdm_attr :
    let s := regDev {}
    PageFree s 4 0 ∧ ∀ j < 4, bitsOf (0xFFFFFF00 : W32).toNat (8 * j) 8 = 0xFF ∨ bitsOf (0xFFFFFF00 : W32).toNat (8 * j) 8 < 32 ∧
      (s.part (bitsOf (0xFFFFFF00 : W32).toNat (8 * j) 8)).ctl.state ≠ .empty ∧ 4 * 127 + j < s.hst.hdmGib.toNat :=
  ⟨page_free _ _ _ rfl, by decide⟩
theorem wit_hdm_gib :
    let s := let s := sessDev .installer .sideband part0; { s with pins := { straps := 4 } }
    SessionUp s 0 (sess0 .installer .sideband) .installer ∧ PageFree s 4 0 ∧ (512 : W32).toNat ≤ 512 ∧ s.hst.committed = false ∧ s.pcieOnly = false ∧
      (s.part 0).ctl.lmap = [0] ∧ ((0 : Nat) < 512 - (511 : W32).toNat) := by
  refine ⟨⟨?_, ?_, ?_, ?_, ?_⟩, page_free _ _ _ ?_, ?_, ?_, ?_, ?_, ?_⟩ <;> first | rfl | decide
/-- A RUNNING partition with window 0 of its aperture at handle `h`, object 5 in state `st`. -/
def aprDev (on : Bool) (h : Nat) (st : ObjState) : State := dev { part0 with
  vf := { enabled := true, aprWin := [(0, BitVec.ofNat 64 (h + if on then 2 ^ 31 else 0))] }
  obj := { table := [(5, { obj0 with state := st })] } }
theorem wit_aperture_off : (aprDev false 5 .present).vfRw 0 = true ∧ (aprDev false 5 .present).vfOpen 0 = true ∧
    ((aprDev false 5 .present).countHost 0 4 true).aperture 0 0 4 false = .disabled := by refine ⟨?_, ?_, ?_⟩ <;> rfl
theorem wit_aperture_range : ((aprDev true 6 .present).countHost 0 4 true).aperture 0 0 4 false = .range 0 := by rfl
theorem wit_aperture :
    let u := (aprDev true 5 .present).countHost 0 4 true
    u.aperture 0 0 4 false = .at ⟨5, 0⟩ ∧ u.stoppedO 0 ⟨5, 0⟩ 4 = false ∧ (u.peekO 0 ⟨5, 0⟩ 4).poison = none ∧
      u.aperture 0 0 4 true = .at ⟨5, 0⟩ ∧ (u.object 0 5).state = .present ∧ u.behind 0 = false :=
  ⟨rfl, rfl, peek_clean _ _ _ _ _ rfl rfl, rfl, rfl, rfl⟩
theorem wit_aperture_held (b : Bool) :
    let u := ((aprDev true 5 .moving).modVf 0 fun v => { v with aprHeld := if b then [5] else [] }).countHost 0 4 true
    u.aperture 0 0 4 true = .at ⟨5, 0⟩ ∧ (u.object 0 5).state = .moving ∧ (u.part 0).vf.later = [] ∧ (∀ h ∈ (u.part 0).vf.aprHeld, h = 5) := by
  cases b <;> exact ⟨rfl, rfl, rfl, by decide⟩
theorem wit_host_timeout :
    let s := devCmd { rings := [(15, ring0 .fetching 0 1)] }
    s.fetches 0 = true ∧ (s.ring 0 15).inDevice = false ∧ s.ringReady 0 15 = true := by refine ⟨?_, ?_, ?_⟩ <;> rfl
theorem wit_flr : ((dev part0).part 0).vf.enabled = true ∧ ((dev part0).part 0).vf.flr = 0 ∧ ((dev part0).part 0).ctl.state = .running := by
  refine ⟨?_, ?_, ?_⟩ <;> rfl
theorem wit_flr_step :
    let s := (run (desc 64 1 Op.wait 0 [])).modVf 0 fun v => { v with flr := 2 }
    (s.part 0).vf.flr = 2 ∧ (s.part 0).cmd.cmds ≠ [] := by refine ⟨?_, ?_⟩ <;> first | rfl | decide
theorem wit_flr_done :
    let s := (dev part0).modVf 0 fun v => { v with flr := 2 }
    (s.part 0).vf.flr = 2 ∧ (s.part 0).cmd.cmds = [] ∧ (s.part 0).vf.heldCmds = [] := by refine ⟨?_, ?_, ?_⟩ <;> rfl
/-- A device with 1 GiB exposed to the host, in memory mode. -/
def hdmDev (c : Bool) : State := { dev part0 with pins := { straps := 4 }, hst := { link := .up, hdmGib := 1, committed := c } }
theorem wit_hdm_commit : (hdmDev false).hst.committed = false ∧ (hdmDev false).pcieOnly = false ∧ (hdmDev false).hst.hdmGib ≠ 0 := by
  refine ⟨?_, ?_, ?_⟩ <;> first | rfl | decide
theorem wit_hdm_outside : sliceLines * (hdmDev true).hst.hdmGib.toNat = sliceLines := by rfl
theorem wit_hdm_access (l : Nat) (h : l = 0 ∨ l = sliceLines - 1) :
    let s := hdmDev true
    let a := gib * (512 - s.hst.hdmGib.toNat) + 64 * l
    s.hst.committed = true ∧ l < sliceLines * s.hst.hdmGib.toNat ∧ (s.die (dieOf (256 + lpddrChannel a))).cryptoFailed = false ∧
      s.mem.poisonAt .lpddr (a / 64) = none := by
  rcases h with rfl | rfl <;> refine ⟨?_, ?_, ?_, ?_⟩ <;> first | rfl | decide

theorem wit_link (k : HostConfig) :
    let s : State := { dev part0 with pins := { perstN := true, resetN := true, straps := 4 }, hst := {} }
    (dev part0).pins.pwrGood = true ∧ (dev part0).hst.link ≠ .down ∧ s.pins.pwrGood = true ∧ s.pins.perstN = true ∧ s.pins.resetN = true ∧
      s.hostUp = false ∧ s.rateOk 4 2 = true ∧ s.rateOk 1 1 = true ∧ k = k := by
  refine ⟨?_, ?_, ?_, ?_, ?_, ?_, ?_, ?_, ?_⟩ <;> first | rfl | decide
theorem wit_ide :
    let y : IdeStream := { fn := some 0, ranges := [], secure := true }
    let s := { dev part0 with hst := { link := .up, ideLink := true, ideSel := [(31, some y)] } }
    s.hst.ideLink = true ∧ tget none s.hst.ideSel (31 : Fin 32).val = some y ∧ y.secure = true ∧ y.fn = some 0 := by refine ⟨?_, ?_, ?_, ?_⟩ <;> rfl
/-- A NET command started, virtual port 0 enabled with addresses, port 0 up, and a peer entry in object 5. -/
def netDev (d : List Byte) (f : NetPart → NetPart := id) : State :=
  let s := runP d fun x => { x with
    net := f { vports := [(0, { enable := true, macLo := 2, ipv4 := 0x0A000001 })] },
    cdc := { sessions := [(0, { state := .open', encode := true })] } }
  { s with nets := [(0, { enable := true, link := .up })], mem := { hbm := [(1048576, 2), (1048584, 10)] } }
theorem wit_send (raw : Bool) :
    let d := desc 64 4 0x10 0 [(35, 1, if raw then 1 else 0), (44, 4, 64), (48, 8, 5), (56, 8, 5)]
    let s := netDev d
    let c := cmd1 d
    Started s 0 1 4 0x10 c ∧ c.id = 1 ∧ s.stoppedO 0 (c.ref 48) (c.fld 44 4) = false ∧ (s.port c.netPort).link = .up ∧ s.vportOk 0 c.vp c.netPort = true ∧
      bitOf (c.fld 35 1) 0 = raw ∧ bitOf (c.fld 35 1) 1 = false ∧ (s.peekO 0 (c.ref 48) (c.fld 44 4)).fault = none ∧
      (s.peekO 0 (c.ref 56) 32).fault = none ∧ peerOk (s.peekO 0 (c.ref 56) 32).bytes false = true ∧ noAddr ((s.vport 0 0).source false 0) = false := by
  cases raw <;> refine ⟨⟨?_, ?_⟩, ?_, ?_, ?_, ?_, ?_, ?_, peekO_clean _ _ _ _ rfl rfl, peekO_clean _ _ _ _ rfl rfl, ?_, ?_⟩ <;> rfl
theorem wit_recv :
    let d := desc 64 4 0x11 0 []
    let s := netDev d
    let r : Recv := { id := 1, order := 0, filled := 60 }
    let u := netDev d fun y => { y with recvs := [r] }
    Started s 0 1 4 0x11 (cmd1 d) ∧ s.vportOk 0 (cmd1 d).vp (cmd1 d).netPort = true ∧ (∀ r ∈ (s.part 0).net.recvs, r.id ≠ 1) ∧
      (u.part 0).net.recvs.find? (·.id == 1) = some r ∧ r.filled ≠ 0 := by
  refine ⟨⟨?_, ?_⟩, ?_, ?_, ?_, ?_⟩ <;> first | rfl | decide
theorem wit_rtp_bind :
    let d := desc 64 4 0x12 0 [(56, 8, 5)]
    let s := netDev d
    let c := cmd1 d
    let x := s.session 0 c.rtpSession.1 c.rtpSession.2
    Started s 0 1 4 0x12 c ∧ c.fld 35 1 = 0 ∧ s.binding 0 c.rtpSession.1 c.rtpSession.2 = none ∧ x.state = .open' ∧ x.encode = true ∧ x.ctx = c.ctx ∧
      x.codec ≠ 2 ∧ s.vportOk 0 c.vp c.netPort = true ∧ (s.peekO 0 (c.ref 56) 32).fault = none ∧
      peerOk (s.peekO 0 (c.ref 56) 32).bytes (bitOf (c.fld 39 1) 0) = true := by
  refine ⟨⟨?_, ?_⟩, ?_, ?_, ?_, ?_, ?_, ?_, ?_, peekO_clean _ _ _ _ rfl rfl, ?_⟩ <;> first | rfl | decide
theorem wit_rtp_unbind :
    let d := desc 64 4 0x12 0 [(35, 1, 1)]
    let b : Binding := {
      unit := 0, session := 0, ctx := 0, vport := 0, pt := 96, ipv6 := false, dscp := 0, ssrc := 0, seqNo := 0, srcPort := 0
      tsBase := 0, tsStep := 0, frames := 0, dstMac := [], dstIp := [], dstPort := 0 }
    let s := netDev d fun y => { y with binds := [b] }
    Started s 0 1 4 0x12 (cmd1 d) ∧ (cmd1 d).fld 35 1 = 1 ∧ s.binding 0 (cmd1 d).rtpSession.1 (cmd1 d).rtpSession.2 ≠ none := by
  refine ⟨⟨?_, ?_⟩, ?_, ?_⟩ <;> first | rfl | decide
/-- A frame of 60 zero bytes to `m`. -/
def frameTo (m : Byte) : List Byte := m :: List.replicate 59 0
theorem wit_port :
    let s := netDev []
    (0 : Nat) < s.fuse.grade.ports ∧ (1 : Nat) < s.fuse.grade.ports ∧ (s.port 0).link = .up ∧ (viewFrame (frameTo 0)).etherType ≠ 0x8808 ∧
      (s.port 0).link ≠ .down ∧ (s.port 0).enable = true ∧ (s.port 0).failed = false ∧ (s.port 1).link = .down := by
  refine ⟨?_, ?_, ?_, ?_, ?_, ?_, ?_, ?_⟩ <;> first | rfl | decide
theorem wit_takes : ((netDev []).vportsOn 0).find? (fun e => ((netDev []).vport e.1 e.2).takes (viewFrame (frameTo 0))) = none ∧
    ((netDev []).vportsOn 0).find? (fun e => ((netDev []).vport e.1 e.2).takes (viewFrame (frameTo 2))) = some (0, 0) := by
  refine ⟨?_, ?_⟩ <;> rfl
/-- A fitted module, side A or B, its pair link in a state. -/
def eciDev (b : Bool) (e : Eci) (x : Part := part0) : State := { sessDev .operator .pfDoe x with pins := { straps := if b then 0x1FC else 0x1FD }, eci := e }
theorem wit_flit (l : EciLink) (h : l = .up ∨ l = .retry) :
    let e : Eci := { link := l, retry := [{ seq := 0, bytes := [], tries := 7 }, { seq := 1, bytes := [] }] }
    let s := eciDev false e
    s.eci.carries = true ∧ s.eci.stream = [] ∧ e.retry.length < 1024 ∧
      (∃ f : Flit, f.crcOk = true ∧ f.tagOk = true ∧ f.kind = 1 ∧ f.seq = e.rxNext ∧
        (e.retry.filter fun g => decide (0x8000 ≤ (f.ack - g.seq).toNat)).map (·.seq) = [1]) ∧
      (∃ f : Flit, f.crcOk = true ∧ f.tagOk = true ∧ f.kind ≠ 1 ∧ f.kind ≠ 3) ∧ (∃ f : Flit, (f.crcOk && f.tagOk) = false) ∧
      (∃ f : Flit, f.crcOk = true ∧ f.tagOk = true ∧ f.kind = 3 ∧ f.seq ≠ e.rxNext) := by
  rcases h with rfl | rfl <;>
    refine ⟨rfl, rfl, by decide, ⟨⟨1, 0, 0, [], true, true⟩, ?_⟩, ⟨⟨2, 0, 0, [], true, true⟩, ?_⟩, ⟨⟨1, 0, 0, [], false, true⟩, ?_⟩,
      ⟨⟨3, 1, 0, [], true, true⟩, ?_⟩⟩ <;> decide
theorem wit_nak (t : Nat) (b : Bool) (h : t = 7 ∨ t = 8) :
    let e : Eci := { link := .retry, retry := [{ seq := 3, bytes := [], tries := t }], retrained := b }
    let left (n : W16) : List SentFlit := e.retry.filter fun f => decide (0x8000 ≤ (n - 1 - f.seq).toNat)
    (eciDev false e).eci.carries = true ∧ left 4 = [] ∧ left 3 ≠ [] ∧ (t = 7 → ∀ f ∈ left 3, f.tries < 8) ∧
      (t = 8 → ∃ f ∈ left 3, 8 ≤ f.tries) ∧ e.retrained = b := by
  rcases h with rfl | rfl <;> cases b <;> decide
theorem wit_keepalive_full : 1024 ≤ ({ link := .up, retry := List.replicate 1024 { seq := 0, bytes := [] } } : Eci).retry.length ∧
    ({ link := .up, retry := List.replicate 1024 { seq := 0, bytes := [] } } : Eci).carries = true := ⟨Nat.le_of_eq (List.length_replicate ..).symm, rfl⟩
theorem wit_no_carrier : (eciDev false { link := .training }).eci.carries = false ∧ (eciDev false {}).eci.nonce.toNat < 2 ^ 40 := by
  refine ⟨?_, ?_⟩ <;> first | rfl | decide
theorem wit_renewal : (eciDev false { link := .up, nonce := 2 ^ 40 }).eci.carries = true ∧ 2 ^ 40 ≤ (eciDev false { link := .up, nonce := 2 ^ 40 }).eci.nonce.toNat ∧
      Option.any (eciDev false { link := .up, nonce := 2 ^ 40 }).peerBad none = false ∧ Option.any (eciDev false { link := .up, nonce := 2 ^ 40 }).peerBad (some ⟨7, false⟩) = true := by
  refine ⟨?_, ?_, ?_, ?_⟩ <;> first | rfl | decide
theorem wit_keyx (l : EciLink) (h : l = .training ∨ l = .failed ∨ l = .retry) :
    let e : Eci := { link := l, naked := true }
    let s := { eciDev false e with flash := { peerDigest := some 7 } }
    s.fitted = true ∧ s.pwr.stage = .ready ∧ s.eci.link ≠ .up ∧ s.eci.retrained = false ∧ s.eci.link = l ∧ s.eci.busy = true ∧ s.eci.stream = [] ∧
      (true ≠ s.sideB ∧ s.flash.peerDigest = some 7) ∧ false = s.sideB ∧ ¬ s.flash.peerDigest = some 8 := by
  rcases h with rfl | rfl | rfl <;> refine ⟨?_, ?_, ?_, ?_, ?_, ?_, ?_, ⟨?_, ?_⟩, ?_, ?_⟩ <;> first | rfl | decide
theorem wit_keyx_idle : (dev part0).fitted = false ∧ (eciDev false { link := .up }).eci.link = .up ∧
    (eciDev false { link := .retry, retrained := true }).eci.retrained = true := by refine ⟨?_, ?_, ?_⟩ <;> rfl
/-- A partition with a mirror binding. -/
def mirPart (st : PartState) (m : Mirror) : Part := { inState st with mir := m }
theorem wit_mirror_session (b : Bool) (st : PartState) (m : Mirror) :
    let s := eciDev b { link := .up } (mirPart st m)
    SessionUp s 0 (sess0 .operator .pfDoe) .operator ∧ PageFree s 0x3010 0 ∧ s.fitted = true ∧ s.sideB = b ∧ (s.part 0).mir = m ∧ (s.part 0).ctl.state = st ∧
      s.tdiHeld 0 = false := by
  have h : (eciDev b { link := .up } (mirPart st m)).pins.straps = if b then 0x1FC else 0x1FD := rfl
  cases b <;> refine ⟨⟨?_, ?_, ?_, ?_, ?_⟩, page_free _ _ _ ?_, by rw [State.fitted, h]; rfl, by rw [State.sideB, h]; rfl, ?_, ?_, ?_⟩ <;> rfl
theorem wit_mirror_enable :
    0 < bitsOf (0x01000000 : W32).toNat 24 4 ∧ bitOf (0x01000000 : W32).toNat 30 = false ∧ bitsOf (0x01000000 : W32).toNat 0 16 = 0 ∧
      0 < bitsOf (0x4F000040 : W32).toNat 24 4 ∧ bitOf (0x4F000040 : W32).toNat 30 = true ∧ bitsOf (0x4F000040 : W32).toNat 0 16 = 64 ∧
      bitsOf (0x4F004000 : W32).toNat 0 16 = 16384 ∧ (eciDev true {} (mirPart .stopped {})).inStage 0 64 = false := by
  refine ⟨?_, ?_, ?_, ?_, ?_, ?_, ?_, ?_⟩ <;> first | rfl | decide
theorem wit_sync :
    let t : TwinShape := { quads := 1, hamper := [1], lpddrGib := 0, hbmGib := 2, seqCap := 64, streamCap := 8, objCap := 1024, listCap := 16, stageMib := 64, sameStepping := true }
    let x := mirPart .stopped { enable := true, state := .outOfSync }
    let s := eciDev false { link := .up } { x with ctl := { x.ctl with hamper := [(0, 1)] } }
    (s.part 0).mir.state = .outOfSync ∧ (s.part 0).ctl.state = .stopped ∧ s.shapeOk 0 t = true := by refine ⟨?_, ?_, ?_⟩ <;> rfl
theorem wit_delta :
    let d : SentDelta := { waymark := 4, items := [] }
    let m : Mirror := { enable := true, state := .syncing, sent := [d] }
    m.enable = true ∧ m.standby = false ∧ m.state = .syncing ∧ (∃ e ∈ m.sent, e.waymark = 4) ∧
      (∀ st, let n : Mirror := { m with state := st, standby := true, stageMib := 64 }; n.enable = true ∧ n.standby = true ∧ n.state = st ∧
        1048576 * 64 ≤ 1048576 * n.stageMib.toNat) ∧ (eciDev false { link := .up }).eci.link = .up ∧
        (eciDev true { link := .up }).eci.carries = true ∧ (eciDev true { link := .up }).eci.room = true ∧ (eciDev true { link := .up }).eci.stream = [] := by
  refine ⟨rfl, rfl, rfl, ⟨{ waymark := 4, items := [] }, List.mem_singleton.mpr rfl, rfl⟩, ?_, rfl, rfl, rfl, rfl⟩
  intro st; exact ⟨rfl, rfl, rfl, Nat.le_of_eq rfl⟩
theorem wit_delta_commit (a : Bool) (n : Nat) (st : MirState) :
    let s := (stepDev (some { id := 1, allIssued := true }) 1).modMir 0 fun _ =>
      { enable := true, state := st, commitAck := a, asyncDepth := 1, sent := List.replicate n { waymark := 1, items := [] } }
    let c := cmd1 (desc 64 2 0x13 0 [(40, 8, 5), (48, 8, 6)]) 1
    s.cmd? 0 1 = some c ∧ c.phase = .started ∧ ((s.stepCommit 0 1).cmd? 0 1).map (fun d => (d.phase, d.cause)) = some (.ended, 0) ∧
      (s.part 0).mir.enable = true ∧ (s.part 0).mir.standby = false ∧ (s.part 0).mir.state = st ∧ (s.part 0).mir.commitAck = a ∧
      (s.part 0).mir.asyncDepth.toNat = 1 ∧ (s.part 0).mir.sent.length = n := by
  refine ⟨?_, ?_, ?_, ?_, ?_, ?_, ?_, ?_, List.length_replicate ..⟩ <;> rfl
/-- A device in a stage, with pins. -/
def stageDev (st : Stage) (p : Pins := {}) (f : Flash := {}) : State := { pwr := { stage := st }, pins := p, flash := f }
theorem wit_stage_off :
    (stageDev .off { pwrEn := false }).pins.pwrEn = false ∧ (stageDev .off { pwrEn := false }).pwr.stage = .off ∧ (stageDev .off).pins.pwrEn = true ∧
      (stageDev .powering).pwr.stage = .powering ∧ (stageDev .fwStart).pwr.stage = .fwStart ∧ (stageDev .fwStart).powered = true ∧
      (stageDev .fwStart).pins.pwrGood = true ∧ (stageDev .off { pwrGood := false }).pins.pwrGood = false ∧ (stageDev .fwStart).pwr.stage ≠ .off ∧
      (stageDev .fwStart).pwr.stage ≠ .shutdown ∧
      (stageDev .fwStart { resetN := false }).hst.link = .down ∧ (stageDev .fwStart { resetN := false, perstN := true }).pins.perstN = true := by
  refine ⟨?_, ?_, ?_, ?_, ?_, ?_, ?_, ?_, ?_, ?_, ?_, ?_⟩ <;> first | rfl | decide
theorem wit_boot :
    let s := stageDev .boot {} { imageA := { valid := true, svn := 3 }, imageB := { valid := true, svn := 2 }, fusedSvn := 3 }
    s.pwr.stage = .boot ∧ s.pins.resetN = true ∧ bitOf s.pins.straps.toNat 8 = true ∧ s.imageOk s.flash.active .pass = true ∧
      s.imageOk s.flash.active .badSignature = false ∧ s.imageOk s.flash.inactive .pass = false ∧
      (let u := { s with flash := { s.flash with fusedSvn := 2 } }; u.imageOk u.flash.active .badSignature = false ∧ u.imageOk u.flash.inactive .pass = true) ∧
      bitOf (stageDev .boot { straps := 0xFF }).pins.straps.toNat 8 = false ∧ s.flash.fusedSvn.toNat ≤ (3 : BitVec 6).toNat ∧
      (2 : BitVec 6).toNat < s.flash.fusedSvn.toNat := by
  refine ⟨?_, ?_, ?_, ?_, ?_, ?_, ⟨?_, ?_⟩, ?_, ?_, ?_⟩ <;> first | rfl | decide
theorem wit_sideband (v : Bool) (a : List EvRec) :
    let s := { stageDev .boot with mgmt := { dynValid := v, dynAddr := 9, alerts := a } }
    s.powered = true ∧ s.pins.pwrGood = true ∧ s.pins.resetN = true ∧ s.mgmt.dynValid = v ∧ (0x37 : BitVec 7).toNat = 0x30 + bitsOf (stageDev .boot).pins.straps.toNat 5 3 ∧
      s.mgmt.alerts = a := by refine ⟨?_, ?_, ?_, ?_, ?_, ?_⟩ <;> first | rfl | decide
theorem wit_governor (c t : Bool) :
    let s := { dev part0 with pwr := { stage := .ready, critical := c, throttle := t, vcore := 601 } }
    s.powered = true ∧ s.pwr.critical = c ∧ s.pwr.throttle = t ∧ s.govCap < 65535 ∧ 600 < s.pwr.vcore.toNat ∧ s.pwr.vcore.toNat < s.pwr.vcoreMax.toNat ∧
      64 ≤ s.pwr.duty.toNat ∧ (let u := s.modPwr fun w => { w with vcore := 600, duty := 63 }; u.pwr.vcore.toNat ≤ 600 ∧ u.pwr.duty.toNat < 64 ∧ 0 < u.capEnds.govCap ∧ u.capEnds.govCap < 65535) := by
  cases c <;> cases t <;> refine ⟨?_, ?_, ?_, ?_, ?_, ?_, ?_, ?_, ?_, ?_⟩ <;> first | rfl | decide
theorem wit_converter :
    let s := dev {}
    let u := dev part0
    let v := { dev part0 with pwr := { (dev part0).pwr with domains := [(115, { state := .on }), (79, { state := .on }), (0, { state := .on })] } }
    (tget { state := .off } v.pwr.domains 115).state = .on ∧ (tget { state := .off } v.pwr.domains 79).state = .on ∧ (tget { state := .off } v.pwr.domains 0).state = .on ∧ v.powered = true ∧
      s.quadOwner 79 = none ∧ (∀ k ∈ s.quadClusters 79, s.clusterOwner k = none) ∧ u.quadOwner 0 = some 0 ∧ (u.part 0).cmd.cmds = [] ∧
      (u.part 0).vf.heldCmds = [] ∧ (u.part 0).ctl.restart = false ∧
      (∀ k ∈ u.quadClusters 0, (∀ e, u.clusterOwner k = some e → e.1 = 0) ∧ (u.cluster k).l.armed = none ∧ (u.cluster k).r.armed = none) := by
  refine ⟨?_, ?_, ?_, ?_, ?_, ?_, ?_, ?_, ?_, ?_, ?_⟩ <;> first | rfl | decide
theorem wit_selftest :
    let s := (dev {}).modQuad 3 fun y => { y with state := .selftest }
    (s.quad 3).state = .selftest ∧ s.quadOwner 3 = none ∧ s.lastBad 3 (s.testFinds 3 []) = none ∧
      s.lastBad 3 (s.testFinds 3 [(s.physCluster 3 9, .left), (s.physCluster 3 0, .full)]) = some (s.physCluster 3 9) := by refine ⟨?_, ?_, ?_, ?_⟩ <;> rfl
theorem wit_retrain (c : ChannelId) (h : c = .hbm 0 ∨ c = .lpddr 63) :
    ((chanDev (chanNo c) .ready).chan (chanNo c)).state = .ready ∧ ((chanDev (chanNo c) .retrainWait).chan (chanNo c)).state = .retrainWait ∧
      ((dev part0).die (3 : Fin 4).val).cryptoFailed = false := by rcases h with rfl | rfl <;> refine ⟨?_, ?_, ?_⟩ <;> rfl
theorem wit_stall :
    let s := run (desc 64 1 Op.wait 0 [])
    (s.part 0).ctl.state = .running ∧ (s.part 0).wdg.stalled = false ∧ minBy (·.id) (s.watched 0) = some (cmd1 (desc 64 1 Op.wait 0 [])) := by
  refine ⟨?_, ?_, ?_⟩ <;> rfl
theorem wit_fast (t : Bool) :
    let s := dev part0
    s.powered = true ∧ 12 * s.govCap < 10 * (0xFFFF : W16).toNat ∧ 5500 < (5501 : W16).toNat ∧ (5500 : W16).toNat ≤ 5500 ∧ 10 * (0 : W16).toNat ≤ 12 * s.govCap ∧
      s.pwr.critical = false ∧ s.pwr.duty = 64 ∧ s.pwr.throttle = false ∧ 600 < s.pwr.vcoreMax.toNat ∧ s.capEnds.govCap < (if t then 0xFFFF else 2000) := by
  cases t <;> refine ⟨?_, ?_, ?_, ?_, ?_, ?_, ?_, ?_, ?_, ?_⟩ <;> first | rfl | decide
theorem wit_met :
    let d := desc 128 1 Op.wait 0 [(4, 1, 1)]
    (cmd1 d).waitsAny = false ∧ (cmd1 d).extraWaits = [] := by refine ⟨?_, ?_⟩ <;> rfl
theorem wit_canonical : MemoryCanonical { State.reset with pending := [.resetN] } ∧ ∃ t, step { State.reset with pending := [.resetN] } = .next t :=
  ⟨⟨rfl, rfl, rfl, rfl, rfl⟩, _, rfl⟩
theorem wit_svn : (63 : Nat) ≤ ({ State.reset with flash := { fusedSvn := 63 } } : State).flash.fusedSvn.toNat ∧
    ∃ t, step { State.reset with flash := { fusedSvn := 63 } } = .next t := ⟨by decide, _, rfl⟩

/-- The device of the example of chapter 17: logical quad 41 on tile 7 as physical quad 1, whose clusters are 10, 11 and 13 to 20. -/
def exDev : State :=
  { sessDev .operator .pfDoe { part0 with ctl := { part0.ctl with quadMap := [(0, 41)] } } with
    fuse := { qloc := [(29, 0x2A), (41, 0x27)], members := [(29, 0x1FEC00)] } }
/-- Spec example 'finding and writing the page of logical cluster 412': the bytes and registers that it reads. -/
theorem test_example_cluster_page :
    (exDev.pfRead 0x0000128 4).1 / 256 % 256 = 0x27 ∧ (exDev.pfRead 0x1382040 4).1 % 128 = 0x29 ∧
      (exDev.pfRead 0x1392000 4).1 = 0x01330022 ∧ (exDev.pfRead 0x1392040 4).1 = 0x0270359C ∧ exDev.physCluster 41 2 = 307 := by
  refine ⟨?_, ?_, ?_, ?_, ?_⟩ <;> rfl
/-- The same example, step 2: the write while the partition is RUNNING is rejected. -/
theorem test_example_watch_limit :
    (match exec (.regWrite 0 [{ offset := 0x01392058, width := 4, pad := 0, value := 5000000 }]) exDev with
      | .next t => ((t.pfHdr 0x1392).errStatus, (t.pfHdr 0x1392).errFirst, t.reply.count)
      | _ => (0, 0, 9)) = (0x100, 0x20580D03, 0) := by rfl
/-- The core voltage after a command; 0 where it has no next state. -/
def vcoreAfter (i : Instr) (s : State) : State × Nat :=
  match exec i s with
  | .next t => (t, t.pwr.vcore.toNat)
  | _ => (s, 0)
/-- Spec example 'full load on an 1,100 W tray': step 2, then the first period at 971 W. -/
theorem test_example_fast_limit :
    let s := { dev part0 with pins := { straps := 0x1EF } }
    let t := vcoreAfter (.powerFastLimit 1321 0) s
    s.govCap = 1100 ∧ t.2 = 600 ∧ (vcoreAfter (.governorPeriod ⟨40000, 0, 971, 0, 0, 0, 0, 0, 40000⟩) t.1).2 = 605 := by
  refine ⟨?_, ?_, ?_⟩ <;> rfl
/-- Spec example 'choosing a bucket': the CLIP of m_valid with P[0] = 2,900 of tiles 10, 11 and 12. -/
theorem test_example_clip :
    fillValue 2 256 2900 2560 = some 256 ∧ fillValue 2 256 2900 2816 = some 84 ∧ fillValue 2 256 2900 3072 = some 0 := by decide
/-- The CONV_TILE of the spec example 'a dilated tile with one live tap'. -/
def exConv : Cmd := { desc := desc 128 0 0x16 0 [
  (35, 1, 0x24), (36, 1, 0x11), (37, 1, 1), (40, 1, 0x33), (42, 1, 16), (43, 1, 16), (44, 1, 1), (45, 1, 16), (46, 1, 16), (48, 1, 64), (49, 1, 64),
  (50, 1, 16), (51, 1, 16), (52, 1, 1), (54, 2, 16), (56, 2, 16), (58, 2, 1), (60, 2, 128), (62, 2, 16), (64, 2, 16), (66, 2, 1), (68, 2, 64),
  (78, 2, 128), (80, 2, 128)] }
set_option maxRecDepth 8000 in
/-- Of its nine taps only (1, 1) is live, which is tap 4, with two channel blocks. -/
theorem test_example_live_tap : exConv.conv.live = [(0, 1, 1)] ∧ exConv.conv.tapNo (0, 1, 1) = 4 ∧ exConv.conv.blocks = 2 := by
  refine ⟨?_, ?_, ?_⟩ <;> decide


/-- A CDC[0] that runs command 1 of session 0 and holds command 2, suspended, of session `n`. -/
def cdcHeld (n : Nat) : State :=
  let s := (cdcDev (desc 64 3 0x13 0 []) []).modSys 0 fun y =>
    { y with cmds := y.cmds ++ [{ id := 2, desc := desc 64 3 0x13 0 [(36, 1, n)], unit := some (.cdc 0), phase := .started }] }
  { s with cdcs := [(0, { running := some (0, 1), suspended := some (0, 2) })] }
theorem wit_cdc_fault_held (n : Nat) (h : n = 0 ∨ n = 1) :
    (cdcHeld n).engRuns 0 = some (0, 1) ∧ (cdcHeld n).engHolds 0 = some (0, 2) ∧
    ((cdcHeld n).cmd? 0 2).map Cmd.sess = some n ∧ ((cdcHeld n).cmd? 0 1).map Cmd.sess = some 0 := by
  rcases h with rfl | rfl <;> refine ⟨?_, ?_, ?_, ?_⟩ <;> rfl

/-- FP32 0x402DF854 is the nearest to e; sixteen places above it is outside the error bound of EXP. -/
theorem test_exp_bound : boundOk 0 (Num.ofInt 1) (f32 0x402DF854) = true ∧ boundOk 0 (Num.ofInt 1) (f32 0x402DF864) = false := by
  refine ⟨?_, ?_⟩ <;> rfl
/-- The published vector of SipHash-2-4: the bytes 0 to 14 under the key of the bytes 0 to 15. -/
theorem test_sip_hash :
    sipHash 0x0F0E0D0C0B0A09080706050403020100 ((List.range 15).map (BitVec.ofNat 8)) = 0xA129CA6149BE45E5 := by rfl

end Sys2Proof.Tests
end

/-!
PROOF. The matrix array (chapter 2): what the array's commands do at their turn, and what its faults and the self-check
of a half leave.
-/

namespace Sys2Proof.MatrixArray

open Sys2Proof.Machine

/-! Which operations keep the outstanding commands of a partition. -/

/-- What an event or a transfer tells a partition leaves its commands as they are. -/
theorem cmd_of_partTold {p : Nat} {s t : State} (h : PartTold p s t) (n : Nat) : t.cmd? p n = s.cmd? p n := by
  rw [State.cmd?, h.mine]
  rfl

theorem partTold_dirtyRange (s : State) (p h off n : Nat) : PartTold p s (s.dirtyRange p h off n) := by
  unfold State.dirtyRange
  split
  · exact foldl_keeps (PartTold p s) _ (fun t i ht => ht.trans (.markDirty p t _)) _ (.refl p s)
  · exact .refl p s

theorem partTold_countRange (s : State) (p : Nat) (pl : Place) (off n : Nat) : PartTold p s (s.countRange p pl off n) := by
  unfold State.countRange
  split
  · exact .refl p s
  · exact .refl p s
  · exact foldl_keeps (PartTold p s) _ (fun t e ht => ht.trans (.countLine p t _ _)) _ (.refl p s)

@[simp] theorem countLine_cmd (s : State) (p : Nat) (sp : Space) (a n : Nat) : (s.countLine p sp a).cmd? p n = s.cmd? p n :=
  cmd_of_partTold (.countLine p s sp a) n

@[simp] theorem dirtyRange_cmd (s : State) (p h off m n : Nat) : (s.dirtyRange p h off m).cmd? p n = s.cmd? p n :=
  cmd_of_partTold (partTold_dirtyRange s p h off m) n

@[simp] theorem count_cmd (s : State) (p i m n : Nat) : (s.count p i m).cmd? p n = s.cmd? p n :=
  cmd_of_partTold (.count p s i m) n

@[simp] theorem withMem_cmd (s : State) (m : Mem) (p n : Nat) : ({ s with mem := m } : State).cmd? p n = s.cmd? p n := rfl

@[simp] theorem useFrees_cmd (s : State) (m p n : Nat) : (s.useFrees m).cmd? p n = s.cmd? p n := rfl

@[simp] theorem modHalves_cmd (s : State) (k : Nat) (h : HalfSel) (f : Half → Half) (p n : Nat) :
    (s.modHalves k h f).cmd? p n = s.cmd? p n := rfl

/-- A memory-side operation keeps every command, whether its line refuses it or not. -/
@[simp] theorem memOp_cmd (s : State) (p : Nat) (o : AddOp) (r : ORef) (v n : Nat) : (s.memOp p o r v).1.cmd? p n = s.cmd? p n := by
  unfold State.memOp
  dsimp only
  split
  · split <;> simp
  · split <;> simp

@[simp] theorem claimBit_cmd (s : State) (p : Nat) (claim : ORef) (bit n : Nat) : (s.claimBit p claim bit).1.cmd? p n = s.cmd? p n :=
  memOp_cmd s p .or _ _ n

theorem applyWr_cmd (s : State) (p : Nat) (w : Wr) (n : Nat) : (s.applyWr p w).1.cmd? p n = s.cmd? p n := by
  cases w with
  | store r bs => exact cmd_of_partTold (.pokeO p s r bs) n
  | red o r v => exact memOp_cmd s p o r v n

@[simp] theorem applyWrs_cmd (s : State) (p : Nat) (ws : List Wr) (n : Nat) : (s.applyWrs p ws).1.cmd? p n = s.cmd? p n := by
  unfold State.applyWrs
  refine foldl_keeps (fun r : State × Option W64 => r.1.cmd? p n = s.cmd? p n) _ (fun r w hr => ?_) ws (a := (s, none)) rfl
  exact (applyWr_cmd r.1 p w n).trans hr

/-! The work of a command that stops marks commands, but takes none away. -/

theorem modCmd_cmd_isSome (s : State) (p id n : Nat) (f : Cmd → Cmd) (hf : ∀ c, (f c).id = c.id) :
    ((s.modCmd p id f).cmd? p n).isSome = (s.cmd? p n).isSome := by
  rw [State.modCmd_cmd s p id n f hf, Option.isSome_map]

@[simp] theorem applyFor_cmd_isSome (s : State) (p id : Nat) (ws : List Wr) (n : Nat) :
    ((s.applyFor p id ws).1.cmd? p n).isSome = (s.cmd? p n).isSome := by
  unfold State.applyFor
  dsimp only
  split
  · rw [modCmd_cmd_isSome, applyWrs_cmd]
    exact fun _ => rfl
  · rw [applyWrs_cmd]

theorem lookedBeside_cmd_isSome (s : State) (p k half n : Nat) :
    ((s.lookedBeside p k half).cmd? p n).isSome = (s.cmd? p n).isSome := by
  unfold State.lookedBeside
  refine foldl_keeps (fun t : State => (t.cmd? p n).isSome = (s.cmd? p n).isSome) _ (fun t i ht => ?_) _ rfl
  rw [modCmd_cmd_isSome, ht]
  exact fun _ => rfl

@[simp] theorem countWork_cmd_isSome (s : State) (p k : Nat) (w : Work) (n : Nat) :
    ((s.countWork p (some k) w).cmd? p n).isSome = (s.cmd? p n).isSome := by
  have hreads : (w.reads.foldl (fun s r => s.countO p r.1 r.2) s).cmd? p n = s.cmd? p n :=
    foldl_keeps (fun t : State => t.cmd? p n = s.cmd? p n) _
      (fun t r ht => (cmd_of_partTold (partTold_countRange t p _ _ _) n).trans ht) _ rfl
  unfold State.countWork
  dsimp only
  rw [State.modCluster_cmd]
  split
  · simp [hreads]
  · simp [lookedBeside_cmd_isSome, hreads]

/-- A command cut short is still outstanding, bound to a WICK_OP or not. -/
theorem cutShort_cmd_isSome (s : State) (p k : Nat) (c : Cmd) (w : Option Cmd) (beats rows : Nat) (inWick : Bool) (n : Nat) :
    ((s.cutShort p k c w beats rows inWick).state.cmd? p n).isSome = (s.cmd? p n).isSome := by
  cases w with
  | some x => simp [State.cutShort]
  | none => simp [State.cutShort]

/-! How a fault ends a command. -/

/-- The part of a command that its end decides. -/
def outcome (c : Cmd) : CmdPhase × Status × W16 := (c.phase, c.status, c.cause)

/-- The end that a fault gives one command (`State.faultEnds`). -/
def faultEnd (s : State) (p id : Nat) (cause : W16) (q : W64) (d : List Byte) (detail : Nat) : State :=
  ((s.finishBy p id cause (some q) detail).scanPartial p id).modCmd p id fun c => { c with evDetail := some d }

theorem faultEnds_none (s : State) (p : Nat) (c : Cmd) (cause : W16) (q : W64) (d : List Byte) (own pair : Nat) :
    s.faultEnds p c none cause q d own pair = faultEnd s p c.id cause q d own := by
  unfold State.faultEnds faultEnd
  rfl

/-- A fault ends a command, then the WICK_OP bound to it. -/
theorem faultEnds_some (s : State) (p : Nat) (c x : Cmd) (cause : W16) (q : W64) (d : List Byte) (own pair : Nat) :
    s.faultEnds p c (some x) cause q d own pair = faultEnd (faultEnd s p c.id cause q d own) p x.id cause q d pair := by
  unfold State.faultEnds faultEnd
  rfl

/-- A change of a command that keeps its number and its outcome keeps every command's outcome. -/
theorem modCmd_outcome (s : State) (p id n : Nat) {f : Cmd → Cmd} (hid : ∀ c, (f c).id = c.id) (hout : ∀ c, outcome (f c) = outcome c) :
    ((s.modCmd p id f).cmd? p n).map outcome = (s.cmd? p n).map outcome := by
  rw [State.modCmd_cmd s p id n f hid]
  cases s.cmd? p n with
  | none => rfl
  | some c =>
    simp only [Option.map_some, apply_ite outcome, hout, ite_self]

theorem scanPartial_outcome (s : State) (p id n : Nat) : ((s.scanPartial p id).cmd? p n).map outcome = (s.cmd? p n).map outcome := by
  unfold State.scanPartial
  apply modCmd_outcome <;> (intro c; split <;> rfl)

theorem finishBy_outcome (s : State) (p id : Nat) (cause : W16) (q : Option W64) (detail n : Nat) :
    ((s.finishBy p id cause q detail).cmd? p n).map outcome = ((s.finish p id .done cause detail).cmd? p n).map outcome := by
  unfold State.finishBy
  apply modCmd_outcome <;> exact fun _ => rfl

/-- What a fault adds to the end of a command is no part of an outcome. -/
theorem faultEnd_outcome_eq (s : State) (p id n : Nat) (cause : W16) (q : W64) (d : List Byte) (detail : Nat) :
    ((faultEnd s p id cause q d detail).cmd? p n).map outcome = ((s.finish p id .done cause detail).cmd? p n).map outcome := by
  unfold faultEnd
  rw [modCmd_outcome, scanPartial_outcome, finishBy_outcome]
  · exact fun _ => rfl
  · exact fun _ => rfl

/-- The end of a command changes no other command. -/
theorem finish_cmd_of_ne (s : State) (p id : Nat) (st : Status) (cause : W16) (detail : Nat) (part : Bool) {n : Nat} (h : n ≠ id) :
    (s.finish p id st cause detail part).cmd? p n = s.cmd? p n := by
  unfold State.finish
  rw [State.modCmd_cmd]
  · rw [show ((s.leaveCluster p id).modSys p fun y => y.unqueue id).cmd? p n = s.cmd? p n by simp [State.cmd?, CmdSys.unqueue]]
    cases hc : s.cmd? p n with
    | none => rfl
    | some c => simp [State.cmd_id hc, h]
  · exact fun _ => rfl

/-- A command that a fault ends is DONE with the fault's cause (R95 step 2). -/
theorem faultEnd_outcome (s : State) (p id : Nat) (cause : W16) (q : W64) (d : List Byte) (detail : Nat)
    (h : (s.cmd? p id).isSome = true) : ((faultEnd s p id cause q d detail).cmd? p id).map outcome = some (.ended, .done, cause) := by
  obtain ⟨c, hc⟩ := Option.isSome_iff_exists.mp h
  rw [faultEnd_outcome_eq, State.finish_cmd, hc]
  simp only [Option.map_some, outcome]

/-- A second command that the same fault ends leaves the first as it ended. -/
theorem faultEnd_keeps_outcome (s : State) (p id n : Nat) (cause : W16) (q : W64) (d : List Byte) (detail : Nat)
    (h : (s.cmd? p n).map outcome = some (.ended, .done, cause)) :
    ((faultEnd s p id cause q d detail).cmd? p n).map outcome = some (.ended, .done, cause) := by
  by_cases hn : n = id
  · subst hn
    apply faultEnd_outcome
    rw [← Option.isSome_map (f := outcome), h]
    rfl
  · rw [faultEnd_outcome_eq, finish_cmd_of_ne _ _ _ _ _ _ _ hn, h]

theorem faultEnds_outcome (s : State) (p : Nat) (c : Cmd) (w : Option Cmd) (cause : W16) (q : W64) (d : List Byte) (own pair : Nat)
    (h : (s.cmd? p c.id).isSome = true) :
    ((s.faultEnds p c w cause q d own pair).cmd? p c.id).map outcome = some (.ended, .done, cause) := by
  cases w with
  | none =>
    rw [faultEnds_none]
    exact faultEnd_outcome _ _ _ _ _ _ _ h
  | some x =>
    rw [faultEnds_some]
    exact faultEnd_keeps_outcome _ _ _ _ _ _ _ _ (faultEnd_outcome _ _ _ _ _ _ _ h)

/-! The halves and the command after a fault (R95). -/

/-- A fault with `cause` on the halves `h` of cluster `k` has ended command `id` of partition `p`: the halves test themselves and hold no
stationary block, and the command is DONE with the cause. -/
structure Stopped (k p id : Nat) (h : HalfSel) (cause : W16) (t : State) : Prop where
  left : hasLeft h = true → (t.cluster k).l.state = .selfCheck ∧ (t.cluster k).l.stationary = none
  right : hasRight h = true → (t.cluster k).r.state = .selfCheck ∧ (t.cluster k).r.stationary = none
  ended : (t.cmd? p id).map outcome = some (.ended, .done, cause)

@[simp] theorem modHalves_cluster (s : State) (k : Nat) (h : HalfSel) (f : Half → Half) :
    (s.modHalves k h f).cluster k =
      { s.cluster k with
        l := if hasLeft h then f (s.cluster k).l else (s.cluster k).l
        r := if hasRight h then f (s.cluster k).r else (s.cluster k).r } := by
  simp [State.modHalves]

/-- Noting the fault in a PF page header, or not, changes neither the halves nor the command. -/
theorem Stopped.noted {k p id : Nat} {h : HalfSel} {cause : W16} {t : State} (ht : Stopped k p id h cause t) (b : Bool) (i : Nat)
    (f : PageHdr → PageHdr) : Stopped k p id h cause (if b then t else t.modPfHdr i f) := by
  split
  · exact ht
  · exact ⟨ht.left, ht.right, ht.ended⟩

/-- A fault stops the command that it befalls and the halves it ran on. -/
theorem faultOn_stopped (s : State) (p k : Nat) (h : HalfSel) (n : FaultNote) (beats rows : Nat) (c : Cmd)
    (hc : (s.cmd? p c.id).isSome = true) : Stopped k p c.id h n.cause (s.faultOn p k h n beats rows c) := by
  unfold State.faultOn
  dsimp only
  refine ⟨fun hl => ?_, fun hr => ?_, ?_⟩
  · simp [hl]
  · simp [hr]
  · rw [State.modCluster_cmd, modHalves_cmd]
    apply faultEnds_outcome
    simp [State.newFault, cutShort_cmd_isSome, hc]

/-- A fault that can befall the command running on the named halves stops it, where a REDUCE_INTO with claim_en has won its claim
(R92, R95). -/
theorem faultRunning_stopped {s : State} {k p r : Nat} {h : HalfSel} {c : Cmd} (n : FaultNote) (beats rows : Nat)
    (ok : Cmd → Bool → Bool) (howner : s.clusterOwner k = some (p, r)) (hrun : s.runningOn p k h = some c)
    (hcmd : s.cmd? p c.id = some c)
    (hclaim : c.op = 0x11 → c.gemm.claimEn = true → (s.claimBit p c.gemm.claim c.gemm.seed).2 = .won)
    (hok : ok c (c.op == 0x10 && (s.bound? p c k).isSome) = true) :
    Stopped k p c.id h n.cause (s.faultRunning k h n beats rows ok) := by
  unfold State.faultRunning
  simp only [howner, hrun, hok, Bool.not_true, Bool.false_eq_true, if_false]
  split
  · rename_i hred
    obtain ⟨hop, hen⟩ : c.op = 0x11 ∧ c.gemm.claimEn = true := by simpa using hred
    have hwon : s.claimBit p c.gemm.claim c.gemm.seed = ((s.claimBit p c.gemm.claim c.gemm.seed).1, .won) :=
      Prod.ext rfl (hclaim hop hen)
    rw [hwon]
    apply faultOn_stopped
    rw [modCmd_cmd_isSome, claimBit_cmd, hcmd]
    · rfl
    · exact fun _ => rfl
  · apply faultOn_stopped
    rw [modCmd_cmd_isSome, hcmd]
    · rfl
    · intro d
      split <;> rfl

/-- Settles O14: a fault of each kind stops the running command and its halves (`faultRunning_stopped`); the bits that the row then sets in the
cluster's page header touch neither. -/
theorem arrayFaults : Obligations.ArrayFaults := by
  unfold Obligations.ArrayFaults
  intro k p r h row col beats rows s c howner hrun hcmd hclaim after
  have stopped (n : FaultNote) (ok : Cmd → Bool → Bool) (hok : ok c (c.op == 0x10 && (s.bound? p c k).isSome) = true) :
      Stopped k p c.id h n.cause (s.faultRunning k h n beats.toNat rows.toNat ok) :=
    faultRunning_stopped n _ _ ok howner hrun hcmd hclaim hok
  have after_of {cause : W16} {t : State} (ht : Stopped k p c.id h cause t) : after cause t := ⟨ht.left, ht.right, ht.ended⟩
  refine ⟨fun kind harray => ⟨_, rfl, after_of ?_⟩, ⟨_, rfl, after_of ?_⟩, fun lane hwick => ⟨_, rfl, after_of ?_⟩⟩
  · exact (stopped ⟨Cause.arrayFault, arrayKindCode kind, row.toNat, col.toNat⟩ (fun c _ => c.usesArray) harray).noted _ _ _
  · exact (stopped ⟨Cause.arrayTimeout, 4, 0xFF, 0xFF⟩ (fun _ _ => true) rfl).noted _ _ _
  · have ht := stopped ⟨Cause.wickFault, 5, 0xFF, lane.toNat⟩ (fun c bound => c.usesWick bound) hwick
    unfold State.wickFaultOn
    dsimp only
    split <;> exact ht

/-! The commands at their turn. -/

/-- No WICK_OP is bound to a command on a cluster on which nothing is armed (R108). -/
theorem bound_of_atTurn {s : State} {p k : Nat} {c : Cmd} {dests : List Nat} (h : AtTurn s p c k dests) :
    c.cluster.bind (s.bound? p c) = none := by
  obtain ⟨hcluster, -, -, -, hl, hr⟩ := h
  simp [State.bound?, hcluster, hl, hr]

theorem gemmTile_of {s : State} {p id k : Nat} {c : Cmd} (hid : c.id = id) (hstart : Started s p id 0 0x10 c)
    (hturn : AtTurn s p c k [c.gemm.d.handle]) (hclear : WorkClear s p (s.gemmWork p c k)) :
    s.gemmTile p id [] =
      if c.gemm.isEmpty then Carried s p id k (s.gemmWork p c k)
      else (Carried s p id k (s.gemmWork p c k)).setStationary k c.gemm.half (s.leaves p c k) := by
  subst hid
  have ⟨hpoison, hstop⟩ := hclear
  unfold State.gemmTile
  rw [onStarted_of hstart, bound_of_atTurn hturn]
  dsimp only
  rw [State.onCluster_of hturn]
  simp [State.runGemm, hstop, hpoison, State.runWork_of hclear]

theorem convTile_of {s : State} {p id k : Nat} {c : Cmd} (hid : c.id = id) (hstart : Started s p id 0 0x16 c)
    (hturn : AtTurn s p c k [c.conv.out.handle]) (hclear : WorkClear s p (s.convWork p c k)) :
    s.convTile p id [] = (Carried s p id k (s.convWork p c k)).setStationary k c.conv.half none := by
  subst hid
  unfold State.convTile
  rw [onStarted_of hstart, State.onCluster_of hturn, State.runWork_of hclear]

theorem attnTile_of {s : State} {p id k : Nat} {c : Cmd} (hid : c.id = id) (hstart : Started s p id 0 0x17 c)
    (hturn : AtTurn s p c k [if c.attn.final then c.attn.out.handle else c.attn.acc.handle])
    (hclear : WorkClear s p (s.attnWork p c k)) :
    s.attnTile p id [] = (Carried s p id k (s.attnWork p c k)).setStationary k 0 none := by
  subst hid
  unfold State.attnTile
  rw [onStarted_of hstart, State.onCluster_of hturn, State.runWork_of hclear]

theorem scanChunk_of {s : State} {p id k : Nat} {c : Cmd} (hid : c.id = id) (hstart : Started s p id 0 0x19 c)
    (hturn : AtTurn s p c k (s.scanDests p c.scan)) (hclear : WorkClear s p (s.scanWork p c k)) :
    s.scanChunk p id [] =
      if c.scan.gated && !c.scan.isEmpty then (Carried s p id k (s.scanWork p c k)).setStationary k 0 none
      else Carried s p id k (s.scanWork p c k) := by
  subst hid
  unfold State.scanChunk
  rw [onStarted_of hstart, State.onCluster_of hturn]
  simp only [State.runWork_of hclear]

/-- Settles O11: each tile command at its turn is its work carried out, and what it leaves in the registers of its halves. -/
theorem tilesCarriedOut : Obligations.TilesCarriedOut := by
  unfold Obligations.TilesCarriedOut
  intro p id k s c hid
  refine ⟨fun hstart hturn hclear => ?_, fun hstart hturn hclear => ?_, fun hstart hturn hclear => ?_, fun hstart hturn hclear => ?_⟩
  · exact congrArg Host.Outcome.next (gemmTile_of hid hstart hturn hclear)
  · exact congrArg Host.Outcome.next (convTile_of hid hstart hturn hclear)
  · exact congrArg Host.Outcome.next (attnTile_of hid hstart hturn hclear)
  · exact congrArg Host.Outcome.next (scanChunk_of hid hstart hturn hclear)

/-! REDUCE_INTO. -/

/-- A REDUCE_INTO at its turn goes on with its claim (R91, R92). -/
theorem reduceInto_of {s : State} {p id k : Nat} {c : Cmd} (hstart : Started s p id 0 0x11 c)
    (hturn : AtTurn s p c k (c.gemm.d.handle :: if c.gemm.claimEn then [c.gemm.claim.handle] else [])) :
    s.reduceInto p id [] = s.runReduce p c k := by
  unfold State.reduceInto
  rw [onStarted_of hstart]
  exact State.onCluster_of hturn _ _ _

theorem runReduce_lost {s : State} {p k : Nat} {c : Cmd} (hstop : s.workStopped p (s.reduceWork p c k) = false)
    (hen : c.gemm.claimEn = true) (hclaim : (s.claimBit p c.gemm.claim c.gemm.seed).2 = .lost) :
    let u := (s.claimBit p c.gemm.claim c.gemm.seed).1
    s.runReduce p c k = (u.done p c.id (2097152 + u.arrayBits c k)).modCmd p c.id fun c => { c with stage := 3 } := by
  simp [State.runReduce, hstop, hen, hclaim]

theorem runReduce_refused {s : State} {p k : Nat} {c : Cmd} {q : W64} (hstop : s.workStopped p (s.reduceWork p c k) = false)
    (hen : c.gemm.claimEn = true) (hclaim : (s.claimBit p c.gemm.claim c.gemm.seed).2 = .refused q) :
    let u := (s.claimBit p c.gemm.claim c.gemm.seed).1
    s.runReduce p c k =
      (u.finishBy p c.id Cause.poisonWrite (some q) (u.arrayBits c k)).modCmd p c.id fun c => { c with stage := 2 } := by
  simp [State.runReduce, hstop, hen, hclaim]

theorem runReduce_won {s : State} {p k : Nat} {c : Cmd} (hstop : s.workStopped p (s.reduceWork p c k) = false)
    (hclaim : c.gemm.claimEn = false ∨ (s.claimBit p c.gemm.claim c.gemm.seed).2 = .won) :
    let u := if c.gemm.claimEn then (s.claimBit p c.gemm.claim c.gemm.seed).1 else s
    let v := u.modCmd p c.id fun c => { c with stage := 1 }
    WorkClear v p (u.reduceWork p c k) →
    s.runReduce p c k =
      if c.gemm.isEmpty then Carried v p c.id k (u.reduceWork p c k)
      else (Carried v p c.id k (u.reduceWork p c k)).setStationary k c.gemm.half (u.leaves p c k) := by
  intro u v hclear
  have hfound : (if c.gemm.claimEn then s.claimBit p c.gemm.claim c.gemm.seed else (s, .won)) = (u, .won) := by
    rcases hclaim with hen | hwon
    · simp [u, hen]
    · by_cases hen : c.gemm.claimEn = true
      · simp [u, hen, ← hwon]
      · simp [u, hen]
  have ⟨hpoison, _⟩ := hclear
  unfold State.runReduce
  simp only [hstop, hfound, Bool.false_eq_true, if_false]
  rw [State.runWork_of hclear]
  simp [hpoison]

/-- Settles O13: the three things that a REDUCE_INTO's claim can find. -/
theorem reduceClaims : Obligations.ReduceClaims := by
  unfold Obligations.ReduceClaims
  intro p id k s c hid hstart hturn hstop
  subst hid
  have hrun : exec (.reduceInto p c.id []) s = .next (s.runReduce p.val c k) := congrArg Host.Outcome.next (reduceInto_of hstart hturn)
  rw [hrun]
  refine ⟨fun hen hlost => ?_, fun hen q hrefused => ?_, fun hwon hclear => ?_⟩
  · exact congrArg Host.Outcome.next (runReduce_lost hstop hen hlost)
  · exact congrArg Host.Outcome.next (runReduce_refused hstop hen hrefused)
  · exact congrArg Host.Outcome.next (runReduce_won hstop hwon hclear)

/-! The end of a self-check. -/

theorem raiseHalfOffline_clus (s : State) (k : Nat) : (s.raiseHalfOffline k).clus = s.clus := by
  unfold State.raiseHalfOffline
  split <;> simp

/-- What is told of halves that went OFFLINE leaves every cluster as it is (R99). -/
theorem wentOffline_cluster (s : State) (k : Nat) (l r : Bool) (j : Nat) : (s.wentOffline k l r).cluster j = s.cluster j := by
  unfold State.wentOffline
  split
  · rfl
  · simp [State.cluster, raiseHalfOffline_clus]

theorem checked_of_ne {x : Half} (h : x.state ≠ .selfCheck) (pass : Bool) : x.checked pass = x := by
  simp [Half.checked, h]

theorem checked_of_selfCheck {x : Half} (h : x.state = .selfCheck) (pass : Bool) :
    x.checked pass = { x with
      state := if pass then .idle else .offline
      faults := if pass then satAdd x.faults 1 else x.faults
      wickFaults := if pass && x.fromWick then satAdd x.wickFaults 1 else x.wickFaults } := by
  cases pass <;> simp [Half.checked, h]

/-- The named halves after a self-check; one that was not in SELF_CHECK is as it was (R95 steps 5 and 6). -/
theorem selfCheckEnds_cluster (s : State) (k : Nat) (h : HalfSel) (pass : Bool) :
    (s.selfCheckEnds k h pass).cluster k =
      { s.cluster k with
        l := if hasLeft h then (s.cluster k).l.checked pass else (s.cluster k).l
        r := if hasRight h then (s.cluster k).r.checked pass else (s.cluster k).r } := by
  unfold State.selfCheckEnds
  dsimp only
  split
  · rename_i hnone
    have hl (e : hasLeft h = true) : (s.cluster k).l.state ≠ .selfCheck := fun hs => by simp [e, hs] at hnone
    have hr (e : hasRight h = true) : (s.cluster k).r.state ≠ .selfCheck := fun hs => by simp [e, hs] at hnone
    have hleft : (if hasLeft h then (s.cluster k).l.checked pass else (s.cluster k).l) = (s.cluster k).l :=
      ite_eq_right_iff.mpr fun e => checked_of_ne (hl e) pass
    have hright : (if hasRight h then (s.cluster k).r.checked pass else (s.cluster k).r) = (s.cluster k).r :=
      ite_eq_right_iff.mpr fun e => checked_of_ne (hr e) pass
    rw [hleft, hright]
  · rw [wentOffline_cluster, modHalves_cluster]

/-- Settles O15: a half named alone is checked, and the other is not. -/
theorem selfCheckEnds : Obligations.SelfCheckEnds := by
  unfold Obligations.SelfCheckEnds
  intro k s
  refine ⟨fun hl pass => ⟨_, rfl, ?_, ?_⟩, fun hr pass => ⟨_, rfl, ?_, ?_⟩⟩
  · exact (congrArg Cluster.l (selfCheckEnds_cluster s k .left pass)).trans (checked_of_selfCheck hl pass)
  · exact (congrArg Cluster.r (selfCheckEnds_cluster s k .left pass)).trans rfl
  · exact (congrArg Cluster.r (selfCheckEnds_cluster s k .right pass)).trans (checked_of_selfCheck hr pass)
  · exact (congrArg Cluster.l (selfCheckEnds_cluster s k .right pass)).trans rfl

end Sys2Proof.MatrixArray

/-!
PROOF. The Wick engines (chapter 3): the Wick commands at their turn, and a chained WICK_OP that arms its halves.
-/

namespace Sys2Proof.WickAndLantern

open Sys2Proof.Machine

/-! The commands at their turn. -/

/-- An unchained WICK_OP at its turn (R107). -/
theorem wickOp_of_unchained {s : State} {p id k : Nat} {c : Cmd} (hid : c.id = id) (hstart : Started s p id 0 0x12 c)
    (hchain : c.wick.chain = false) (hturn : AtTurn s p c k c.wick.dests)
    (hclear : WorkClear s p (s.wickWork p c (s.wickIn0 p c.wick))) :
    s.wickOp p id [] = Carried s p id k (s.wickWork p c (s.wickIn0 p c.wick)) := by
  subst hid
  unfold State.wickOp
  rw [onStarted_of hstart, hchain, if_neg Bool.false_ne_true, State.onCluster_of hturn, State.runWork_of hclear]

theorem normRms_of {s : State} {p id k : Nat} {c : Cmd} (hid : c.id = id) (hstart : Started s p id 0 0x13 c)
    (hturn : AtTurn s p c k [c.norm.out.handle]) (hclear : WorkClear s p (s.normWork p c)) :
    s.normRms p id [] = Carried s p id k (s.normWork p c) := by
  subst hid
  unfold State.normRms
  rw [onStarted_of hstart, State.onCluster_of hturn, State.runWork_of hclear]

/-! A chained WICK_OP that arms. -/

/-- The left half, where a WICK_OP that arms occupies it, is armed with that command, whatever was armed there before (R110). -/
theorem arm_cluster_l (s : State) (p : Nat) (c : Cmd) (k : Nat) (hleft : c.left = true) :
    ((s.arm p c k).cluster k).l.armed = some c.id := by
  simp [State.arm, hleft]

/-- The right half, likewise. -/
theorem arm_cluster_r (s : State) (p : Nat) (c : Cmd) (k : Nat) (hright : c.right = true) :
    ((s.arm p c k).cluster k).r.armed = some c.id := by
  simp [State.arm, hright]

/-- Where nothing is armed on its cluster, a WICK_OP that arms is marked as armed. -/
theorem arm_cmd_armed {s : State} {p k : Nat} {c : Cmd} (hcmd : s.cmd? p c.id = some c) (hcluster : c.cluster = some k)
    (hl : (s.cluster k).l.armed = none) (hr : (s.cluster k).r.armed = none) :
    ((s.arm p c k).cmd? p c.id).map (·.armed) = some true := by
  unfold State.arm
  rw [State.breakChains_of_none _ hcluster hl hr]
  dsimp only
  rw [State.modCmd_cmd_self, State.modCluster_cmd, hcmd]
  · rfl
  · exact fun _ => rfl

/-- Where nothing is armed on its cluster, a WICK_OP that arms writes no memory. -/
theorem arm_mem {s : State} {p k : Nat} {c : Cmd} (hcluster : c.cluster = some k)
    (hl : (s.cluster k).l.armed = none) (hr : (s.cluster k).r.armed = none) : (s.arm p c k).mem = s.mem := by
  unfold State.arm
  rw [State.breakChains_of_none _ hcluster hl hr]
  rfl

/-- A chained WICK_OP that has not armed does so where its halves neither test themselves nor are OFFLINE (R95, R108). -/
theorem wickOp_of_chained {s : State} {p id k : Nat} {c : Cmd} (hstart : Started s p id 0 0x12 c) (hchain : c.wick.chain = true)
    (harmed : c.armed = false) (hcluster : c.cluster = some k) (hoffline : (s.cluster k).anyHalf c .offline = false)
    (hcheck : (s.cluster k).anyHalf c .selfCheck = false) (ecc : List EccHit) : s.wickOp p id ecc = s.arm p c k := by
  unfold State.wickOp
  rw [onStarted_of hstart]
  simp [hchain, hcluster, State.armOrWait, hoffline, harmed, hcheck]

/-- Settles O12: the work carried out of an unchained WICK_OP and of a NORM_RMS, and the arming of a chained WICK_OP. -/
theorem wickCarriedOut : Obligations.WickCarriedOut := by
  unfold Obligations.WickCarriedOut
  intro p id k s c hid
  refine ⟨fun hstart hchain hturn hclear => ?_, fun hstart hturn hclear => ?_,
    fun hstart hchain harmed hcluster hoffline hcheck hl hr => ?_⟩
  · exact congrArg Host.Outcome.next (wickOp_of_unchained hid hstart hchain hturn hclear)
  · exact congrArg Host.Outcome.next (normRms_of hid hstart hturn hclear)
  · subst hid
    have hcmd : s.cmd? p.val c.id = some c := hstart.1
    have hrun : exec (.wickOp p c.id []) s = .next (s.arm p.val c k) :=
      congrArg Host.Outcome.next (wickOp_of_chained hstart hchain harmed hcluster hoffline hcheck [])
    exact ⟨_, hrun, arm_cluster_l s p.val c k, arm_cluster_r s p.val c k, arm_cmd_armed hcmd hcluster hl hr, arm_mem hcluster hl hr⟩

end Sys2Proof.WickAndLantern

/-!
PROOF. SHARED calls (chapter 4): how a participant comes to its next tile group, and what the expiry of its watch does.
-/

namespace Sys2Proof.TilesAndConvolution

open Sys2Proof.Machine

/-- Participant `x`, number `n` of call `k` of command `id`, takes part in the call: it has neither left nor been removed, and the call is not
snuffed. -/
structure TakesPart (s : State) (p id n : Nat) (c : Cmd) (k : Call) (x : Participant) : Prop where
  cmd : s.cmd? p id = some c
  call : s.call? p id = some k
  participant : k.participants[n]? = some x
  stays : x.left = false
  kept : x.removed = false
  runs : k.snuffed = false

/-- A participant, on cluster `phys`, may take an index (R150): it has no group in hand and both its halves are IDLE. -/
structure MayTake (s : State) (p id n phys : Nat) (c : Cmd) (k : Call) (x : Participant) : Prop extends TakesPart s p id n c k x where
  cluster : s.relCluster p (k.clusterBase + n) = some phys
  free : x.run = []
  leftIdle : (s.cluster phys).l.state = .idle
  rightIdle : (s.cluster phys).r.state = .idle

/-! PARTICIPANT_TAKE_INDEX. -/

/-- What participant `n` does with the index `i` of a store group that the counter gave it: it takes up the group once its claim is won,
goes without one where another has the claim, and leaves the call where the claim is refused (R150, R506). -/
def takeStoreGroup (s : State) (p id n : Nat) (c : Cmd) (k : Call) (i : Nat) : State :=
  match s.claimBit p (ORef.of k.claimRef.toNat) i with
  | (s, .lost) => s
  | (s, .won) => s.takeGroup p c n i (k.clusterBase + n)
  | (s, .refused q) => ((s.loseTile p c i (some q)).leaveCall p id n).callSettle p id

theorem takeStoreGroup_of_won {s v : State} {p i : Nat} {k : Call} (id n : Nat) (c : Cmd)
    (hwon : s.claimBit p (ORef.of k.claimRef.toNat) i = (v, .won)) :
    takeStoreGroup s p id n c k i = v.takeGroup p c n i (k.clusterBase + n) := by
  rw [takeStoreGroup, hwon]

section
variable {s u : State} {p id n phys i : Nat} {c : Cmd} {k : Call} {x : Participant}

/-- A replay comes before the counter, and needs no claim (R151). -/
theorem takeIndex_of_replay {rest : List Nat} (h : MayTake s p id n phys c k x) (hreplay : k.replay = i :: rest) :
    s.takeIndex p id n = (s.modCall p id fun k => { k with replay := rest }).takeGroup p c n i (k.clusterBase + n) := by
  obtain ⟨⟨hcmd, hcall, hppt, hleft, hremoved, hsnuffed⟩, hcluster, hrun, hl, hr⟩ := h
  simp [State.takeIndex, hcmd, hcall, hppt, hcluster, hleft, hremoved, hsnuffed, hrun, hl, hr, hreplay]

/-- The index `i` that the counter gave decides what follows: past the last tile the participant leaves, a reduced group is its own at once,
a store group has to be claimed (R150). -/
theorem takeIndex_of_counted (h : MayTake s p id n phys c k x) (hreplay : k.replay = [])
    (hstill : s.anyMoving p (counterDests k.counterRef k.claimRef) = false)
    (hadd : s.memOp p .fetchAdd (ORef.of k.counterRef.toNat) 1 = (u, i, none)) :
    s.takeIndex p id n =
      if k.groups.length ≤ i then ((u.leaveCall p id n).modCall p id fun k => { k with exhausted := true }).callSettle p id
      else if k.reduces i then u.takeGroup p c n i (k.clusterBase + n)
      else takeStoreGroup u p id n c k i := by
  obtain ⟨⟨hcmd, hcall, hppt, hleft, hremoved, hsnuffed⟩, hcluster, hrun, hl, hr⟩ := h
  simp [State.takeIndex, hcmd, hcall, hppt, hcluster, hleft, hremoved, hsnuffed, hrun, hl, hr, hreplay, hstill, hadd] <;> rfl

end

/-! TILE_WATCH_EXPIRY. -/

/-- The expiry of the watch of a participant with a group in hand that has not failed yet (R151). -/
theorem tileWatchExpiry_of_run {s : State} {p id n i : Nat} {c : Cmd} {k : Call} {x : Participant}
    (h : TakesPart s p id n c k x) (hindex : x.index = some i) (hrun : x.run ≠ []) (hfailed : x.failed = false) :
    s.tileWatchExpiry p id n =
      ((s.modCall p id fun k => { k.modPpt n (fun x => { x with removed := true, failed := true }) with removed := true }).failTile
        p c i).callSettle p id := by
  obtain ⟨hcmd, hcall, hppt, hleft, hremoved, hsnuffed⟩ := h
  simp [State.tileWatchExpiry, hcmd, hcall, hppt, hleft, hremoved, hsnuffed, hindex, hrun, hfailed]

/-- Settles O18: where the next index of a participant comes from and what the participant does with it, and its removal when its watch
expires. -/
theorem sharedCallIndices : Obligations.SharedCallIndices := by
  unfold Obligations.SharedCallIndices
  intro p id n phys s c k x hcmd hcall hppt hleft hremoved hsnuffed
  have hpart : TakesPart s p.val id n c k x := ⟨hcmd, hcall, hppt, hleft, hremoved, hsnuffed⟩
  have hexec : exec (.participantTakeIndex p id n []) s = .next (s.takeIndex p.val id n) :=
    congrArg (fun t : State => Host.Outcome.next (t.takeIndex p.val id n)) (State.eccWrite_nil _ _ _ _)
  rw [hexec]
  refine ⟨fun hcluster hrun hl hr => ?_, fun i hindex hrun hfailed => ?_⟩
  · have hmay : MayTake s p.val id n phys c k x := ⟨hpart, hcluster, hrun, hl, hr⟩
    refine ⟨fun i rest hreplay => congrArg Host.Outcome.next (takeIndex_of_replay hmay hreplay), fun hreplay hstill u i hadd => ?_⟩
    rw [takeIndex_of_counted hmay hreplay hstill hadd]
    refine ⟨fun hpast => ?_, fun htile hred => ?_, fun htile hstore v hwon => ?_⟩
    · rw [if_pos hpast]
    · rw [if_neg (Nat.not_le_of_lt htile), if_pos hred]
    · rw [if_neg (Nat.not_le_of_lt htile), hstore, if_neg Bool.false_ne_true, takeStoreGroup_of_won id n c hwon]
  · exact congrArg Host.Outcome.next (tileWatchExpiry_of_run hpart hindex hrun hfailed)

end Sys2Proof.TilesAndConvolution

/-!
PROOF. Sequences and rollouts (chapter 5): the SEQ commands at their turn, the SEQ page, and the begin, issue, commit and failure of a STEP.
-/

namespace Sys2Proof.SequencesAndRollouts

open Sys2Proof.Machine
open Sys2Proof.MatrixArray (partTold_dirtyRange partTold_countRange)

/-! The SEQ commands at their turn. -/

theorem exec_seqAdd (p : PartId) (id : Nat) (s : State) : exec (.seqAdd p id []) s = .next (s.seqAdd p.val id) :=
  congrArg (fun t : State => Host.Outcome.next (t.seqAdd p.val id)) (State.eccRead_nil _ _ _ _ _)

theorem exec_seqFork (p : PartId) (id : Nat) (s : State) : exec (.seqFork p id []) s = .next (s.seqFork p.val id) :=
  congrArg (fun t : State => Host.Outcome.next (t.seqFork p.val id)) (State.eccRead_nil _ _ _ _ _)

theorem exec_seqEnd (p : PartId) (id : Nat) (s : State) : exec (.seqEnd p id []) s = .next (s.seqEnd p.val id) :=
  congrArg (fun t : State => Host.Outcome.next (t.seqEnd p.val id)) (State.eccRead_nil _ _ _ _ _)

theorem exec_prefixLookup (p : PartId) (id : Nat) (s : State) : exec (.prefixLookup p id []) s = .next (s.prefixLookup p.val id) :=
  congrArg (fun t : State => Host.Outcome.next (t.prefixLookup p.val id)) (State.eccRead_nil _ _ _ _ _)

theorem exec_pagePin (p : PartId) (id : Nat) (s : State) : exec (.pagePin p id []) s = .next (s.pagePin p.val id) :=
  congrArg (fun t : State => Host.Outcome.next (t.pagePin p.val id)) (State.eccRead_nil _ _ _ _ _)

@[simp] theorem reportDrops_none (s : State) (p : Nat) (wm : W32) : s.reportDrops p wm {} = s := rfl

theorem dropEvent_of_none (s : State) (p : Nat) (wm : W32) {d : Drops} (h : d.any = false) : s.dropEvent p wm d = s := by
  simp [State.dropEvent, h]

@[simp] theorem readStreams_nil (s : State) (p : Nat) : s.readStreams p [] = (s, none) := rfl

/-- A fork of a sequence without a stream copies none (R231). -/
@[simp] theorem forkStreams_of_none (s : State) (p : Nat) (c : Cmd) {e : SeqEntry} (h : e.streamEn = false) :
    s.forkStreams p c e = (s, none, none) := by
  simp [State.forkStreams, h]

section
variable {s : State} {p id op : Nat} {c : Cmd}

/-- A SEQ command at its turn acts on its sequence, unless that one is INSTEP and the command waits for it (R169). -/
theorem onSeq_of {waits : Bool} (h : SeqTurn s p id op c) (hwait : waits = true → (s.seqEntry p (c.fld 36 2)).state ≠ .inStep)
    (f : Cmd → Nat → State → State) : s.onSeq p id op waits f = f c (c.fld 36 2) s := by
  obtain ⟨hstart, hturn, hread⟩ := h
  unfold State.onSeq
  rw [onStarted_of hstart]
  simp only [hturn, hread, Bool.not_true, Bool.false_eq_true, if_false]
  refine if_neg fun hin => ?_
  simp only [Bool.and_eq_true, beq_iff_eq] at hin
  exact hwait hin.1 hin.2

/-- The entry that a SEQ_ADD makes of its image (R201): in mode UPDATE the old entry with the image's upd fields, in mode ADD the image without
a parent. -/
def addedEntry (s : State) (p : Nat) (c : Cmd) : SeqEntry :=
  let img := SeqEntry.ofBytes (s.peekO p (c.ref 40) 128).bytes .idle false
  if bitOf (c.fld 35 1) 0 then (s.seqEntry p (c.fld 36 2)).update img else { img with parent := 0xFFFFFFFF#32 }

theorem seqAdd_of (h : SeqTurn s p id 0x10 c) (hlook : bitOf (c.fld 35 1) 1 = false)
    (hstate : (s.seqEntry p (c.fld 36 2)).state = if bitOf (c.fld 35 1) 0 then .idle else .empty)
    (hread : (s.peekO p (c.ref 40) 128).fault = none)
    (hzero : bitOf (c.fld 35 1) 0 = false → addImageZero (s.peekO p (c.ref 40) 128).bytes = true)
    (hok : (addedEntry s p c).ok (64 * ((s.countO p (c.ref 40) 128).part p).seq.maxBlocks) = true)
    (hend : fieldAt (s.peekO p (c.ref 40) 128).bytes 82 2 < 0x1000 ∨ fieldAt (s.peekO p (c.ref 40) 128).bytes 82 2 = 0xFFFF)
    (hgate : fieldAt (s.peekO p (c.ref 40) 128).bytes 80 2 < 0x1000) :
    s.seqAdd p id = ((s.countO p (c.ref 40) 128).setSeqEntry p (c.fld 36 2) (addedEntry s p c)).done p id (c.fld 36 2) := by
  have himage : (!bitOf (c.fld 35 1) 0 && !addImageZero (s.peekO p (c.ref 40) 128).bytes) = false := by
    cases hupd : bitOf (c.fld 35 1) 0 with
    | true => rfl
    | false => simp [hzero hupd]
  have hendTok : (decide (0x1000 ≤ fieldAt (s.peekO p (c.ref 40) 128).bytes 82 2)
      && decide (fieldAt (s.peekO p (c.ref 40) 128).bytes 82 2 ≤ 0xFFFE)) = false := by
    simp only [Bool.and_eq_false_iff, decide_eq_false_iff_not]
    omega
  unfold addedEntry at hok ⊢
  unfold State.seqAdd
  rw [onSeq_of h (fun hw => absurd hw Bool.false_ne_true)]
  simp only [hstate, ne_eq, not_true_eq_false, if_false, hread, himage, hok, hendTok, Nat.not_le_of_lt hgate, hlook, Bool.not_true,
    Bool.not_false, Bool.or_self, decide_false, Bool.false_eq_true, if_true]

/-- The fork of sequence `i` into `k` children with derived seeds (R199, R200). -/
def derivedFork (s : State) (p : Nat) (c : Cmd) (e : SeqEntry) (k : Nat) : ForkRun :=
  (List.range k).foldl (fun r j => r.child p c e j (forkSeed e.seed j)) { s := s }

theorem seqFork_of (h : SeqTurn s p id 0x11 c) (hidle : (s.seqEntry p (c.fld 36 2)).state = .idle)
    (hstream : (s.seqEntry p (c.fld 36 2)).streamEn = false) (hflags : c.fld 35 1 = 0) (hseeds : c.fld 64 8 = 0)
    (hpos : 0 < c.fld 44 2) (hmax : c.fld 44 2 ≤ 256) (hcap : c.fld 40 2 + c.fld 44 2 ≤ (s.part p).ctl.seqCap.toNat)
    (hfree : ∀ j < c.fld 44 2, (s.seqEntry p (c.fld 40 2 + j)).state = .empty) (hendTok : c.fld 112 2 = 0xFFFF)
    (hgateTok : c.fld 114 2 = 0xFFFF) (hnoStream : c.fld 96 4 = 0) (hblocks : s.readBlocks p (c.fld 36 2) c.wm {} = (s, {}))
    (hclean : (derivedFork s p c (s.seqEntry p (c.fld 36 2)) (c.fld 44 2)).poison = none) :
    let r := derivedFork s p c (s.seqEntry p (c.fld 36 2)) (c.fld 44 2)
    s.seqFork p id = (r.s.reportDrops p c.wm r.drops).finishWrites p id r.refused (r.copies + 65536 * r.marked) := by
  have hids : ¬ (c.fld 44 2 = 0 ∨ 256 < c.fld 44 2 ∨ (s.part p).ctl.seqCap.toNat < c.fld 40 2 + c.fld 44 2
      ∨ ∃ j < c.fld 44 2, ¬ (s.seqEntry p (c.fld 40 2 + j)).state = .empty) := by
    rintro (hzero | hover | hpast | ⟨j, hj, hused⟩)
    · omega
    · omega
    · omega
    · exact hused (hfree j hj)
  have hkeep : bitOf (c.fld 35 1) 0 = false := by rw [hflags]; rfl
  unfold derivedFork at hclean ⊢
  unfold State.seqFork
  rw [onSeq_of h fun _ => by simp [hidle]]
  simp [hidle, hids, hstream, hendTok, hgateTok, hnoStream, hseeds, hkeep, hblocks, hclean, State.forkStreamOk]

theorem seqEnd_of (h : SeqTurn s p id 0x12 c) (hlive : (s.seqEntry p (c.fld 36 2)).state ≠ .empty)
    (hout : (s.seqEntry p (c.fld 36 2)).state ≠ .inStep) (hkeep : bitOf (c.fld 35 1) 0 = false)
    (hblocks : s.readBlocks p (c.fld 36 2) c.wm {} = (s, {})) :
    s.seqEnd p id = (s.releaseSeq p (c.fld 36 2)).1.done p id (s.releaseSeq p (c.fld 36 2)).2 := by
  unfold State.seqEnd
  rw [onSeq_of h fun _ => hout]
  cases hstate : (s.seqEntry p (c.fld 36 2)).state with
  | empty => exact absurd hstate hlive
  | inStep => exact absurd hstate hout
  | idle | finished | faulted => simp [hstate, hkeep, hblocks]

/-! The pool commands. -/

theorem prefixLookup_of (h : SeqTurn s p id 0x14 c) (hout : (s.seqEntry p (c.fld 36 2)).state ≠ .inStep)
    (hblocks : s.readBlocks p (c.fld 36 2) c.wm {} = (s, {})) (hready : s.lookupReady p (c.fld 36 2) = true) :
    let r := s.lookupLoop p (c.fld 36 2) (if c.fld 40 4 = 0 then 4096 else min (c.fld 40 4) 4096) 0
    s.prefixLookup p id = r.1.done p id r.2 := by
  unfold State.prefixLookup
  rw [onSeq_of h fun _ => hout]
  simp [hblocks, hready]

/-- The SEQ state with one pin added to each of some blocks, or taken from each (R186). -/
def pinned (q : Seq) (unpin : Bool) (slots : List Nat) : Seq :=
  slots.foldl (fun q b => q.modBlock b fun x => { x with pins := if unpin then x.pins - 1 else satAdd x.pins 1 }) q

/-- PAGE_PIN of the blocks `slots`, which its places name, all SEALED, and all pinned where it takes a pin away (R186). -/
theorem pagePin_of {slots : List Nat} (h : SeqTurn s p id 0x15 c)
    (hstate : (s.seqEntry p (c.fld 36 2)).state = .idle ∨ (s.seqEntry p (c.fld 36 2)).state = .finished)
    (hblocks : s.readBlocks p (c.fld 36 2) c.wm {} = (s, {})) (hmax : c.fld 40 4 + c.fld 44 4 ≤ (s.part p).seq.maxBlocks)
    (hslots : ((List.range (c.fld 44 4)).map fun j => (s.part p).seq.entry (c.fld 36 2) (c.fld 40 4 + j)) = slots.map some)
    (hsealed : ∀ b ∈ slots, ((s.part p).seq.block b).state = .sealed)
    (hpins : c.fld 35 1 = 1 → ∀ b ∈ slots, ((s.part p).seq.block b).pins ≠ 0) :
    let q := pinned (s.part p).seq (c.fld 35 1 == 1) slots
    s.pagePin p id =
      if c.fld 35 1 ≠ 1 ∧ bitsOf (s.part p).seq.pinLimit.toNat 0 23 < q.pinned then s.skip p id Cause.pinLimit
      else (slots.foldl (fun t b => t.dirtyBlock p b) (s.modSeq p fun _ => q)).done p id q.pinned := by
  have hnamed : ((List.range (c.fld 44 4)).map fun j =>
      if c.fld 40 4 + j < (s.part p).seq.maxBlocks then (s.part p).seq.entry (c.fld 36 2) (c.fld 40 4 + j) else none) =
      slots.map some := by
    rw [← hslots]
    refine List.map_congr_left fun j hj => if_pos ?_
    have := List.mem_range.mp hj
    omega
  have hfull : (slots.map some).any (·.isNone) = false := by simp
  have hfound : (slots.map some).filterMap (fun b => b) = slots :=
    List.filterMap_map.trans List.filterMap_some
  have hall : (slots.any fun b => ((s.part p).seq.block b).state != .sealed) = false := by
    simpa using hsealed
  have hunder : (c.fld 35 1 == 1 && slots.any fun b => ((s.part p).seq.block b).pins == 0) = false := by
    simpa using hpins
  have hturn : ((s.seqEntry p (c.fld 36 2)).state != .idle && (s.seqEntry p (c.fld 36 2)).state != .finished) = false := by
    rcases hstate with hs | hs <;> simp [hs]
  unfold pinned State.pagePin
  rw [onSeq_of h fun _ hin => by simp [hin] at hstate]
  simp only [hturn, hblocks, reportDrops_none, hnamed, hfull, hfound, hall, hunder, Bool.or_self, Bool.false_eq_true, if_false]
  simp only [Bool.and_eq_true, Bool.not_eq_true', beq_eq_false_iff_ne, decide_eq_true_eq]

end

/-! The SEQ page. -/

/-- The count of an access changes the meters of its partition only (R365, R366). -/
theorem partTold_mmio (s : State) (p : Nat) : PartTold p s (s.mmio p) := by
  unfold State.mmio
  split
  · exact .countHost p s _ _
  · exact .refl p s

theorem mmio_behind (s : State) (p : Nat) : (s.mmio p).behind p = s.behind p := by
  rw [State.behind, (partTold_mmio s p).mine]
  rfl

theorem mmio_vfOpen (s : State) (p : Nat) : (s.mmio p).vfOpen p = s.vfOpen p := by
  rw [State.vfOpen, State.vfReach, (partTold_mmio s p).mine]
  rfl

/-- A posted write of the SEQ page behind which nothing waits is carried out on the state in which its access has been counted (R364). -/
theorem postCmd_of {s : State} {p : Nat} (hfree : s.behind p = false) (i : Instr) :
    s.postCmd p i = (s.mmio p).applyPosted p i := by
  simp [State.postCmd, State.post, mmio_behind, hfree]

theorem exec_seqPageStart {p : PartId} {s : State} (hopen : s.vfOpen p.val = true) (hfree : s.behind p.val = false) :
    exec (.seqPageStart p) s = .next ((s.mmio p.val).seqPageStart p.val) := by
  refine congrArg Host.Outcome.next ((postCmd_of hfree _).trans ?_)
  exact if_pos ((mmio_vfOpen s p.val).trans hopen)

theorem exec_seqPageStop {p : PartId} {s : State} (hopen : s.vfOpen p.val = true) (hfree : s.behind p.val = false) :
    exec (.seqPageStop p) s = .next ((s.mmio p.val).seqPageStop p.val) := by
  refine congrArg Host.Outcome.next ((postCmd_of hfree _).trans ?_)
  exact if_pos ((mmio_vfOpen s p.val).trans hopen)

/-- START with a configuration in order; where it has changed, no sequence is left (R203, R491). -/
theorem seqPageStart_of {s : State} {p : Nat} (hoff : (s.part p).seq.started = false) (hok : s.seqConfigOk p = true)
    (hempty : (s.part p).seq.changed = true → ∀ x ∈ (s.part p).seq.table, x.2.state = .empty) :
    s.seqPageStart p =
      if (s.part p).seq.changed then
        ((s.modSeq p fun q => { q with started := true, changed := false, pool' := [], lists := [] }).blankLists p).dirtyRange p
          (s.part p).seq.metaObj.toNat 0 (72 * (s.part p).seq.nblocks)
      else s.modSeq p fun q => { q with started := true } := by
  have hnone : ((s.part p).seq.changed && (s.part p).seq.table.any fun e => e.2.state != .empty) = false := by
    simpa using hempty
  simp only [State.seqPageStart, hoff, hok, hnone, Bool.not_true, Bool.or_self, Bool.false_eq_true, if_false]

/-- STOP of a SEQ page that has started is refused while a command of the SEQ engine is outstanding (R203, R491). -/
theorem seqPageStop_of {s : State} {p : Nat} (hon : (s.part p).seq.started = true) :
    s.seqPageStop p =
      if (s.part p).cmd.cmds.any fun c => c.engine == 2 then s.rejectVf p 0x15 0x008 errStop Cause.seqBusy 2
      else s.modSeq p fun q => { q with started := false } := by
  simp only [State.seqPageStop, hon, Bool.not_true, Bool.false_eq_true, if_false]

/-- Settles O19: SEQ_ADD, SEQ_FORK and SEQ_END at their turn. -/
theorem sequenceEntries : Obligations.SequenceEntries := by
  unfold Obligations.SequenceEntries
  intro p id s c
  refine ⟨?_, ?_, ?_⟩
  · intro h hlook hstate rd u img e' hread hzero hok hend hgate
    rw [exec_seqAdd]
    exact congrArg Host.Outcome.next (seqAdd_of h hlook hstate hread hzero hok hend hgate)
  · intro h hidle hstream _ hflags hseeds k hpos hmax hcap hfree hendTok hgateTok hnoStream hblocks r hclean
    rw [exec_seqFork]
    exact congrArg Host.Outcome.next
      (seqFork_of h hidle hstream hflags hseeds hpos hmax hcap hfree hendTok hgateTok hnoStream hblocks hclean)
  · intro h hlive hout hkeep hblocks r
    rw [exec_seqEnd]
    exact congrArg Host.Outcome.next (seqEnd_of h hlive hout hkeep hblocks)

/-- Settles O20: PREFIX_LOOKUP and PAGE_PIN at their turn, and START and STOP of the SEQ page. -/
theorem poolCommands : Obligations.PoolCommands := by
  unfold Obligations.PoolCommands
  intro p id s c
  refine ⟨?_, ?_, ?_⟩
  · intro h hout hblocks hready r
    rw [exec_prefixLookup]
    exact congrArg Host.Outcome.next (prefixLookup_of h hout hblocks hready)
  · intro h hstate hblocks slots hmax hslots hsealed hpins q
    rw [exec_pagePin]
    exact congrArg Host.Outcome.next (pagePin_of h hstate hblocks hmax hslots hsealed hpins)
  · intro hopen hfree u q
    refine ⟨fun hoff hok hempty => ?_, fun hon hquiet => ?_, fun hon hbusy => ?_⟩
    · rw [exec_seqPageStart hopen hfree]
      exact congrArg Host.Outcome.next (seqPageStart_of hoff hok hempty)
    · rw [exec_seqPageStop hopen hfree]
      refine congrArg Host.Outcome.next ((seqPageStop_of hon).trans (if_neg ?_))
      simpa using hquiet
    · rw [exec_seqPageStop hopen hfree]
      refine congrArg Host.Outcome.next ((seqPageStop_of hon).trans (if_pos ?_))
      simpa using hbusy

/-! What a STEP's rows are. -/

theorem exec_step (p : PartId) (id : Nat) (s : State) : exec (.step p id []) s = .next (s.stepRow p.val id) :=
  congrArg (fun t : State => Host.Outcome.next (t.stepRow p.val id)) (State.eccRead_nil _ _ _ _ _)

theorem exec_stepCommit (p : PartId) (id : Nat) (s : State) :
    exec (.stepCommit p id []) s = .next (s.stepCommitMirrored p.val id) :=
  congrArg (fun t : State => Host.Outcome.next (t.stepCommitMirrored p.val id)) (State.eccRead_nil _ _ _ _ _)

theorem exec_stepPhaseFail (p : PartId) (id : Nat) (s : State) :
    exec (.stepPhaseFail p id []) s = .next (s.stepPhaseFail p.val id) :=
  congrArg (fun t : State => Host.Outcome.next (t.stepPhaseFail p.val id)) (State.eccRead_nil _ _ _ _ _)

/-- A partition that is not mirrored neither withholds a commit nor makes a delta of it (R407). -/
theorem mirrored_of_unmirrored {s : State} {p : Nat} (h : (s.part p).mir.enable = false) (t : State) (id : Nat) (commits : Cmd → Bool) :
    s.mirrored t p id commits = t := by
  unfold State.mirrored
  split
  · simp [Mirror.alone, Mirror.sends, h]
  · rfl

theorem stepRow_of_unmirrored {s : State} {p : Nat} (h : (s.part p).mir.enable = false) (id : Nat) : s.stepRow p id = s.stepCmd p id :=
  mirrored_of_unmirrored h _ _ _

theorem stepCommitMirrored_of_unmirrored {s : State} {p : Nat} (h : (s.part p).mir.enable = false) (id : Nat) :
    s.stepCommitMirrored p id = s.stepCommit p id :=
  mirrored_of_unmirrored h _ _ _

/-! The order of the candidates. -/

theorem sortBy_go_perm {α : Type} (f : α → Nat) (a : α) (l : List α) : (sortBy.go f a l).Perm (a :: l) := by
  induction l with
  | nil => exact .refl _
  | cons b t ih =>
    unfold sortBy.go
    split
    · exact .refl _
    · exact (ih.cons b).trans (.swap a b t)

theorem sortBy_perm {α : Type} (f : α → Nat) (l : List α) : (sortBy f l).Perm l := by
  induction l with
  | nil => exact .refl _
  | cons a t ih => exact (sortBy_go_perm f a _).trans (ih.cons a)

@[simp] theorem sortBy_singleton {α : Type} (f : α → Nat) (a : α) : sortBy f [a] = [a] := rfl

/-! The collection of a STEP's members. -/

/-- The live sequences of a partition: neither EMPTY nor FAULTED. -/
def liveSeqs (s : State) (p : Nat) : List Nat :=
  ((s.part p).seq.table.filter fun e => e.2.state != .empty && e.2.state != .faulted).map (·.1)

/-- A candidate that is not runnable is left out (R190). -/
theorem take_of_not_runnable {x : Collect} {p i : Nat} (h : x.s.runnable p (x.s.seqEntry p i) = false) (wm : W32) (pl : Plan)
    (noTier2 : Bool) : x.take p wm pl noTier2 i = x := by
  simp [Collect.take, h]

theorem foldl_take_of_not_runnable {x : Collect} {p : Nat} (wm : W32) (pl : Plan) (noTier2 : Bool) {is : List Nat}
    (h : ∀ i ∈ is, x.s.runnable p (x.s.seqEntry p i) = false) : is.foldl (fun x i => x.take p wm pl noTier2 i) x = x := by
  induction is with
  | nil => rfl
  | cons i is ih =>
    rw [List.foldl_cons, take_of_not_runnable (h i List.mem_cons_self)]
    exact ih fun j hj => h j (List.mem_cons_of_mem i hj)

/-- A collection that finds no runnable sequence ends its STEP with detail 0 (R190, R197). -/
theorem collect_of_idle {s : State} {p : Nat} {c : Cmd} {pl : Plan} (hread : s.readEntries p c.wm (liveSeqs s p) = (s, none))
    (hidle : ∀ i ∈ liveSeqs s p, s.runnable p (s.seqEntry p i) = false) :
    s.collect p c pl = ((s.countDrops p {}).countStep p).done p c.id 0 := by
  have hnone (f : Nat → Nat) (b : Bool) :
      (sortBy f (liveSeqs s p)).foldl (fun (x : Collect) i => x.take p c.wm pl b i) { s := s } = { s := s } :=
    foldl_take_of_not_runnable _ _ _ fun i hi => hidle i ((sortBy_perm f _).mem_iff.mp hi)
  unfold liveSeqs at hread hnone
  unfold State.collect
  simp only [hread, hnone]
  rfl

/-- The STEP of command `c` with plan `pl`, once `m` is collected as its only member (R190 to R194). -/
def soleRun (s : State) (p : Nat) (c : Cmd) (pl : Plan) (m : Member) : StepRun :=
  { id := c.id, members := [m], phases := pl.phases, maxRows := pl.maxRows, maxMembers := pl.maxMembers, wsRef := word64 c.desc 48
    tokBase := c.fld 36 2, sampled := (List.range pl.nphase).map fun i => (s.token p (c.fld 36 2 + i)).val
    issued := List.replicate pl.nphase 0, totalRows := m.rows }

/-- A contribution names its sequence, and has no place in the batch yet (R191). -/
theorem contribution_place (e : SeqEntry) (i chunk : Nat) : (e.contribution i chunk).seq = i ∧ (e.contribution i chunk).row0 = 0 := by
  simp only [SeqEntry.contribution]
  split
  · exact ⟨rfl, rfl⟩
  · split
    · exact ⟨rfl, rfl⟩
    · split <;> exact ⟨rfl, rfl⟩

/-- A batch of one image step is laid out from its first row on (R192). -/
theorem layOut_of_refine {m : Member} (hkind : m.kind = 2) (hrow : m.row0 = 0) : layOut [m] = [m] := by
  obtain ⟨seq, kind, guide, recompute, first, count, rows, row0⟩ := m
  dsimp only at hkind hrow
  subst hkind hrow
  rfl

section
variable {s v w : State} {p i : Nat} {c : Cmd} {pl : Plan} {m : Member}

/-- A runnable candidate that contributes an image step `m`, which needs no block of the pool, is taken where it fits the plan (R191). -/
theorem take_of_refine {wm : W32} (noTier2 : Bool) (hrun : s.runnable p (s.seqEntry p i) = true)
    (hblocks : s.readBlocks p i wm {} = (s, {})) (hm : (s.seqEntry p i).contribution i pl.chunk = m) (hkind : m.kind = 2)
    (hrows : m.rows ≤ pl.maxRows) (hmembers : 0 < pl.maxMembers) :
    ({ s := s } : Collect).take p wm pl noTier2 i =
      { s := s.modSeqEntry p i fun e => { e with state := .inStep }, members := [m], rows := m.rows } := by
  have hmissing : (s.part p).seq.missing m = [] := by
    simp [Seq.missing, hkind]
  have hfits : ¬ (pl.maxRows < m.rows ∨ pl.maxMembers ≤ 0) := by
    omega
  unfold Collect.take
  simp only [hrun, hblocks, hm, hmissing, State.supply, State.placeBlocks, List.foldl_nil, Bool.not_true, Bool.false_eq_true, if_false,
    List.length_nil, List.nil_append, Nat.zero_add, if_neg hfits]
  exact if_neg fun hgen => absurd (hkind.symm.trans hgen.1) (by decide)

/-- A collection whose one live sequence is runnable and contributes the image step `m`, which fits; `v` is the state in which it has been
taken and its schedule entry counted, `w` that in which the workspace is written besides (R190 to R193). -/
theorem collect_of_refine (hlive : liveSeqs s p = [i]) (hread : s.readEntries p c.wm (liveSeqs s p) = (s, none))
    (hrun : s.runnable p (s.seqEntry p i) = true) (hblocks : s.readBlocks p i c.wm {} = (s, {}))
    (hm : (s.seqEntry p i).contribution i pl.chunk = m) (hkind : m.kind = 2) (hrows : m.rows ≤ pl.maxRows)
    (hmembers : 0 < pl.maxMembers)
    (hv : ((s.modSeqEntry p i fun e => { e with state := .inStep }).countDrops p {}).countSchedule p [m] = v)
    (hsched : (v.schedule p (v.seqEntry p i)).fault = none)
    (hpoke : v.pokeAll p (v.workspace p (c.ref 48) pl.maxRows pl.maxMembers [m]) = (w, none)) :
    s.collect p c pl = ((w.modSeq p fun q => { q with run := some (soleRun s p c pl m) }).modCmd p c.id
      fun c => { c with stage := 1 }).issueCalls p c (soleRun s p c pl m).fuel := by
  obtain ⟨hseq, hrow⟩ : m.seq = i ∧ m.row0 = 0 := hm ▸ contribution_place _ _ _
  have hlay : layOut [m] = [m] := layOut_of_refine hkind hrow
  have hfault : ([m].findSome? fun m => if m.kind = 2 then (v.schedule p (v.seqEntry p m.seq)).fault else none) = none := by
    simp [hseq, hsched]
  rw [hlive] at hread
  unfold liveSeqs at hlive
  unfold State.collect
  simp only [hlive, hread, sortBy_singleton, List.foldl_cons, List.foldl_nil, take_of_refine _ hrun hblocks hm hkind hrows hmembers, hlay,
    hv, hfault, hpoke, List.isEmpty_cons, Bool.false_eq_true, if_false]
  rfl

end

/-- Counting what is read touches no token. -/
theorem countO_token (s : State) (p : Nat) (r : ORef) (n t : Nat) : (s.countO p r n).token p t = s.token p t := by
  rw [State.token, State.countO, (partTold_countRange s p _ _ _).mine]
  rfl

theorem soleRun_countO (s : State) (p : Nat) (c : Cmd) (pl : Plan) (m : Member) (r : ORef) (n : Nat) :
    soleRun (s.countO p r n) p c pl m = soleRun s p c pl m := by
  simp only [soleRun, countO_token]

/-! A STEP begins and issues its calls. -/

/-- A STEP begins with a plan in order, and its workspace neither forbidden nor MOVING (R189, R242). -/
theorem stepCmd_of_begin {s : State} {p id : Nat} {c : Cmd} {pl : Plan} (hstart : Started s p id 2 0x13 c) (hstage : c.stage = 0)
    (hplan : (s.object p (c.ref 40).handle).usable = true) (hws : (s.object p (c.ref 48).handle).usable = true)
    (hread : s.readPlan p c = some (none, some pl)) (hdest : s.destCheck p (c.ref 48).handle = 0)
    (hstill : s.anyMoving p [(c.ref 48).handle] = false) :
    s.stepCmd p id = (s.countO p (c.ref 40) (64 + 64 * pl.nphase)).collect p c pl := by
  unfold State.stepCmd
  rw [onStarted_of hstart]
  simp [hstage, hplan, hws, hread, hdest, hstill]

section
variable {s : State} {p id : Nat} {c : Cmd} {r : StepRun}

theorem stepCmd_of_issue (hstart : Started s p id 2 0x13 c) (hstage : c.stage ≠ 0) (hrun : (s.part p).seq.run = some r) (hid : r.id = id)
    (hmore : r.allIssued = false) : s.stepCmd p id = s.issueCalls p c r.fuel := by
  unfold State.stepCmd
  rw [onStarted_of hstart]
  simp [hstage, hrun, hid, hmore]

/-- Past its last phase a STEP has issued all its calls (R194). -/
theorem issueCalls_of_past (hrun : (s.part p).seq.run = some r) (hpast : r.phases.length ≤ r.phase) :
    s.issueCalls p c r.fuel = s.modRun p fun r => { r with allIssued := true } := by
  unfold StepRun.fuel State.issueCalls
  simp only [hrun, List.getElem?_eq_none hpast, ite_self]

end

/-! What the operations on the pool and on sequence entries leave of a partition. -/

/-- Between `s` and `t` the command system of partition `p`, its running STEP and its count of STEPs stay. -/
structure KeepsStep (p : Nat) (s t : State) : Prop where
  cmd : (t.part p).cmd = (s.part p).cmd
  run : (t.part p).seq.run = (s.part p).seq.run
  steps : (t.part p).seq.steps = (s.part p).seq.steps

/-- Between `s` and `t` its sequence entries stay as well. -/
structure KeepsEntries (p : Nat) (s t : State) : Prop extends KeepsStep p s t where
  table : (t.part p).seq.table = (s.part p).seq.table

theorem KeepsStep.refl (p : Nat) (s : State) : KeepsStep p s s := ⟨rfl, rfl, rfl⟩

theorem KeepsStep.trans {p : Nat} {s t u : State} (h : KeepsStep p s t) (k : KeepsStep p t u) : KeepsStep p s u :=
  ⟨k.cmd.trans h.cmd, k.run.trans h.run, k.steps.trans h.steps⟩

theorem KeepsEntries.refl (p : Nat) (s : State) : KeepsEntries p s s := ⟨.refl p s, rfl⟩

theorem KeepsEntries.trans {p : Nat} {s t u : State} (h : KeepsEntries p s t) (k : KeepsEntries p t u) : KeepsEntries p s u :=
  ⟨h.toKeepsStep.trans k.toKeepsStep, k.table.trans h.table⟩

theorem KeepsEntries.seqEntry {p : Nat} {s t : State} (h : KeepsEntries p s t) (i : Nat) : t.seqEntry p i = s.seqEntry p i := by
  rw [State.seqEntry, State.seqEntry, h.table]

/-- An event or a transfer told to a partition leaves its sequences. -/
theorem KeepsEntries.of_told {p : Nat} {s t : State} (h : PartTold p s t) : KeepsEntries p s t := by
  have hm := h.mine
  exact ⟨⟨by rw [hm], by rw [hm], by rw [hm]⟩, by rw [hm]⟩

/-- A change of the SEQ state apart from entries, running STEP and count of STEPs. -/
theorem KeepsEntries.modSeq (p : Nat) (s : State) {f : Seq → Seq}
    (hf : ∀ q, (f q).run = q.run ∧ (f q).steps = q.steps ∧ (f q).table = q.table) : KeepsEntries p s (s.modSeq p f) := by
  obtain ⟨hrun, hsteps, htable⟩ := hf (s.part p).seq
  refine ⟨⟨?_, ?_, ?_⟩, ?_⟩ <;> simp [hrun, hsteps, htable]

theorem KeepsEntries.modBlock (p : Nat) (s : State) (b : Nat) (f : Block → Block) : KeepsEntries p s (s.modBlock p b f) :=
  (KeepsEntries.modSeq p s (f := (·.modBlock b f)) fun _ => ⟨rfl, rfl, rfl⟩).trans
    (.of_told (partTold_dirtyRange _ p _ _ _))

theorem KeepsEntries.freeBlock (p : Nat) (s : State) (b : Nat) : KeepsEntries p s (s.freeBlock p b) := .modBlock p s b _

theorem KeepsEntries.countO (p : Nat) (s : State) (r : ORef) (n : Nat) : KeepsEntries p s (s.countO p r n) :=
  .of_told (partTold_countRange s p _ _ _)

theorem KeepsEntries.pokeHeld (p : Nat) (s : State) (r : ORef) (bs : List Byte) : KeepsEntries p s (s.pokeHeld p r bs).1 := by
  unfold State.pokeHeld
  split
  · refine ⟨⟨?_, ?_, ?_⟩, ?_⟩ <;> simp [State.modObject]
  · exact .of_told (.pokeO p s r bs)

theorem KeepsEntries.setPage (p : Nat) (s : State) (i j : Nat) (b : Option Nat) : KeepsEntries p s (s.setPage p i j b) := by
  unfold State.setPage
  dsimp only
  refine KeepsEntries.trans ?_ (.of_told (.markDirty p _ _))
  refine foldl_keeps (fun t : State => KeepsEntries p s t) _ (fun t pl ht => ht.trans (.pokeHeld p t _ _)) _ ?_
  exact .modSeq p s fun _ => ⟨rfl, rfl, rfl⟩

/-- The sealing of a block, whether it is found in the tree or not (R180, R195 step 5). -/
theorem KeepsEntries.sealBlock (p : Nat) (s : State) (i j b : Nat) : KeepsEntries p s (s.sealBlock p i j b) := by
  unfold State.sealBlock
  dsimp only
  split
  · exact .modBlock p s b _
  · split
    · exact ((((KeepsEntries.countO p s _ _).trans (.pokeHeld p _ _ _)).trans (.freeBlock p _ b)).trans (.setPage p _ i j _)).trans
        (.modSeq p _ fun _ => ⟨rfl, rfl, rfl⟩)
    · exact ((KeepsEntries.countO p s _ _).trans (.pokeHeld p _ _ _)).trans (.modBlock p _ b _)

theorem KeepsEntries.sealUpTo (p i n : Nat) (s : State) (j : Nat) : KeepsEntries p s (s.sealUpTo p i n j) := by
  induction n generalizing s j with
  | zero => exact .refl p s
  | succ n ih =>
    unfold State.sealUpTo
    dsimp only
    split
    · exact .refl p s
    · split
      · exact .refl p s
      · split
        · exact ih s (j + 1)
        · split
          · exact .refl p s
          · exact (KeepsEntries.sealBlock p s i j _).trans (ih _ (j + 1))
        · exact .refl p s

theorem modSeqEntry_keepsStep (p : Nat) (s : State) (i : Nat) (f : SeqEntry → SeqEntry) : KeepsStep p s (s.modSeqEntry p i f) := by
  refine KeepsStep.trans ?_ (KeepsEntries.of_told (.markDirty p _ _)).toKeepsStep
  exact ⟨by simp, by simp, by simp⟩

theorem modSeqEntry_seqEntry (s : State) (p i j : Nat) (f : SeqEntry → SeqEntry) :
    (s.modSeqEntry p i f).seqEntry p j = if j = i then f (s.seqEntry p i) else s.seqEntry p j := by
  rw [State.modSeqEntry, (KeepsEntries.of_told (.markDirty p _ _)).seqEntry]
  simp [State.seqEntry, tget_tmod]

theorem modSeqEntry_mem (s : State) (p i : Nat) (f : SeqEntry → SeqEntry) : (s.modSeqEntry p i f).mem = s.mem := by
  unfold State.modSeqEntry State.markDirty
  dsimp only
  split <;> rfl

/-! The commit of a STEP. -/

/-- The completion actions that follow a member's advance (R195): its full blocks seal, its entry takes the STEP's waymark, its blocks are
stamped. -/
def closeMember (s : State) (p i : Nat) (wm : W32) : State :=
  let t := (s.sealUpTo p i (s.part p).seq.maxBlocks 0).modSeqEntry p i fun e => { e with lastStepWm := wm, stepped := true }
  ((t.part p).seq.blocksOf i).foldl (fun u b => u.modBlock p b.2 fun x => { x with stamp := (t.part p).seq.steps }) t

/-- The completion actions of an image step that is not the last of its sequence (R195). -/
theorem commitMember_of_refine {s : State} {p : Nat} {c : Cmd} {m : Member} (hkind : m.kind = 2)
    (hmore : (s.seqEntry p m.seq).step + 1 ≠ (s.seqEntry p m.seq).target) :
    s.commitMember p c m =
      closeMember (s.modSeqEntry p m.seq fun _ => { s.seqEntry p m.seq with step := (s.seqEntry p m.seq).step + 1, state := .idle }) p m.seq
        c.wm := by
  have hsample : s.countSample p m = s := by simp [State.countSample, hkind]
  unfold State.commitMember
  simp only [hkind, hsample, beq_eq_false_iff_ne.mpr hmore, Bool.not_false, if_true]
  rfl

/-- The stamps of a member's blocks touch no entry. -/
theorem closeMember_keepsEntries (s : State) (p i : Nat) (wm : W32) :
    KeepsEntries p ((s.sealUpTo p i (s.part p).seq.maxBlocks 0).modSeqEntry p i fun e => { e with lastStepWm := wm, stepped := true })
      (closeMember s p i wm) := by
  unfold closeMember
  dsimp only
  refine foldl_keeps (fun t : State => KeepsEntries p _ t) _ (fun t b ht => ?_) _ (.refl p _)
  exact ht.trans (.modBlock p t b.2 _)

theorem closeMember_keepsStep (s : State) (p i : Nat) (wm : W32) : KeepsStep p s (closeMember s p i wm) :=
  ((KeepsEntries.sealUpTo p i _ s 0).toKeepsStep.trans (modSeqEntry_keepsStep p _ i _)).trans (closeMember_keepsEntries s p i wm).toKeepsStep

theorem closeMember_seqEntry (s : State) (p i : Nat) (wm : W32) :
    (closeMember s p i wm).seqEntry p i = { s.seqEntry p i with lastStepWm := wm, stepped := true } := by
  rw [(closeMember_keepsEntries s p i wm).seqEntry, modSeqEntry_seqEntry, if_pos rfl, (KeepsEntries.sealUpTo p i _ s 0).seqEntry]

/-- A sequence whose image step is committed is IDLE again, one step further, with the STEP's waymark (R195). -/
theorem commitMember_seqEntry {s : State} {p : Nat} {c : Cmd} {m : Member} (hkind : m.kind = 2)
    (hmore : (s.seqEntry p m.seq).step + 1 ≠ (s.seqEntry p m.seq).target) :
    (s.commitMember p c m).seqEntry p m.seq = { s.seqEntry p m.seq with
      step := (s.seqEntry p m.seq).step + 1, state := .idle, lastStepWm := c.wm, stepped := true } := by
  rw [commitMember_of_refine hkind hmore, closeMember_seqEntry, modSeqEntry_seqEntry, if_pos rfl]

theorem commitMember_keepsStep {s : State} {p : Nat} {c : Cmd} {m : Member} (hkind : m.kind = 2)
    (hmore : (s.seqEntry p m.seq).step + 1 ≠ (s.seqEntry p m.seq).target) : KeepsStep p s (s.commitMember p c m) := by
  rw [commitMember_of_refine hkind hmore]
  exact (modSeqEntry_keepsStep p s m.seq _).trans (closeMember_keepsStep _ p m.seq c.wm)

/-- The count of a STEP as completed (R204). -/
@[simp] theorem countStep_part (s : State) (p : Nat) :
    (s.countStep p).part p = { s.part p with seq := { (s.part p).seq with steps := (s.part p).seq.steps + 1 } } :=
  State.modSeq_part_self ..

@[simp] theorem finish_part_seq (s : State) (p id : Nat) (st : Status) (cause : W16) (detail : Nat) (part : Bool) :
    ((s.finish p id st cause detail part).part p).seq = (s.part p).seq := by
  simp [State.finish, State.modCmd]

theorem finish_seqEntry (s : State) (p id : Nat) (st : Status) (cause : W16) (detail : Nat) (part : Bool) (i : Nat) :
    (s.finish p id st cause detail part).seqEntry p i = s.seqEntry p i := by
  simp [State.seqEntry]

/-- The STEP `c` of partition `p` runs as `r`, and every call that it issued is terminal. -/
structure CallsEnded (s : State) (p id : Nat) (c : Cmd) (r : StepRun) : Prop where
  started : Started s p id 2 0x13 c
  run : (s.part p).seq.run = some r
  mine : r.id = id
  ended : s.callsOver p r = true

/-- The state in which a STEP that runs as `r` commits (R195). -/
def committed (s : State) (p : Nat) (c : Cmd) (r : StepRun) : State :=
  (((r.members.foldl (fun s m => s.commitMember p c m) (s.countStep p)).countDrops p {}).dropEvent p c.wm (r.drops.join {})).modSeq p
    fun q => { q with run := none }

section
variable {s : State} {p id : Nat} {c : Cmd} {r : StepRun}

theorem stepCommit_of (h : CallsEnded s p id c r) (hall : r.allIssued = true) (hfailed : r.failed = none) (hsnuffed : r.snuffed = false)
    (hread : s.readEntries p c.wm (r.members.map (·.seq)) = (s, none))
    (hblocks : r.members.foldl (fun a m => a.1.readBlocks p m.seq c.wm a.2) (s, ({} : Drops)) = (s, {})) :
    s.stepCommit p id =
      (committed s p c r).finishWrites p id r.refused ({ r with dropped := (r.drops.join {}).any } : StepRun).detail := by
  obtain ⟨hstart, hrun, hid, hended⟩ := h
  unfold State.stepCommit
  rw [onStarted_of hstart]
  simp [hrun, hid, hended, hall, hfailed, hsnuffed, hread, hblocks, committed]

/-- A STEP whose one member is an image step that is not its sequence's last, and which dropped no block, commits (R195, R204). -/
theorem committed_of_refine {m : Member} (hm : r.members = [m]) (hkind : m.kind = 2)
    (hmore : (s.seqEntry p m.seq).step + 1 ≠ (s.seqEntry p m.seq).target) (hdrops : r.drops.any = false) :
    (committed s p c r).seqEntry p m.seq = { s.seqEntry p m.seq with
      step := (s.seqEntry p m.seq).step + 1, state := .idle, lastStepWm := c.wm, stepped := true } ∧
    ((committed s p c r).part p).seq.run = none ∧ ((committed s p c r).part p).seq.steps = (s.part p).seq.steps + 1 ∧
    ((committed s p c r).part p).cmd = (s.part p).cmd := by
  have hjoin : (r.drops.join {}).any = false := hdrops
  have hentry : (s.countStep p).seqEntry p m.seq = s.seqEntry p m.seq := by simp [State.seqEntry]
  rw [← hentry] at hmore ⊢
  have hkeep := commitMember_keepsStep (c := c) hkind hmore
  unfold committed
  rw [hm, dropEvent_of_none _ _ _ hjoin, List.foldl_cons, List.foldl_nil]
  refine ⟨?_, ?_, ?_, ?_⟩
  · rw [← commitMember_seqEntry hkind hmore]
    simp [State.seqEntry, State.countDrops]
  · simp
  · simp [State.countDrops, hkeep.steps]
  · simp [State.countDrops, hkeep.cmd]

/-- What such a STEP leaves once it has ended DONE. -/
theorem committed_done {m : Member} (hcmd : s.cmd? p id = some c) (hm : r.members = [m]) (hkind : m.kind = 2)
    (hmore : (s.seqEntry p m.seq).step + 1 ≠ (s.seqEntry p m.seq).target) (hdrops : r.drops.any = false) (detail : Nat) :
    let t := (committed s p c r).done p id detail
    let e := s.seqEntry p m.seq
    (t.seqEntry p m.seq).state = .idle ∧ (t.seqEntry p m.seq).step = e.step + 1 ∧ (t.seqEntry p m.seq).pos = e.pos ∧
      (t.seqEntry p m.seq).lastStepWm = c.wm ∧ (t.part p).seq.run = none ∧ (t.part p).seq.steps = (s.part p).seq.steps + 1 ∧
      (t.cmd? p id).map (fun d => (d.phase, d.status, d.cause)) = some (.ended, .done, 0) := by
  obtain ⟨hentry, hnone, hsteps, hkeep⟩ := committed_of_refine (c := c) hm hkind hmore hdrops
  have hfound : (committed s p c r).cmd? p id = some c := by
    rw [State.cmd?, hkeep]
    exact hcmd
  dsimp only [State.done]
  rw [finish_seqEntry, finish_part_seq, hentry, hnone, hsteps, State.finish_cmd, hfound]
  exact ⟨rfl, rfl, rfl, rfl, rfl, rfl, rfl⟩

/-! The failure of a STEP. -/

theorem dropEvent_keepsEntries (s : State) (p : Nat) (wm : W32) (d : Drops) : KeepsEntries p s (s.dropEvent p wm d) := by
  unfold State.dropEvent
  split
  · exact .refl p s
  · exact .of_told (.raisePart p s _ _ _ _)

/-- A member's entry once its STEP has ended without a commit (R196). -/
def idled (e : SeqEntry) : SeqEntry := if e.state = .inStep then { e with state := .idle } else e

theorem idled_state_ne (e : SeqEntry) : (idled e).state ≠ .inStep := by
  unfold idled
  split
  · exact SeqState.noConfusion
  · assumption

theorem idled_idem (e : SeqEntry) : idled (idled e) = idled e := if_neg (idled_state_ne e)

theorem idled_eq (e : SeqEntry) : idled e = { e with state := (idled e).state } := by
  unfold idled
  split <;> rfl

theorem membersIdle_seqEntry (s : State) (p : Nat) (ms : List Member) (j : Nat) :
    (s.membersIdle p ms).seqEntry p j = if j ∈ ms.map (·.seq) then idled (s.seqEntry p j) else s.seqEntry p j := by
  induction ms generalizing s with
  | nil => rfl
  | cons m ms ih =>
    have hstep : s.membersIdle p (m :: ms) = (s.modSeqEntry p m.seq idled).membersIdle p ms := rfl
    rw [hstep, ih, modSeqEntry_seqEntry, List.map_cons]
    by_cases hj : j = m.seq
    · subst hj
      simp [idled_idem]
    · simp [hj]

theorem membersIdle_keepsStep (s : State) (p : Nat) (ms : List Member) : KeepsStep p s (s.membersIdle p ms) := by
  unfold State.membersIdle
  exact foldl_keeps (fun t : State => KeepsStep p s t) _ (fun t m ht => ht.trans (modSeqEntry_keepsStep p t m.seq _)) _ (.refl p s)

theorem membersIdle_mem (s : State) (p : Nat) (ms : List Member) : (s.membersIdle p ms).mem = s.mem := by
  unfold State.membersIdle
  exact foldl_keeps (fun t : State => t.mem = s.mem) _ (fun t m ht => (modSeqEntry_mem t p m.seq _).trans ht) _ rfl

/-- The state in which a STEP that runs as `r` has been given up (R196): its members stand as before it. -/
def abandoned (s : State) (p : Nat) (c : Cmd) (r : StepRun) : State :=
  ((s.membersIdle p r.members).modSeq p fun q => { q with run := none }).dropEvent p c.wm r.drops

theorem abandoned_cmd (s : State) (p : Nat) (c : Cmd) (r : StepRun) : ((abandoned s p c r).part p).cmd = (s.part p).cmd := by
  rw [abandoned, (dropEvent_keepsEntries _ p _ _).cmd]
  simp [(membersIdle_keepsStep s p _).cmd]

theorem abandoned_run (s : State) (p : Nat) (c : Cmd) (r : StepRun) : ((abandoned s p c r).part p).seq.run = none := by
  rw [abandoned, (dropEvent_keepsEntries _ p _ _).run]
  simp

theorem abandoned_steps (s : State) (p : Nat) (c : Cmd) (r : StepRun) :
    ((abandoned s p c r).part p).seq.steps = (s.part p).seq.steps := by
  rw [abandoned, (dropEvent_keepsEntries _ p _ _).steps]
  simp [(membersIdle_keepsStep s p _).steps]

theorem abandoned_seqEntry (s : State) (p : Nat) (c : Cmd) {r : StepRun} {m : Member} (hm : m ∈ r.members) :
    (abandoned s p c r).seqEntry p m.seq = idled (s.seqEntry p m.seq) := by
  rw [abandoned, (dropEvent_keepsEntries _ p _ _).seqEntry]
  have hmem : m.seq ∈ r.members.map (·.seq) := List.mem_map_of_mem hm
  have hidle := membersIdle_seqEntry s p r.members m.seq
  rw [if_pos hmem] at hidle
  rw [← hidle]
  simp [State.seqEntry]

theorem abandoned_mem {s : State} {p : Nat} {c : Cmd} {r : StepRun} (h : r.drops.any = false) : (abandoned s p c r).mem = s.mem := by
  rw [abandoned, dropEvent_of_none _ _ _ h]
  exact membersIdle_mem s p _

theorem stepPhaseFail_of_snuffed (h : CallsEnded s p id c r) (hsnuffed : r.snuffed = true) :
    s.stepPhaseFail p id = (abandoned s p c r).finish p id .snuffed 0 r.detail r.wrote := by
  obtain ⟨hstart, hrun, hid, hended⟩ := h
  unfold State.stepPhaseFail
  rw [onStarted_of hstart]
  simp only [hrun, hid, hended, hsnuffed, ne_eq, not_true_eq_false, decide_false, Bool.not_true, Bool.or_self, Bool.false_eq_true,
    if_false, if_true, abandoned]

/-- The state in which a STEP has ended with STEP_PHASE_FAIL for the call of phase `ph` and sequence `sq` that failed with `cause` (R196). -/
def phaseFailed (s : State) (p id : Nat) (c : Cmd) (r : StepRun) (ph sq : Nat) (cause : W16) : State :=
  (((abandoned s p c r).countStep p).finish p id .done Cause.stepPhaseFail r.detail).modCmd p id fun c =>
    { c with evDetail := some ([BitVec.ofNat 8 ph, 0, 0, 0] ++ leBytes 2 sq ++ leBytes 2 cause.toNat) }

theorem stepPhaseFail_of_failed {ph sq : Nat} {cause : W16} (h : CallsEnded s p id c r) (hsnuffed : r.snuffed = false)
    (hfailed : r.failed = some (ph, sq, cause)) : s.stepPhaseFail p id = phaseFailed s p id c r ph sq cause := by
  obtain ⟨hstart, hrun, hid, hended⟩ := h
  unfold State.stepPhaseFail
  rw [onStarted_of hstart]
  simp only [hrun, hid, hended, hsnuffed, hfailed, ne_eq, not_true_eq_false, decide_false, Bool.not_true, Bool.or_self,
    Bool.false_eq_true, if_false, abandoned, phaseFailed]

theorem phaseFailed_seq (s : State) (p id : Nat) (c : Cmd) (r : StepRun) (ph sq : Nat) (cause : W16) :
    ((phaseFailed s p id c r ph sq cause).part p).seq =
      { ((abandoned s p c r).part p).seq with steps := (s.part p).seq.steps + 1 } := by
  simp [phaseFailed, State.modCmd, abandoned_steps]

/-- No member of a failed STEP advances, and none is left INSTEP (R196). -/
theorem phaseFailed_seqEntry (s : State) (p id : Nat) (c : Cmd) {r : StepRun} (ph sq : Nat) (cause : W16) {m : Member}
    (hm : m ∈ r.members) : (phaseFailed s p id c r ph sq cause).seqEntry p m.seq = idled (s.seqEntry p m.seq) := by
  rw [← abandoned_seqEntry s p c hm, State.seqEntry, phaseFailed_seq]
  rfl

theorem phaseFailed_mem (s : State) (p id : Nat) (c : Cmd) (r : StepRun) (ph sq : Nat) (cause : W16) :
    (phaseFailed s p id c r ph sq cause).mem = (abandoned s p c r).mem :=
  ((abandoned s p c r).countStep p).finish_mem p id .done Cause.stepPhaseFail r.detail false

theorem phaseFailed_cmd (s : State) (p id : Nat) (c : Cmd) (r : StepRun) (ph sq : Nat) (cause : W16) :
    ((phaseFailed s p id c r ph sq cause).cmd? p id).map (fun d => (d.phase, d.status, d.cause, d.detail.toNat)) =
      (s.cmd? p id).map fun _ => (.ended, .done, Cause.stepPhaseFail, r.detail % 2 ^ 32) := by
  have hcmd : ((abandoned s p c r).countStep p).cmd? p id = s.cmd? p id := by
    simp [State.cmd?, abandoned_cmd]
  unfold phaseFailed
  rw [State.modCmd_cmd_self, State.finish_cmd, hcmd, Option.map_map, Option.map_map]
  · rfl
  · exact fun _ => rfl

end

/-- Settles O21: the begin of a STEP, its collection of no member and of one, its issue of calls, its commit and its failure. -/
theorem stepEnds : Obligations.StepEnds := by
  unfold Obligations.StepEnds
  intro p id s c hstart
  have hid : c.id = id := State.cmd_id hstart.1
  refine ⟨?_, ?_, ?_⟩
  · intro pl hstage hmir hplan hws hread hdest hstill u live
    have hrow : exec (.step p id []) s = .next (u.collect p.val c pl) := by
      rw [exec_step, stepRow_of_unmirrored hmir, stepCmd_of_begin hstart hstage hplan hws hread hdest hstill]
    refine ⟨hrow, ?_, ?_⟩
    · intro hlive hidle
      rw [hrow, collect_of_idle hlive hidle, hid]
    · intro i hone hlive hrun hblocks m hkind hrows hmembers v hsched w hpoke run
      subst hid
      rw [hrow, collect_of_refine hone hlive hrun hblocks rfl hkind hrows hmembers rfl hsched hpoke, soleRun_countO]
      rfl
  · intro r hstage hmir hrun hmine hmore
    have hrow : exec (.step p id []) s = .next (s.issueCalls p.val c r.fuel) := by
      rw [exec_step, stepRow_of_unmirrored hmir, stepCmd_of_issue hstart hstage hrun hmine hmore]
    exact ⟨hrow, fun hpast => by rw [hrow, issueCalls_of_past hrun hpast]⟩
  · intro r hrun hmine hended
    have hcalls : CallsEnded s p.val id c r := ⟨hstart, hrun, hmine, hended⟩
    refine ⟨fun hall hfailed hsnuffed hmir hread hblocks => ?_, fun hsnuffed => ?_, fun ph sq cause hsnuffed hfailed => ?_⟩
    · have hrow : exec (.stepCommit p id []) s = .next ((committed s p.val c r).finishWrites p.val id r.refused
          ({ r with dropped := (r.drops.join {}).any } : StepRun).detail) := by
        rw [exec_stepCommit, stepCommitMirrored_of_unmirrored hmir, stepCommit_of hcalls hall hfailed hsnuffed hread hblocks]
      refine ⟨hrow, ?_⟩
      intro m hm hkind e hmore hrefused hdrops
      rw [hrefused] at hrow
      exact ⟨_, hrow, committed_done hstart.1 hm hkind hmore hdrops _⟩
    · rw [exec_stepPhaseFail, stepPhaseFail_of_snuffed hcalls hsnuffed]
      rfl
    · have hseq := phaseFailed_seq s p.val id c r ph sq cause
      refine ⟨_, (exec_stepPhaseFail p id s).trans (congrArg _ (stepPhaseFail_of_failed hcalls hsnuffed hfailed)), ?_, ?_, ?_, ?_, ?_⟩
      · rw [phaseFailed_cmd, hstart.1]
        rfl
      · intro m hm
        rw [phaseFailed_seqEntry s p.val id c ph sq cause hm]
        exact ⟨idled_state_ne _, idled_eq _⟩
      · rw [hseq]
        exact abandoned_run s p.val c r
      · rw [hseq]
      · intro hdrops
        rw [phaseFailed_mem, abandoned_mem hdrops]

end Sys2Proof.SequencesAndRollouts

/-!
PROOF. Recurrent streams (chapter 6): the operations of STREAM_CHUNK on their range; and the moves that serve them (chapter 7): the mark of a
move, and the automatic SWAP_IN.
-/

namespace Sys2Proof.RecurrentStreams

open Sys2Proof.Machine
open Sys2Proof.MatrixArray (cmd_of_partTold partTold_countRange)

/-! Which operations keep the stream entries and the objects of a partition. -/

/-- What an event or a transfer tells a partition leaves its streams as they are. -/
theorem stream_of_partTold {p : Nat} {s t : State} (h : PartTold p s t) (k : Nat) : t.stream p k = s.stream p k := by
  rw [State.stream, h.mine]
  rfl

/-- What an event or a transfer tells a partition leaves its objects as they are. -/
theorem object_of_partTold {p : Nat} {s t : State} (h : PartTold p s t) (k : Nat) : t.object p k = s.object p k := by
  rw [State.object, h.mine]
  rfl

theorem partTold_countO (s : State) (p : Nat) (r : ORef) (n : Nat) : PartTold p s (s.countO p r n) := partTold_countRange s p _ _ n

/-- The end of a command leaves every stream entry. -/
@[simp] theorem finish_stream (s : State) (p id : Nat) (st : Status) (cause : W16) (detail : Nat) (part : Bool) (k : Nat) :
    (s.finish p id st cause detail part).stream p k = s.stream p k := by
  simp [State.stream, State.finish, State.modCmd]

/-- The poison of the reserved region is no state of a partition. -/
@[simp] theorem clearTable_part (s : State) (p off n q : Nat) : (s.clearTable p off n).part q = s.part q := by
  unfold State.clearTable
  split
  · rfl
  · exact foldl_keeps (fun t : State => t.part q = s.part q) (fun t e => t.modMem fun m => m.clearPoison _ _) (fun _ _ ht => ht) _ rfl

/-! Writing the entries of a range. -/

/-- Writing one entry by `put` turns entry `i` into `f i` of what it was, and leaves every other entry and every command. -/
structure Rewrites (p : Nat) (put : State → Nat → State) (f : Nat → Stream → Stream) : Prop where
  stream : ∀ s i k, (put s i).stream p k = if k = i then f i (s.stream p i) else s.stream p k
  cmd : ∀ s i n, (put s i).cmd? p n = s.cmd? p n

theorem rewrites_modStream (p : Nat) (f : Nat → Stream → Stream) : Rewrites p (fun s i => s.modStream p i (f i)) f where
  stream s i k := by
    rw [State.modStream, stream_of_partTold (.markDirty p _ _)]
    simp [State.stream, tget_tmod]
  cmd s i n := by
    rw [State.modStream, cmd_of_partTold (.markDirty p _ _)]
    simp [State.cmd?]

/-- Clearing the poison of the line of each entry written changes neither entries nor commands. -/
theorem Rewrites.clearTable {p : Nat} {put : State → Nat → State} {f : Nat → Stream → Stream} (h : Rewrites p put f)
    (off : State → Nat → Nat) (n : Nat) : Rewrites p (fun s i => (put s i).clearTable p (off s i) n) f where
  stream s i k := by
    rw [State.stream, clearTable_part]
    exact h.stream s i k
  cmd s i m := by
    rw [State.cmd?, clearTable_part]
    exact h.cmd s i m

theorem rewrites_writeStream (p : Nat) (f : Nat → Stream → Stream) :
    Rewrites p (fun s i => s.writeStream p i (f i (s.stream p i))) f := by
  have hset : Rewrites p (fun s i => s.modStream p i fun _ => f i (s.stream p i)) f :=
    ⟨fun s i k => (rewrites_modStream p fun _ _ => f i (s.stream p i)).stream s i k,
      fun s i n => (rewrites_modStream p fun _ _ => f i (s.stream p i)).cmd s i n⟩
  exact hset.clearTable (fun s i => 128 * (s.part p).ctl.seqCap.toNat + 64 * i) 64

theorem foldl_cmd {p : Nat} {put : State → Nat → State} {f : Nat → Stream → Stream} (h : Rewrites p put f) (ids : List Nat) (s : State)
    (n : Nat) : (ids.foldl put s).cmd? p n = s.cmd? p n :=
  foldl_keeps (fun t : State => t.cmd? p n = s.cmd? p n) put (fun t i ht => (h.cmd t i n).trans ht) ids rfl

/-- Each entry of a range is written once, and no other. -/
theorem foldl_stream {p : Nat} {put : State → Nat → State} {f : Nat → Stream → Stream} (h : Rewrites p put f) {ids : List Nat}
    (hnodup : ids.Nodup) (s : State) (k : Nat) :
    (ids.foldl put s).stream p k = if k ∈ ids then f k (s.stream p k) else s.stream p k := by
  induction ids generalizing s with
  | nil => simp
  | cons i ids ih =>
    obtain ⟨hi, hids⟩ := List.nodup_cons.mp hnodup
    rw [List.foldl_cons, ih hids, h.stream]
    by_cases hk : k = i
    · subst hk
      simp [hi]
    · simp [hk]

/-! STREAM_CHUNK at its turn. -/

theorem chunkIds_length (c : Cmd) : c.chunkIds.length = c.fld 40 2 := by
  simp [Cmd.chunkIds]

theorem chunkIds_nodup (c : Cmd) : c.chunkIds.Nodup :=
  List.Pairwise.map (c.fld 38 2 + ·) (fun _ _ hne h => hne (Nat.add_left_cancel h)) List.nodup_range

/-- STREAM_CHUNK `id` has ended DONE with the number of its entries, each of which is as `f` says, and no other entry has changed. -/
def RangeBecame (s t : State) (p id : Nat) (c : Cmd) (f : Nat → Stream) : Prop :=
  (∀ k ∈ c.chunkIds, t.stream p k = f k) ∧ (∀ k, k ∉ c.chunkIds → t.stream p k = s.stream p k) ∧
    (t.cmd? p id).map (fun d => (d.phase, d.status, d.cause, d.detail.toNat)) = some (.ended, .done, 0#16, c.fld 40 2 % 2 ^ 32)

/-- A STREAM_CHUNK that writes each entry of its range and ends with their number. -/
theorem rangeBecame_of_rewrites {p id : Nat} {put : State → Nat → State} {f : Nat → Stream → Stream} {s : State} {c : Cmd}
    (h : Rewrites p put f) (hcmd : s.cmd? p id = some c) :
    RangeBecame s ((c.chunkIds.foldl put s).done p id c.chunkIds.length) p id c fun k => f k (s.stream p k) := by
  have hstream := foldl_stream h (chunkIds_nodup c) s
  refine ⟨fun k hk => ?_, fun k hk => ?_, ?_⟩
  · rw [State.done, finish_stream, hstream, if_pos hk]
  · rw [State.done, finish_stream, hstream, if_neg hk]
  · rw [State.done, State.finish_cmd, foldl_cmd h, hcmd, chunkIds_length]
    simp

section
variable {s : State} {p id op : Nat} {c : Cmd} {ok : Stream → Bool} {quiet : Bool}

/-- A STREAM_CHUNK at its turn acts on its range. -/
theorem onChunk_of (h : ChunkTurn s p id op c ok quiet) (f : Cmd → State → State) : s.onChunk p id op ok quiet f = f c s := by
  obtain ⟨hstart, -, hop, hturn, hread, hok, hquiet⟩ := h
  have hstates : (c.chunkIds.any fun i => !ok (s.stream p i)) = false := by simpa using hok
  have hpending : (quiet && c.chunkIds.any fun i => (s.stream p i).pending != 0) = false := by simpa using hquiet
  unfold State.onChunk
  rw [onStarted_of hstart]
  simp only [hop, hturn, hread, hstates, hpending, ne_eq, not_true_eq_false, decide_false, Bool.not_true, Bool.or_self,
    Bool.false_eq_true, if_false]

/-- RESET and CLEAR, which change each entry of their range in place (R219). -/
theorem chunkEach_of (h : ChunkTurn s p id op c ok quiet) (f : Stream → Stream) :
    RangeBecame s (s.chunkEach p c f) p id c fun k => f (s.stream p k) := by
  obtain ⟨hstart, rfl, -⟩ := h
  exact rangeBecame_of_rewrites (rewrites_modStream p fun _ => f) hstart.1

/-- CLOSE, of entries without a pending chunk, empties its range (R219). -/
theorem chunkClose_of (h : ChunkTurn s p id 4 c (fun x => x.state != .empty) true) :
    RangeBecame s (s.chunkClose p id) p id c fun _ => {} := by
  unfold State.chunkClose
  rw [onChunk_of h]
  obtain ⟨hstart, rfl, -, -, -, -, hquiet⟩ := h
  obtain ⟨hin, hrest⟩ := rangeBecame_of_rewrites (rewrites_writeStream p fun _ x => { pending := x.pending }) hstart.1
  exact ⟨fun k hk => (hin k hk).trans (by simp only [hquiet rfl k hk]), hrest⟩

end

/-! OPEN and UPDATE. -/

/-- Entry `k` of the range of an OPEN or UPDATE as the image `bs` says (R219). -/
def imageEntry (s : State) (p : Nat) (c : Cmd) (bs : List Byte) (isOpen : Bool) (k : Nat) : Stream :=
  chunkEntry (Stream.ofBytes bs .live) (c.fld 44 4) (k - c.fld 38 2) isOpen (s.stream p k)

/-- Whether a field of an image that only OPEN takes is out of order (R219, R505). -/
def openRefuses (bs : List Byte) : Bool :=
  bitsOf (fieldAt bs 0 4) 0 7 != 0 || bitsOf (fieldAt bs 0 4) 9 23 != 0 || fieldAt bs 6 2 != 0 || !zeroAt bs 24 8 || !zeroAt bs 38 26
    || (Stream.ofBytes bs .live).stateWords == 0 || decide (16384 < (Stream.ofBytes bs .live).stateWords.toNat)

theorem openRefuses_of {bs : List Byte} (hlow : bitsOf (fieldAt bs 0 4) 0 7 = 0) (hhigh : bitsOf (fieldAt bs 0 4) 9 23 = 0)
    (hwords : fieldAt bs 6 2 = 0) (hmid : zeroAt bs 24 8 = true) (htail : zeroAt bs 38 26 = true)
    (hpos : 0 < (Stream.ofBytes bs .live).stateWords.toNat) (hmax : (Stream.ofBytes bs .live).stateWords.toNat ≤ 16384) :
    openRefuses bs = false := by
  have hsome : ((Stream.ofBytes bs .live).stateWords == 0) = false := by
    refine beq_eq_false_iff_ne.mpr fun hzero => ?_
    rw [hzero] at hpos
    exact absurd hpos (by decide)
  simp only [openRefuses, hlow, hhigh, hwords, hmid, htail, hsome, Nat.not_lt_of_le hmax, bne_self_eq_false, Bool.not_true, Bool.or_self,
    decide_false]

/-- The numbers from `first` on, each with its place in their list. -/
theorem zipIdx_map_range_add {α : Type} (first n : Nat) (f : Nat → Nat → α) :
    ((List.range n).map (first + ·)).zipIdx.map (fun x => (x.1, f x.1 x.2)) =
      ((List.range n).map (first + ·)).map fun k => (k, f k (k - first)) := by
  refine List.ext_getElem (by simp) fun i _ _ => ?_
  simp

/-- What a transfer changes has no part in which ranges a stream may name. -/
theorem streamRangesOk_of_partTold {p : Nat} {s t : State} (h : PartTold p s t) (x : Stream) :
    t.streamRangesOk p x = s.streamRangesOk p x := by
  simp only [State.streamRangesOk, State.inObj, object_of_partTold h]

/-- One entry written by OPEN, which clears the poison of its line, or by UPDATE. -/
def putEntry (isOpen : Bool) (p : Nat) (entry : Nat → Stream) (t : State) (k : Nat) : State :=
  if isOpen then t.writeStream p k (entry k) else t.modStream p k fun _ => entry k

theorem rewrites_putEntry (isOpen : Bool) (p : Nat) (entry : Nat → Stream) :
    Rewrites p (putEntry isOpen p entry) fun k _ => entry k := by
  cases isOpen with
  | true => exact rewrites_writeStream p fun k _ => entry k
  | false => exact rewrites_modStream p fun k _ => entry k

section
variable {s : State} {p : Nat} {c : Cmd} {rd : Rd} {isOpen : Bool}

/-- An image in order is written to every entry of the range. -/
theorem chunkWrite_of (hrd : s.peekO p (c.ref 48) 64 = rd) (hread : rd.fault = none) (htok : fieldAt rd.bytes 37 1 < 16)
    (himage : (isOpen && openRefuses rd.bytes) = false)
    (hranges : ∀ k ∈ c.chunkIds, s.streamRangesOk p (imageEntry s p c rd.bytes isOpen k) = true) :
    s.chunkWrite p c isOpen =
      (c.chunkIds.foldl (putEntry isOpen p (imageEntry s p c rd.bytes isOpen)) (s.countO p (c.ref 48) 64)).done p c.id
        c.chunkIds.length := by
  have htold := partTold_countO s p (c.ref 48) 64
  have hxs : (c.chunkIds.zipIdx.map fun x => (x.1, chunkEntry (Stream.ofBytes rd.bytes .live) (c.fld 44 4) x.2 isOpen (s.stream p x.1))) =
      c.chunkIds.map fun k => (k, imageEntry s p c rd.bytes isOpen k) :=
    zipIdx_map_range_add (c.fld 38 2) (c.fld 40 2) fun k i =>
      chunkEntry (Stream.ofBytes rd.bytes .live) (c.fld 44 4) i isOpen (s.stream p k)
  have hall : ((c.chunkIds.map fun k => (k, imageEntry s p c rd.bytes isOpen k)).any fun x => !s.streamRangesOk p x.2) = false := by
    simpa using hranges
  have htop : (fieldAt rd.bytes 37 1 / 16 != 0) = false := by
    simp [Nat.div_eq_of_lt htok]
  unfold openRefuses at himage
  unfold State.chunkWrite
  simp only [hrd, hread, himage, htop, stream_of_partTold htold, streamRangesOk_of_partTold htold, hxs, hall, Bool.or_self,
    Bool.false_eq_true, if_false, List.foldl_map, List.length_map]
  rfl

theorem chunkWrite_range (hcmd : s.cmd? p c.id = some c) (hrd : s.peekO p (c.ref 48) 64 = rd) (hread : rd.fault = none)
    (htok : fieldAt rd.bytes 37 1 < 16) (himage : (isOpen && openRefuses rd.bytes) = false)
    (hranges : ∀ k ∈ c.chunkIds, s.streamRangesOk p (imageEntry s p c rd.bytes isOpen k) = true) :
    RangeBecame s (s.chunkWrite p c isOpen) p c.id c (imageEntry s p c rd.bytes isOpen) := by
  have htold := partTold_countO s p (c.ref 48) 64
  rw [chunkWrite_of hrd hread htok himage hranges]
  obtain ⟨hin, hout, hend⟩ := rangeBecame_of_rewrites (rewrites_putEntry isOpen p _) ((cmd_of_partTold htold c.id).trans hcmd)
  exact ⟨hin, fun k hk => (hout k hk).trans (stream_of_partTold htold k), hend⟩

end

/-! The rows of STREAM_CHUNK without a finding. -/

theorem exec_streamChunkOpen (p : PartId) (id : Nat) (s : State) : exec (.streamChunkOpen p id []) s = .next (s.chunkOpen p.val id) :=
  congrArg (fun t : State => Host.Outcome.next (t.chunkOpen p.val id)) (State.eccRead_nil _ _ _ _ _)

theorem exec_streamChunkUpdate (p : PartId) (id : Nat) (s : State) : exec (.streamChunkUpdate p id []) s = .next (s.chunkUpdate p.val id) :=
  congrArg (fun t : State => Host.Outcome.next (t.chunkUpdate p.val id)) (State.eccRead_nil _ _ _ _ _)

theorem exec_streamChunkReset (p : PartId) (id : Nat) (s : State) : exec (.streamChunkReset p id []) s = .next (s.chunkReset p.val id) :=
  congrArg (fun t : State => Host.Outcome.next (t.chunkReset p.val id)) (State.eccRead_nil _ _ _ _ _)

theorem exec_streamChunkClear (p : PartId) (id : Nat) (s : State) : exec (.streamChunkClear p id []) s = .next (s.chunkClear p.val id) :=
  congrArg (fun t : State => Host.Outcome.next (t.chunkClear p.val id)) (State.eccRead_nil _ _ _ _ _)

theorem exec_streamChunkClose (p : PartId) (id : Nat) (s : State) : exec (.streamChunkClose p id []) s = .next (s.chunkClose p.val id) :=
  congrArg (fun t : State => Host.Outcome.next (t.chunkClose p.val id)) (State.eccRead_nil _ _ _ _ _)

/-- Settles O22: the five operations of STREAM_CHUNK, each a rewriting of every entry of its range. -/
theorem streamRanges : Obligations.StreamRanges := by
  unfold Obligations.StreamRanges
  intro p id s c after
  refine ⟨fun h => ?_, fun h => ?_, fun h => ?_, ?_⟩
  · exact ⟨_, (exec_streamChunkReset p id s).trans (congrArg _ (onChunk_of h _)), chunkEach_of h _⟩
  · exact ⟨_, (exec_streamChunkClear p id s).trans (congrArg _ (onChunk_of h _)), chunkEach_of h _⟩
  · exact ⟨_, exec_streamChunkClose p id s, chunkClose_of h⟩
  · intro rd img entry hread htok
    refine ⟨fun h hlow hhigh hwords hmid htail hpos hmax hranges => ?_, fun h hranges => ?_⟩
    · have himage := openRefuses_of hlow hhigh hwords hmid htail hpos hmax
      have hrow := (exec_streamChunkOpen p id s).trans (congrArg _ (onChunk_of h _))
      obtain ⟨hstart, rfl, -⟩ := h
      exact ⟨_, hrow, chunkWrite_range hstart.1 rfl hread htok himage hranges⟩
    · have hrow := (exec_streamChunkUpdate p id s).trans (congrArg _ (onChunk_of h _))
      obtain ⟨hstart, rfl, -⟩ := h
      exact ⟨_, hrow, chunkWrite_range hstart.1 rfl hread htok rfl hranges⟩

/-! The mark of a move (R242 steps 1 to 3). -/

/-- A move listed as `c` that has not begun, whose object is PRESENT and free to move, and whose destination is good: it need not wait
(R214, R242, R243). -/
structure MoveTurn (s : State) (p : Nat) (c : Cmd) : Prop where
  listed : s.cmd? p c.id = some c
  fresh : c.stage = 0
  noRing : s.ringObject p c.movHandle = false
  free : s.destCheck p c.movHandle = 0
  quiet : s.chunksPending p c.movHandle = false ∨ c.op = 0x13 ∧ c.mvForce = false
  present : (s.object p c.movHandle).state = .present
  first : s.moveBefore p c = false
  home : moveHome c (s.object p c.movHandle) = 0
  range : s.rangeCheck p (c.mvDest (s.object p c.movHandle)).home (c.mvDest (s.object p c.movHandle)).place.toNat
    (c.mvDest (s.object p c.movHandle)).addr.toNat (s.object p c.movHandle).size.toNat = (0, 0)

/-- The destination of a move is not the object's place and does not overlap it (R243). -/
structure Elsewhere (d : Place) (o : Obj) : Prop where
  ne : d ≠ o.src
  apart : d.home = o.src.home → d.place = o.src.place →
    o.src.addr.toNat + o.size.toNat ≤ d.addr.toNat ∨ d.addr.toNat + o.size.toNat ≤ o.src.addr.toNat

theorem Elsewhere.not_overlap {d : Place} {o : Obj} (h : Elsewhere d o) :
    ¬ (d.home = o.src.home ∧ d.place = o.src.place ∧ d.addr.toNat < o.src.addr.toNat + o.size.toNat
      ∧ o.src.addr.toNat < d.addr.toNat + o.size.toNat) := by
  rintro ⟨hhome, hplace, hlow, hhigh⟩
  have := h.apart hhome hplace
  omega

/-- The object entry of `o` once it is MOVING towards `d` in a move with waymark `wm`. -/
def movingTo (d : Place) (wm : W32) (o : Obj) : Obj := { o with state := .moving, dst := d, moveWm := wm }

/-- The state in which move `c` has made its object MOVING. -/
def marked (s : State) (p : Nat) (c : Cmd) : State :=
  (s.setObject p c.movHandle (movingTo (c.mvDest (s.object p c.movHandle)) c.wm)).modCmd p c.id fun c => { c with stage := 2 }

section
variable {s : State} {p : Nat} {c : Cmd}

theorem beginMove_of (h : MoveTurn s p c) : s.beginMove p c = s.markMove p c := by
  obtain ⟨hlisted, hfresh, hring, hfree, hquiet, hpresent, hfirst, hhome, -⟩ := h
  unfold State.beginMove
  rcases hquiet with hnone | ⟨hop, hforce⟩
  · simp [hfresh, hring, hfree, hnone, hpresent, hfirst, hhome, hlisted]
  · simp [hfresh, hring, hfree, hop, hforce, hpresent, hfirst, hhome, hlisted]

/-- A move to the object's own place ends DONE at once (R249). -/
theorem markMove_of_same (h : MoveTurn s p c) (hsame : c.mvDest (s.object p c.movHandle) = (s.object p c.movHandle).src) :
    s.markMove p c = s.done p c.id (2 ^ 28 + c.mvBits) := by
  unfold State.markMove
  simp only [h.home, h.range, ne_eq, not_true_eq_false, if_false]
  exact if_pos hsame

theorem markMove_of_elsewhere (h : MoveTurn s p c) (haway : Elsewhere (c.mvDest (s.object p c.movHandle)) (s.object p c.movHandle)) :
    s.markMove p c = marked s p c := by
  unfold State.markMove
  simp only [h.home, h.range, haway.ne, haway.not_overlap, ne_eq, not_true_eq_false, if_false]
  rfl

theorem setObject_object (s : State) (p h : Nat) (f : Obj → Obj) (k : Nat) :
    (s.setObject p h f).object p k = if k = h then f (s.object p h) else s.object p k := by
  rw [State.setObject, object_of_partTold (.markDirty p _ _)]
  simp [State.modObject, State.object, tget_tmod]

theorem setObject_cmd (s : State) (p h : Nat) (f : Obj → Obj) (n : Nat) : (s.setObject p h f).cmd? p n = s.cmd? p n := by
  rw [State.setObject, cmd_of_partTold (.markDirty p _ _)]
  simp [State.cmd?, State.modObject]

theorem setObject_nextId (s : State) (p h : Nat) (f : Obj → Obj) : (s.setObject p h f).nextId = s.nextId :=
  (congrArg State.nextId (PartTold.markDirty p (s.modObject p h f) (.objE h)).rest).trans rfl

theorem marked_object (s : State) (p : Nat) (c : Cmd) (k : Nat) :
    (marked s p c).object p k =
      if k = c.movHandle then movingTo (c.mvDest (s.object p c.movHandle)) c.wm (s.object p c.movHandle) else s.object p k := by
  rw [← setObject_object s p c.movHandle (movingTo (c.mvDest (s.object p c.movHandle)) c.wm) k]
  simp [marked, State.object, State.modCmd]

theorem marked_mem (s : State) (p : Nat) (c : Cmd) : (marked s p c).mem = s.mem := by
  simp [marked, State.setObject]

theorem marked_nextId (s : State) (p : Nat) (c : Cmd) : (marked s p c).nextId = s.nextId :=
  setObject_nextId s p c.movHandle _

theorem marked_cmd (h : s.cmd? p c.id = some c) : (marked s p c).cmd? p c.id = some { c with stage := 2 } := by
  rw [marked, State.modCmd_cmd_self, setObject_cmd, h]
  · rfl
  · exact fun _ => rfl

end

/-- The rows of the four opcodes that move an object begin their command. -/
theorem exec_move_of {p : PartId} {id : Nat} {s : State} {c : Cmd} {i : Instr}
    (h : i = .move p id ∧ Started s p.val id 1 0x10 c ∨ i = .prefetch p id ∧ Started s p.val id 1 0x11 c ∨
      i = .swapOut p id ∧ Started s p.val id 1 0x12 c ∨ i = .swapIn p id ∧ Started s p.val id 1 0x13 c) :
    exec i s = .next (s.beginMove p.val c) ∧ s.cmd? p.val id = some c ∧ c.phase = .started := by
  have hphase {op : Nat} (hs : Started s p.val id 1 op c) : c.phase = .started := by
    obtain ⟨-, hruns⟩ := hs
    simp only [Cmd.runs, Bool.and_eq_true, beq_iff_eq] at hruns
    obtain ⟨⟨hphase, -⟩, -⟩ := hruns
    exact hphase
  rcases h with ⟨rfl, hs⟩ | ⟨rfl, hs⟩ | ⟨rfl, hs⟩ | ⟨rfl, hs⟩ <;>
    exact ⟨congrArg Host.Outcome.next (onStarted_of hs _), hs.1, hphase hs⟩

/-! The descriptor of an automatic SWAP_IN (R215). -/

theorem leNat_leBytes (n x : Nat) : leNat (leBytes n x) = x % 256 ^ n := by
  induction n generalizing x with
  | zero => simp [leBytes, leNat, Nat.mod_one]
  | succ n ih =>
    rw [leBytes, leNat, ih, Nat.pow_succ', Nat.mod_mul, BitVec.toNat_ofNat]

/-- A command with the descriptor of an automatic SWAP_IN of object `h` with waymark `wm`: what its fields spell. -/
structure AutoFields (c : Cmd) (wm : W32) (h : Nat) : Prop where
  engine : c.engine = 1
  op : c.op = 0x13
  flags : c.fld 35 1 = 2
  home : c.fld 36 1 = 0
  reserved : c.fld 37 1 = 0
  place : c.fld 38 2 = 0
  addr : c.fld 48 8 = 0
  object : c.fld 40 4 = h
  deadline : c.fld 44 4 = 0
  rest : c.zeroFrom 56 = true
  wm : c.wm = wm

theorem autoFields_of {c : Cmd} {wm : W32} {h : Nat} (hdesc : c.desc = autoDesc wm h) (hh : h < 2 ^ 20) : AutoFields c wm h := by
  have hheader : hdw (autoDesc wm h) = 0x99 := rfl
  have hobject : fieldAt (autoDesc wm h) 40 4 = leNat (leBytes 4 h) := rfl
  have hwm : fieldAt (autoDesc wm h) 4 4 = leNat (leBytes 4 wm.toNat) := rfl
  constructor
  case engine => simp [Cmd.engine, dEngine, hdesc, hheader, bitsOf]
  case op => simp [Cmd.op, dOpcode, hdesc, hheader, bitsOf]
  case object =>
    rw [Cmd.fld, hdesc, hobject, leNat_leBytes]
    omega
  case wm =>
    rw [Cmd.wm, hdesc, dWaymark, word32, hwm, leNat_leBytes]
    exact BitVec.eq_of_toNat_eq (by simpa using wm.isLt)
  case rest =>
    rw [Cmd.zeroFrom, hdesc]
    rfl
  case flags | home | reserved | place | addr | deadline =>
    rw [Cmd.fld, hdesc]
    rfl

section
variable {c : Cmd} {wm : W32} {h : Nat}

theorem AutoFields.movHandle (f : AutoFields c wm h) (hh : h < 2 ^ 20) : c.movHandle = h := by
  have hfield : c.movHandle = bitsOf (c.fld 40 4) 0 20 := by simp [Cmd.movHandle, f.op]
  rw [hfield, f.object, bitsOf, Nat.pow_zero, Nat.div_one, Nat.mod_eq_of_lt hh]

theorem AutoFields.mvForce (f : AutoFields c wm h) : c.mvForce = false := by
  rw [Cmd.mvForce, f.flags]
  rfl

theorem AutoFields.mvOrigin (f : AutoFields c wm h) : c.mvOrigin = true := by
  rw [Cmd.mvOrigin, f.flags]
  rfl

theorem AutoFields.mvDest (f : AutoFields c wm h) (o : Obj) : c.mvDest o = o.origin := by
  simp [Cmd.mvDest, f.mvOrigin]

/-- An automatic SWAP_IN of an object that holds data passes the checks at its start (R246). -/
theorem AutoFields.moveCheck (f : AutoFields c wm h) {s : State} {p : Nat} (huse : (s.object p c.movHandle).usable = true)
    (hh : h < 2 ^ 20) : moveCheck s p c = 0 := by
  have hobject : bitsOf h 20 12 = 0 := by
    rw [bitsOf, Nat.div_eq_of_lt hh, Nat.zero_mod]
  have hflags : bitsOf 2 2 6 = 0 ∧ bitsOf 0 2 6 = 0 := ⟨rfl, rfl⟩
  simp [Machine.moveCheck, f.op, f.flags, f.mvForce, f.mvOrigin, f.object, f.deadline, f.rest, f.home, f.reserved, f.place, f.addr, huse,
    hobject, hflags]

/-- What Table 7.6 and R247 ask of an automatic SWAP_IN: its object is outside C and S, and its recorded origin in C is good. -/
theorem AutoFields.moveHome (f : AutoFields c wm h) {o : Obj} (hsrc : o.src.home.near = false) (hvalid : o.originValid = true)
    (horigin : o.origin.home = .c) : moveHome c o = 0 := by
  have hnear : Home.near .c = true := rfl
  simp [Machine.moveHome, moveFrom, moveTo, f.op, f.mvOrigin, f.mvDest, hsrc, hvalid, horigin, hnear]

end

/-! The automatic SWAP_IN starts (R215). -/

/-- The command that the pending SWAP_IN `a` of object `h` becomes. -/
def autoCmd (s : State) (p h : Nat) (a : AutoSwap) : Cmd :=
  { id := s.nextId, desc := autoDesc a.waymark h, ring := a.ring, ctx := a.ctx, unit := some .mov, phase := .started
    order := (s.part p).cmd.startClock, autoTok := some a.tok }

/-- The state in which that command is outstanding and has yet to begin. -/
def autoIssued (s : State) (p h : Nat) (a : AutoSwap) : State :=
  (((s.addCmd p (autoCmd s p h a)).1.modSys p fun y => { y with startClock := (s.part p).cmd.startClock + 1 }).modStr p fun y =>
    { y with swaps := y.swaps.map fun x => if x.handle = h then { x with move := some s.nextId } else x })

section
variable (s : State) (p h : Nat) (a : AutoSwap)

theorem autoIssued_part : (autoIssued s p h a).part p = { s.part p with
    cmd := { (s.part p).cmd with cmds := (s.part p).cmd.cmds ++ [autoCmd s p h a], startClock := (s.part p).cmd.startClock + 1 }
    str := { (s.part p).str with
      swaps := (s.part p).str.swaps.map fun x => if x.handle = h then { x with move := some s.nextId } else x } } := by
  have hadd : (s.addCmd p (autoCmd s p h a)).1.part p =
      { s.part p with cmd := { (s.part p).cmd with cmds := (s.part p).cmd.cmds ++ [autoCmd s p h a] } } := State.modSys_part_self ..
  rw [autoIssued, State.modStr_part_self, State.modSys_part_self, hadd]

theorem autoIssued_nextId : (autoIssued s p h a).nextId = s.nextId + 1 := rfl

theorem autoIssued_object (k : Nat) : (autoIssued s p h a).object p k = s.object p k := by
  rw [State.object, autoIssued_part]
  rfl

theorem autoIssued_ringObject (k : Nat) : (autoIssued s p h a).ringObject p k = s.ringObject p k := by
  unfold State.ringObject State.ring
  rw [autoIssued_part]

theorem autoIssued_destCheck (k : Nat) : (autoIssued s p h a).destCheck p k = s.destCheck p k := by
  unfold State.destCheck State.seqOwns State.sessionOwns
  rw [autoIssued_part]

theorem autoIssued_rangeCheck (hm : Home) (place addr size : Nat) :
    (autoIssued s p h a).rangeCheck p hm place addr size = s.rangeCheck p hm place addr size := by
  have hflash : (autoIssued s p h a).flash = s.flash := rfl
  unfold State.rangeCheck State.spaceBytes State.clusterCount State.reservedIn State.retiredIn
  rw [autoIssued_part, hflash]

end

section
variable {s : State} {p h : Nat} {a : AutoSwap}

theorem autoIssued_cmd (hnew : ∀ d ∈ (s.part p).cmd.cmds, d.id ≠ s.nextId) :
    (autoIssued s p h a).cmd? p s.nextId = some (autoCmd s p h a) := by
  have hnone : (s.part p).cmd.cmds.find? (·.id == s.nextId) = none := by simpa using hnew
  rw [State.cmd?, autoIssued_part, List.find?_append, hnone]
  simp [autoCmd]

/-- No command that has begun comes before an automatic SWAP_IN where none is yet to move its object. -/
theorem autoIssued_moveBefore (hh : h < 2 ^ 20)
    (hbusy : ∀ d ∈ (s.part p).cmd.cmds,
      d.engine = 1 → d.phase = .started → d.movHandle = h → d.op ≤ 0x13 → d.stage ≠ 0 ∧ d.stage ≠ 1) :
    (autoIssued s p h a).moveBefore p (autoCmd s p h a) = false := by
  have hhandle := (autoFields_of (c := autoCmd s p h a) rfl hh).movHandle hh
  rw [State.moveBefore, autoIssued_part, List.any_append, hhandle, Bool.or_eq_false_iff]
  constructor
  · rw [List.any_eq_false]
    intro d hd hbefore
    simp only [Bool.and_eq_true, Bool.or_eq_true, beq_iff_eq, decide_eq_true_eq] at hbefore
    obtain ⟨⟨⟨⟨⟨⟨hengine, hphase⟩, hstage⟩, hsame⟩, -⟩, -⟩, hop⟩ := hbefore
    obtain ⟨hzero, hone⟩ := hbusy d hd hengine hphase hsame hop
    rcases hstage with h1 | ⟨h0, -⟩
    · exact hone h1
    · exact hzero h0
  · simp

/-- A pending automatic SWAP_IN of an object that holds data becomes an outstanding command of its own, which begins at once (R215). -/
theorem automaticSwapIn_of (hh : h < 2 ^ 20) (hpend : (s.part p).str.swaps.find? (·.handle == h) = some a) (hwait : a.move = none)
    (hrun : (s.part p).ctl.state = .running) (hflr : (s.part p).vf.flr = 0) (hroom : s.movRunning p < 8)
    (hpresent : (s.object p h).state = .present) (hnew : ∀ d ∈ (s.part p).cmd.cmds, d.id ≠ s.nextId) :
    s.automaticSwapIn p h = (autoIssued s p h a).beginMove p (autoCmd s p h a) := by
  have hfields := autoFields_of (c := autoCmd s p h a) rfl hh
  have huse : ((autoIssued s p h a).object p h).usable = true := by
    simp [autoIssued_object, Obj.usable, hpresent]
  have hcheck := hfields.moveCheck (s := autoIssued s p h a) (p := p) (by rwa [hfields.movHandle hh]) hh
  have hstate : (!((s.part p).ctl.state == .running || (s.part p).ctl.state == .draining) || (s.part p).vf.flr != 0
      || decide (8 ≤ s.movRunning p)) = false := by
    simp [hrun, hflr, hroom]
  have hgo : ¬ (moveCheck (autoIssued s p h a) p (autoCmd s p h a) ≠ 0 ∨ ¬ ((autoIssued s p h a).object p h).usable) := by
    simp [hcheck, huse]
  unfold State.automaticSwapIn
  simp only [hpend, hwait, hstate, Bool.false_eq_true, if_false]
  split
  · next hnone => exact absurd (hnone.symm.trans (autoIssued_cmd hnew)) (Option.some_ne_none _).symm
  · next c hsome =>
    obtain rfl := Option.some.inj ((autoIssued_cmd hnew).symm.trans hsome)
    exact if_neg hgo

end

/-- Settles O24: a move at its object's turn marks it, or ends at once where the object stands there already; a pending automatic SWAP_IN
starts as a command of its own and marks its object. -/
theorem movesMark : Obligations.MovesMark := by
  unfold Obligations.MovesMark
  refine ⟨?_, ?_⟩
  · intro p id s c h o d hring hfree hquiet hpresent hfirst hhome hfresh hid hrange i hi
    subst hid
    obtain ⟨hexec, hlisted, hphase⟩ := exec_move_of hi
    have hturn : MoveTurn s p.val c := ⟨hlisted, hfresh, hring, hfree, .inl hquiet, hpresent, hfirst, hhome, hrange⟩
    rw [hexec, beginMove_of hturn]
    refine ⟨fun hsame => congrArg _ (markMove_of_same hturn hsame), fun hne hapart =>
      ⟨marked s p.val c, ?_, ?_, marked_mem s p.val c, ?_, ?_⟩⟩
    · rw [hexec, beginMove_of hturn, markMove_of_elsewhere hturn ⟨hne, hapart⟩]
    · rw [marked_object, if_pos rfl]
      rfl
    · rw [marked_cmd hlisted, Option.map_some, hphase]
    · intro k hk
      rw [marked_object, if_neg hk]
  · intro p h s a o hh hpend hwait hrun hflr hroom hpresent hsrc hvalid horigin hring hfree hcmds hrange
    have hfields := autoFields_of (c := autoCmd s p.val h a) rfl hh
    have hhandle := hfields.movHandle hh
    have hnew : ∀ d ∈ (s.part p.val).cmd.cmds, d.id ≠ s.nextId := fun d hd => (hcmds d hd).1
    have hlisted : (autoIssued s p.val h a).cmd? p.val (autoCmd s p.val h a).id = some (autoCmd s p.val h a) := autoIssued_cmd hnew
    have hturn : MoveTurn (autoIssued s p.val h a) p.val (autoCmd s p.val h a) := by
      constructor
      case listed => exact hlisted
      case fresh => rfl
      case noRing => rw [hhandle, autoIssued_ringObject, hring]
      case free => rw [hhandle, autoIssued_destCheck, hfree]
      case quiet => exact .inr ⟨hfields.op, hfields.mvForce⟩
      case present => rw [hhandle, autoIssued_object, hpresent]
      case first => exact autoIssued_moveBefore hh fun d hd => (hcmds d hd).2
      case home =>
        rw [hhandle, autoIssued_object]
        exact hfields.moveHome hsrc hvalid horigin
      case range =>
        rw [hhandle, autoIssued_object, hfields.mvDest, autoIssued_rangeCheck, horigin]
        exact hrange
    have haway : Elsewhere o.origin o := by
      have hhomes : o.origin.home ≠ o.src.home := by
        intro hsame
        rw [← hsame, horigin] at hsrc
        exact absurd hsrc (by decide)
      exact ⟨fun hsame => hhomes (congrArg Place.home hsame), fun hsame => absurd hsame hhomes⟩
    refine ⟨marked (autoIssued s p.val h a) p.val (autoCmd s p.val h a), ?_, ?_, ?_, ?_⟩
    · refine congrArg Host.Outcome.next ?_
      rw [automaticSwapIn_of hh hpend hwait hrun hflr hroom hpresent hnew, beginMove_of hturn, markMove_of_elsewhere hturn]
      rw [hhandle, autoIssued_object, hfields.mvDest]
      exact haway
    · rw [marked_object, hhandle, if_pos rfl, autoIssued_object, hfields.mvDest, hfields.wm]
      rfl
    · rw [marked_nextId, autoIssued_nextId]
    · have hfound := marked_cmd hlisted
      refine (congrArg (Option.map _) hfound).trans (congrArg some ?_)
      exact Prod.ext rfl (Prod.ext hfields.engine (Prod.ext hfields.op (Prod.ext hfields.wm rfl)))

end Sys2Proof.RecurrentStreams

/-!
PROOF. The video engines (chapter 8): sessions opened and closed, a BATCH command suspended and resumed, what a CDC_FAULT ends, and the
units of DECODE_UNIT and ENCODE_FRAME.
-/

namespace Sys2Proof.VideoEngines

open Sys2Proof.Machine
open Sys2Proof.MatrixArray (outcome finishBy_outcome finish_cmd_of_ne cmd_of_partTold count_cmd)
open Sys2Proof.RecurrentStreams (object_of_partTold partTold_countO)

/-! The codec commands at their turn, and the engines. -/

theorem exec_sessionOpen (p : PartId) (id : Nat) (s : State) : exec (.sessionOpen p id) s = .next (s.sessionOpen p.val id) := rfl

theorem exec_sessionClose (p : PartId) (id : Nat) (s : State) : exec (.sessionClose p id) s = .next (s.sessionClose p.val id) := rfl

theorem exec_batchSuspend (u : Fin 4) (s : State) : exec (.batchSuspend u) s = .next (s.batchSuspend u.val) := rfl

theorem exec_batchResume (u : Fin 4) (s : State) : exec (.batchResume u) s = .next (s.batchResume u.val) := rfl

theorem exec_cdcFault (u : Fin 4) (s : State) : exec (.cdcFault u) s = .next (s.cdcFault u.val) := rfl

theorem exec_decodeUnit (p : PartId) (id : Nat) (s : State) : exec (.decodeUnit p id []) s = .next (s.decodeUnit p.val id) :=
  congrArg (fun t : State => Host.Outcome.next (t.decodeUnit p.val id)) (State.eccRead_nil _ _ _ _ _)

theorem exec_encodeFrame (p : PartId) (id : Nat) (s : State) : exec (.encodeFrame p id []) s = .next (s.encodeFrame p.val id) :=
  congrArg (fun t : State => Host.Outcome.next (t.encodeFrame p.val id)) (State.eccRead_nil _ _ _ _ _)

theorem exec_unitWorkBound (p : PartId) (id : Nat) (s : State) : exec (.unitWorkBound p id) s = .next (s.unitWorkBound p.val id) := rfl

theorem cmd_of_cdcTurn {s : State} {p id op : Nat} {c : Cmd} (h : CdcTurn s p id op c) : c.id = id ∧ s.cmd? p c.id = some c := by
  obtain ⟨⟨hcmd, -⟩, hid, -⟩ := h
  exact ⟨hid, hid ▸ hcmd⟩

/-- A CDC command that its engine runs acts. -/
theorem onCdc_of {s : State} {p id op : Nat} {c : Cmd} (h : CdcTurn s p id op c) (f : Cmd → State) : s.onCdc p id op f = f c := by
  obtain ⟨hstart, -, hrun⟩ := h
  unfold State.onCdc
  rw [onStarted_of hstart, if_pos hrun]

theorem sessionOpen_of {s : State} {p id : Nat} {c : Cmd} (h : CdcTurn s p id 0x10 c)
    (hgrant : s.openSessions p c.cdcUnit < s.cdcGrant p c.cdcUnit) :
    s.sessionOpen p id = (s.modSession p c.cdcUnit c.sess fun _ => c.newSession).done p id := by
  unfold State.sessionOpen
  rw [onCdc_of h, if_neg (Nat.not_le.mpr hgrant)]

theorem sessionClose_of {s : State} {p id : Nat} {c : Cmd} (h : CdcTurn s p id 0x13 c) :
    s.sessionClose p id = ((s.modSession p c.cdcUnit c.sess fun _ => {}).unbindRtp p c.cdcUnit c.sess).done p id := by
  unfold State.sessionClose
  rw [onCdc_of h]

/-- An engine that runs a BATCH command and holds none suspends it for a LIVE head (R289). -/
theorem batchSuspend_of {s : State} {u p id : Nat} {c : Cmd} (hcmd : s.cmd? p id = some c) (hrun : s.engRuns u = some (p, id))
    (hholds : s.engHolds u = none) (hwaits : s.liveWaits u = true) (hbatch : s.isLive p c = false) :
    s.batchSuspend u = s.modEng u fun e => { e with running := none, suspended := e.running, preempts := wrapAdd e.preempts 1 } := by
  simp [State.batchSuspend, hrun, hholds, hwaits, hcmd, hbatch]

/-- A free engine takes its suspended command up again where no LIVE head waits (R289). -/
theorem batchResume_of {s : State} {u : Nat} {h : Nat × Nat} (hholds : s.engHolds u = some h) (hrun : s.engRuns u = none)
    (hwaits : s.liveWaits u = false) : s.batchResume u = s.modEng u fun e => { e with running := e.suspended, suspended := none } := by
  simp [State.batchResume, hholds, hrun, hwaits]

/-- Settles O29: a codec command that its engine runs acts at once, and the engine's state alone decides over BATCH_SUSPEND and
BATCH_RESUME. -/
theorem codecSessions : Obligations.CodecSessions := by
  unfold Obligations.CodecSessions
  refine ⟨fun p id s c => ⟨?_, ?_⟩, fun u s p id c hcmd => ⟨?_, ?_⟩⟩
  · intro h hgrant
    rw [exec_sessionOpen, sessionOpen_of h hgrant]
  · intro h
    rw [exec_sessionClose, sessionClose_of h]
  · intro hrun hholds hwaits hbatch
    rw [exec_batchSuspend, batchSuspend_of hcmd hrun hholds hwaits hbatch]
    rfl
  · intro hholds hrun hwaits
    rw [exec_batchResume, batchResume_of hholds hrun hwaits]
    rfl

/-! What a change of one session, and the end of a command, leave. -/

@[simp] theorem modSession_cmd (s : State) (p u n : Nat) (f : Session → Session) (q i : Nat) :
    (s.modSession p u n f).cmd? q i = s.cmd? q i := by
  by_cases h : q = p <;> simp [State.modSession, State.cmd?, State.modCdc_part, h]

@[simp] theorem modSession_mem (s : State) (p u n : Nat) (f : Session → Session) : (s.modSession p u n f).mem = s.mem := rfl

@[simp] theorem modSession_cdcs (s : State) (p u n : Nat) (f : Session → Session) : (s.modSession p u n f).cdcs = s.cdcs := rfl

theorem modSession_session_self (s : State) (p u n : Nat) (f : Session → Session) :
    (s.modSession p u n f).session p u n = f (s.session p u n) := by
  simp [State.modSession, State.session]

theorem modSession_session_of_ne (s : State) (p u n : Nat) (f : Session → Session) {q v m : Nat}
    (h : ¬ (q = p ∧ 64 * v + m = 64 * u + n)) : (s.modSession p u n f).session q v m = s.session q v m := by
  unfold State.session State.modSession
  rw [State.modCdc_part]
  split
  case isTrue hq =>
    subst hq
    exact tget_tset_of_ne _ _ _ fun hk => h ⟨rfl, hk⟩
  case isFalse => rfl

/-- The sessions of a unit are numbered up to 63. -/
theorem sess_lt (c : Cmd) : c.sess < 64 := by
  unfold Cmd.sess bitsOf
  omega

@[simp] theorem modSys_session (s : State) (p : Nat) (f : CmdSys → CmdSys) (q u n : Nat) :
    (s.modSys p f).session q u n = s.session q u n := by
  by_cases h : q = p <;> simp [State.session, State.modSys_part, h]

@[simp] theorem modCmd_session (s : State) (p id : Nat) (f : Cmd → Cmd) (q u n : Nat) :
    (s.modCmd p id f).session q u n = s.session q u n := modSys_session s p _ q u n

@[simp] theorem leaveCluster_session (s : State) (p id q u n : Nat) : (s.leaveCluster p id).session q u n = s.session q u n := by
  simp only [State.session, State.leaveCluster_part]

@[simp] theorem modEng_session (s : State) (u : Nat) (f : CdcEng → CdcEng) (q v n : Nat) :
    (s.modEng u f).session q v n = s.session q v n := rfl

@[simp] theorem modEv_session (s : State) (f : Events → Events) (q v n : Nat) : (s.modEv f).session q v n = s.session q v n := rfl

/-- A fault takes the next sequence number. -/
theorem newFault_state (s : State) : s.newFault.2 = s.modEv fun e => { e with seq := e.seq + 1 } := rfl

@[simp] theorem finishBy_session (s : State) (p id : Nat) (cause : W16) (f : Option W64) (detail q u n : Nat) :
    (s.finishBy p id cause f detail).session q u n = s.session q u n := by
  simp only [State.finishBy, State.finish, modCmd_session, modSys_session, leaveCluster_session]

@[simp] theorem finishBy_cdcs (s : State) (p id : Nat) (cause : W16) (f : Option W64) (detail : Nat) :
    (s.finishBy p id cause f detail).cdcs = s.cdcs := by
  unfold State.finishBy
  rw [State.modCmd_cdcs, State.finish_rest]

theorem finishBy_cmd_of_ne (s : State) (p id : Nat) (cause : W16) (f : Option W64) (detail : Nat) {n : Nat} (h : n ≠ id) :
    (s.finishBy p id cause f detail).cmd? p n = s.cmd? p n := by
  unfold State.finishBy
  rw [State.modCmd_cmd, finish_cmd_of_ne _ _ _ _ _ _ _ h]
  · cases hc : s.cmd? p n with
    | none => rfl
    | some c => simp [State.cmd_id hc, h]
  · exact fun _ => rfl

/-- A command that ends with a cause is DONE with it. -/
theorem finishBy_ends {s : State} {p id : Nat} {c : Cmd} (h : s.cmd? p id = some c) (cause : W16) (f : Option W64) (detail : Nat) :
    ((s.finishBy p id cause f detail).cmd? p id).map outcome = some (.ended, .done, cause) := by
  rw [finishBy_outcome, State.finish_cmd, h]
  rfl

/-! CDC_FAULT (R300). -/

/-- Command `i` of partition `p` has ended DONE with CDC_FAULT. -/
def Faulted (t : State) (p i : Nat) : Prop := (t.cmd? p i).map outcome = some (.ended, .done, Cause.cdcFault)

/-- The end of CDC_FAULT flags the command's signal. -/
theorem Faulted.ends {t : State} {p i : Nat} (h : Faulted t p i) :
    ∃ d, t.cmd? p i = some d ∧ d.phase = .ended ∧ d.status = .done ∧ d.cause = Cause.cdcFault ∧ flagsSignal d.status d.cause = true := by
  obtain ⟨d, hd, hout⟩ := Option.map_eq_some_iff.mp h
  simp only [outcome, Prod.mk.injEq] at hout
  obtain ⟨hphase, hstatus, hcause⟩ := hout
  refine ⟨d, hd, hphase, hstatus, hcause, ?_⟩
  rw [hstatus, hcause]
  rfl

/-- Another command that ends with CDC_FAULT leaves it so. -/
theorem Faulted.finishBy {t : State} {p i j : Nat} (h : Faulted t p i) (f : Option W64) :
    Faulted (t.finishBy p j Cause.cdcFault f) p i := by
  by_cases hij : i = j
  · subst hij
    obtain ⟨d, hd, -⟩ := Option.map_eq_some_iff.mp h
    exact finishBy_ends hd _ _ _
  · exact (congrArg (Option.map outcome) (finishBy_cmd_of_ne t p j _ _ _ hij)).trans h

/-- The state in which a fault of CDC[u] has been counted, has ended the running command `c` of partition `p`, and has taken its session. -/
def runningFaulted (s : State) (u p : Nat) (c : Cmd) : State :=
  (((s.modEng u fun e => { e with faults := satAdd e.faults 1 }).newFault.2).faultSession p u c.sess).finishBy p c.id Cause.cdcFault
    (some s.ev.seq)

/-- The command of partition `p` that an engine holds suspended. -/
def heldOf (s : State) (u p : Nat) : Option Cmd := (s.engHolds u).bind fun h => if h.1 = p then s.cmd? p h.2 else none

theorem heldOf_of {s : State} {u p i : Nat} {d : Cmd} (hholds : s.engHolds u = some (p, i)) (hcmd : s.cmd? p i = some d) :
    heldOf s u p = some d := by
  simp [heldOf, hholds, hcmd]

section
variable {s : State} {u p id : Nat} {c : Cmd} (hrun : s.engRuns u = some (p, id)) (hcmd : s.cmd? p id = some c)
include hrun hcmd

/-- A suspended command of the faulted session ends with the running one. -/
theorem cdcFault_of_same {d : Cmd} (hheld : heldOf s u p = some d) (hsame : d.sess = c.sess) :
    s.cdcFault u = (runningFaulted s u p c).finishBy p d.id Cause.cdcFault (some s.ev.seq) := by
  have hid := State.cmd_id hcmd
  subst hid
  unfold heldOf at hheld
  simp only [State.cdcFault, hrun, hcmd, hheld, if_pos hsame]
  rfl

/-- Without one, the running command ends alone. -/
theorem cdcFault_of_alone (hheld : ∀ d, heldOf s u p = some d → d.sess ≠ c.sess) : s.cdcFault u = runningFaulted s u p c := by
  have hid := State.cmd_id hcmd
  subst hid
  unfold heldOf at hheld
  simp only [State.cdcFault, hrun, hcmd]
  split
  next d hd => exact if_neg (hheld d hd)
  next => rfl

end

/-- What a fault of CDC[u] leaves in `t` of command `c` of partition `p`, which ran there, of its session, of every other session, of the
count of faults and of the memories; what the engine held is left open. -/
structure FaultTaken (s : State) (u p : Nat) (c : Cmd) (t : State) : Prop where
  running : Faulted t p c.id
  session : (t.session p u c.sess).state = .faulted
  count : (tget {} t.cdcs u).faults = satAdd (tget {} s.cdcs u).faults 1
  mem : t.mem = s.mem
  others : ∀ q v n, ¬ (q = p ∧ 64 * v + n = 64 * u + c.sess) → t.session q v n = s.session q v n

theorem runningFaulted_taken {s : State} {u p : Nat} {c : Cmd} (hcmd : s.cmd? p c.id = some c) :
    FaultTaken s u p c (runningFaulted s u p c) where
  running := by
    refine finishBy_ends (c := c) ?_ _ _ _
    rw [State.faultSession, modSession_cmd, newFault_state, State.modEv_cmd, State.modEng_cmd, hcmd]
  session := by
    rw [runningFaulted, finishBy_session, State.faultSession, modSession_session_self]
  count := by
    rw [runningFaulted, finishBy_cdcs, State.faultSession, modSession_cdcs, newFault_state, State.modEv_cdcs, State.modEng_cdcs,
      tget_tmod_self]
  mem := by
    rw [runningFaulted, State.finishBy_mem, State.faultSession, modSession_mem, newFault_state, State.modEv_mem, State.modEng_mem]
  others q v n h := by
    rw [runningFaulted, finishBy_session, State.faultSession, modSession_session_of_ne _ _ _ _ _ h, newFault_state, modEv_session,
      modEng_session]

theorem FaultTaken.finishBy {s t : State} {u p : Nat} {c : Cmd} (h : FaultTaken s u p c t) (i : Nat) (f : Option W64) :
    FaultTaken s u p c (t.finishBy p i Cause.cdcFault f) where
  running := h.running.finishBy f
  session := by rw [finishBy_session, h.session]
  count := by rw [finishBy_cdcs, h.count]
  mem := by rw [State.finishBy_mem, h.mem]
  others q v n hn := by rw [finishBy_session, h.others q v n hn]

/-- The running command's end leaves every other command. -/
theorem runningFaulted_cmd_of_ne (s : State) (u p : Nat) (c : Cmd) {i : Nat} (h : i ≠ c.id) :
    (runningFaulted s u p c).cmd? p i = s.cmd? p i := by
  rw [runningFaulted, finishBy_cmd_of_ne _ _ _ _ _ _ h, State.faultSession, modSession_cmd, newFault_state, State.modEv_cmd,
    State.modEng_cmd]

/-- A CDC_FAULT takes the running command, and a suspended one where it is of the same session. -/
theorem cdcFault_taken {s : State} {u p id : Nat} {c : Cmd} (hrun : s.engRuns u = some (p, id)) (hcmd : s.cmd? p id = some c) :
    FaultTaken s u p c (s.cdcFault u) ∧ ∀ i d, s.engHolds u = some (p, i) → s.cmd? p i = some d →
      (d.sess = c.sess → Faulted (s.cdcFault u) p i) ∧ (d.sess ≠ c.sess → (s.cdcFault u).cmd? p i = s.cmd? p i) := by
  have hid := State.cmd_id hcmd
  have htaken : FaultTaken s u p c (runningFaulted s u p c) := runningFaulted_taken (by rw [hid, hcmd])
  by_cases hheld : ∃ d, heldOf s u p = some d ∧ d.sess = c.sess
  · obtain ⟨d, hd, hsame⟩ := hheld
    rw [cdcFault_of_same hrun hcmd hd hsame]
    refine ⟨htaken.finishBy _ _, fun i e hholds he => ?_⟩
    obtain rfl : d = e := Option.some.inj (hd.symm.trans (heldOf_of hholds he))
    refine ⟨fun _ => ?_, fun hne => absurd hsame hne⟩
    rw [State.cmd_id he]
    by_cases hi : i = c.id
    · subst hi
      exact htaken.running.finishBy _
    · exact finishBy_ends ((runningFaulted_cmd_of_ne s u p c hi).trans he) _ _ _
  · have halone : ∀ d, heldOf s u p = some d → d.sess ≠ c.sess := fun d hd hsame => hheld ⟨d, hd, hsame⟩
    rw [cdcFault_of_alone hrun hcmd halone]
    refine ⟨htaken, fun i d hholds hd => ?_⟩
    have hother : d.sess ≠ c.sess := halone d (heldOf_of hholds hd)
    refine ⟨fun hsame => absurd hsame hother, fun _ => runningFaulted_cmd_of_ne s u p c fun hi => hother ?_⟩
    rw [hi, hid, hcmd] at hd
    rw [Option.some.inj hd]

/-- Settles O30: the engine's own command ends and its session goes FAULTED; a command that it holds suspended shares that end where it is of
the same session, and only there. -/
theorem codecFault : Obligations.CodecFault := by
  unfold Obligations.CodecFault
  intro u s p id c hrun hcmd
  obtain ⟨htaken, hholds⟩ := cdcFault_taken hrun hcmd
  have hid := State.cmd_id hcmd
  subst hid
  refine ⟨s.cdcFault u.val, exec_cdcFault u s, htaken.running.ends, htaken.session, htaken.count, htaken.mem, ?_, ?_⟩
  · intro i d hi hd
    exact ⟨fun hsame => ((hholds i d hi hd).1 hsame).ends, (hholds i d hi hd).2⟩
  · intro q v n hn hother
    refine htaken.others q v.val n fun ⟨hq, hplace⟩ => hother ?_
    have hsess := sess_lt c
    exact ⟨hq, Fin.ext (by omega), by omega⟩

/-! What a read of a memory sees after lines were counted. -/

/-- Between `s` and `t` the objects of partition `p` and what a read of its memory answers stay. -/
structure ReadsStay (p : Nat) (s t : State) : Prop where
  object : ∀ h, t.object p h = s.object p h
  peek : ∀ pl off n, t.peek p pl off n = s.peek p pl off n

theorem ReadsStay.refl (p : Nat) (s : State) : ReadsStay p s s := ⟨fun _ => rfl, fun _ _ _ => rfl⟩

theorem ReadsStay.trans {p : Nat} {s t u : State} (h : ReadsStay p s t) (k : ReadsStay p t u) : ReadsStay p s u :=
  ⟨fun i => (k.object i).trans (h.object i), fun pl off n => (k.peek pl off n).trans (h.peek pl off n)⟩

theorem ReadsStay.peekO {p : Nat} {s t : State} (h : ReadsStay p s t) (r : ORef) (n : Nat) : t.peekO p r n = s.peekO p r n := by
  rw [State.peekO, State.peekO, h.object, h.peek]

theorem ReadsStay.anyMoving {p : Nat} {s t : State} (h : ReadsStay p s t) (hs : List Nat) : t.anyMoving p hs = s.anyMoving p hs := by
  simp only [State.anyMoving, h.object]

theorem ReadsStay.withFree (p : Nat) (s : State) (n : Nat) : ReadsStay p s { s with free := n } := ⟨fun _ => rfl, fun _ _ _ => rfl⟩

@[simp] theorem charge_mem (s : State) (p r b n : Nat) : (s.charge p r b n).mem = s.mem := by
  have hcredits (t : State) : (t.meterCredits p r n).mem = t.mem := by
    unfold State.meterCredits State.count
    split
    · split <;> rfl
    · rfl
  unfold State.charge
  dsimp only
  split
  · rfl
  · rw [hcredits]
    rfl

/-- A channel poisons its lines by its state and its fault's number alone (R262). -/
theorem poisonAt_chans (m : Mem) (k : Nat) {f : Chan → Chan} (hstate : ∀ c, (f c).state = c.state)
    (hseq : ∀ c, (f c).failSeq = c.failSeq) (sp : Space) (line : Nat) :
    ({ m with chans := tmod (Chan.reset k) m.chans k f } : Mem).poisonAt sp line = m.poisonAt sp line := by
  have hchan (j : Nat) : (tget (Chan.reset j) (tmod (Chan.reset k) m.chans k f) j).state = (tget (Chan.reset j) m.chans j).state ∧
      (tget (Chan.reset j) (tmod (Chan.reset k) m.chans k f) j).failSeq = (tget (Chan.reset j) m.chans j).failSeq := by
    by_cases hj : j = k
    · subst hj
      rw [tget_tmod_self, hstate, hseq]
      exact ⟨rfl, rfl⟩
    · rw [tmod, tget_tset_of_ne _ _ _ hj]
      exact ⟨rfl, rfl⟩
  unfold Mem.poisonAt
  dsimp only
  simp only [hchan]

/-- What a partition is told leaves where its places lie. -/
theorem phys_of_partTold {p : Nat} {s t : State} (h : PartTold p s t) (pl : Place) (off : Nat) : t.phys p pl off = s.phys p pl off := by
  have hctl : (t.part p).ctl = (s.part p).ctl := by rw [h.mine]
  have hcluster (r : Nat) : t.relCluster p r = s.relCluster p r := by
    simp only [State.relCluster, hctl]
    rw [h.rest]
    rfl
  simp only [State.phys, hctl, hcluster]

theorem ReadsStay.countLine (p : Nat) (s : State) (sp : Space) (a : Nat) : ReadsStay p s (s.countLine p sp a) := by
  have htold : PartTold p s (s.countLine p sp a) := .countLine p s sp a
  have hctl : ((s.countLine p sp a).part p).ctl = (s.part p).ctl := by rw [htold.mine]
  obtain ⟨hbytes, hpoison⟩ : (∀ key sp' b, (s.countLine p sp a).mem.byteAt key sp' b = s.mem.byteAt key sp' b) ∧
      ∀ sp' line, (s.countLine p sp a).mem.poisonAt sp' line = s.mem.poisonAt sp' line := by
    unfold State.countLine
    split
    · exact ⟨fun _ _ _ => rfl, fun _ _ => rfl⟩
    · rw [charge_mem, State.modChan_mem]
      exact ⟨fun _ _ _ => rfl, poisonAt_chans _ _ (fun _ => rfl) (fun _ => rfl)⟩
  refine ⟨object_of_partTold htold, fun pl off n => ?_⟩
  simp only [State.peek, hctl, phys_of_partTold htold, hbytes, hpoison]

theorem ReadsStay.countO (p : Nat) (s : State) (r : ORef) (n : Nat) : ReadsStay p s (s.countO p r n) := by
  unfold State.countO State.countRange
  split
  · exact .refl p s
  · exact .refl p s
  · exact foldl_keeps (ReadsStay p s) _ (fun t _ ht => ht.trans (.countLine p t _ _)) _ (.refl p s)

/-! A picture written into a buffer. -/

theorem partTold_countConcealed (s : State) (p : Nat) (x : Session) (j r blockRow : Nat) (concealed : Nat → Bool) :
    PartTold p s (s.countConcealed p x j r blockRow concealed) :=
  foldl_keeps (PartTold p s) _ (fun t _ ht => ht.trans (partTold_countO t p _ _)) _ (.refl p s)

theorem partTold_writeFrame (s : State) (p : Nat) (x : Session) (i u n : Nat) (concealed : Nat → Bool) (ref : Option Nat) :
    PartTold p s (s.writeFrame p x i u n concealed ref).1 := by
  unfold State.writeFrame
  dsimp only
  refine PartTold.trans ?_ (.pokeO p _ _ _)
  refine foldl_keeps (fun t : State × Option W64 => PartTold p s t.1) _ (fun t r ht => ht.trans ?_) _ (a := (s, none)) (.refl p s)
  cases ref with
  | none => exact .pokeO p _ _ _
  | some j => exact (partTold_countConcealed t.1 p x j r _ concealed).trans (.pokeO p _ _ _)

section
variable (s : State) (p : Nat) (c : Cmd) (x : Session)

/-- The state in which a DECODE_UNIT has read its bitstream and its references (R280). -/
def decodeRead : State :=
  ((List.range x.nbuf).filter x.isRef).foldl
    (fun t i => t.countO p (x.buf i) (Config.freeNat (s.free + 8 + i) % (x.planeBytes + 1)))
    (({ s with free := s.free + 8 + x.nbuf } : State).countO p (c.ref 48) (c.fld 40 4))

/-- The fault that poisons what a DECODE_UNIT reads. -/
def decodeFault : Option W64 :=
  (({ s with free := s.free + 8 + x.nbuf } : State).peekO p (c.ref 48) (c.fld 40 4)).fault.orElse fun _ =>
    if Config.freeBool s.free 0 then
      ((List.range x.nbuf).filter x.isRef).findSome? fun i => ((decodeRead s p c x).peekO p (x.buf i) x.planeBytes).fault
    else none

theorem decodeInto_cmd (b : Nat) (forced : Option W16) (n : Nat) : (s.decodeInto p c x b forced).s.cmd? p n = s.cmd? p n := by
  have hread : (decodeRead s p c x).cmd? p n = s.cmd? p n :=
    cmd_of_partTold (foldl_keeps (PartTold p { s with free := s.free + 8 + x.nbuf }) _
      (fun t _ ht => ht.trans (partTold_countO t p _ _)) _ (partTold_countO _ p _ _)) n
  exact (cmd_of_partTold (partTold_writeFrame (decodeRead s p c x) p x b _ _ _ _) n).trans hread

theorem readsStay_decodeRead : ReadsStay p s (decodeRead s p c x) :=
  foldl_keeps (ReadsStay p s) _ (fun t _ ht => ht.trans (.countO p t _ _)) _ ((ReadsStay.withFree p s _).trans (.countO p _ _ _))

end

/-- Where nothing that it reads is poisoned, a unit that is aborted ends with the cause of that. -/
theorem decodeInto_cause {s : State} {p : Nat} {c : Cmd} {x : Session} (hclean : decodeFault s p c x = none) (b : Nat) (forced : W16) :
    (s.decodeInto p c x b (some forced)).cause = forced := by
  have hcause : (s.decodeInto p c x b (some forced)).cause = if (decodeFault s p c x).isSome then Cause.cdcPoison else forced := rfl
  rw [hcause, hclean]
  rfl

/-- A unit whose bitstream and pool read without a fault meets no poison. -/
theorem decodeFault_none {s : State} {p : Nat} {c : Cmd} {x : Session} (hbits : (s.peekO p (c.ref 48) (c.fld 40 4)).fault = none)
    (hpool : ∀ i < x.nbuf, (s.peekO p (x.buf i) x.planeBytes).fault = none) : decodeFault s p c x = none := by
  unfold decodeFault
  rw [(ReadsStay.withFree p s _).peekO, hbits]
  have hrefs : (((List.range x.nbuf).filter x.isRef).findSome? fun i =>
      ((decodeRead s p c x).peekO p (x.buf i) x.planeBytes).fault) = none := by
    refine List.findSome?_eq_none_iff.mpr fun i hi => ?_
    rw [(readsStay_decodeRead s p c x).peekO]
    exact hpool i (List.mem_range.mp (List.mem_filter.mp hi).1)
  rw [hrefs, ite_self]
  rfl

/-! The end of a DECODE_UNIT. -/

/-- A DECODE_UNIT without out_latent that has come to a cause ends DONE with it. -/
theorem output_outcome {d : Decoded} {p : Nat} {c e : Cmd} (gs : List Region) (hlatent : bitOf (c.fld 35 1) 1 = false)
    (hcause : d.cause ≠ 0) (hcmd : d.s.cmd? p c.id = some e) :
    ((d.output p c gs).cmd? p c.id).map outcome = some (.ended, .done, d.cause) := by
  unfold Decoded.output
  simp only [hlatent, Bool.false_eq_true, if_false, Option.isSome_none, ne_eq, hcause, not_false_eq_true, if_true]
  refine finishBy_ends (c := e) ?_ _ _ _
  rw [State.modEng_cmd, count_cmd, modSession_cmd]
  split <;> exact hcmd

/-! DECODE_UNIT without regions (R279 to R281). -/

/-- A DECODE_UNIT that has decoded nothing. -/
def undecoded (s : State) (x : Session) : Decoded :=
  { s := s, x := x, buf := none, corrupt := false, refCorrupt := false, concealed := 0, cause := 0, fault := none, refused := none }

/-- The buffers that stand in AV1 slots. -/
def slotted (x : Session) : List Nat := (List.range x.nbuf).filter fun i => bitsOf (x.mark i) 2 8 != 0

/-- Whether a picture of partition `p` may be one that only shows an existing one (Table 8.2). -/
def mayShow (s : State) (p : Nat) (c : Cmd) (x : Session) : Bool :=
  x.codec == 0 && !(slotted x).isEmpty && (s.peekO p (c.ref 48) (c.fld 40 4)).fault.isNone

/-- A DECODE_UNIT that has shown an existing picture, of a free slot. -/
def shownOf (s : State) (p : Nat) (c : Cmd) (x : Session) : Decoded :=
  let i := nth 0 (slotted x) (Config.freeNat s.free % (slotted x).length)
  { undecoded s x with
    s := ({ s with free := s.free + 3 } : State).countO p (c.ref 48) (c.fld 40 4)
    x := (x.shownAgain (s.free + 2) i).showFrame (s.free + 1) i }

section
variable {s : State} {p : Nat} {c : Cmd} {x : Session} {forced : Option W16}

theorem mayShow_iff : mayShow s p c x = true ↔ x.codec = 0 ∧ slotted x ≠ [] ∧ (s.peekO p (c.ref 48) (c.fld 40 4)).fault = none := by
  simp [mayShow, and_assoc]

/-- A DECODE_UNIT without regions, with `u` the state in which its empty region table has been read. -/
theorem decode_of_noRegions (hx : s.session p c.cdcUnit c.sess = x) (hregions : c.fld 37 1 = 0)
    (hmoving : c.fld 40 4 ≠ 0 → s.anyMoving p [x.pool.1.handle] = false) : let u := s.countO p (c.ref 56) 0
    s.decode p c forced =
      if c.fld 40 4 = 0 then (undecoded u x).output p c []
      else if forced = none ∧ mayShow u p c x = true ∧ Config.freeBool u.free 1 = true then (shownOf u p c x).output p c []
      else x.freeBuf.elim (u.skipCdc p c Cause.poolExhausted) fun b => (u.decodeInto p c x b forced).output p c [] := by
  have hstill : ((s.countO p (c.ref 56) 0).anyMoving p [] ||
      (c.fld 40 4 != 0 && (s.countO p (c.ref 56) 0).anyMoving p [x.pool.1.handle])) = false := by
    rw [(ReadsStay.countO p s _ _).anyMoving, (ReadsStay.countO p s _ _).anyMoving]
    by_cases hlen : c.fld 40 4 = 0
    · simp [hlen, State.anyMoving]
    · rw [hmoving hlen, Bool.and_false]
      rfl
  have hgs (bs : List Byte) : regionsOf bs 0 = [] := rfl
  have hcause (t : State) : t.regionCause p x [] = 0 := rfl
  unfold State.decode
  simp only [hx, hregions, Nat.mul_zero, if_true, hgs, hcause, ne_eq, not_true_eq_false, if_false, List.map_nil, hstill, Bool.false_eq_true]
  refine ite_congr rfl (fun _ => rfl) fun _ => ite_congr (propext ?_) (fun _ => rfl) fun _ => ?_
  · rw [mayShow_iff]
    exact ⟨fun ⟨hcodec, hforced, hslots, hfault, hfree⟩ => ⟨hforced, ⟨hcodec, hslots, hfault⟩, hfree⟩,
      fun ⟨hforced, ⟨hcodec, hslots, hfault⟩, hfree⟩ => ⟨hcodec, hforced, hslots, hfault, hfree⟩⟩
  · cases x.freeBuf <;> rfl

/-- A DECODE_UNIT that its engine runs, on dies that take its traffic, decodes. -/
theorem decodeUnit_of {id : Nat} (h : CdcTurn s p id 0x11 c) (hpool : s.poolStopped p (s.session p c.cdcUnit c.sess) = false)
    (hbits : s.stoppedO p (c.ref 48) (c.fld 40 4) = false) : s.decodeUnit p id = s.decode p c none := by
  unfold State.decodeUnit
  rw [onCdc_of h]
  simp only [hpool, hbits, Bool.or_self, Bool.false_eq_true, if_false]

/-- A DECODE_UNIT aborted at its work bound, whose picture meets no poison, ends with that cause (R291). -/
theorem unitWorkBound_outcome {id b : Nat} (h : CdcTurn s p id 0x11 c) (hx : s.session p c.cdcUnit c.sess = x) (hregions : c.fld 37 1 = 0)
    (hlen : c.fld 40 4 ≠ 0) (hlatent : bitOf (c.fld 35 1) 1 = false) (hbuf : x.freeBuf = some b)
    (hmoving : s.anyMoving p [x.pool.1.handle] = false) (hbits : (s.peekO p (c.ref 48) (c.fld 40 4)).fault = none)
    (hpool : ∀ i < x.nbuf, (s.peekO p (x.buf i) x.planeBytes).fault = none) :
    ((s.unitWorkBound p id).cmd? p id).map outcome = some (.ended, .done, Cause.unitWorkBound) := by
  obtain ⟨hid, hcmd⟩ := cmd_of_cdcTurn h
  subst hid
  have hdecode : s.unitWorkBound p c.id =
      ((s.countO p (c.ref 56) 0).decodeInto p c x b (some Cause.unitWorkBound)).output p c [] := by
    unfold State.unitWorkBound
    rw [onCdc_of h, if_neg hlen, decode_of_noRegions hx hregions fun _ => hmoving, if_neg hlen, if_neg (fun hno => nomatch hno.1), hbuf,
      Option.elim_some]
  have hcount := ReadsStay.countO p s (c.ref 56) 0
  have hclean : decodeFault (s.countO p (c.ref 56) 0) p c x = none := by
    apply decodeFault_none
    · rw [hcount.peekO, hbits]
    · exact fun i hi => (congrArg Rd.fault (hcount.peekO _ _)).trans (hpool i hi)
  have hcause := decodeInto_cause hclean b Cause.unitWorkBound
  rw [hdecode, output_outcome (e := c) [] hlatent, hcause]
  · rw [hcause]
    decide
  · rw [decodeInto_cmd, cmd_of_partTold (partTold_countO s p _ _), hcmd]

end

/-! ENCODE_FRAME without ROI entries (R284). -/

theorem encodeOk_of_noRoi {c : Cmd} (h : c.fld 37 1 = 0) (x : Session) (roi : List Byte) : x.encodeOk c roi = x.encodeOk c [] := by
  simp [Session.encodeOk, h]

/-- What an ENCODE_FRAME encodes: a latent source or a buffer of the pool. -/
def encodeSource (c : Cmd) (x : Session) : ORef × Nat :=
  (if bitOf (c.fld 35 1) 1 then c.ref 48 else x.buf (c.fld 41 1),
    if bitOf (c.fld 35 1) 1 then 32 * x.width * x.height else x.planeBytes)

theorem encodeSource_eq (c : Cmd) (x : Session) :
    (if bitOf (c.fld 35 1) 1 then (c.ref 48, 32 * x.width * x.height) else (x.buf (c.fld 41 1), x.planeBytes)) = encodeSource c x := by
  unfold encodeSource
  split <;> rfl

/-- The references that an ENCODE_FRAME names. -/
def encodeRefs (c : Cmd) : List Nat := [c.fld 38 1, c.fld 39 1].filter (· != 0xFF)

section
variable (v : State) (p : Nat) (c : Cmd) (x : Session)

/-- The state in which an ENCODE_FRAME has read its source and its references. -/
def encodeRead : State :=
  (encodeRefs c).zipIdx.foldl (fun t r => t.countO p (x.buf r.1) (Config.freeNat (v.free + r.2) % (x.planeBytes + 1)))
    ({ v.countO p (encodeSource c x).1 (encodeSource c x).2 with free := v.free + 3 + 16 * x.width * x.height } : State)

/-- The samples of its source. -/
def encodeSamples : List Nat :=
  if bitOf (c.fld 35 1) 1 then (encodeRead v p c x).latentSamples p x (encodeSource c x).1 (v.free + 3)
  else (encodeRead v p c x).poolSamples p x (c.fld 41 1)

/-- The fault that poisons what it reads. -/
def encodeFault : Option W64 :=
  (v.peekO p (encodeSource c x).1 (encodeSource c x).2).fault.orElse fun _ =>
    (encodeRefs c).findSome? fun r => (v.peekO p (x.buf r) x.planeBytes).fault

/-- An ENCODE_FRAME into buffer `b` of its session, which its source's mark has made `y`. -/
def encodePicture (y : Session) (b : Nat) : State :=
  match encodeFault v p c x with
  | some q => (encodeRead v p c x).finishBy p c.id Cause.cdcPoison (some q)
  | none => (encodeRead v p c x).encodeInto p c y b (encodeSamples v p c x) []

end

theorem encodePicture_of_clean {v : State} {p : Nat} {c : Cmd} {x : Session}
    (hsource : (v.peekO p (encodeSource c x).1 (encodeSource c x).2).fault = none)
    (hrefs : ∀ r ∈ encodeRefs c, (v.peekO p (x.buf r) x.planeBytes).fault = none) (y : Session) (b : Nat) :
    encodePicture v p c x y b = (encodeRead v p c x).encodeInto p c y b (encodeSamples v p c x) [] := by
  have hclean : encodeFault v p c x = none := by
    rw [encodeFault, hsource, List.findSome?_eq_none_iff.mpr hrefs]
    rfl
  rw [encodePicture, hclean]

/-- An ENCODE_FRAME in order, with `v` the state in which its source has been named. -/
theorem encodeFrame_of {s : State} {p id : Nat} {c : Cmd} {x : Session} (h : CdcTurn s p id 0x12 c)
    (hx : s.session p c.cdcUnit c.sess = x) (hroi : c.fld 37 1 = 0) (hmoving : s.anyMoving p [(c.ref 56).handle, x.pool.1.handle] = false)
    (hpool : s.poolStopped p x = false) (hout : s.stoppedO p (c.ref 56) (c.fld 64 4) = false) (hok : x.encodeOk c [] = true) :
    let v := (s.countO p (c.ref 68) 0).nameSource p c
    s.encodeFrame p id = (v.session p c.cdcUnit c.sess).freeBuf.elim (v.skipCdc p c Cause.poolExhausted)
      (encodePicture v p c x (v.session p c.cdcUnit c.sess)) := by
  obtain ⟨hid, -⟩ := cmd_of_cdcTurn h
  subst hid
  unfold State.encodeFrame
  rw [onCdc_of h]
  simp only [hx, hmoving, hpool, hout, hroi, Bool.or_self, Bool.false_eq_true, if_false, if_true, Nat.mul_zero, encodeOk_of_noRoi hroi, hok,
    Bool.not_true, encodeSource_eq]
  cases (((s.countO p (c.ref 68) 0).nameSource p c).session p c.cdcUnit c.sess).freeBuf with
  | none => rfl
  | some b => rfl

/-! The units carried out. -/

/-- A DECODE_UNIT or ENCODE_FRAME handed to its engine releases the buffers that its mask names (R279). -/
theorem place_session {s : State} {p : Nat} {c : Cmd} (hengine : c.engine = 3) (hop : c.op = 0x11 ∨ c.op = 0x12) :
    (s.place p c).session p c.cdcUnit c.sess = (s.session p c.cdcUnit c.sess).release (c.fld 44 4) := by
  have hcluster : c.onACluster = false := by simp [Cmd.onACluster, hengine]
  have hlow : 0x10 ≤ c.op := by omega
  have hunit : ¬ (c.engine ≠ 3 ∨ (c.op ≠ 0x11 ∧ c.op ≠ 0x12)) := by omega
  unfold State.place
  rw [hcluster, if_neg Bool.false_ne_true, if_pos ⟨hengine, hlow⟩]
  dsimp only
  rw [modEng_session, State.releaseMask, if_neg hunit]
  dsimp only
  rw [modCmd_session, modSession_session_self]

/-- Settles O31: the engine's checks let the unit through, and its picture is what the branch of its operands makes of it. -/
theorem codecUnits : Obligations.CodecUnits := by
  unfold Obligations.CodecUnits
  refine ⟨fun p s c => place_session, fun p id s c =>
    ⟨fun h hregions => ⟨fun hpool hbits => ⟨fun hlen => ?_, fun hlen hmoving => ?_⟩, ?_⟩, ?_⟩⟩
  · rw [exec_decodeUnit, decodeUnit_of h hpool hbits, decode_of_noRegions rfl hregions fun hne => absurd hlen hne, if_pos hlen]
    rfl
  · rw [exec_decodeUnit, decodeUnit_of h hpool hbits, decode_of_noRegions rfl hregions fun _ => hmoving, if_neg hlen]
    refine congrArg Host.Outcome.next (ite_congr (propext ?_) (fun _ => rfl) fun _ => ?_)
    · exact ⟨fun hs => hs.2, fun hs => ⟨rfl, hs⟩⟩
    · cases (s.session p.val c.cdcUnit c.sess).freeBuf <;> rfl
  · intro b hlen hlatent hbuf hmoving hbits hpool
    exact ⟨_, exec_unitWorkBound p id s, unitWorkBound_outcome h rfl hregions hlen hlatent hbuf hmoving hbits hpool⟩
  · intro h hroi hmoving hpool hout hok
    rw [exec_encodeFrame, encodeFrame_of h rfl hroi hmoving hpool hout hok]
    refine ⟨fun hbuf => ?_, fun b hbuf hsource hrefs => ?_⟩
    · rw [hbuf]
      rfl
    · rw [hbuf]
      exact congrArg Host.Outcome.next (encodePicture_of_clean hsource hrefs _ b)

end Sys2Proof.VideoEngines

/-!
PROOF. Partitions and sharing (chapter 9): writes from outside a session, the object aperture and the translation cache; snapshots and the
period boundaries of regulators; the commands of PART_CTRL.
-/

namespace Sys2Proof.PartitionsAndSharing

open Sys2Proof.Machine
open Sys2Proof.SequencesAndRollouts (partTold_mmio mmio_behind postCmd_of)
open Sys2Proof.RecurrentStreams (object_of_partTold)
open Sys2Proof.MatrixArray (partTold_countRange partTold_dirtyRange)
open Sys2Proof.RecurrentStreams (partTold_countO)
open Sys2Proof.VideoEngines (partTold_writeFrame)

/-! Writes from outside a session (R309, R330, R494). -/

theorem exec_registerWrite (port : RegPort) (off : W32) (n : Byte) (v : W64) (s : State) :
    exec (.registerWrite port off n v) s = .next (s.registerWrite port off n v) := rfl

theorem noSession_of_page {s : State} {off : Nat} {g : Page} (hpage : s.pfPage (off / 4096) = some g) (v : Nat) :
    s.noSession off v =
      s.rejectPf off errNoSession Cause.noSession Writer.none (s.pagePart g) (BitVec.ofNat 64 v) (g.held s (off % 4096)) := by
  rw [State.noSession, hpage]

/-- The host's writes reach the device over a link that is up; those to the pages of MSI-X are none of a register (R330). -/
theorem pfMmioWrite_of {s : State} (hup : s.hostUp = true) {off : Nat} (htable : off / 4096 ≠ 0xFE) (hpend : off / 4096 ≠ 0xFF)
    (n v : Nat) : s.pfMmioWrite off n v = s.noSession off v := by
  simp [State.pfMmioWrite, hup, htable, hpend]

/-- A REG_WRITE of one register under a number that no open session has (R330). -/
theorem regWrite_of_no_session {s : State} {sid : Nat} (hserves : s.servesAll = true) (hnone : s.open? sid = none) (r : RegEntry) :
    s.regWrite sid [r] = s.noSession r.offset.toNat r.value.toNat := by
  simp [State.regWrite, hserves, hnone]

/-- A tenant's write with nothing waiting before it: to APR_WIN or not, it reaches its page on the state in which it has been counted
(R364, R365). -/
theorem registerWrite_vf_of {s : State} {p : PartId} (hfree : s.behind p.val = false) (off : W32) (n : Byte) (v : W64) :
    s.registerWrite (.vfMmio p) off n v = (s.mmio p.val).vfMmioWrite p.val off.toNat n.toNat v.toNat := by
  unfold State.registerWrite
  dsimp only
  split
  · rfl
  · exact postCmd_of hfree _

theorem mmio_vfRw (s : State) (p : Nat) : (s.mmio p).vfRw p = s.vfRw p := by
  rw [State.vfRw, State.vfReach, (partTold_mmio s p).mine]
  rfl

theorem vfRw_of_vfOpen {s : State} {p : Nat} (h : s.vfOpen p = true) : s.vfRw p = true := by
  simp only [State.vfOpen, Bool.and_eq_true, beq_iff_eq] at h
  simp [State.vfRw, h]

/-- A page of a VF that a tenant may not reach takes nothing (R309). -/
theorem vfWrite_of_closed {s : State} {p : Nat} (hclosed : s.vfRw p = false) (g : Page) (o n v : Nat) : g.vfWrite s p o n v = s := by
  have hopen : s.vfOpen p = false := Bool.eq_false_iff.mpr fun h => Bool.false_ne_true (hclosed.symm.trans (vfRw_of_vfOpen h))
  have hwrites (r : Reg) : s.vfWrites p g r = false := by
    unfold State.vfWrites
    split
    · exact hclosed
    · exact hopen
  unfold Page.vfWrite
  split
  · rfl
  · simp [hwrites, hclosed]

theorem vfMmioWrite_of_closed {s : State} {p : Nat} (hclosed : s.vfRw p = false) (off n v : Nat) : s.vfMmioWrite p off n v = s := by
  unfold State.vfMmioWrite
  dsimp only
  split
  · next htable => simp [State.vfReads, htable, hclosed]
  · split
    · rfl
    · simp only [vfWrite_of_closed hclosed, ite_self]

/-- Between `s` and `t` no partition but `p`, no memory, and no power, security or flash state changes. -/
structure TenantOnly (p : Nat) (s t : State) : Prop where
  pwr : t.pwr = s.pwr
  sec : t.sec = s.sec
  flash : t.flash = s.flash
  mem : t.mem = s.mem
  others : ∀ q, q ≠ p → t.part q = s.part q

theorem TenantOnly.refl (p : Nat) (s : State) : TenantOnly p s s := ⟨rfl, rfl, rfl, rfl, fun _ _ => rfl⟩

theorem TenantOnly.trans {p : Nat} {s t u : State} (h : TenantOnly p s t) (k : TenantOnly p t u) : TenantOnly p s u where
  pwr := k.pwr.trans h.pwr
  sec := k.sec.trans h.sec
  flash := k.flash.trans h.flash
  mem := k.mem.trans h.mem
  others q hq := (k.others q hq).trans (h.others q hq)

theorem TenantOnly.of_told {p : Nat} {s t : State} (h : PartTold p s t) (hmem : t.mem = s.mem) : TenantOnly p s t where
  pwr := (congrArg State.pwr h.rest).trans rfl
  sec := (congrArg State.sec h.rest).trans rfl
  flash := (congrArg State.flash h.rest).trans rfl
  mem := hmem
  others := h.others

theorem TenantOnly.modVf (p : Nat) (s : State) (f : Vf → Vf) : TenantOnly p s (s.modVf p f) :=
  ⟨rfl, rfl, rfl, rfl, fun q hq => by simp [State.modVf_part, hq]⟩

theorem TenantOnly.emit (p : Nat) (s : State) (o : Out) : TenantOnly p s (s.emit o) := ⟨rfl, rfl, rfl, rfl, fun _ _ => rfl⟩

@[simp] theorem countHost_mem (s : State) (p n : Nat) (asked : Bool) : (s.countHost p n asked).mem = s.mem := by
  unfold State.countHost
  dsimp only
  split
  · exact State.meterCredits_mem _ _ _ _
  · exact State.charge_mem _ _ _ _ _

theorem TenantOnly.mmio (p : Nat) (s : State) : TenantOnly p s (s.mmio p) := by
  refine .of_told (partTold_mmio s p) ?_
  unfold State.mmio
  split
  · exact countHost_mem ..
  · rfl

theorem TenantOnly.msixSetVf (p : Nat) (s : State) (i v : Nat) : TenantOnly p s (s.msixSetVf p i v) := by
  unfold State.msixSetVf
  dsimp only
  split
  · exact .refl p s
  · split
    · exact ((TenantOnly.modVf p s _).trans (.modVf p _ _)).trans (.emit p _ _)
    · exact .modVf p s _

/-- A table is written word by word. -/
theorem tableWrite_keeps {P : State → Prop} {set : State → Nat → Nat → State} (hset : ∀ t i w, P t → P (set t i w)) {s : State} (h : P s)
    (o n v : Nat) : P (tableWrite s o n v set) := by
  unfold tableWrite
  split
  · exact hset _ _ _ h
  · split
    · exact hset _ _ _ (hset _ _ _ h)
    · exact h

theorem TenantOnly.vfMmioWrite_table {p off : Nat} (htable : off / 4096 = 0x3E) (s : State) (n v : Nat) :
    TenantOnly p s (s.vfMmioWrite p off n v) := by
  unfold State.vfMmioWrite
  dsimp only
  rw [if_pos htable]
  split
  · exact tableWrite_keeps (fun t i w ht => ht.trans (.msixSetVf p t i w)) (.refl p s) _ _ _
  · exact .refl p s

/-- Settles O42: what no session writes is rejected and journaled on its page; a closed VF page takes nothing; the words of an MSI-X table
are the tenant's own. -/
theorem hostMmioWrites : Obligations.HostMmioWrites := by
  unfold Obligations.HostMmioWrites
  intro s off width v
  refine ⟨fun g hup hpage htable hpend => ?_, fun g sid n hserves hnone hpage => ?_, fun p hclosed hfree => ?_, fun p htable hfree => ?_⟩
  · exact congrArg Host.Outcome.next ((pfMmioWrite_of hup htable hpend _ _).trans (noSession_of_page hpage _))
  · exact congrArg Host.Outcome.next ((regWrite_of_no_session hserves hnone _).trans (noSession_of_page hpage _))
  · rw [exec_registerWrite, registerWrite_vf_of hfree, vfMmioWrite_of_closed ((mmio_vfRw s p.val).trans hclosed)]
  · obtain ⟨hpwr, hsec, hflash, hmem, hothers⟩ :=
      (TenantOnly.mmio p.val s).trans (.vfMmioWrite_table htable _ width.toNat v.toNat)
    refine ⟨_, exec_registerWrite .., ?_⟩
    rw [registerWrite_vf_of hfree]
    exact ⟨hpwr, hsec, hflash, hmem, hothers⟩

/-! The object aperture (R362 to R364) and the translation cache (R358). -/

theorem exec_apertureRead (p : PartId) (off : BitVec 34) (len : Nat) (s : State) :
    exec (.apertureRead p off len .clean) s = .next (s.apertureRead p.val off.toNat len .clean) := rfl

theorem exec_apertureWrite (p : PartId) (off : BitVec 34) (bs : List Byte) (poisoned : Bool) (s : State) :
    exec (.apertureWrite p off bs poisoned .clean) s = .next (s.apertureWrite p.val off.toNat bs poisoned .clean) := rfl

section
variable {s u : State} {p off : Nat}

/-- A read of BAR2 that arrives: what its window says, on the state `u` in which its bytes have been counted (R362, R365). -/
theorem apertureRead_of_disabled {len : Nat} (hrw : s.vfRw p = true) (hu : s.countHost p len true = u)
    (hoff : u.aperture p off len false = .disabled) :
    s.apertureRead p off len .clean = u.answer { bytes := List.replicate len 0 } := by
  simp [State.apertureRead, hrw, hu, hoff]

theorem apertureRead_of_range {len w : Nat} (hrw : s.vfRw p = true) (hu : s.countHost p len true = u)
    (hpast : u.aperture p off len false = .range w) :
    s.apertureRead p off len .clean = (u.apertureRange p w).answer { bytes := List.replicate len 0 } := by
  simp [State.apertureRead, hrw, hu, hpast]

/-- A clean line found good is read as it stands (R259, R363). -/
theorem readData_of_good {r : ORef} {len : Nat} (hgood : (u.peekO p r len).poison = none) :
    u.readData p r len .clean = (u.countO p r len).answer { bytes := (u.peekO p r len).bytes } := by
  unfold State.readData
  simp only [State.eccLine, ite_self, hgood, Option.isNone_none, if_true]

theorem apertureRead_of_at {r : ORef} {len : Nat} (hrw : s.vfRw p = true) (hu : s.countHost p len true = u)
    (hat : u.aperture p off len false = .at r) (hgo : u.stoppedO p r len = false) (hgood : (u.peekO p r len).poison = none) :
    s.apertureRead p off len .clean = (u.countO p r len).answer { bytes := (u.peekO p r len).bytes } := by
  simp [State.apertureRead, hrw, hu, hat, hgo, readData_of_good hgood]

theorem apertureWrite_of_poisoned {bs : List Byte} (hopen : s.vfOpen p = true) (hu : s.countHost p bs.length true = u) :
    s.apertureWrite p off bs true .clean = u.aerVf p := by
  simp [State.apertureWrite, hopen, hu]

theorem writeData_of_clean (r : ORef) (bs : List Byte) : u.writeData p r bs .clean = (u.pokeO p r bs).1 := by
  simp only [State.writeData, State.eccLine, ite_self]

/-- A write onto a PRESENT object behind which nothing waits is made (R363, R364). -/
theorem apertureWrite_of_present {r : ORef} {bs : List Byte} (hopen : s.vfOpen p = true) (hu : s.countHost p bs.length true = u)
    (hat : u.aperture p off bs.length true = .at r) (hpresent : (u.object p r.handle).state = .present) (hfree : u.behind p = false)
    (hgo : u.stoppedO p r bs.length = false) : s.apertureWrite p off bs false .clean = (u.pokeO p r bs).1 := by
  simp [State.apertureWrite, hopen, hu, hat, hpresent, State.post, hfree, hgo, writeData_of_clean]

/-- A write onto a MOVING object, with no other waiting but those that its move holds, is held with it (R242, R363). -/
theorem apertureWrite_of_moving {r : ORef} {bs : List Byte} (hopen : s.vfOpen p = true) (hu : s.countHost p bs.length true = u)
    (hat : u.aperture p off bs.length true = .at r) (hmoving : (u.object p r.handle).state = .moving) (hlater : (u.part p).vf.later = [])
    (hheld : ∀ h ∈ (u.part p).vf.aprHeld, h = r.handle) : s.apertureWrite p off bs false .clean = u.holdData p r bs := by
  have hmine : (u.part p).vf.aprHeld.all (· == r.handle) = true := by simpa using hheld
  simp [State.apertureWrite, hopen, hu, hat, hmoving, hlater, hmine]

end

theorem holdData_object (s : State) (p : Nat) (r : ORef) (bs : List Byte) :
    ((s.holdData p r bs).object p r.handle).held = (s.object p r.handle).held ++ [(r.off, bs)] := by
  simp [State.holdData, State.object, State.modObject]

theorem mem_holdData_aprHeld (s : State) (p : Nat) (r : ORef) (bs : List Byte) :
    r.handle ∈ ((s.holdData p r bs).part p).vf.aprHeld := by
  simp only [State.holdData, State.modVf_part_self]
  split
  · next hmem => exact List.contains_iff_mem.mp hmem
  · simp

/-- Settles O45: each access goes where its window says, and data without poison is read, written or held as its object's state says. -/
theorem apertureAccesses : Obligations.ApertureAccesses := by
  unfold Obligations.ApertureAccesses
  intro p s
  refine ⟨fun pages => rfl, fun off len hrw => ⟨fun hoff => ?_, fun w hpast => ?_, fun r hat hgo hgood => ?_⟩, fun off bs hopen =>
    ⟨?_, fun r hat => ⟨fun hpresent hfree hgo => ?_, fun hmoving hlater hheld => ?_⟩⟩⟩
  · rw [exec_apertureRead, apertureRead_of_disabled hrw rfl hoff]
  · rw [exec_apertureRead, apertureRead_of_range hrw rfl hpast]
  · rw [exec_apertureRead, apertureRead_of_at hrw rfl hat hgo hgood]
  · rw [exec_apertureWrite, apertureWrite_of_poisoned hopen rfl]
  · rw [exec_apertureWrite, apertureWrite_of_present hopen rfl hat hpresent hfree hgo]
  · refine ⟨_, exec_apertureWrite .., ?_⟩
    rw [apertureWrite_of_moving hopen rfl hat hmoving hlater hheld]
    refine ⟨?_, countHost_mem .., mem_holdData_aprHeld ..⟩
    rw [holdData_object, object_of_partTold (.countHost p.val s _ _)]

/-! A register written in an operator's session (R333, R335). -/

/-- Word `o` of page `g` is `r`, a write-only register of the operator; `own`: it journals an action of its own. -/
structure CommandReg (g : Page) (o : Nat) (own : Bool) (r : Reg) : Prop where
  found : g.find o = some (r, 0, 0)
  acc : r.acc = .wo
  width : r.width = 4
  owner : r.owner = ownO
  entry : r.ownEntry = own
  present : ∀ s, r.absent 0 s = false

/-- An operator, in session `sid`, may write page `g` of the operator's in state `s`. -/
structure OperatorMay (s : State) (g : Page) (sid : Nat) (e : WEnv) : Prop where
  page : g.vf = none
  owner : g.owner = ownO
  free : PageFree s g.num sid
  role : e.who.role = Role.operator.code
  session : e.sid = some sid

section
variable {s : State} {g : Page} {sid o : Nat} {e : WEnv} {own : Bool} {r : Reg}

theorem heldFrom_of_free (hpage : g.vf = none) (hfree : PageFree s g.num sid) : g.heldFrom s (some sid) = false := by
  have hhdr : g.hdr s = s.pfHdr g.num := by
    unfold Page.hdr
    rw [hpage]
  rw [Page.heldFrom, hhdr, Bool.and_eq_false_iff]
  refine .inr ?_
  cases hlock : (s.pfHdr g.num).lock with
  | none => rfl
  | some l => simp [hfree l hlock]

/-- What the register's own checks say of an operator's write (R333). -/
theorem checked_of_operator (hreg : CommandReg g o own r) (hmay : OperatorMay s g sid e) (v : Nat) :
    g.checked s e r 0 4 v = r.set e 0 v s := by
  obtain ⟨hpage, howner, hfree, hrole, hsession⟩ := hmay
  have hdenies : g.denies s e r = false := by
    rw [Page.denies, hsession, heldFrom_of_free hpage hfree, howner, hreg.owner, hrole]
    rfl
  simp [Page.checked, hdenies, hreg.width]

theorem write_refused (hreg : CommandReg g o own r) (hmay : OperatorMay s g sid e) {v : Nat} (hcause : (r.set e 0 v s).cause ≠ 0) :
    g.write s e o 4 v = ((r.set e 0 v s).reject (4096 * g.num + o) e.who (s.pagePart g) (BitVec.ofNat 64 v) (BitVec.ofNat 64 (r.get 0 s)),
      (r.set e 0 v s).cause) := by
  simp only [Page.write, hreg.found, hreg.present, hreg.acc, checked_of_operator hreg hmay, if_pos hcause]
  rfl

theorem write_ownEntry (hreg : CommandReg g o true r) (hmay : OperatorMay s g sid e) (hok : s.journalOk = true) {v : Nat}
    (hcause : (r.set e 0 v s).cause = 0) : g.write s e o 4 v = ((r.set e 0 v s).s, 0) := by
  simp only [Page.write, hreg.found, hreg.present, hreg.acc, hreg.entry, checked_of_operator hreg hmay, hcause, hok]
  rfl

/-- The journal entry of a write of `v` to a write-only register at byte `o` of page `g`, which reads as `old` (R335). -/
def writeNote (s : State) (g : Page) (who : Writer) (o v old : Nat) : JrnNote := {
  action := .write, who := who, part := s.pagePart g, target := BitVec.ofNat 32 (4096 * g.num + o)
  old := regDigest (BitVec.ofNat 64 old), new := regDigest (BitVec.ofNat 64 v) }

theorem write_journaled (hreg : CommandReg g o false r) (hmay : OperatorMay s g sid e) (hok : s.journalOk = true) {v : Nat}
    (hcause : (r.set e 0 v s).cause = 0) :
    g.write s e o 4 v = ((r.set e 0 v (s.journal (writeNote s g e.who o v (r.get 0 s)))).s, 0) := by
  simp only [Page.write, hreg.found, hreg.present, hreg.acc, hreg.entry, checked_of_operator hreg hmay, hcause, hok]
  rfl

/-- Who writes in session `sid`, which is `x`. -/
def sessionEnv (x : SpdmSession) (sid : Nat) : WEnv := { who := x.writer, sid := some sid }

theorem regEntries_singleton (s : State) (e : WEnv) (r : RegEntry) :
    s.regEntries e [r] 0 = ((s.regEntry e r).1, if (s.regEntry e r).2 = 0 then 1 else 0, (s.regEntry e r).2) := by
  unfold State.regEntries
  by_cases hcause : (s.regEntry e r).2 = 0
  · rw [if_neg (not_not_intro hcause), if_pos hcause, hcause]
    rfl
  · rw [if_pos hcause, if_neg hcause]

/-- A REG_WRITE of one register in an open session (R331, R333): its answer says whether it was applied. -/
theorem regWrite_of_session {x : SpdmSession} {role : Role} (hup : SessionUp s sid x role) (r : RegEntry) :
    s.regWrite sid [r] = (s.regEntry (sessionEnv x sid) r).1.respond x.transport {
      cause := (s.regEntry (sessionEnv x sid) r).2, count := if (s.regEntry (sessionEnv x sid) r).2 = 0 then 1 else 0 } := by
  obtain ⟨hready, -, hopen, hserves, -⟩ := hup
  have hentries := regEntries_singleton s (sessionEnv x sid) r
  rw [sessionEnv] at hentries
  simp [State.regWrite, State.servesAll, hready, hopen, State.inSession, hserves, hentries, sessionEnv]
  rfl

/-- A write of a 32-bit word of page `g` in a session. -/
theorem writeOne_of {x : SpdmSession} {role : Role} {off v : Nat} (hup : SessionUp s sid x role) (hpage : s.pfPage (off / 4096) = some g)
    (hoff : off < 2 ^ 32) (halign : off % 4 = 0) (hv : v < 2 ^ 32) :
    s.writeOne sid off 4 v =
      (g.write s (sessionEnv x sid) (off % 4096) 4 v).1.respond x.transport {
        cause := (g.write s (sessionEnv x sid) (off % 4096) 4 v).2
        count := if (g.write s (sessionEnv x sid) (off % 4096) 4 v).2 = 0 then 1 else 0 } := by
  have hoffset : (BitVec.ofNat 32 off).toNat = off := Nat.mod_eq_of_lt hoff
  have hvalue : (BitVec.ofNat 64 v).toNat % 2 ^ 32 = v := by
    rw [BitVec.toNat_ofNat]
    omega
  have hentry : s.regEntry (sessionEnv x sid) ⟨BitVec.ofNat 32 off, BitVec.ofNat 8 4, 0, BitVec.ofNat 64 v⟩ =
      g.write s (sessionEnv x sid) (off % 4096) 4 v := by
    simp only [State.regEntry, hoffset, hpage, hvalue]
    simp [Page.writeWide, halign]
  rw [State.writeOne, regWrite_of_session hup, hentry]

end

/-! The answer of a request. -/

/-- What an event or a transfer tells a partition leaves the control registers of each. -/
theorem ctl_of_partTold {p : Nat} {s t : State} (h : PartTold p s t) (q : Nat) : (t.part q).ctl = (s.part q).ctl := by
  by_cases hq : q = p
  · rw [hq, h.mine]
  · rw [h.others q hq]

/-- It leaves the commands of each. -/
theorem cmds_of_partTold {p : Nat} {s t : State} (h : PartTold p s t) (q : Nat) : (t.part q).cmd = (s.part q).cmd := by
  by_cases hq : q = p
  · rw [hq, h.mine]
  · rw [h.others q hq]

/-- A response but for the message of the PF mailbox, and the counts of a VF's, is the answer (R327, R365). -/
theorem respond_told (s : State) (t : Transport) (r : Reply) : ∃ n q, PartTold q { s with free := n, reply := r } (s.respond t r) := by
  unfold State.respond
  cases t with
  | pfDoe => exact ⟨s.free, 0, (PfTold.msixPf (s.answer r) 1).toPart 0⟩
  | sideband => exact ⟨s.free, 0, .refl 0 _⟩
  | vfDoe p =>
    dsimp only
    unfold State.countDoe
    split
    · exact ⟨s.free, 0, .refl 0 _⟩
    · exact ⟨s.free + 2, p.val, (PartTold.countHost p.val _ _ _).trans (.countHost p.val _ _ _)⟩

@[simp] theorem respond_reply (s : State) (t : Transport) (r : Reply) : (s.respond t r).reply = r := by
  obtain ⟨n, q, htold⟩ := respond_told s t r
  rw [htold.rest]

@[simp] theorem respond_ctl (s : State) (t : Transport) (r : Reply) (p : Nat) : ((s.respond t r).part p).ctl = (s.part p).ctl := by
  obtain ⟨n, q, htold⟩ := respond_told s t r
  exact ctl_of_partTold htold p

@[simp] theorem respond_cmd (s : State) (t : Transport) (r : Reply) (p : Nat) : ((s.respond t r).part p).cmd = (s.part p).cmd := by
  obtain ⟨n, q, htold⟩ := respond_told s t r
  exact cmds_of_partTold htold p

theorem meterCredits_snap (s : State) (p r n q : Nat) : ((s.meterCredits p r n).part q).mtr.snap = (s.part q).mtr.snap := by
  unfold State.meterCredits State.count
  split
  · split
    · rfl
    · by_cases hq : q = p <;> simp [State.modMtr_part, hq]
  · rfl

/-- The host's bytes count in regulator and meters only: a snapshot stands (R318, R365). -/
theorem countHost_snap (s : State) (p n q : Nat) : ((s.countHost p n true).part q).mtr.snap = (s.part q).mtr.snap := by
  unfold State.countHost
  rw [if_pos rfl, meterCredits_snap]
  by_cases hq : q = p <;> simp [State.modReg, State.modMtr_part, hq]

@[simp] theorem respond_snap (s : State) (t : Transport) (r : Reply) (p : Nat) :
    ((s.respond t r).part p).mtr.snap = (s.part p).mtr.snap := by
  unfold State.respond
  cases t with
  | sideband => rfl
  | pfDoe =>
    have htold := (PfTold.msixPf (s.answer r) 1).rest
    dsimp only
    rw [htold]
    rfl
  | vfDoe q =>
    dsimp only
    unfold State.countDoe
    split
    · rfl
    · dsimp only
      rw [countHost_snap, countHost_snap]
      rfl

/-! The partition pages of PF BAR0 (R319). -/

/-- A partition's page reads as itself on a READY device; the virtual ports' do only where the grade has ports. -/
theorem pfPage_partPage {s : State} (hready : s.pwr.stage = .ready) {p k : Nat} (hp : p < 32) (hk : k < 4) :
    s.pfPage (partPage p k) = partPages p k := by
  have hnum : (partPage p k - 0x100) / 8 = p ∧ (partPage p k - 0x100) % 8 = k := by
    unfold partPage
    omega
  have hlow : ¬ partPage p k < 0x100 := by
    unfold partPage
    omega
  have hhigh : partPage p k < 0x200 := by
    unfold partPage
    omega
  have hport : k ≠ 4 := by omega
  simp [State.pfPage, hready, hlow, hhigh, hnum, hport]

theorem partOff_div {p k o : Nat} (ho : o < 4096) : partOff p k o / 4096 = partPage p k := by
  unfold partOff
  omega

theorem partOff_mod {p k o : Nat} (ho : o < 4096) : partOff p k o % 4096 = o := by
  unfold partOff
  omega

/-- SNAP_CMD (Table 9.13). -/
theorem snapCmd_reg (p : Nat) : ∃ r, CommandReg (pmtrPage p) 0x040 false r ∧
    ∀ e v s, r.set e 0 v s = if bitOf v 0 then s.snapGo p else took s :=
  ⟨_, ⟨rfl, rfl, rfl, rfl, rfl, fun _ => rfl⟩, fun _ _ _ => rfl⟩

/-- PART_CTRL (Table 9.8). -/
theorem partCtrl_reg (p : Nat) : ∃ r, CommandReg (pctlPage p) 0x040 true r ∧ ∀ e v s, r.set e 0 v s = s.partCtrl p (v % 16) e.who :=
  ⟨_, ⟨rfl, rfl, rfl, rfl, rfl, fun _ => rfl⟩, fun _ _ _ => rfl⟩

/-! A snapshot (R318). -/

theorem exec_snapshot (sid : Nat) (p : PartId) (s : State) : exec (.snapshot sid p) s = .next (s.writeOne sid (partOff p.val 3 0x040) 4 1) := rfl

theorem capture_snap (s : State) (p : Nat) (final : Bool) :
    ((s.capture p final).part p).mtr.snap = {
      busy := !final, final := final, state := BitVec.ofNat 3 (s.part p).ctl.state.code, seq := s.ev.seq
      vals := (List.range 10).map (s.meter p) } := by
  simp only [State.capture, State.modMtr_part_self]
  rfl

/-- A snapshot is taken of a partition from COMMIT to TEARDOWN that has none in progress (R318). -/
theorem snapGo_of {s : State} {p : Nat} (hidle : (s.part p).mtr.snap.busy = false)
    (hstate : (s.part p).ctl.state = .stopped ∨ (s.part p).ctl.state = .running ∨ (s.part p).ctl.state = .draining) :
    s.snapGo p = took (s.capture p false) := by
  unfold State.snapGo
  dsimp only
  rw [hidle, if_neg Bool.false_ne_true]
  rcases hstate with hst | hst | hst <;> rw [hst] <;> rfl

/-- A journal entry leaves the partitions, and takes an event sequence number where it is not an unauthenticated refusal (R339, R473, log entry 50). -/
theorem journal_parts (s : State) (n : JrnNote) : (s.journal n).parts = s.parts := by
  unfold State.journal
  dsimp only
  split <;> rfl

theorem journal_part (s : State) (n : JrnNote) (q : Nat) : (s.journal n).part q = s.part q := by
  rw [State.part, journal_parts, State.part]

theorem journal_seq (s : State) {n : JrnNote} (haction : n.action ≠ .refused) : (s.journal n).ev.seq = s.ev.seq + 1 := by
  simp [State.journal, haction]

theorem snapshot_of {s : State} {sid : Nat} {p : PartId} {x : SpdmSession} (hup : SessionUp s sid x .operator)
    (hfree : PageFree s (partPage p.val 3) sid) (hidle : (s.part p.val).mtr.snap.busy = false)
    (hstate : (s.part p.val).ctl.state = .stopped ∨ (s.part p.val).ctl.state = .running ∨ (s.part p.val).ctl.state = .draining) :
    ∃ n : JrnNote, n.action = .write ∧
      s.writeOne sid (partOff p.val 3 0x040) 4 1 = ((s.journal n).capture p.val false).respond x.transport { count := 1 } := by
  obtain ⟨r, hreg, hset⟩ := snapCmd_reg p.val
  have hp := p.isLt
  have hpage : s.pfPage (partOff p.val 3 0x040 / 4096) = some (pmtrPage p.val) := by
    rw [partOff_div (by decide), pfPage_partPage hup.1 hp (by decide)]
    rfl
  have hmay : OperatorMay s (pmtrPage p.val) sid (sessionEnv x sid) := ⟨rfl, rfl, hfree, congrArg Role.code hup.2.2.2.2, rfl⟩
  have hgo (t : State) (hparts : t.parts = s.parts) : r.set (sessionEnv x sid) 0 1 t = took (t.capture p.val false) := by
    have hpart : t.part p.val = s.part p.val := by rw [State.part, hparts, State.part]
    rw [hset]
    exact snapGo_of (by rwa [hpart]) (by rwa [hpart])
  have hcause : (r.set (sessionEnv x sid) 0 1 s).cause = 0 := by
    rw [hgo s rfl]
    rfl
  refine ⟨writeNote s (pmtrPage p.val) (sessionEnv x sid).who 0x040 1 (r.get 0 s), rfl, ?_⟩
  rw [writeOne_of hup hpage (by unfold partOff partPage; omega) (by unfold partOff; omega) (by decide), partOff_mod (by decide),
    write_journaled hreg hmay hup.2.1 hcause, hgo _ (journal_parts s _)]
  rfl

/-! The period boundary of a bucket (R311, R312). -/

theorem exec_regulatorRefill (p : PartId) (r : Fin 5) (b : Fin 4) (s : State) :
    exec (.regulatorRefill p r b) s = .next ((s.regulatorRefill p.val r.val b.val).arrive p.val) := rfl

/-- Where nothing waits at the BARs of a VF nothing arrives. -/
theorem arrive_of_quiet {s : State} {p : Nat} (hquiet : BarsQuiet s p) : s.arrive p = s := by
  obtain ⟨hlater, hreads⟩ := hquiet
  unfold State.arrive State.readArrives
  rw [hlater]
  simp only [List.length_nil, State.arrivals, hreads]

theorem barsQuiet_of_partTold {p : Nat} {s t : State} (h : PartTold p s t) (hquiet : BarsQuiet s p) : BarsQuiet t p := by
  obtain ⟨hlater, hreads⟩ := hquiet
  constructor <;> rw [h.mine] <;> assumption

theorem sendFrame_vf (s : State) (p n : Nat) (f : List Byte) : ((s.sendFrame p n f).part p).vf = (s.part p).vf := by
  have hcount : (((s.emit (.frame n f)).count p 7 f.length).part p).vf = (s.part p).vf := by
    unfold State.count
    split
    · rfl
    · rw [State.modMtr_part_self]
      rfl
  exact hcount

/-- Frames that leave touch no BAR. -/
theorem sendHeld_vf (s : State) (p n k : Nat) : ((s.sendHeld p n k).part p).vf = (s.part p).vf := by
  unfold State.sendHeld
  refine foldl_keeps (fun t : State => (t.part p).vf = (s.part p).vf) _ (fun t x ht => (sendFrame_vf t p n x.bytes).trans ht) _ ?_
  rw [State.modNet_part_self]

section
variable {s : State} {p r b : Nat}

/-- What a period boundary does once the bucket is full again: the transfers that it lets go are metered, event records written, frames leave. -/
def boundary (s : State) (p r b : Nat) : State :=
  if r < 3 then ((s.modReg p r (·.refill r b)).meterCredits p r ((s.regulator p r).drained r b).1).flushPart p 64
  else (s.modReg p r (·.refill r b)).sendHeld p (r - 3) ((s.regulator p r).drained r b).2.1

theorem regulatorRefill_of (hlive : s.live p = true) (hbucket : 2 ≤ r → b = 0) (hport : r < 3 + s.fuse.grade.ports) :
    s.regulatorRefill p r b = boundary s p r b := by
  have hgo : (!s.live p || (decide (2 ≤ r) && decide (b ≠ 0)) || decide (3 + s.fuse.grade.ports ≤ r)) = false := by
    simp only [hlive, Bool.not_true, Bool.false_or, Bool.or_eq_false_iff, Bool.and_eq_false_iff, decide_eq_false_iff_not]
    omega
  unfold State.regulatorRefill boundary
  rw [hgo, if_neg Bool.false_ne_true]
  by_cases hr : r < 3
  · simp only [if_pos hr]
  · simp only [if_neg hr, State.meterCredits]

theorem boundary_quiet (hquiet : BarsQuiet s p) : BarsQuiet (boundary s p r b) p := by
  have hrefill : PartTold p s (s.modReg p r (·.refill r b)) := .modReg p s r _
  unfold boundary
  split
  · exact barsQuiet_of_partTold ((hrefill.trans (.meterCredits p _ _ _)).trans (.flushPart p 64 _)) hquiet
  · obtain ⟨hlater, hreads⟩ := barsQuiet_of_partTold hrefill hquiet
    constructor <;> rw [sendHeld_vf] <;> assumption

theorem modReg_regulator (s : State) (p r : Nat) (f : Regulator → Regulator) : (s.modReg p r f).regulator p r = f (s.regulator p r) := by
  simp [State.modReg, State.regulator]

theorem drained_of_empty {g : Regulator} (hempty : nth [] g.queue b = []) : g.drained r b = (0, 0, []) := by
  unfold Regulator.drained
  simp only [hempty]
  split <;> rfl

/-- At a boundary at which nothing waits the regulator changes by its refill only. -/
theorem boundary_regulator_of_empty (hempty : nth [] (s.regulator p r).queue b = []) (hbuffer : (s.part p).evt.buffer = []) :
    (boundary s p r b).regulator p r = (s.regulator p r).refill r b := by
  unfold boundary
  rw [drained_of_empty hempty]
  have hbuffer' : ((s.modReg p r (·.refill r b)).part p).evt.buffer = [] := by simpa [State.modReg] using hbuffer
  split
  · have hcount : (s.modReg p r (·.refill r b)).meterCredits p r 0 = s.modReg p r (·.refill r b) := by
      simp [State.meterCredits, State.count]
    rw [hcount, State.flushPart, hbuffer', modReg_regulator]
  · rw [← modReg_regulator s p r (·.refill r b)]
    simp [State.sendHeld, State.regulator]

/-- A bucket at which nothing waits is full after its boundary, and its counts are those of a new period (R312). -/
theorem refill_of_empty (g : Regulator) (hempty : nth [] g.queue b = []) :
    (g.refill r b).bucket = setNth g.bucket b (fun _ => (bucketSize r g.cap.toNat : Int)) ∧
    (g.refill r b).last = setNth g.last b (fun _ => nth 0 g.taken b) ∧ (g.refill r b).taken = setNth g.taken b (fun _ => 0) ∧
    (g.refill r b).waited = setNth g.waited b (fun _ => false) ∧ (g.refill r b).queue = setNth g.queue b (fun _ => []) ∧
    (nth false g.waited b = false → (g.refill r b).held = g.held) := by
  refine ⟨?_, ?_, ?_, ?_, ?_, fun hnone => ?_⟩
  case refine_6 => simp [Regulator.refill, hnone]
  all_goals simp [Regulator.refill, drained_of_empty hempty]

end

/-- Settles O34: a snapshot is what its capture took, under the number after that of the write's entry; a boundary's transfers, records and
frames are those its refill lets go. -/
theorem metersAndRegulators : Obligations.MetersAndRegulators := by
  unfold Obligations.MetersAndRegulators
  refine ⟨fun sid p s x hup hfree hidle hstate => ?_, fun p r b s hlive hbucket hport hquiet => ?_⟩
  · obtain ⟨n, haction, hwrite⟩ := snapshot_of hup hfree hidle hstate
    refine ⟨_, (exec_snapshot sid p s).trans (congrArg Host.Outcome.next hwrite), ?_, respond_reply ..⟩
    have hmeter : (s.journal n).meter p.val = s.meter p.val := by
      funext i
      rw [State.meter, journal_part, State.meter]
    rw [respond_snap, capture_snap, journal_part, journal_seq s (by simp [haction]), hmeter]
    rfl
  · have hrefill : exec (.regulatorRefill p r b) s = .next (boundary s p.val r.val b.val) := by
      rw [exec_regulatorRefill, regulatorRefill_of hlive (fun hr => congrArg Fin.val (hbucket hr)) hport, arrive_of_quiet (boundary_quiet hquiet)]
    refine ⟨hrefill, fun hempty hbuffer => ⟨_, hrefill, ?_⟩⟩
    dsimp only
    rw [boundary_regulator_of_empty hempty hbuffer]
    exact refill_of_empty _ hempty

/-! Which operations keep the control registers of a partition: all that a snuff does. -/

/-- Between `s` and `t` the control registers of partition `p` stay. -/
def KeepsCtl (p : Nat) (s t : State) : Prop := (t.part p).ctl = (s.part p).ctl

theorem KeepsCtl.refl (p : Nat) (s : State) : KeepsCtl p s s := rfl

theorem KeepsCtl.trans {p : Nat} {s t u : State} (h : KeepsCtl p s t) (k : KeepsCtl p t u) : KeepsCtl p s u := Eq.trans k h

theorem KeepsCtl.of_told {p : Nat} {s t : State} (h : PartTold p s t) : KeepsCtl p s t := ctl_of_partTold h p

/-- A change of another part of the partition. -/
theorem KeepsCtl.modPart (p : Nat) (s : State) {f : Part → Part} (hf : ∀ x, (f x).ctl = x.ctl) : KeepsCtl p s (s.modPart p f) :=
  (congrArg Part.ctl (State.modPart_part_self s p f)).trans (hf _)

theorem KeepsCtl.modSys (p : Nat) (s : State) (f : CmdSys → CmdSys) : KeepsCtl p s (s.modSys p f) := .modPart p s fun _ => rfl
theorem KeepsCtl.modStr (p : Nat) (s : State) (f : Streams → Streams) : KeepsCtl p s (s.modStr p f) := .modPart p s fun _ => rfl
theorem KeepsCtl.modVf (p : Nat) (s : State) (f : Vf → Vf) : KeepsCtl p s (s.modVf p f) := .modPart p s fun _ => rfl
theorem KeepsCtl.modNet (p : Nat) (s : State) (f : NetPart → NetPart) : KeepsCtl p s (s.modNet p f) := .modPart p s fun _ => rfl
theorem KeepsCtl.modObject (p : Nat) (s : State) (h : Nat) (f : Obj → Obj) : KeepsCtl p s (s.modObject p h f) := .modPart p s fun _ => rfl
theorem KeepsCtl.modLtn (p : Nat) (s : State) (f : Lantern → Lantern) : KeepsCtl p s (s.modLtn p f) := .modPart p s fun _ => rfl
theorem KeepsCtl.modMem (p : Nat) (s : State) (f : Mem → Mem) : KeepsCtl p s (s.modMem f) := rfl
theorem KeepsCtl.addCmd (p : Nat) (s : State) (c : Cmd) : KeepsCtl p s (s.addCmd p c).1 := .modSys p { s with nextId := s.nextId + 1 } _
theorem KeepsCtl.modRing (p : Nat) (s : State) (n : Nat) (f : Ring → Ring) : KeepsCtl p s (s.modRing p n f) := .modSys p s _
theorem KeepsCtl.modCmd (p : Nat) (s : State) (id : Nat) (f : Cmd → Cmd) : KeepsCtl p s (s.modCmd p id f) := .modSys p s _
theorem KeepsCtl.progress (p : Nat) (s : State) : KeepsCtl p s (s.progress p) := .modPart p s fun _ => rfl

theorem KeepsCtl.foldl {β : Type} {p : Nat} {f : State → β → State} (hf : ∀ t b, KeepsCtl p t (f t b)) (l : List β) (s : State) :
    KeepsCtl p s (l.foldl f s) :=
  foldl_keeps (KeepsCtl p s) f (fun t b ht => ht.trans (hf t b)) l (.refl p s)

/-- A fold that gathers something beside the state. -/
theorem KeepsCtl.foldl_fst {α β : Type} {p : Nat} {f : State × α → β → State × α} (hf : ∀ t b, KeepsCtl p t.1 (f t b).1) (l : List β)
    (t : State × α) : KeepsCtl p t.1 (l.foldl f t).1 :=
  foldl_keeps (fun u : State × α => KeepsCtl p t.1 u.1) f (fun u b hu => hu.trans (hf u b)) l (.refl p t.1)

/-! Rings, events and the end of a command. -/

theorem KeepsCtl.rearm (p : Nat) (s : State) : KeepsCtl p s (s.rearm p) := by
  unfold State.rearm
  split
  · exact .modSys p s _
  · exact .refl p s

theorem KeepsCtl.ringError (p : Nat) (s : State) (n : Nat) (cause inner : W16) (wm : W32) (q : Option W64) :
    KeepsCtl p s (s.ringError p n cause inner wm q) := by
  have hring : KeepsCtl p s ((s.modRing p n fun r => { r with state := .error, lastCause := cause }).rearm p) :=
    (KeepsCtl.modRing p s n _).trans (.rearm p _)
  unfold State.ringError
  cases q with
  | none => exact hring.trans (.of_told (.raisePart p _ _ _ _ _))
  | some q => exact hring.trans (.of_told (.raiseIn p _ _ _ _ _ _))

theorem KeepsCtl.finish (p : Nat) (s : State) (id : Nat) (st : Status) (cause : W16) (detail : Nat) (part : Bool) :
    KeepsCtl p s (s.finish p id st cause detail part) := by
  have hleave : KeepsCtl p s (s.leaveCluster p id) := congrArg Part.ctl (s.leaveCluster_part p p id)
  exact (hleave.trans (.modSys p _ _)).trans (.modCmd p _ _ _)

theorem KeepsCtl.snuffed (p : Nat) (s : State) (id : Nat) (part : Bool) (detail : Nat) : KeepsCtl p s (s.snuffed p id part detail) :=
  .finish p s ..

theorem KeepsCtl.snuffedAs (p : Nat) (s : State) (id detail : Nat) : KeepsCtl p s (s.snuffedAs p id detail) := .snuffed p s ..

theorem KeepsCtl.finishBy (p : Nat) (s : State) (id : Nat) (cause : W16) (q : Option W64) (detail : Nat) :
    KeepsCtl p s (s.finishBy p id cause q detail) := (KeepsCtl.finish p s ..).trans (.modCmd p _ _ _)

/-! Work cut short. -/

theorem KeepsCtl.memOp (p : Nat) (s : State) (o : AddOp) (r : ORef) (v : Nat) : KeepsCtl p s (s.memOp p o r v).1 := by
  have hcount (sp : Space) (a : Nat) : KeepsCtl p s (s.countLine p sp a) := .of_told (.countLine p s sp a)
  have hdirty (t : State) : KeepsCtl p t (t.dirtyRange p r.handle r.off o.bytes) := .of_told (partTold_dirtyRange ..)
  unfold State.memOp
  dsimp only
  split
  · split <;> exact hcount _ _
  · split
    · exact (hcount _ _).trans (hdirty _)
    · exact (hcount _ _).trans (hdirty _)

theorem KeepsCtl.applyWrs (p : Nat) (s : State) (ws : List Wr) : KeepsCtl p s (s.applyWrs p ws).1 := by
  refine KeepsCtl.foldl_fst (fun t w => ?_) ws (s, none)
  cases w with
  | store r bs => exact .of_told (.pokeO p t.1 r bs)
  | red o r v => exact .memOp p t.1 o r v

theorem KeepsCtl.applyFor (p : Nat) (s : State) (id : Nat) (ws : List Wr) : KeepsCtl p s (s.applyFor p id ws).1 := by
  unfold State.applyFor
  dsimp only
  split
  · exact (KeepsCtl.applyWrs p s ws).trans (.modCmd p _ _ _)
  · exact .applyWrs p s ws

theorem KeepsCtl.countO (p : Nat) (s : State) (r : ORef) (n : Nat) : KeepsCtl p s (s.countO p r n) := .of_told (partTold_countO ..)

theorem KeepsCtl.countWork (p : Nat) (s : State) (k : Option Nat) (w : Work) : KeepsCtl p s (s.countWork p k w) := by
  have hcount : KeepsCtl p s ((((w.reads.foldl (fun s r => s.countO p r.1 r.2) s).count p 0 w.beats).count p 1 w.wick).count p 2 w.lookups) :=
    (KeepsCtl.foldl (fun t r => .countO p t _ _) _ s).trans
      (.of_told (((PartTold.count p _ _ _).trans (.count p _ _ _)).trans (.count p _ _ _)))
  unfold State.countWork
  cases k with
  | none => exact hcount
  | some k =>
    dsimp only
    split
    · exact hcount
    · exact hcount.trans (.foldl (fun t i => .modCmd p t _ _) _ _)

theorem KeepsCtl.pairStops (p : Nat) (s : State) (c w : Cmd) (k : Nat) (g ww : Work) (u used : Nat) (rows : List Wr × List Wr) :
    KeepsCtl p s (s.pairStops p c w k g ww u used rows) := by
  have hwork : KeepsCtl p s (((s.useFrees (used + 12)).countWork p k (g.cut (u + used))).countWork p k (ww.cut (u + used + 6))) :=
    (KeepsCtl.countWork p (s.useFrees (used + 12)) _ _).trans (.countWork p _ _ _)
  exact (hwork.trans (.applyFor p _ _ _)).trans (.applyFor p _ _ _)

theorem KeepsCtl.setStationary (p : Nat) (s : State) (k half : Nat) (x : Option Stationary) : KeepsCtl p s (s.setStationary k half x) := rfl

theorem KeepsCtl.snuffWork (p : Nat) (s : State) (c : Cmd) (k : Nat) : KeepsCtl p s (s.snuffWork p c k) := by
  unfold State.snuffWork
  dsimp only
  split
  · exact .snuffed p s _ _ _
  · refine KeepsCtl.trans (KeepsCtl.trans ?_ (.setStationary p _ k _ _)) (.snuffedAs p _ c.id _)
    refine KeepsCtl.trans (KeepsCtl.trans ?_ (.countWork p _ _ _)) (.applyFor p _ c.id _)
    split
    · exact .memOp p (s.useFrees 9) _ _ _
    · exact .refl p s

theorem KeepsCtl.snuffPair (p : Nat) (s : State) (c w : Cmd) (k : Nat) : KeepsCtl p s (s.snuffPair p c w k) := by
  unfold State.snuffPair
  dsimp only
  split
  · exact (KeepsCtl.snuffed p s _ _ _).trans (.snuffed p _ _ _ _)
  · refine KeepsCtl.trans (KeepsCtl.trans ?_ (.snuffedAs p _ c.id _)) (.snuffedAs p _ w.id _)
    exact KeepsCtl.trans (.pairStops p s c w k _ _ _ _ _) (.setStationary p _ k _ _)

/-! Commands stopped. -/

theorem KeepsCtl.fillLines (p : Nat) (s : State) (c : Cmd) (segs : List (Nat × Nat)) : KeepsCtl p s (s.fillLines p c segs).1 := by
  refine KeepsCtl.foldl_fst (fun t e => ?_) segs (s, 0, none)
  exact .of_told (.pokeO p t.1 _ _)

theorem KeepsCtl.copyLines (p : Nat) (s : State) (o : Obj) (n : Nat) : KeepsCtl p s (s.copyLines p o n).1 := by
  refine KeepsCtl.foldl_fst (fun t i => ?_) (List.range n) (s, none)
  have hread : KeepsCtl p t.1 (t.1.countRange p o.src (64 * i) 64) := .of_told (partTold_countRange ..)
  dsimp only
  split
  · exact hread.trans (.of_told (.poke p _ _ _ _))
  · exact (hread.trans (.modMem p _ _)).trans (.of_told (.countLine p _ _ _))

theorem KeepsCtl.heldRefused (p : Nat) (s : State) (h off : Nat) (q : W64) : KeepsCtl p s (s.heldRefused p h off q) :=
  (KeepsCtl.modNet p s _).trans (.foldl (fun t _ => .modCmd p t _ _) _ _)

theorem KeepsCtl.releaseHeld (p : Nat) (s : State) (h : Nat) (ws : List (Nat × List Byte)) : KeepsCtl p s (s.releaseHeld p h ws) := by
  refine KeepsCtl.trans (KeepsCtl.trans (.foldl (fun t w => ?_) ws s) (.of_told (.flushPart p 64 _))) (.modVf p _ _)
  have hpoke : KeepsCtl p t (t.pokeO p ⟨h, w.1⟩ w.2).1 := .of_told (.pokeO p t _ _)
  split
  · next heq =>
    rw [heq] at hpoke
    exact hpoke
  · next heq =>
    rw [heq] at hpoke
    exact hpoke.trans (.heldRefused p _ _ _ _)

theorem KeepsCtl.setObject (p : Nat) (s : State) (h : Nat) (f : Obj → Obj) : KeepsCtl p s (s.setObject p h f) :=
  (KeepsCtl.modObject p s h f).trans (.of_told (.markDirty p _ _))

theorem KeepsCtl.abandonMove (p : Nat) (s : State) (h : Nat) : KeepsCtl p s (s.abandonMove p h).1 := by
  unfold State.abandonMove
  dsimp only
  have hcopy : KeepsCtl p s (s.useFree.copyLines p (s.object p h) (Config.freeNat s.free % ((s.object p h).size.toNat / 64 + 1))).1 :=
    .copyLines p s.useFree _ _
  exact (hcopy.trans (.setObject p _ _ _)).trans (.releaseHeld p _ _ _)

theorem KeepsCtl.countPart (p : Nat) (s : State) (c : Cmd) (x : Session) (u : Nat) : KeepsCtl p s (s.countPart p c x u) := by
  unfold State.countPart
  dsimp only
  refine KeepsCtl.trans (KeepsCtl.trans ?_ (.countO p _ _ _)) (.foldl (fun t _ => .countO p t _ _) _ _)
  split <;> exact .countO p s _ _

theorem KeepsCtl.deliverRegion (p : Nat) (s : State) (x : Session) (i u : Nat) (g : Region) (rows : Nat) :
    KeepsCtl p s (s.deliverRegion p x i u g rows).1 := by
  have hread : KeepsCtl p s (s.countRegion p x i g rows) := .foldl (fun t _ => .countO p t _ _) _ s
  unfold State.deliverRegion State.pokeAll
  refine hread.trans (KeepsCtl.foldl_fst (fun t w => ?_) _ (_, none))
  exact .of_told (.pokeO p t.1 _ _)

theorem KeepsCtl.partialFrame (p : Nat) (s : State) (c : Cmd) : KeepsCtl p s (s.partialFrame p c).1 := by
  unfold State.partialFrame
  extract_lets x u drawn may n counted told written shown rows
  split
  · exact .refl p s
  · split
    · exact .refl p s
    · have hcounted : KeepsCtl p s counted := by
        unfold counted
        split
        · exact .countPart p drawn c x _
        · exact .refl p s
      have htold : KeepsCtl p counted told := by
        unfold told
        split
        · split
          · exact .of_told (.raisePart p _ _ _ _ _)
          · exact .refl p _
        · exact .refl p _
      have hwritten : KeepsCtl p told written := by
        unfold written
        split
        · split
          · exact .refl p _
          · exact .of_told (partTold_writeFrame ..)
        · exact .refl p _
      have hframe : KeepsCtl p s written := (hcounted.trans htold).trans hwritten
      extract_lets gs
      clear_value shown
      cases shown with
      | none => exact hframe
      | some i => exact hframe.trans (.foldl (fun t g => .deliverRegion p t x _ _ _ _) _ _)

theorem KeepsCtl.stopBasic (p : Nat) (s : State) (c : Cmd) : KeepsCtl p s (s.stopBasic p c) := by
  unfold State.stopBasic
  dsimp only
  split
  · exact (KeepsCtl.modSys p s _).trans (.snuffed p _ _ _ _)
  · split
    · split
      · split
        · exact .snuffPair p s _ _ _
        · exact .snuffPair p s _ _ _
      · exact .snuffWork p s _ _
    · exact (KeepsCtl.modLtn p s _).trans (.snuffed p _ _ _ _)
    · split
      · exact KeepsCtl.trans (.fillLines p s.useFree _ _) (.snuffed p _ _ _ _)
      · split
        · exact (KeepsCtl.abandonMove p s _).trans (.snuffed p _ _ _ _)
        · exact .snuffed p s _ _ _
    · split
      · exact .modPart p s fun _ => rfl
      · exact .snuffed p s _ _ _
    · split
      · exact (KeepsCtl.partialFrame p s c).trans (.snuffed p _ _ _ _)
      · exact .snuffed p s _ _ _
    · exact (KeepsCtl.modNet p s _).trans (.snuffed p _ _ _ _)

theorem KeepsCtl.dropCmds (p : Nat) (s : State) (ids : List Nat) : KeepsCtl p s (s.dropCmds p ids) := by
  refine KeepsCtl.trans (.foldl (fun t i => ?_) ids s) (.modSys p _ _)
  split
  · split
    · exact .foldl (fun u k => (KeepsCtl.modStr p u _).trans (.of_told (.markDirty p _ _))) _ t
    · exact .refl p t
  · exact .refl p t

theorem KeepsCtl.callSettle (p : Nat) (s : State) (id : Nat) : KeepsCtl p s (s.callSettle p id) := by
  unfold State.callSettle
  dsimp only
  split
  · exact .refl p s
  · next k _ =>
    split
    · exact .refl p s
    · have hgone := ((KeepsCtl.dropCmds p s (k.waiting.flatMap (·.2) ++ k.participants.flatMap (·.rest))).trans
        (.modSys p _ fun y => { y with calls := y.calls.filter fun e => e.1 != id })).trans (.modCmd p _ id fun c => { c with wrote := k.wrote })
      refine hgone.trans ?_
      split
      · exact .finish p _ _ _ _ _ _
      · split
        · exact .finish p _ _ _ _ _ _
        · split
          · exact .finishBy p _ _ _ _ _
          · split
            · exact .finishBy p _ _ _ _ _
            · split
              · exact .finishBy p _ _ _ _ _
              · exact .finish p _ _ _ _ _ _

theorem KeepsCtl.snuffCall (p : Nat) (s : State) (c : Cmd) : KeepsCtl p s (s.snuffCall p c) := by
  unfold State.snuffCall
  dsimp only
  refine KeepsCtl.trans ?_ (.callSettle p _ _)
  refine ((KeepsCtl.dropCmds p s _).trans (.modSys p _ _)).trans (.foldl (fun t d => ?_) _ _)
  split
  · split
    · exact .refl p t
    · split
      · exact .stopBasic p t _
      · exact .snuffed p t _ _ _
  · exact .refl p t

theorem KeepsCtl.snuffOne (p : Nat) (s : State) (c : Cmd) : KeepsCtl p s (s.snuffOne p c).1 := by
  unfold State.snuffOne
  split
  · exact .refl p s
  · split
    · exact .snuffed p s _ _ _
    · split
      · exact .snuffCall p s c
      · exact .stopBasic p s c

theorem KeepsCtl.snuffAll (p : Nat) (s : State) (ids : List Nat) : KeepsCtl p s (s.snuffAll p ids).1 := by
  refine KeepsCtl.foldl_fst (fun t id => ?_) ids (s, 0, 0)
  dsimp only
  split
  · exact .refl p t.1
  · split
    · exact .refl p t.1
    · exact .snuffOne p t.1 _

/-! Rings drained. -/

theorem KeepsCtl.drainSlot (p : Nat) (s : State) (k i : Nat) : KeepsCtl p s (s.drainSlot p k i).1 := by
  have hpage (t : State) (io : HostAccess) : KeepsCtl p t (t.slotPage p k i io) := by
    unfold State.slotPage State.translate
    dsimp only
    split
    · exact .refl p t
    · split
      · exact .refl p t
      · exact .modVf p t _
  have haer (t : State) (io : HostAccess) : KeepsCtl p t (t.hostAer p io) := by
    unfold State.hostAer
    split
    · exact .modVf p t _
    · exact .refl p t
  unfold State.drainSlot
  extract_lets r rd io opened cause answered
  split
  · split
    · exact .refl p s
    · split
      · exact .refl p s
      · exact .ringError p s k _ _ _ _
  · have hopened : KeepsCtl p s opened := by
      unfold opened
      split
      · exact hpage s.useFree io
      · exact .refl p s
    split
    · exact hopened
    · have hanswered : KeepsCtl p s answered := by
        unfold answered
        split
        · exact hopened.trans (haer opened io)
        · exact hopened
      split
      · exact hanswered
      · exact hanswered.trans (.ringError p answered k _ _ _ _)

theorem KeepsCtl.consume (p : Nat) (s : State) (n k : Nat) (wm : W32) (moves : Bool) : KeepsCtl p s (s.consume p n k wm moves) := by
  unfold State.consume
  dsimp only
  refine KeepsCtl.trans ?_ (.progress p _)
  split
  · exact (KeepsCtl.modRing p s n _).trans (.foldl (fun t _ => .countO p t _ _) _ _)
  · exact (KeepsCtl.modRing p s n _).trans (.of_told (.countHost p _ _ _))

theorem KeepsCtl.drainSlots (p k n : Nat) (s : State) : KeepsCtl p s (s.drainSlots p k n).1 := by
  induction n generalizing s with
  | zero => exact .refl p s
  | succ n ih =>
    unfold State.drainSlots
    dsimp only
    split
    · exact .refl p s
    · refine KeepsCtl.trans (KeepsCtl.trans (KeepsCtl.trans ?_ (.consume p _ k _ _ _)) (.addCmd p _ _)) (ih _)
      split
      · exact (KeepsCtl.drainSlot p s k _).trans (.drainSlot p _ k _)
      · exact .drainSlot p s k _

theorem KeepsCtl.drainRings (p : Nat) (s : State) (ctx : Nat) : KeepsCtl p s (s.drainRings p ctx).1 := by
  refine KeepsCtl.foldl_fst (fun t k => ?_) (List.range 16) (s, 0)
  dsimp only
  split
  · exact .refl p t.1
  · exact (KeepsCtl.drainSlots p k _ t.1).trans (.modRing p _ k _)

/-- A snuff of a context, with its rings drained or not, leaves the control registers (R43). -/
theorem KeepsCtl.snuffContext (p : Nat) (s : State) (ctx : Nat) (drain : Bool) : KeepsCtl p s (s.snuffContext p ctx drain).1 := by
  unfold State.snuffContext
  extract_lets t d
  have hall : KeepsCtl p s t.1 := .snuffAll p s _
  have hrings : KeepsCtl p t.1 d.1 := .drainRings p t.1 ctx
  clear_value d
  split
  · exact hall
  · exact hall.trans hrings

/-! A partition changes its state (R306). -/

theorem journalOk_of_eq {s t : State} (hflash : t.flash = s.flash) (hsec : t.sec = s.sec) : t.journalOk = s.journalOk := by
  rw [State.journalOk, State.journalOk, hflash, hsec]

/-- A journal that takes an entry takes the next one (R337). -/
theorem note_journalOk {s : State} (hok : s.journalOk = true) (n : JrnNote) : (s.note n).journalOk = true := by
  have hflash : (s.note n).flash.accepts = s.flash.accepts := by rw [(Noted.note s n).rest]; rfl
  have hsec : (s.note n).sec.jrnFailed = s.sec.jrnFailed := by
    rw [State.note, if_pos hok, State.journal]
    dsimp only
    split
    · rfl
    · cases n.action == .refused && n.who.role == 4 <;> rfl
  rw [State.journalOk, hflash, hsec]
  exact hok

/-- A change that is journaled takes effect: of the control registers it changes the state (R306). -/
theorem partChange_ctl {s : State} (hok : s.journalOk = true) (p : Nat) (new : PartState) :
    ((s.partChange p new).part p).ctl = { (s.part p).ctl with state := new } := by
  unfold State.partChange
  rw [hok, Bool.not_true, if_neg Bool.false_ne_true]
  dsimp only
  rw [ctl_of_partTold ((PfTold.msixPf _ _).toPart p), State.raiseBoth_part_ctl, State.modCtl_part_self, State.part, State.note_parts]
  rfl

theorem beginHeld_parts (s : State) (qs : List Nat) : (s.beginHeld qs).parts = s.parts := by
  refine foldl_keeps (fun t : State => t.parts = s.parts) _ (fun t q ht => ?_) qs rfl
  split
  · exact ht
  · exact ht

theorem partStopped_ctl {s : State} (hok : s.journalOk = true) (p : Nat) :
    ((s.partStopped p).part p).ctl = { (s.part p).ctl with state := .stopped } := by
  rw [State.partStopped, State.part, beginHeld_parts]
  exact partChange_ctl hok p .stopped

/-! COMMIT's claims. -/

/-- `t` has the journal and the partitions of `s`. -/
def KeepsParts (s t : State) : Prop := t.flash = s.flash ∧ t.sec = s.sec ∧ t.parts = s.parts

theorem keepsParts_foldl {β : Type} {f : State → β → State} (hf : ∀ t b, KeepsParts t (f t b)) (l : List β) (s : State) :
    KeepsParts s (l.foldl f s) := by
  refine foldl_keeps (KeepsParts s) f (fun t b ht => ?_) l ⟨rfl, rfl, rfl⟩
  obtain ⟨hflash, hsec, hparts⟩ := ht
  obtain ⟨kflash, ksec, kparts⟩ := hf t b
  exact ⟨kflash.trans hflash, ksec.trans hsec, kparts.trans hparts⟩

theorem keepsParts_resetClusters (s : State) (p : Nat) : KeepsParts s (s.resetClusters p) := by
  refine keepsParts_foldl (fun t k => ?_) _ s
  exact ⟨rfl, rfl, rfl⟩

theorem keepsParts_resetEngines (s : State) (p : Nat) : KeepsParts s (s.resetEngines p) := by
  refine keepsParts_foldl (fun t u => ?_) _ s
  exact ⟨rfl, rfl, rfl⟩

theorem keepsParts_powerOn (s : State) (q : Nat) : KeepsParts s (s.powerQuad q true) := ⟨rfl, rfl, rfl⟩

theorem powered_journalOk (s : State) (p : Nat) :
    (((s.quadsOf p).foldl (fun t q => t.powerQuad q true) s).resetClusters p).journalOk = s.journalOk := by
  obtain ⟨hflash, hsec, -⟩ := keepsParts_foldl keepsParts_powerOn (s.quadsOf p) s
  obtain ⟨kflash, ksec, -⟩ := keepsParts_resetClusters ((s.quadsOf p).foldl (fun t q => t.powerQuad q true) s) p
  exact journalOk_of_eq (kflash.trans hflash) (ksec.trans hsec)

/-- The claims touch neither the journal nor the security state. -/
theorem commitClaim_journalOk (s : State) (p : Nat) : (s.commitClaim p).journalOk = s.journalOk := by
  unfold State.commitClaim State.newKey
  dsimp only
  rw [powered_journalOk]
  simp only [State.journalOk, State.growQuota, State.modPart_flash, State.modPart_sec, State.modMem_flash, State.modMem_sec,
    State.modCtl_flash, State.modCtl_sec]

/-! TEARDOWN as far as its scrubs. -/

/-- Between `s` and `t` the control registers and the commands of partition `p` stay. -/
def KeepsWork (p : Nat) (s t : State) : Prop := (t.part p).ctl = (s.part p).ctl ∧ (t.part p).cmd = (s.part p).cmd

theorem KeepsWork.trans {p : Nat} {s t u : State} (h : KeepsWork p s t) (k : KeepsWork p t u) : KeepsWork p s u :=
  ⟨k.1.trans h.1, k.2.trans h.2⟩

theorem KeepsWork.of_parts {p : Nat} {s t : State} (h : t.parts = s.parts) : KeepsWork p s t := by
  rw [KeepsWork, State.part, h]
  exact ⟨rfl, rfl⟩

theorem KeepsWork.of_told {p q : Nat} {s t : State} (h : PartTold q s t) : KeepsWork p s t := ⟨ctl_of_partTold h p, cmds_of_partTold h p⟩

theorem KeepsWork.foldl {β : Type} {p : Nat} {f : State → β → State} (hf : ∀ t b, KeepsWork p t (f t b)) (l : List β) (s : State) :
    KeepsWork p s (l.foldl f s) :=
  foldl_keeps (KeepsWork p s) f (fun t b ht => ht.trans (hf t b)) l ⟨rfl, rfl⟩

theorem KeepsWork.modPart (p : Nat) (s : State) {f : Part → Part} (hctl : ∀ x, (f x).ctl = x.ctl) (hcmd : ∀ x, (f x).cmd = x.cmd) :
    KeepsWork p s (s.modPart p f) := by
  rw [KeepsWork, State.modPart_part_self]
  exact ⟨hctl _, hcmd _⟩

theorem KeepsWork.lineBack (p : Nat) (s : State) (line : Nat) : KeepsWork p s (s.lineBack line) := by
  have hcount (t : State) : KeepsWork p t (t.hdmCount line) := by
    unfold State.hdmCount
    dsimp only
    split
    · exact .of_told (.countLine _ t _ _)
    · exact .of_parts rfl
  unfold State.lineBack
  dsimp only
  split
  · exact (hcount (s.useFree.emit (.bisnpInv line))).trans (.of_parts rfl)
  · exact .of_parts rfl

theorem KeepsWork.invalidateSlice (p : Nat) (s : State) (k : Nat) : KeepsWork p s (s.invalidateSlice k) := by
  unfold State.invalidateSlice
  dsimp only
  refine KeepsWork.trans (t := (s.hst.snoop.filter (· / sliceLines == k)).foldl (fun u l => u.lineBack l) s) ?_ (.of_parts rfl)
  exact .foldl (fun u l => .lineBack p u l) _ s

/-- Slices released give the host's modified lines back, and leave what the partitions run (R370). -/
theorem KeepsWork.releaseSlices (p : Nat) (s : State) (q : Nat) : KeepsWork p s (s.releaseSlices q) := by
  unfold State.releaseSlices
  extract_lets mine released
  clear_value mine
  have hreleased : KeepsWork p s released := .foldl (fun t k => .invalidateSlice p t k) mine s
  exact hreleased.trans (.of_parts rfl)

/-- Keys erased in the dies change the memories only. -/
theorem destroyed_parts (s : State) (l : List Nat) :
    (l.foldl (fun s d => s.modDie d fun x => { x with destroyed := x.destroyed + 1 }) s).parts = s.parts := by
  refine foldl_keeps (fun t : State => t.parts = s.parts) _ (fun t d ht => ?_) l rfl
  exact ht

theorem eraseKey_part (s : State) (p : Nat) : (s.eraseKey p).part p = { s.part p with ctl := { (s.part p).ctl with key := 0 } } := by
  unfold State.eraseKey
  split
  · next hkey => rw [← hkey]
  · rw [State.part, destroyed_parts]
    exact State.modCtl_part_self s p _

/-- TEARDOWN erases the partition's key and drops its commands (Table 9.6 steps 1 to 3). -/
theorem beginTeardown_part {s : State} (hok : s.journalOk = true) (p : Nat) :
    ((s.beginTeardown p).part p).ctl.state = .teardown ∧ ((s.beginTeardown p).part p).ctl.key = 0 ∧ ((s.beginTeardown p).part p).cmd.cmds = [] := by
  unfold State.beginTeardown
  extract_lets began captured dropped released mirrored
  have hbegan : began.journalOk = true := by
    unfold began
    split
    · exact hok
    · exact (journalOk_of_eq rfl rfl).trans hok
  have hcaptured : (captured.part p).ctl.state = .teardown := by
    unfold captured
    rw [State.capture]
    dsimp only
    rw [State.modMtr_part_self]
    exact congrArg PartCtl.state (partChange_ctl hbegan p .teardown)
  have hdropped : (dropped.part p).ctl.state = .teardown ∧ (dropped.part p).cmd.cmds = [] := by
    unfold dropped
    rw [State.modPart_part_self, State.part, (keepsParts_resetEngines _ p).2.2, (keepsParts_resetClusters _ p).2.2]
    exact ⟨hcaptured, rfl⟩
  have hnet (f : NetPart → NetPart) : KeepsWork p dropped (dropped.modNet p f) := .modPart p dropped (fun _ => rfl) fun _ => rfl
  have hmir (f : Mirror → Mirror) : KeepsWork p released (released.modMir p f) := .modPart p released (fun _ => rfl) fun _ => rfl
  obtain ⟨hctl, hcmd⟩ : KeepsWork p dropped mirrored := ((hnet _).trans (.releaseSlices p _ p)).trans (hmir _)
  rw [State.modCtl_part_self]
  dsimp only
  rw [eraseKey_part]
  dsimp only
  rw [hctl, hcmd]
  exact ⟨hdropped.1, rfl, hdropped.2⟩

/-! A write of PART_CTRL takes back the restart that the device owed (R462). -/

/-- The device owes partition `p` no restart. -/
def noRestart (s : State) (p : Nat) : State := s.modCtl p fun c => { c with restart := false }

section
variable (s : State) (p : Nat)

/-- Beside the restart it owes, nothing that is read of a partition changes. -/
theorem noRestart_part {α : Type} {g : Part → α} (hg : ∀ x, g { x with ctl := { x.ctl with restart := false } } = g x) (q : Nat) :
    g ((noRestart s p).part q) = g (s.part q) := by
  rw [noRestart, State.modCtl_part]
  split
  · next h => rw [hg, h]
  · rfl

theorem noRestart_journalOk : (noRestart s p).journalOk = s.journalOk := rfl

theorem noRestart_live (q : Nat) : (noRestart s p).live q = s.live q :=
  noRestart_part s p (g := fun x => match x.ctl.state with | .empty | .configuring => false | _ => true) (fun _ => rfl) q

theorem noRestart_quadsOf (q : Nat) : (noRestart s p).quadsOf q = s.quadsOf q :=
  noRestart_part s p (g := fun x => (List.range x.ctl.quads.toNat).map x.ctl.quadAt) (fun _ => rfl) q

theorem noRestart_testRuns (q : Nat) : (noRestart s p).testRuns q = s.testRuns q := by
  rw [State.testRuns, noRestart_quadsOf]
  rfl

theorem noRestart_hmap (q : Nat) : ((noRestart s p).part q).ctl.hmap = (s.part q).ctl.hmap :=
  noRestart_part s p (g := (·.ctl.hmap)) (fun _ => rfl) q
theorem noRestart_lmap (q : Nat) : ((noRestart s p).part q).ctl.lmap = (s.part q).ctl.lmap :=
  noRestart_part s p (g := (·.ctl.lmap)) (fun _ => rfl) q
theorem noRestart_hgran (q : Nat) : ((noRestart s p).part q).ctl.hgran = (s.part q).ctl.hgran :=
  noRestart_part s p (g := (·.ctl.hgran)) (fun _ => rfl) q

theorem noRestart_hbmFree : (noRestart s p).hbmFree = s.hbmFree := by simp only [State.hbmFree, noRestart_hmap]

theorem noRestart_lpddrFree : (noRestart s p).lpddrFree = s.lpddrFree := by
  simp only [State.lpddrFree, noRestart_lmap]
  rfl

theorem noRestart_hamperFree (k : Nat) : (noRestart s p).hamperFree k = s.hamperFree k := by
  simp only [State.hamperFree, noRestart_hgran]
  rfl

theorem noRestart_quotaCheck (hbm : Bool) (n : Nat) : (noRestart s p).quotaCheck p hbm n = s.quotaCheck p hbm n := by
  have hbytes : ((noRestart s p).part p).ctl.objBytes = (s.part p).ctl.objBytes := noRestart_part s p (g := fun x => x.ctl.objBytes) (fun _ => rfl) p
  simp only [State.quotaCheck, hbytes, noRestart_hmap, noRestart_lmap, noRestart_hbmFree, noRestart_lpddrFree]

/-- A sum over the resources that the other partitions hold does not read the restart owed. -/
theorem noRestart_sumOthers {f : PartCtl → Nat} (hf : ∀ c, f { c with restart := false } = f c) :
    (noRestart s p).sumOthers p f = s.sumOthers p f := by
  have hpart (q : Nat) : f ((noRestart s p).part q).ctl = f (s.part q).ctl := noRestart_part s p (g := fun x => f x.ctl) (fun x => hf x.ctl) q
  simp only [State.sumOthers, noRestart_live, hpart]

theorem noRestart_quadBusy (c : PartCtl) : (noRestart s p).quadBusy p c = s.quadBusy p c := by
  have howner (q : Nat) : (noRestart s p).quadOwner q = s.quadOwner q := by simp only [State.quadOwner, noRestart_live, noRestart_quadsOf]
  simp only [State.quadBusy, howner]
  rfl

/-- COMMIT's checks do not read it (Table 9.3). -/
theorem noRestart_commitCheck : (noRestart s p).commitCheck p = s.commitCheck p := by
  have hpart : (noRestart s p).part p = { s.part p with ctl := { (s.part p).ctl with restart := false } } := State.modCtl_part_self s p _
  unfold State.commitCheck
  rw [hpart]
  have hseq : (noRestart s p).sumOthers p (fun d => d.seqCap.toNat) = s.sumOthers p fun d => d.seqCap.toNat :=
    noRestart_sumOthers s p fun _ => rfl
  have hlist : (noRestart s p).sumOthers p (fun d => d.listCap.toNat) = s.sumOthers p fun d => d.listCap.toNat :=
    noRestart_sumOthers s p fun _ => rfl
  have hcdc (u : Nat) : (noRestart s p).sumOthers p (·.cdcOn u) = s.sumOthers p (·.cdcOn u) := noRestart_sumOthers s p fun _ => rfl
  simp only [noRestart_quadBusy, noRestart_hamperFree, noRestart_quotaCheck, hseq, hlist, hcdc]
  rfl

end

/-! What PART_CTRL does in each state (Table 9.2). -/

/-- Command `cmd` of PART_CTRL is one of a partition in state `st`. -/
def TakenIn (cmd : Nat) (st : PartState) : Prop :=
  (cmd, st) ∈ [(1, .empty), (2, .configuring), (3, .configuring), (4, .stopped), (5, .running), (6, .draining), (7, .stopped), (7, .draining)]

/-- The answer to a command that its partition's state does not take. -/
def refusal (s : State) (p : Nat) : RegW := RegW.no s Cause.partState (some (p, 0))

section
variable {s : State} {p : Nat} (who : Writer)

/-- A partition in another state takes nothing of it. -/
theorem partDo_refused {cmd : Nat} (hnot : ¬ TakenIn cmd (s.part p).ctl.state) : s.partDo p cmd who = refusal s p := by
  unfold State.partDo
  dsimp only
  split
  case h_9 => rfl
  all_goals
    next hst =>
    rw [hst] at hnot
    exact absurd (by simp [TakenIn]) hnot

/-- A drain that has not timed out is not torn down. -/
theorem partDo_early (hst : (s.part p).ctl.state = .draining) (htime : (s.part p).ctl.drainTimeout = false) : s.partDo p 7 who = refusal s p := by
  unfold State.partDo
  dsimp only
  rw [hst, htime]
  rfl

/-- The entry of a command taken. -/
def said (s : State) (p cmd : Nat) (who : Writer) : State := s.note { action := .partCmd, who := who, part := some p, detail := cmd }

theorem said_parts (s : State) (p cmd : Nat) (who : Writer) : (said s p cmd who).parts = s.parts := State.note_parts s _

theorem said_ctl (s : State) (p cmd : Nat) (who : Writer) (q : Nat) : ((said s p cmd who).part q).ctl = (s.part q).ctl := by
  rw [State.part, said_parts, State.part]

variable (hok : s.journalOk = true)
include hok

theorem said_journalOk (cmd : Nat) : (said s p cmd who).journalOk = true := note_journalOk hok _

omit hok in
theorem modPfHdrs_journalOk (t : State) (l : List Nat) (page : Nat → Nat) (f : PageHdr → PageHdr) :
    (l.foldl (fun u k => u.modPfHdr (page k) f) t).journalOk = t.journalOk :=
  foldl_keeps (fun u : State => u.journalOk = t.journalOk) (fun u k => u.modPfHdr (page k) f) (fun _ _ hu => hu) l rfl

/-- A partition created stands as after reset, but for its generation of configuration and its part in a pair (R306). -/
def created (x : Part) : Part := { ({ x with ctl := { cfgGen := x.ctl.cfgGen }, mtr := {}, net := {} } : Part).fresh with mir := x.mir }

theorem partDo_create (hst : (s.part p).ctl.state = .empty) :
    ((s.partDo p 1 who).s.part p).ctl.state = .configuring ∧ (s.partDo p 1 who).cause = 0 := by
  have hdo : s.partDo p 1 who = { s := ((List.range 6).foldl (fun t k => t.modPfHdr (partPage p k) fun h => { lock := h.lock })
      ((said s p 1 who).modPart p created)).partChange p .configuring } := by
    unfold State.partDo
    dsimp only
    rw [hst]
    rfl
  rw [hdo]
  refine ⟨congrArg PartCtl.state (partChange_ctl ?_ p .configuring), rfl⟩
  rw [modPfHdrs_journalOk]
  exact said_journalOk who hok 1

theorem partDo_commit (hst : (s.part p).ctl.state = .configuring) (hdebug : s.sec.debug = false) (hpass : (s.commitCheck p).1 = 0) :
    ((s.partDo p 2 who).s.part p).ctl.state = .stopped ∧ (s.partDo p 2 who).cause = 0 := by
  have hdo : s.partDo p 2 who = { s := ((said s p 2 who).commitClaim p).partStopped p } := by
    unfold State.partDo
    dsimp only
    rw [hst, hdebug, if_neg Bool.false_ne_true, if_neg (not_not_intro hpass)]
    rfl
  have hclaim : ((said s p 2 who).commitClaim p).journalOk = true := (commitClaim_journalOk ..).trans (said_journalOk who hok 2)
  rw [hdo]
  dsimp only
  rw [partStopped_ctl hclaim]
  exact ⟨rfl, rfl⟩

omit hok in
theorem partDo_misfit (hst : (s.part p).ctl.state = .configuring) (hdebug : s.sec.debug = false) (hfail : (s.commitCheck p).1 ≠ 0) :
    ((s.partDo p 2 who).s.part p).ctl.state = .configuring ∧ (s.partDo p 2 who).cause = Cause.partConfig := by
  unfold State.partDo
  dsimp only
  rw [hst, hdebug, if_neg Bool.false_ne_true, if_pos hfail]
  exact ⟨(congrArg (fun x : Part => x.ctl.state) (State.modCtl_part_self s p _)).trans hst, rfl⟩

theorem partDo_abandon (hst : (s.part p).ctl.state = .configuring) :
    ((s.partDo p 3 who).s.part p).ctl.state = .empty ∧ (s.partDo p 3 who).cause = 0 := by
  unfold State.partDo
  dsimp only
  rw [hst]
  exact ⟨congrArg PartCtl.state (partChange_ctl (said_journalOk who hok 3) p .empty), rfl⟩

/-- At a START a started ring goes on from its doorbell, or shows that it was overrun. -/
def ringGoesOn (p : Nat) (t : State) (n : Nat) : State :=
  if !(t.ring p n).started then t
  else if (t.ring p n).overrun then t.ringError p n Cause.ringOverrun 0 0
  else t.modRing p n fun r => { r with state := if r.avail = 0 then .idle else if r.state = .idle then .fetching else r.state }

omit hok in
theorem KeepsCtl.ringGoesOn (p : Nat) (t : State) (n : Nat) : KeepsCtl p t (ringGoesOn p t n) := by
  unfold PartitionsAndSharing.ringGoesOn
  split
  · exact .refl p t
  · split
    · exact .ringError p t n _ _ _ _
    · exact .modRing p t n _

theorem partDo_start (hst : (s.part p).ctl.state = .stopped) (htest : s.testRuns p = false)
    (hstandby : ¬ ((s.part p).mir.state = .standbyEmpty ∨ (s.part p).mir.state = .standby)) :
    ((s.partDo p 4 who).s.part p).ctl.state = .running ∧ (s.partDo p 4 who).cause = 0 := by
  have hdo : s.partDo p 4 who = { s := (List.range 16).foldl (ringGoesOn p) (((said s p 4 who).partChange p .running).progress p) } := by
    unfold State.partDo
    dsimp only
    rw [hst, htest, if_neg Bool.false_ne_true, if_neg hstandby]
    rfl
  have hrings (l : List Nat) (t : State) : KeepsCtl p t (l.foldl (ringGoesOn p) (t.progress p)) :=
    (KeepsCtl.progress p t).trans (.foldl (.ringGoesOn p) l _)
  rw [hdo]
  dsimp only
  rw [hrings, partChange_ctl (said_journalOk who hok 4)]
  exact ⟨rfl, rfl⟩

omit hok in
theorem partDo_busy (hst : (s.part p).ctl.state = .stopped) (htest : s.testRuns p = true) :
    s.partDo p 4 who = RegW.no s Cause.partBusy (some (p, 3)) := by
  unfold State.partDo
  dsimp only
  rw [hst, if_pos htest]
  rfl

omit hok in
theorem partDo_standby (hst : (s.part p).ctl.state = .stopped) (htest : s.testRuns p = false)
    (hstandby : (s.part p).mir.state = .standbyEmpty ∨ (s.part p).mir.state = .standby) : s.partDo p 4 who = RegW.no s Cause.pairStandby := by
  unfold State.partDo
  dsimp only
  rw [hst, htest, if_neg Bool.false_ne_true, if_pos hstandby]
  rfl

theorem partDo_stop (hst : (s.part p).ctl.state = .running) :
    ((s.partDo p 5 who).s.part p).ctl.state = .draining ∧ (s.partDo p 5 who).cause = 0 := by
  have hdo : s.partDo p 5 who =
      { s := ((said s p 5 who).modCtl p fun c => { c with drainTimeout := false, forced := false }).partChange p .draining } := by
    unfold State.partDo
    dsimp only
    rw [hst]
    rfl
  rw [hdo]
  refine ⟨congrArg PartCtl.state (partChange_ctl ?_ p .draining), rfl⟩
  exact (journalOk_of_eq (State.modCtl_flash ..) (State.modCtl_sec ..)).trans (said_journalOk who hok 5)

omit hok in
theorem partDo_force (hst : (s.part p).ctl.state = .draining) :
    (((s.partDo p 6 who).s.part p).ctl.state = .draining ∧ ((s.partDo p 6 who).s.part p).ctl.forced = true) ∧ (s.partDo p 6 who).cause = 0 := by
  have hdo : s.partDo p 6 who =
      { s := ((List.range 16).filter fun c => ((s.part p).cmd.ctxs.any fun e => e.1 == c && e.2.enable)).foldl
          (fun t c => (t.snuffContext p c true).1) ((said s p 6 who).modCtl p fun c => { c with forced := true }) } := by
    unfold State.partDo
    dsimp only
    rw [hst]
    rfl
  have hforced : (((said s p 6 who).modCtl p fun c => { c with forced := true }).part p).ctl = { (s.part p).ctl with forced := true } := by
    rw [State.modCtl_part_self, said_ctl]
  have hkeeps (l : List Nat) (t : State) : KeepsCtl p t (l.foldl (fun t c => (t.snuffContext p c true).1) t) :=
    .foldl (fun t c => .snuffContext p t c true) l t
  rw [hdo]
  dsimp only
  rw [hkeeps, hforced]
  exact ⟨⟨hst, rfl⟩, rfl⟩

theorem partDo_teardown (hst : (s.part p).ctl.state = .stopped) :
    (((s.partDo p 7 who).s.part p).ctl.state = .teardown ∧ ((s.partDo p 7 who).s.part p).ctl.key = 0 ∧
      ((s.partDo p 7 who).s.part p).cmd.cmds = []) ∧ (s.partDo p 7 who).cause = 0 := by
  have hdo : s.partDo p 7 who = { s := (said s p 7 who).beginTeardown p } := by
    unfold State.partDo
    dsimp only
    rw [hst]
    rfl
  rw [hdo]
  dsimp only
  exact ⟨beginTeardown_part (said_journalOk who hok 7) p, rfl⟩

end

/-! A write of PART_CTRL in a session. -/

/-- A command of PART_CTRL is carried out at once where no FLR of the VF is in progress and it is no TEARDOWN that waits for a self-test
(R306, R375, R462). -/
theorem partCtrl_of {s : State} {p cmd : Nat} (who : Writer) (hflr : (s.part p).vf.flr = 0)
    (hnow : cmd = 7 → s.testRuns p = true → (s.part p).ctl.state ≠ .stopped ∧
      ((s.part p).ctl.state = .draining → (s.part p).ctl.drainTimeout = false)) :
    s.partCtrl p cmd who = (noRestart s p).partDo p cmd who := by
  have hpart : (noRestart s p).part p = { s.part p with ctl := { (s.part p).ctl with restart := false } } := State.modCtl_part_self s p _
  unfold State.partCtrl
  refine if_neg ?_
  change ¬ (((noRestart s p).part p).vf.flr != 0 || (cmd == 7 && (noRestart s p).testRuns p && (((noRestart s p).part p).ctl.state == .stopped ||
    (((noRestart s p).part p).ctl.state == .draining && ((noRestart s p).part p).ctl.drainTimeout)))) = true
  rw [hpart, noRestart_testRuns]
  simp only [hflr, Bool.or_eq_true, Bool.and_eq_true, beq_iff_eq]
  rintro (hflr' | ⟨⟨hcmd, htest⟩, hst | ⟨hst, htime⟩⟩)
  · exact absurd hflr' (by decide)
  · exact (hnow hcmd htest).1 hst
  · rw [(hnow hcmd htest).2 hst] at htime
    exact Bool.false_ne_true htime

theorem reject_parts (w : RegW) (off : Nat) (who : Writer) (part : Option Nat) (value old : W64) :
    (w.reject off who part value old).parts = w.s.parts := by
  unfold RegW.reject
  dsimp only
  rw [State.rejectPf_parts]
  split <;> rfl

/-- What `t`, in which a write of PART_CTRL with outcome `w` has been answered, shows of partition `p`. -/
structure Commanded (p : Nat) (w : RegW) (t : State) : Prop where
  ctl : (t.part p).ctl = (w.s.part p).ctl
  cmd : (t.part p).cmd = (w.s.part p).cmd
  reply : t.reply = if w.cause = 0 then { count := 1 } else { cause := w.cause }

theorem Commanded.respond {p : Nat} {w : RegW} {u : State} {cause : W16} (hparts : u.parts = w.s.parts) (hcause : w.cause = cause)
    (t : Transport) : Commanded p w (u.respond t { cause := cause, count := if cause = 0 then 1 else 0 }) := by
  have hpart : u.part p = w.s.part p := by rw [State.part, hparts, State.part]
  refine ⟨?_, ?_, ?_⟩
  · rw [respond_ctl, hpart]
  · rw [respond_cmd, hpart]
  · rw [respond_reply, hcause]
    split
    · next h => rw [h]
    · rfl

section
variable {s : State} {sid cmd : Nat} {p : PartId} {x : SpdmSession}

theorem partCommand_of (hup : SessionUp s sid x .operator) (hfree : PageFree s (partPage p.val 0) sid) (hcmd : cmd < 16) :
    Commanded p.val (s.partCtrl p.val cmd x.writer) (s.partCommand sid p.val cmd) := by
  obtain ⟨r, hreg, hset⟩ := partCtrl_reg p.val
  have hpage : s.pfPage (partOff p.val 0 0x040 / 4096) = some (pctlPage p.val) := by
    rw [partOff_div (by decide), pfPage_partPage hup.1 p.isLt (by decide)]
    rfl
  have hmay : OperatorMay s (pctlPage p.val) sid (sessionEnv x sid) := ⟨rfl, rfl, hfree, congrArg Role.code hup.2.2.2.2, rfl⟩
  have hw : r.set (sessionEnv x sid) 0 cmd s = s.partCtrl p.val cmd x.writer := by
    rw [hset, Nat.mod_eq_of_lt hcmd]
    rfl
  have hp := p.isLt
  rw [State.partCommand, writeOne_of hup hpage (by unfold partOff partPage; omega) (by unfold partOff; omega) (by omega), partOff_mod (by decide)]
  by_cases hcause : (r.set (sessionEnv x sid) 0 cmd s).cause = 0
  · rw [write_ownEntry hreg hmay hup.2.1 hcause, hw]
    rw [hw] at hcause
    exact .respond rfl hcause x.transport
  · rw [write_refused hreg hmay hcause, hw]
    exact .respond (reject_parts ..) rfl x.transport

theorem Commanded.taken {w : RegW} {t : State} {new : PartState} (h : Commanded p.val w t)
    (hdo : (w.s.part p.val).ctl.state = new ∧ w.cause = 0) : (t.part p.val).ctl.state = new ∧ t.reply = { count := 1 } := by
  obtain ⟨hctl, -, hreply⟩ := h
  rw [hctl, hreply, hdo.2]
  exact ⟨hdo.1, rfl⟩

theorem Commanded.refused {w : RegW} {t : State} {old : PartState} {cause : W16} (h : Commanded p.val w t)
    (hdo : (w.s.part p.val).ctl.state = old ∧ w.cause = cause) (hcause : cause ≠ 0) :
    (t.part p.val).ctl.state = old ∧ t.reply = { cause := cause } := by
  obtain ⟨hctl, -, hreply⟩ := h
  rw [hctl, hreply, hdo.2, if_neg hcause]
  exact ⟨hdo.1, rfl⟩

end

/-! The commands' instructions. -/

theorem exec_partCreate (sid : Nat) (p : PartId) (s : State) : exec (.partCreate sid p) s = .next (s.partCommand sid p.val 1) := rfl
theorem exec_partCommit (sid : Nat) (p : PartId) (s : State) : exec (.partCommit sid p) s = .next (s.partCommand sid p.val 2) := rfl
theorem exec_partAbandon (sid : Nat) (p : PartId) (s : State) : exec (.partAbandon sid p) s = .next (s.partCommand sid p.val 3) := rfl
theorem exec_partStart (sid : Nat) (p : PartId) (s : State) : exec (.partStart sid p) s = .next (s.partCommand sid p.val 4) := rfl
theorem exec_partStop (sid : Nat) (p : PartId) (s : State) : exec (.partStop sid p) s = .next (s.partCommand sid p.val 5) := rfl
theorem exec_partForce (sid : Nat) (p : PartId) (s : State) : exec (.partForce sid p) s = .next (s.partCommand sid p.val 6) := rfl
theorem exec_partTeardown (sid : Nat) (p : PartId) (s : State) : exec (.partTeardown sid p) s = .next (s.partCommand sid p.val 7) := rfl

section
variable {s : State} {sid cmd : Nat} {p : PartId} {x : SpdmSession} {i : Instr}

theorem noRestart_state (s : State) (p : Nat) : ((noRestart s p).part p).ctl.state = (s.part p).ctl.state :=
  noRestart_part s p (g := (·.ctl.state)) (fun _ => rfl) p

theorem noRestart_mir (s : State) (p : Nat) : ((noRestart s p).part p).mir = (s.part p).mir := noRestart_part s p (g := (·.mir)) (fun _ => rfl) p

variable (hup : SessionUp s sid x .operator) (hfree : PageFree s (partPage p.val 0) sid) (hflr : (s.part p.val).vf.flr = 0)
include hup hfree hflr

/-- A command that nothing holds back is carried out on the state in which no restart is owed. -/
theorem partCommand_done (hcmd : cmd < 16) (hnow : cmd = 7 → s.testRuns p.val = true → (s.part p.val).ctl.state ≠ .stopped ∧
      ((s.part p.val).ctl.state = .draining → (s.part p.val).ctl.drainTimeout = false)) :
    Commanded p.val ((noRestart s p.val).partDo p.val cmd x.writer) (s.partCommand sid p.val cmd) := by
  rw [← partCtrl_of x.writer hflr hnow]
  exact partCommand_of hup hfree hcmd

/-- Nothing holds back a command other than TEARDOWN. -/
theorem partCommand_at_once (hcmd : cmd < 7) :
    Commanded p.val ((noRestart s p.val).partDo p.val cmd x.writer) (s.partCommand sid p.val cmd) :=
  partCommand_done hup hfree hflr (by omega) (by omega)

theorem answers_taken (hexec : exec i s = .next (s.partCommand sid p.val cmd)) (hcmd : cmd < 7) {new : PartState}
    (hdo : let w := (noRestart s p.val).partDo p.val cmd x.writer; (w.s.part p.val).ctl.state = new ∧ w.cause = 0) :
    Answers i s fun t => (t.part p.val).ctl.state = new ∧ t.reply = { count := 1 } :=
  ⟨_, hexec, (partCommand_at_once hup hfree hflr hcmd).taken hdo⟩

theorem answers_refused (hexec : exec i s = .next (s.partCommand sid p.val cmd)) (hcmd : cmd < 7) {old : PartState} {cause : W16}
    (hcause : cause ≠ 0)
    (hdo : let w := (noRestart s p.val).partDo p.val cmd x.writer; (w.s.part p.val).ctl.state = old ∧ w.cause = cause) :
    Answers i s fun t => (t.part p.val).ctl.state = old ∧ t.reply = { cause := cause } :=
  ⟨_, hexec, (partCommand_at_once hup hfree hflr hcmd).refused hdo hcause⟩

theorem answers_notTaken (hexec : exec i s = .next (s.partCommand sid p.val cmd)) (hcmd : cmd < 7)
    (hnot : ¬ TakenIn cmd (s.part p.val).ctl.state) :
    Answers i s fun t => (t.part p.val).ctl.state = (s.part p.val).ctl.state ∧ t.reply = { cause := Cause.partState } := by
  rw [← noRestart_state] at hnot
  refine answers_refused hup hfree hflr hexec hcmd (by decide) ?_
  rw [partDo_refused x.writer hnot]
  exact ⟨noRestart_state s p.val, rfl⟩

/-- START of a stopped partition that tests a quad, or that stands by for its peer (R411, R462). -/
theorem start_refused {cause : W16} {pctl : Option (Nat × Nat)} (hst : (s.part p.val).ctl.state = .stopped) (hcause : cause ≠ 0)
    (hdo : (noRestart s p.val).partDo p.val 4 x.writer = RegW.no (noRestart s p.val) cause pctl) :
    Answers (.partStart sid p) s fun t => (t.part p.val).ctl.state = .stopped ∧ t.reply = { cause := cause } := by
  refine answers_refused hup hfree hflr (exec_partStart sid p s) (by decide) hcause ?_
  rw [hdo]
  exact ⟨(noRestart_state s p.val).trans hst, rfl⟩

theorem force_answers (hst : (s.part p.val).ctl.state = .draining) : Answers (.partForce sid p) s fun t =>
    (t.part p.val).ctl.state = .draining ∧ (t.part p.val).ctl.forced = true ∧ t.reply = { count := 1 } := by
  have hcom := partCommand_at_once hup hfree hflr (cmd := 6) (by decide)
  obtain ⟨⟨hdraining, hforced⟩, hcause⟩ := partDo_force x.writer ((noRestart_state s p.val).trans hst)
  obtain ⟨hstate, hreply⟩ := hcom.taken ⟨hdraining, hcause⟩
  exact ⟨_, exec_partForce sid p s, hstate, (congrArg PartCtl.forced hcom.ctl).trans hforced, hreply⟩

theorem teardown_answers (hst : (s.part p.val).ctl.state = .stopped) (htest : s.testRuns p.val = false) :
    Answers (.partTeardown sid p) s fun t => (t.part p.val).ctl.state = .teardown ∧ (t.part p.val).ctl.key = 0 ∧
      (t.part p.val).cmd.cmds = [] ∧ t.reply = { count := 1 } := by
  have hcom := partCommand_done hup hfree hflr (cmd := 7) (by decide) (by simp [htest])
  have hok : (noRestart s p.val).journalOk = true := (noRestart_journalOk s p.val).trans hup.2.1
  obtain ⟨⟨htorn, hkey, hcmds⟩, hcause⟩ := partDo_teardown x.writer hok ((noRestart_state s p.val).trans hst)
  obtain ⟨hstate, hreply⟩ := hcom.taken ⟨htorn, hcause⟩
  exact ⟨_, exec_partTeardown sid p s, hstate, (congrArg PartCtl.key hcom.ctl).trans hkey, (congrArg CmdSys.cmds hcom.cmd).trans hcmds, hreply⟩

/-- A partition that is not STOPPED, nor in a drain that has timed out, is not torn down. -/
theorem teardown_stays (hstop : (s.part p.val).ctl.state ≠ .stopped)
    (hdrain : (s.part p.val).ctl.state = .draining → (s.part p.val).ctl.drainTimeout = false) :
    Answers (.partTeardown sid p) s fun t =>
      (t.part p.val).ctl.state = (s.part p.val).ctl.state ∧ t.reply = { cause := Cause.partState } := by
  have hdo : (noRestart s p.val).partDo p.val 7 x.writer = refusal (noRestart s p.val) p.val := by
    by_cases hst : (s.part p.val).ctl.state = .draining
    · have htime : ((noRestart s p.val).part p.val).ctl.drainTimeout = (s.part p.val).ctl.drainTimeout :=
        noRestart_part s p.val (g := (·.ctl.drainTimeout)) (fun _ => rfl) p.val
      exact partDo_early x.writer ((noRestart_state s p.val).trans hst) (htime.trans (hdrain hst))
    · refine partDo_refused x.writer ?_
      rw [noRestart_state]
      simpa [TakenIn] using ⟨hstop, hst⟩
  refine ⟨_, exec_partTeardown sid p s, (partCommand_done hup hfree hflr (by decide) fun _ _ => ⟨hstop, hdrain⟩).refused ?_ (by decide)⟩
  rw [hdo]
  exact ⟨noRestart_state s p.val, rfl⟩

end

/-- Settles O32: each command is carried out on the state in which no restart is owed, and does there what Table 9.2 says of its state. -/
theorem partitionCommands : Obligations.PartitionCommands := by
  unfold Obligations.PartitionCommands
  intro sid p s x hup hfree hflr st goes stays
  have hst {st' : PartState} (h : st = st') : ((noRestart s p.val).part p.val).ctl.state = st' := (noRestart_state s p.val).trans h
  have hok : (noRestart s p.val).journalOk = true := (noRestart_journalOk s p.val).trans hup.2.1
  have htaken {i : Instr} {cmd : Nat} {new : PartState} := answers_taken hup hfree hflr (i := i) (cmd := cmd) (new := new)
  have hstays {i : Instr} {cmd : Nat} := answers_notTaken hup hfree hflr (i := i) (cmd := cmd)
  refine ⟨?create, ?commit, ?abandon, ?start, ?stop, ?force, teardown_answers hup hfree hflr,
    fun hstop hdrain => teardown_stays hup hfree hflr hstop fun h => absurd h hdrain,
    fun h htime => teardown_stays hup hfree hflr (fun hstop => absurd (h.symm.trans hstop) (by decide)) fun _ => htime⟩
  case create =>
    split
    · next h => exact htaken (exec_partCreate sid p s) (by decide) (partDo_create x.writer hok (hst h))
    · next h => exact hstays (exec_partCreate sid p s) (by decide) (by simpa [TakenIn] using h)
  case commit =>
    split
    · next h =>
      intro hdebug
      refine ⟨fun hpass => htaken (exec_partCommit sid p s) (by decide) ?_,
        fun hfail => answers_refused hup hfree hflr (exec_partCommit sid p s) (by decide) (by decide) ?_⟩
      · exact partDo_commit x.writer hok (hst h) hdebug (by rwa [noRestart_commitCheck])
      · exact partDo_misfit x.writer (hst h) hdebug (by rwa [noRestart_commitCheck])
    · next h => exact hstays (exec_partCommit sid p s) (by decide) (by simpa [TakenIn] using h)
  case abandon =>
    split
    · next h => exact htaken (exec_partAbandon sid p s) (by decide) (partDo_abandon x.writer hok (hst h))
    · next h => exact hstays (exec_partAbandon sid p s) (by decide) (by simpa [TakenIn] using h)
  case start =>
    split
    · next h =>
      refine ⟨fun htest hactive => htaken (exec_partStart sid p s) (by decide) ?_,
        fun htest => start_refused hup hfree hflr h (by decide) (partDo_busy x.writer (hst h) (by rwa [noRestart_testRuns])),
        fun htest hstandby => start_refused hup hfree hflr h (by decide)
          (partDo_standby x.writer (hst h) (by rwa [noRestart_testRuns]) (by rwa [noRestart_mir]))⟩
      exact partDo_start x.writer hok (hst h) (by rwa [noRestart_testRuns]) (by rwa [noRestart_mir])
    · next h => exact hstays (exec_partStart sid p s) (by decide) (by simpa [TakenIn] using h)
  case stop =>
    split
    · next h => exact htaken (exec_partStop sid p s) (by decide) (partDo_stop x.writer hok (hst h))
    · next h => exact hstays (exec_partStop sid p s) (by decide) (by simpa [TakenIn] using h)
  case force =>
    split
    · next h => exact force_answers hup hfree hflr h
    · next h => exact hstays (exec_partForce sid p s) (by decide) (by simpa [TakenIn] using h)

end Sys2Proof.PartitionsAndSharing

/-!
PROOF. Roles, trust and the journal (chapters 10, 14 and 15): the fused SVN, ownership, firmware, the SPDM connection and its sessions, TDISP,
the stages of the module.
-/
namespace Sys2Proof.RolesTrustAndJournal
open Sys2Proof Sys2Proof.Machine

/-!
The fuses and the fused SVN (R344 to R346), for O59. `fused s` is what the statement speaks of; for every operation of the model there is one
lemma that says that it leaves `fused`, in the order in which the model's files define the operations. Only the effect of SVN_COMMIT does not.
-/

/-- What the fuses and the fused counter hold: no command but SVN_COMMIT writes them. -/
def fused (s : State) : BitVec 6 × Fuses := (s.flash.fusedSvn, s.fuse)

@[simp] theorem fused_ite (c : Prop) [Decidable c] (t u : State) :
    fused (if c then t else u) = if c then fused t else fused u := apply_ite ..
@[simp] theorem fused_ite_fst {α : Type} (c : Prop) [Decidable c] (t u : State × α) :
    fused (if c then t else u).1 = if c then fused t.1 else fused u.1 := by split <;> rfl
@[simp] theorem fused_ite_s (c : Prop) [Decidable c] (t u : RegW) :
    fused (if c then t else u).s = if c then fused t.s else fused u.s := by split <;> rfl
@[simp] theorem fused_ite_snd {α : Type} (c : Prop) [Decidable c] (t u : α × State) :
    fused (if c then t else u).2 = if c then fused t.2 else fused u.2 := by split <;> rfl

@[simp] theorem fused_foldl {α : Type} (l : List α) (f : State → α → State) (h : ∀ t a, fused (f t a) = fused t) (s : State) :
    fused (l.foldl f s) = fused s := by
  induction l generalizing s with
  | nil => rfl
  | cons a l ih => exact (ih (f s a)).trans (h s a)
@[simp] theorem fused_foldl_fst {α β : Type} (l : List α) (f : State × β → α → State × β) (h : ∀ t a, fused (f t a).1 = fused t.1)
    (s : State × β) :
    fused (l.foldl f s).1 = fused s.1 := by
  induction l generalizing s with
  | nil => rfl
  | cons a l ih => exact (ih (f s a)).trans (h s a)
@[simp] theorem fused_foldl_snd {α β : Type} (l : List α) (f : β × State → α → β × State) (h : ∀ t a, fused (f t a).2 = fused t.2)
    (s : β × State) :
    fused (l.foldl f s).2 = fused s.2 := by
  induction l generalizing s with
  | nil => rfl
  | cons a l ih => exact (ih (f s a)).trans (h s a)
@[simp] theorem setCreds_fusedSvn (f : Flash) (t : Tbl (List Byte)) : (f.setCreds t).fusedSvn = f.fusedSvn := rfl
@[simp] theorem setInactive_fusedSvn (f : Flash) (i : Image) :
    (f.setInactive i).fusedSvn = f.fusedSvn := by unfold Flash.setInactive; split <;> rfl
@[simp] theorem staged_fusedSvn (f : Flash) : f.staged.fusedSvn = f.fusedSvn := by unfold Flash.staged; split <;> rfl
@[simp] theorem repaired_fusedSvn (f : Flash) : f.repaired.fusedSvn = f.fusedSvn := rfl
@[simp] theorem program_fusedSvn (f : Flash) (e : JrnEntry) : (f.program e).fusedSvn = f.fusedSvn := rfl
@[simp] theorem fused_modFlash (s : State) {f : Flash → Flash} (h : ∀ x, (f x).fusedSvn = x.fusedSvn) : fused (s.modFlash f) = fused s := by
  simp [fused, h]
theorem fused_fst {α : Type} {r : State × α} {t : State} {a : α} (h : r = (t, a)) : fused t = fused r.1 := by rw [h]
theorem fused_of_partTold {p : Nat} {s t : State} (h : PartTold p s t) : fused t = fused s := by rw [h.rest]; rfl
theorem fused_of_pfTold {s t : State} (h : PfTold s t) : fused t = fused s := by rw [h.rest]; rfl
theorem fused_of_noted {s t : State} (h : Noted s t) : fused t = fused s := by rw [h.rest]; rfl
@[simp] theorem fused_mk (s : State) (pending : List Instr) (free nextId : Nat) (reply : Reply) (out : List Out) (pins : Pins) (pwr : Power)
    (mgmt : Mgmt) (sec : Security) (ev : Events) (hst : HostPort) (eci : Eci) (mem : Mem) (clus : Tbl Cluster) (tiles : Tbl Tile)
    (movs : Tbl MovInst) (seqs : Tbl SeqInst) (cdcs : Tbl CdcEng) (nets : Tbl NetPort) (parts : Tbl Part) (hdr : Tbl PageHdr) :
    fused ⟨pending, free, nextId, reply, out, s.fuse, s.flash, pins, pwr, mgmt, sec, ev, hst, eci, mem, clus, tiles, movs, seqs, cdcs, nets,
      parts, hdr⟩ = fused s := rfl
@[simp] theorem fused_eta (s : State) : (s.flash.fusedSvn, s.fuse) = fused s := rfl

/-! ### The state's accessors, memory, events and counters -/

@[simp] theorem fused_setPart (s : State) (p : Nat) (x : Part) : fused (s.setPart p x) = fused s := by simp [State.setPart]

@[simp] theorem fused_modPart (s : State) (p : Nat) (f : Part → Part) : fused (s.modPart p f) = fused s := by simp [State.modPart]

@[simp] theorem fused_modSys (s : State) (p : Nat) (f : CmdSys → CmdSys) : fused (s.modSys p f) = fused s := by simp [State.modSys]

@[simp] theorem fused_modCtl (s : State) (p : Nat) (f : PartCtl → PartCtl) : fused (s.modCtl p f) = fused s := by simp [State.modCtl]

@[simp] theorem fused_modMtr (s : State) (p : Nat) (f : Meters → Meters) : fused (s.modMtr p f) = fused s := by simp [State.modMtr]

@[simp] theorem fused_modLtn (s : State) (p : Nat) (f : Lantern → Lantern) : fused (s.modLtn p f) = fused s := by simp [State.modLtn]

@[simp] theorem fused_modSeq (s : State) (p : Nat) (f : Seq → Seq) : fused (s.modSeq p f) = fused s := by simp [State.modSeq]

@[simp] theorem fused_modStr (s : State) (p : Nat) (f : Streams → Streams) : fused (s.modStr p f) = fused s := by simp [State.modStr]

@[simp] theorem fused_modObjs (s : State) (p : Nat) (f : Objs → Objs) : fused (s.modObjs p f) = fused s := by simp [State.modObjs]

@[simp] theorem fused_modCdc (s : State) (p : Nat) (f : Cdc → Cdc) : fused (s.modCdc p f) = fused s := by simp [State.modCdc]

@[simp] theorem fused_modNet (s : State) (p : Nat) (f : NetPart → NetPart) : fused (s.modNet p f) = fused s := by simp [State.modNet]

@[simp] theorem fused_modVf (s : State) (p : Nat) (f : Vf → Vf) : fused (s.modVf p f) = fused s := by simp [State.modVf]

@[simp] theorem fused_modMir (s : State) (p : Nat) (f : Mirror → Mirror) : fused (s.modMir p f) = fused s := by simp [State.modMir]

@[simp] theorem fused_modWdg (s : State) (p : Nat) (f : Watchdog → Watchdog) :
    fused (s.modWdg p f) = fused s := by simp [State.modWdg]

@[simp] theorem fused_modEvt (s : State) (p : Nat) (f : EvRing → EvRing) : fused (s.modEvt p f) = fused s := by simp [State.modEvt]

@[simp] theorem fused_modCluster (s : State) (c : Nat) (f : Cluster → Cluster) :
    fused (s.modCluster c f) = fused s := by simp [State.modCluster]

@[simp] theorem fused_modTile (s : State) (t : Nat) (f : Tile → Tile) : fused (s.modTile t f) = fused s := by simp [State.modTile]

@[simp] theorem fused_modMem (s : State) (f : Mem → Mem) : fused (s.modMem f) = fused s := by simp [State.modMem]

@[simp] theorem fused_modChan (s : State) (k : Nat) (f : Chan → Chan) : fused (s.modChan k f) = fused s := by simp [State.modChan]

@[simp] theorem fused_modDie (s : State) (d : Nat) (f : Die → Die) : fused (s.modDie d f) = fused s := by simp [State.modDie]

@[simp] theorem fused_modQuad (s : State) (q : Nat) (f : Quad → Quad) : fused (s.modQuad q f) = fused s := by simp [State.modQuad]

@[simp] theorem fused_modPwr (s : State) (f : Power → Power) : fused (s.modPwr f) = fused s := by simp [State.modPwr]

@[simp] theorem fused_modSec (s : State) (f : Security → Security) : fused (s.modSec f) = fused s := by simp [State.modSec]

@[simp] theorem fused_modEv (s : State) (f : Events → Events) : fused (s.modEv f) = fused s := by simp [State.modEv]

@[simp] theorem fused_modHst (s : State) (f : HostPort → HostPort) : fused (s.modHst f) = fused s := by simp [State.modHst]

@[simp] theorem fused_modEci (s : State) (f : Eci → Eci) : fused (s.modEci f) = fused s := by simp [State.modEci]

@[simp] theorem fused_modMgmt (s : State) (f : Mgmt → Mgmt) : fused (s.modMgmt f) = fused s := by simp [State.modMgmt]

@[simp] theorem fused_modEng (s : State) (u : Nat) (f : CdcEng → CdcEng) : fused (s.modEng u f) = fused s := by simp [State.modEng]

@[simp] theorem fused_modPort (s : State) (n : Nat) (f : NetPort → NetPort) :
    fused (s.modPort n f) = fused s := by simp [State.modPort]

@[simp] theorem fused_answer (s : State) (r : Reply) : fused (s.answer r) = fused s := by simp [State.answer]

@[simp] theorem fused_emit (s : State) (o : Out) : fused (s.emit o) = fused s := by simp [State.emit]

@[simp] theorem fused_useFree (s : State) : fused (s.useFree) = fused s := by simp [State.useFree]

@[simp] theorem fused_modCmd (s : State) (p id : Nat) (f : Cmd → Cmd) : fused (s.modCmd p id f) = fused s := by simp [State.modCmd]

@[simp] theorem fused_modRing (s : State) (p n : Nat) (f : Ring → Ring) : fused (s.modRing p n f) = fused s := by simp [State.modRing]

@[simp] theorem fused_modCtx (s : State) (p c : Nat) (f : Ctx → Ctx) : fused (s.modCtx p c f) = fused s := by simp [State.modCtx]

@[simp] theorem fused_modToken (s : State) (p t : Nat) (f : Token → Token) :
    fused (s.modToken p t f) = fused s := by simp [State.modToken]

@[simp] theorem fused_modCall (s : State) (p id : Nat) (f : Call → Call) :
    fused (s.modCall p id f) = fused s := by simp [State.modCall]

@[simp] theorem fused_modObject (s : State) (p h : Nat) (f : Obj → Obj) :
    fused (s.modObject p h f) = fused s := by simp [State.modObject]

@[simp] theorem fused_count (s : State) (p i n : Nat) : fused (s.count p i n) = fused s := by simp [State.count]

@[simp] theorem fused_modPfHdr (s : State) (k : Nat) (f : PageHdr → PageHdr) :
    fused (s.modPfHdr k f) = fused s := by simp [State.modPfHdr]

@[simp] theorem fused_modVfHdr (s : State) (p k : Nat) (f : PageHdr → PageHdr) :
    fused (s.modVfHdr p k f) = fused s := by simp [State.modVfHdr]

@[simp] theorem fused_modReg (s : State) (p r : Nat) (f : Regulator → Regulator) :
    fused (s.modReg p r f) = fused s := by simp [State.modReg]

@[simp] theorem fused_meterCredits (s : State) (p r n : Nat) : fused (s.meterCredits p r n) = fused s := by simp [State.meterCredits]

@[simp] theorem fused_charge (s : State) (p r b n : Nat) : fused (s.charge p r b n) = fused s := by simp [State.charge]

@[simp] theorem fused_countHost (s : State) (p n : Nat) (asked : Bool) :
    fused (s.countHost p n asked) = fused s := by simp [State.countHost]

@[simp] theorem fused_countLine (s : State) (p : Nat) (sp : Space) (a : Nat) :
    fused (s.countLine p sp a) = fused s := fused_of_partTold (.countLine p ..)

@[simp] theorem fused_countArea (s : State) (p off n : Nat) : fused (s.countArea p off n) = fused s := by simp [State.countArea]

@[simp] theorem fused_countRange (s : State) (p : Nat) (pl : Place) (off n : Nat) : fused (s.countRange p pl off n) = fused s := by
  unfold State.countRange
  split
  · rfl
  · rfl
  · exact fused_foldl _ _ (fun _ _ => by simp) _

@[simp] theorem fused_poke (s : State) (p : Nat) (pl : Place) (off : Nat) (bs : List Byte) :
    fused (s.poke p pl off bs).1 = fused s := fused_of_partTold (.poke ..)

@[simp] theorem fused_markDirty (s : State) (p : Nat) (d : Dirty) : fused (s.markDirty p d) = fused s := by simp [State.markDirty]

@[simp] theorem fused_dirtyRange (s : State) (p h off n : Nat) : fused (s.dirtyRange p h off n) = fused s := by
  unfold State.dirtyRange
  split <;> simp

@[simp] theorem fused_countO (s : State) (p : Nat) (r : ORef) (n : Nat) : fused (s.countO p r n) = fused s := by simp [State.countO]

@[simp] theorem fused_waitAt (s : State) (p : Nat) (pl : Place) (off n : Nat) : fused (s.waitAt p pl off n) = fused s := by
  unfold State.waitAt
  split
  · rfl
  · refine fused_foldl _ _ (fun t e => ?_) _
    dsimp only
    split <;> simp

@[simp] theorem fused_waitO (s : State) (p : Nat) (rs : List (ORef × Nat)) : fused (s.waitO p rs) = fused s := by simp [State.waitO]

@[simp] theorem fused_pokeO (s : State) (p : Nat) (r : ORef) (bs : List Byte) :
    fused (s.pokeO p r bs).1 = fused s := fused_of_partTold (.pokeO ..)

@[simp] theorem fused_pokeHeld (s : State) (p : Nat) (r : ORef) (bs : List Byte) :
    fused (s.pokeHeld p r bs).1 = fused s := by simp [State.pokeHeld]

@[simp] theorem fused_pokeAll (s : State) (p : Nat) (ws : List (ORef × List Byte)) :
    fused (s.pokeAll p ws).1 = fused s := by simp [State.pokeAll]

@[simp] theorem fused_setHost (s : State) (a : Nat) (bs : List Byte) : fused (s.setHost a bs) = fused s := by simp [State.setHost]

@[simp] theorem fused_msixVf (s : State) (p v : Nat) : fused (s.msixVf p v) = fused s := fused_of_partTold (.msixVf p ..)

@[simp] theorem fused_msixPf (s : State) (v : Nat) : fused (s.msixPf v) = fused s := fused_of_pfTold (.msixPf ..)

theorem fused_writePartRec (s : State) (p : Nat) (x : EvRec) : ∀ t ∈ (s.writePartRec p x), fused t = fused s := by
  unfold State.writePartRec
  dsimp only
  (repeat' split) <;> simp

theorem fused_writePfRec (s : State) (x : EvRec) : ∀ t ∈ (s.writePfRec x), fused t = fused s := by
  unfold State.writePfRec
  dsimp only
  split <;> simp

@[simp] theorem fused_flushPart (s : State) (p : Nat) (x0 : Nat) :
    fused (s.flushPart p x0) = fused s := fused_of_partTold (.flushPart ..)

@[simp] theorem fused_flushPf (s : State) (x0 : Nat) : fused (s.flushPf x0) = fused s := fused_of_pfTold (.flushPf ..)

@[simp] theorem fused_newFault (s : State) : fused (s.newFault).2 = fused s := by simp [State.newFault]

@[simp] theorem fused_link (s : State) (q : W64) (cause : W16) (src : Src) (part : Option Nat) :
    fused (s.link q cause src part) = fused s := fused_of_pfTold (.link ..)

@[simp] theorem fused_alert (s : State) (x : EvRec) : fused (s.alert x) = fused s := fused_of_pfTold (.alert ..)

@[simp] theorem fused_noteWm (s : State) (src : Src) (wm : W32) (p : Option Nat) : fused (s.noteWm src wm p) = fused s := by
  unfold State.noteWm
  dsimp only
  (repeat' split) <;> simp

@[simp] theorem fused_postRec (s : State) (p : Nat) (x : EvRec) : fused (s.postRec p x) = fused s := fused_of_partTold (.postRec ..)

@[simp] theorem fused_recPart (s : State) (p : Nat) (q : W64) (cause : W16) (cls : BitVec 2) (src : Src) (wm : W32) (detail : List Byte) :
    fused (s.recPart p q cause cls src wm detail) = fused s := fused_of_partTold (.recPart p ..)

@[simp] theorem fused_aerPf (s : State) (cor unc : W32) : fused (s.aerPf cor unc) = fused s := fused_of_pfTold (.aerPf ..)

@[simp] theorem fused_rasPf (s : State) (cor unc : W32) (header : List Byte) :
    fused (s.rasPf cor unc header) = fused s := by simp [State.rasPf]

@[simp] theorem fused_aerVf (s : State) (p : Nat) : fused (s.aerVf p) = fused s := by simp [State.aerVf]

@[simp] theorem fused_recPf (s : State) (q : W64) (cause : W16) (cls : BitVec 2) (src : Src) (part : Option Nat) (wm : W32)
    (detail : List Byte) (late : Bool) :
    fused (s.recPf q cause cls src part wm detail late) = fused s := fused_of_pfTold (.recPf ..)

@[simp] theorem fused_raisePart (s : State) (p : Nat) (cause : W16) (src : Src) (wm : W32) (detail : List Byte) :
    fused (s.raisePart p cause src wm detail) = fused s := fused_of_partTold (.raisePart p ..)

@[simp] theorem fused_raisePf (s : State) (cause : W16) (src : Src) (part : Option Nat) (detail : List Byte) :
    fused (s.raisePf cause src part detail) = fused s := fused_of_pfTold (.raisePf ..)

@[simp] theorem fused_raiseBoth (s : State) (p : Nat) (cause : W16) (src : Src) (wm : W32) (detail : List Byte) :
    fused (s.raiseBoth p cause src wm detail) = fused s := fused_of_partTold (.raiseBoth p ..)

@[simp] theorem fused_raiseIn (s : State) (p : Nat) (q : W64) (cause : W16) (src : Src) (wm : W32) (detail : List Byte) :
    fused (s.raiseIn p q cause src wm detail) = fused s := fused_of_partTold (.raiseIn p ..)

@[simp] theorem fused_journal (s : State) (n : JrnNote) : fused (s.journal n) = fused s := by
  unfold State.journal
  dsimp only
  split <;> rfl

@[simp] theorem fused_journalFails (s : State) : fused (s.journalFails) = fused s := by simp [State.journalFails]

@[simp] theorem fused_note (s : State) (n : JrnNote) : fused (s.note n) = fused s := fused_of_noted (.note ..)

@[simp] theorem fused_mmio (s : State) (p : Nat) : fused (s.mmio p) = fused s := by simp [State.mmio]

@[simp] theorem fused_rejectVf (s : State) (p k off bit : Nat) (cause : W16) (value : W64) (old : W64) :
    fused (s.rejectVf p k off bit cause value old) = fused s := by simp [State.rejectVf]

@[simp] theorem fused_rejectPf (s : State) (off bit : Nat) (cause : W16) (who : Writer) (part : Option Nat) (value : W64) (old : W64) :
    fused (s.rejectPf off bit cause who part value old) = fused s := fused_of_noted (.rejectPf ..)

/-! ### Commands, engines, partitions, host, pair link, power and the messages of the management transports -/

@[simp] theorem fused_signal (s : State) (p t : Nat) (flag : Bool) : fused (s.signal p t flag) = fused s := by simp [State.signal]

@[simp] theorem fused_signalRange (s : State) (p first count : Nat) (set : Option W32) :
    fused (s.signalRange p first count set) = fused s := by simp [State.signalRange]

@[simp] theorem fused_progress (s : State) (p : Nat) : fused (s.progress p) = fused s := by simp [State.progress]

@[simp] theorem fused_rearm (s : State) (p : Nat) : fused (s.rearm p) = fused s := by simp [State.rearm]

@[simp] theorem fused_ringError (s : State) (p n : Nat) (cause inner : W16) (wm : W32) (q : Option W64) :
    fused (s.ringError p n cause inner wm q) = fused s := by
  unfold State.ringError
  split <;> simp

@[simp] theorem fused_reserve (s : State) (p id : Nat) : fused (s.reserve p id) = fused s := by
  unfold State.reserve
  split <;> simp

@[simp] theorem fused_addCmd (s : State) (p : Nat) (c : Cmd) : fused (s.addCmd p c).1 = fused s := by simp [State.addCmd]

@[simp] theorem fused_leaveCluster (s : State) (p id : Nat) : fused (s.leaveCluster p id) = fused s := by
  unfold State.leaveCluster
  split <;> rfl

@[simp] theorem fused_finish (s : State) (p id : Nat) (st : Status) (cause : W16) (detail : Nat) (part : Bool) :
    fused (s.finish p id st cause detail part) = fused s := by simp [State.finish]

@[simp] theorem fused_done (s : State) (p id : Nat) (detail : Nat) : fused (s.done p id detail) = fused s := by simp [State.done]

@[simp] theorem fused_skip (s : State) (p id : Nat) (cause : W16) : fused (s.skip p id cause) = fused s := by simp [State.skip]

@[simp] theorem fused_finishBy (s : State) (p id : Nat) (cause : W16) (q : Option W64) (detail : Nat) :
    fused (s.finishBy p id cause q detail) = fused s := by simp [State.finishBy]

@[simp] theorem fused_finishWrites (s : State) (p id : Nat) (bad : Option W64) (detail : Nat) :
    fused (s.finishWrites p id bad detail) = fused s := by
  unfold State.finishWrites
  split <;> simp

@[simp] theorem fused_onStarted {s : State} {f : Cmd → State} (p id e op : Nat) (h : ∀ c, fused (f c) = fused s) :
    fused (onStarted s p id e op f) = fused s := by
  unfold onStarted
  split
  · split <;> simp [h]
  · rfl

@[simp] theorem fused_memOp (s : State) (p : Nat) (o : AddOp) (r : ORef) (v : Nat) : fused (s.memOp p o r v).1 = fused s := by
  unfold State.memOp
  dsimp only
  split
  · split <;> simp
  · split <;> simp

@[simp] theorem fused_applyWr (s : State) (p : Nat) (x0 : Wr) : fused (s.applyWr p x0).1 = fused s := by
  unfold State.applyWr
  split <;> simp

@[simp] theorem fused_applyWrs (s : State) (p : Nat) (ws : List Wr) : fused (s.applyWrs p ws).1 = fused s := by simp [State.applyWrs]

@[simp] theorem fused_applyFor (s : State) (p id : Nat) (ws : List Wr) :
    fused (s.applyFor p id ws).1 = fused s := by simp [State.applyFor]

@[simp] theorem fused_corrected (s : State) (sp : Space) (line found : Nat) : fused (s.corrected sp line found) = fused s := by
  unfold State.corrected
  split <;> simp

@[simp] theorem fused_markPoisoned (s : State) (p : Nat) (sp : Space) (line : Nat) : fused (s.markPoisoned p sp line) = fused s := by
  unfold State.markPoisoned
  split <;> simp

@[simp] theorem fused_poisonFound (s : State) (sp : Space) (line found : Nat) (wm : W32) (by' : Option (Nat × W16 × Src)) :
    fused (s.poisonFound sp line found wm by') = fused s := by
  unfold State.poisonFound
  dsimp only
  (repeat' split) <;> simp

@[simp] theorem fused_eccLine (s : State) (sp : Space) (line found : Nat) (f : EccFinding) (wm : W32) (by' : Option (Nat × W16 × Src)) :
    fused (s.eccLine sp line found f wm by') = fused s := by
  unfold State.eccLine
  split <;> simp

@[simp] theorem fused_eccFinds (s : State) (p : Nat) (wm : W32) (b : Src) (how : Finder) (hits : List EccHit) :
    fused (s.eccFinds p wm b how hits) = fused s := by
  refine fused_foldl _ _ (fun t h => ?_) _
  split <;> simp

@[simp] theorem fused_eccHits (s : State) (p : Nat) (c : Cmd) (how : Finder) (hits : List EccHit) :
    fused (s.eccHits p c how hits) = fused s := by simp [State.eccHits]

@[simp] theorem fused_eccRead (s : State) (p id : Nat) (mine : Cmd → Bool) (how : State → Cmd → List Finder) (hits : List EccHit) :
    fused (s.eccRead p id mine how hits) = fused s := by
  unfold State.eccRead
  split <;> simp

@[simp] theorem fused_eccWrite (s : State) (p id : Nat) (how : Cmd → Finder) (hits : List EccHit) :
    fused (s.eccWrite p id how hits) = fused s := by
  unfold State.eccWrite
  split <;> simp

@[simp] theorem fused_setStationary (s : State) (k half : Nat) (x : Option Stationary) :
    fused (s.setStationary k half x) = fused s := by simp [State.setStationary]

@[simp] theorem fused_breakChains (s : State) (p : Nat) (c : Cmd) (keep : Option Nat) : fused (s.breakChains p c keep) = fused s := by
  unfold State.breakChains
  split <;> simp

@[simp] theorem fused_lookedBeside (s : State) (p k half : Nat) :
    fused (s.lookedBeside p k half) = fused s := by simp [State.lookedBeside]

@[simp] theorem fused_countWork (s : State) (p : Nat) (k : Option Nat) (w : Work) : fused (s.countWork p k w) = fused s := by
  unfold State.countWork
  split <;> simp

@[simp] theorem fused_useFrees (s : State) (n : Nat) : fused (s.useFrees n) = fused s := by simp [State.useFrees]

@[simp] theorem fused_applyLast (s : State) (p id : Nat) (ws : List Wr) :
    fused (s.applyLast p id ws).1 = fused s := by simp [State.applyLast]

@[simp] theorem fused_scanPartial (s : State) (p id : Nat) : fused (s.scanPartial p id) = fused s := by simp [State.scanPartial]

@[simp] theorem fused_runWork (s : State) (p id : Nat) (k : Option Nat) (w : Work) : fused (s.runWork p id k w) = fused s := by
  unfold State.runWork
  dsimp only
  (repeat' split) <;> simp

@[simp] theorem fused_onCluster (s : State) {f : State → Nat → State} (p : Nat) (c : Cmd) (dests : List Nat) (ecc : List EccHit)
    (w : Nat → Work) (keep : Option Nat) (h : ∀ t k, fused (f t k) = fused t) :
    fused (s.onCluster p c dests ecc w keep f) = fused s := by
  unfold State.onCluster
  split
  · rfl
  · simp [h]

@[simp] theorem fused_pairStops (s : State) (p : Nat) (c w : Cmd) (k : Nat) (g ww : Work) (u used : Nat) (rows : List Wr × List Wr) :
    fused (s.pairStops p c w k g ww u used rows) = fused s := by simp [State.pairStops]

@[simp] theorem fused_runBound (s : State) (p : Nat) (c w : Cmd) (k : Nat) : fused (s.runBound p c w k) = fused s := by
  unfold State.runBound
  dsimp only
  (repeat' split) <;> simp

@[simp] theorem fused_runGemm (s : State) (p : Nat) (c : Cmd) (w : Option Cmd) (k : Nat) : fused (s.runGemm p c w k) = fused s := by
  unfold State.runGemm
  dsimp only
  (repeat' split) <;> simp

@[simp] theorem fused_gemmTile (s : State) (p id : Nat) (ecc : List EccHit) :
    fused (s.gemmTile p id ecc) = fused s := by simp [State.gemmTile]

@[simp] theorem fused_claimBit (s : State) (p : Nat) (claim : ORef) (bit : Nat) :
    fused (s.claimBit p claim bit).1 = fused s := by simp [State.claimBit]

@[simp] theorem fused_runReduce (s : State) (p : Nat) (c : Cmd) (k : Nat) : fused (s.runReduce p c k) = fused s := by
  unfold State.runReduce
  dsimp only
  (repeat' split) <;> simp

@[simp] theorem fused_reduceInto (s : State) (p id : Nat) (ecc : List EccHit) :
    fused (s.reduceInto p id ecc) = fused s := by simp [State.reduceInto]

@[simp] theorem fused_arm (s : State) (p : Nat) (c : Cmd) (k : Nat) : fused (s.arm p c k) = fused s := by simp [State.arm]

@[simp] theorem fused_armOrWait (s : State) (p : Nat) (c : Cmd) (k : Nat) :
    fused (s.armOrWait p c k) = fused s := by simp [State.armOrWait]

@[simp] theorem fused_wickOp (s : State) (p id : Nat) (ecc : List EccHit) : fused (s.wickOp p id ecc) = fused s := by
  refine fused_onStarted _ _ _ _ fun c => ?_
  split
  · split <;> simp
  · simp

@[simp] theorem fused_normRms (s : State) (p id : Nat) (ecc : List EccHit) :
    fused (s.normRms p id ecc) = fused s := by simp [State.normRms]

@[simp] theorem fused_lanternLoad (s : State) (p id : Nat) : fused (s.lanternLoad p id) = fused s := by simp [State.lanternLoad]

@[simp] theorem fused_lanternLoadWrite (s : State) (p id : Nat) : fused (s.lanternLoadWrite p id) = fused s := by
  refine fused_onStarted _ _ _ _ fun c => ?_
  dsimp only
  split
  · rfl
  · split
    · simp
    · split <;> simp

@[simp] theorem fused_lanternSwitch (s : State) (p id : Nat) : fused (s.lanternSwitch p id) = fused s := by simp [State.lanternSwitch]

@[simp] theorem fused_convTile (s : State) (p id : Nat) (ecc : List EccHit) :
    fused (s.convTile p id ecc) = fused s := by simp [State.convTile]

@[simp] theorem fused_attnTile (s : State) (p id : Nat) (ecc : List EccHit) :
    fused (s.attnTile p id ecc) = fused s := by simp [State.attnTile]

@[simp] theorem fused_clearTable (s : State) (p off n : Nat) : fused (s.clearTable p off n) = fused s := by
  unfold State.clearTable
  split <;> simp

@[simp] theorem fused_modSeqEntry (s : State) (p i : Nat) (f : SeqEntry → SeqEntry) :
    fused (s.modSeqEntry p i f) = fused s := by simp [State.modSeqEntry]

@[simp] theorem fused_modStream (s : State) (p i : Nat) (f : Stream → Stream) :
    fused (s.modStream p i f) = fused s := by simp [State.modStream]

@[simp] theorem fused_callSwap (s : State) (p h : Nat) (c : Cmd) : fused (s.callSwap p h c) = fused s := by simp [State.callSwap]

@[simp] theorem fused_countChunk (s : State) (p id : Nat) : fused (s.countChunk p id) = fused s := by
  unfold State.countChunk
  split <;> simp

@[simp] theorem fused_scanTerminal (s : State) (p : Nat) (c : Cmd) :
    fused (s.scanTerminal p c) = fused s := by simp [State.scanTerminal]

@[simp] theorem fused_readStreams (s : State) (p : Nat) (ids : List Nat) : fused (s.readStreams p ids).1 = fused s := by
  refine fused_foldl_fst _ _ (fun r i => ?_) _
  split
  · rfl
  · split <;> simp

@[simp] theorem fused_scanChunk (s : State) (p id : Nat) (ecc : List EccHit) :
    fused (s.scanChunk p id ecc) = fused s := by simp [State.scanChunk]

@[simp] theorem fused_waits (s : State) (p id : Nat) : fused (s.waits p id) = fused s := by simp [State.waits]

@[simp] theorem fused_onChunk (s : State) {f : Cmd → State → State} (p id op : Nat) (ok : Stream → Bool) (quiet : Bool)
    (h : ∀ c t, fused (f c t) = fused t) :
    fused (s.onChunk p id op ok quiet f) = fused s := by
  unfold State.onChunk
  refine fused_onStarted _ _ _ _ fun c => ?_
  dsimp only
  split
  · rfl
  · split <;> simp [h]

@[simp] theorem fused_writeStream (s : State) (p i : Nat) (x : Stream) :
    fused (s.writeStream p i x) = fused s := by simp [State.writeStream]

@[simp] theorem fused_chunkWrite (s : State) (p : Nat) (c : Cmd) (isOpen : Bool) : fused (s.chunkWrite p c isOpen) = fused s := by
  unfold State.chunkWrite
  dsimp only
  split <;> simp

@[simp] theorem fused_chunkOpen (s : State) (p id : Nat) : fused (s.chunkOpen p id) = fused s := by simp [State.chunkOpen]

@[simp] theorem fused_chunkUpdate (s : State) (p id : Nat) : fused (s.chunkUpdate p id) = fused s := by simp [State.chunkUpdate]

@[simp] theorem fused_chunkEach (s : State) (p : Nat) (c : Cmd) (f : Stream → Stream) :
    fused (s.chunkEach p c f) = fused s := by simp [State.chunkEach]

@[simp] theorem fused_chunkReset (s : State) (p id : Nat) : fused (s.chunkReset p id) = fused s := by simp [State.chunkReset]

@[simp] theorem fused_chunkClear (s : State) (p id : Nat) : fused (s.chunkClear p id) = fused s := by simp [State.chunkClear]

@[simp] theorem fused_releaseStream (s : State) (p i : Nat) : fused (s.releaseStream p i) = fused s := by simp [State.releaseStream]

@[simp] theorem fused_chunkClose (s : State) (p id : Nat) : fused (s.chunkClose p id) = fused s := by simp [State.chunkClose]

@[simp] theorem fused_dirtyBlock (s : State) (p b : Nat) : fused (s.dirtyBlock p b) = fused s := by simp [State.dirtyBlock]

@[simp] theorem fused_modBlock (s : State) (p b : Nat) (f : Block → Block) :
    fused (s.modBlock p b f) = fused s := by simp [State.modBlock]

@[simp] theorem fused_setPage (s : State) (p i j : Nat) (b : Option Nat) :
    fused (s.setPage p i j b) = fused s := by simp [State.setPage]

@[simp] theorem fused_countDrops (s : State) (p : Nat) (d : Drops) : fused (s.countDrops p d) = fused s := by simp [State.countDrops]

@[simp] theorem fused_dropEvent (s : State) (p : Nat) (wm : W32) (d : Drops) :
    fused (s.dropEvent p wm d) = fused s := by simp [State.dropEvent]

@[simp] theorem fused_reportDrops (s : State) (p : Nat) (wm : W32) (d : Drops) :
    fused (s.reportDrops p wm d) = fused s := by simp [State.reportDrops]

@[simp] theorem fused_freeBlock (s : State) (p b : Nat) : fused (s.freeBlock p b) = fused s := by simp [State.freeBlock]

@[simp] theorem fused_dropBlock (s : State) (p b : Nat) : fused (s.dropBlock p b).1 = fused s := by simp [State.dropBlock]

@[simp] theorem fused_takeBlock (s : State) (p pr : Nat) (tier2 : Bool) (d : Drops) :
    fused (s.takeBlock p pr tier2 d).1 = fused s := by
  unfold State.takeBlock
  split <;> simp

@[simp] theorem fused_supply (s : State) (p pr : Nat) (tier2 : Bool) (js : List Nat) (d : Drops) :
    fused (s.supply p pr tier2 js d).1 = fused s := by
  induction js generalizing s d with
  | nil => rfl
  | cons j js ih =>
    unfold State.supply
    split
    · rename_i h
      simp [fused_fst h]
    · rename_i h
      split
      · rename_i h'
        simp [fused_fst h', ih, fused_fst h]
      · rename_i h'
        simp [fused_fst h', ih, fused_fst h]

@[simp] theorem fused_placeBlocks (s : State) (p i : Nat) (l : List (Nat × Nat)) :
    fused (s.placeBlocks p i l) = fused s := by simp [State.placeBlocks]

@[simp] theorem fused_returnBlocks (s : State) (p : Nat) (l : List (Nat × Nat)) :
    fused (s.returnBlocks p l) = fused s := by simp [State.returnBlocks]

@[simp] theorem fused_loseFrom (s : State) (p i j : Nat) : fused (s.loseFrom p i j).1 = fused s := by simp [State.loseFrom]

@[simp] theorem fused_seqPoison (s : State) (p : Nat) (q : W64) (wm : W32) :
    fused (s.seqPoison p q wm) = fused s := by simp [State.seqPoison]

@[simp] theorem fused_readLists (s : State) (p i : Nat) (wm : W32) (d : Drops) :
    fused (s.readLists p i wm d).1 = fused s := by simp [State.readLists]

@[simp] theorem fused_loseSlot (s : State) (p b : Nat) (d : Drops) : fused (s.loseSlot p b d).1 = fused s := by simp [State.loseSlot]

@[simp] theorem fused_readRecords (s : State) (p i : Nat) (wm : W32) (d : Drops) : fused (s.readRecords p i wm d).1 = fused s := by
  refine fused_foldl_fst _ _ (fun r e => ?_) _
  split <;> simp

@[simp] theorem fused_readBlocks (s : State) (p i : Nat) (wm : W32) (d : Drops) :
    fused (s.readBlocks p i wm d).1 = fused s := by simp [State.readBlocks]

@[simp] theorem fused_readEntry (s : State) (p i : Nat) : fused (s.readEntry p i).1 = fused s := by
  unfold State.readEntry
  split <;> simp

@[simp] theorem fused_sealBlock (s : State) (p i j b : Nat) : fused (s.sealBlock p i j b) = fused s := by
  unfold State.sealBlock
  dsimp only
  (repeat' split) <;> simp

@[simp] theorem fused_sealUpTo (s : State) (p i n j : Nat) : fused (s.sealUpTo p i n j) = fused s := by
  induction n generalizing s j with
  | zero => rfl
  | succ n ih =>
    unfold State.sealUpTo
    dsimp only
    split
    · rfl
    · split
      · rfl
      · split <;> simp [ih]

@[simp] theorem fused_lookupLoop (s : State) (p i n k : Nat) : fused (s.lookupLoop p i n k).1 = fused s := by
  induction n generalizing s k with
  | zero => rfl
  | succ n ih =>
    unfold State.lookupLoop
    dsimp only
    split
    · rfl
    · split
      · rfl
      · split <;> simp [ih]

@[simp] theorem fused_releaseBlocks (s : State) (p i : Nat) : fused (s.releaseBlocks p i).1 = fused s := by simp [State.releaseBlocks]

@[simp] theorem fused_setSeqEntry (s : State) (p i : Nat) (e : SeqEntry) :
    fused (s.setSeqEntry p i e) = fused s := by simp [State.setSeqEntry]

@[simp] theorem fused_releaseSeq (s : State) (p i : Nat) : fused (s.releaseSeq p i).1 = fused s := by simp [State.releaseSeq]

@[simp] theorem fused_onSeq (s : State) {f : Cmd → Nat → State → State} (p id op : Nat) (waits : Bool)
    (h : ∀ c i t, fused (f c i t) = fused t) :
    fused (s.onSeq p id op waits f) = fused s := by
  unfold State.onSeq
  refine fused_onStarted _ _ _ _ fun c => ?_
  dsimp only
  split
  · rfl
  · split <;> simp [h]

@[simp] theorem fused_seqAdd (s : State) (p id : Nat) : fused (s.seqAdd p id) = fused s := by
  refine fused_onSeq _ _ _ _ _ fun c i t => ?_
  dsimp only
  generalize (if bitOf (c.fld 35 1) 0 = true then SeqState.idle else SeqState.empty) = st
  split
  · simp
  · split <;> simp

@[simp] theorem fused_seqEnd (s : State) (p id : Nat) : fused (s.seqEnd p id) = fused s := by
  refine fused_onSeq _ _ _ _ _ fun c i t => ?_
  dsimp only
  split
  · simp
  · split <;> simp

@[simp] theorem fused_prefixLookup (s : State) (p id : Nat) : fused (s.prefixLookup p id) = fused s := by simp [State.prefixLookup]

@[simp] theorem fused_pagePin (s : State) (p id : Nat) : fused (s.pagePin p id) = fused s := by simp [State.pagePin]

@[simp] theorem fused_copyBytes (s : State) (p : Nat) (src dst : ORef) (n : Nat) : fused (s.copyBytes p src dst n).1 = fused s := by
  refine fused_foldl_fst _ _ (fun r e => ?_) _
  dsimp only
  split <;> simp

@[simp] theorem fused_child (r : ForkRun) (p : Nat) (c : Cmd) (parent : SeqEntry) (i : Nat) (seed : W64) :
    fused (r.child p c parent i seed).s = fused r.s := by
  unfold ForkRun.child
  dsimp only
  split
  · simp
  · split
    · rename_i h
      simp [fused_fst h]
    · rename_i h
      split <;> simp [fused_fst h]

@[simp] theorem fused_adopt (s : State) (p : Nat) (c : Cmd) (parent : SeqEntry) (seed : W64) :
    fused (s.adopt p c parent seed) = fused s := by simp [State.adopt]

@[simp] theorem fused_forkStreams (s : State) (p : Nat) (c : Cmd) (parent : SeqEntry) :
    fused (s.forkStreams p c parent).1 = fused s := by simp [State.forkStreams]

@[simp] theorem fused_seqFork (s : State) (p id : Nat) : fused (s.seqFork p id) = fused s := by
  refine fused_onSeq _ _ _ _ _ fun c i t => ?_
  extract_lets e k base tokBad str rd derived s₁ seed retire kids
  have h₁ : fused s₁ = fused t := by simp [s₁]
  split
  · simp
  · split
    · simp
    · split
      · simp
      · split
        rename_i t' bad h
        split
        · simp [fused_fst h]
        · split
          · simp
          · split
            · simp
            · split
              · simp
              · split
                · simp
                · split
                  rename_i u d hu
                  extract_lets e₂ r u₂
                  have hr : fused r.s = fused t := List.foldlRecOn (motive := fun r : ForkRun => fused r.s = fused t) kids _
                    (by simpa [fused_fst hu] using h₁) fun r h j _ => (fused_child ..).trans h
                  have h₂ : fused u₂ = fused t := by simp [u₂, hr]
                  split
                  rename_i hv
                  extract_lets s₃
                  have h₃ : fused s₃ = fused t := by simp [s₃, fused_fst hv, h₂]
                  split <;> simp [h₃]

@[simp] theorem fused_blankLists (s : State) (p : Nat) : fused (s.blankLists p) = fused s := by simp [State.blankLists]

@[simp] theorem fused_seqPageStart (s : State) (p : Nat) : fused (s.seqPageStart p) = fused s := by simp [State.seqPageStart]

@[simp] theorem fused_seqPageStop (s : State) (p : Nat) : fused (s.seqPageStop p) = fused s := by simp [State.seqPageStop]

@[simp] theorem fused_endSeq (s : State) (p i : Nat) : fused (s.endSeq p i) = fused s := by simp [State.endSeq]

@[simp] theorem fused_take_collect (x : Collect) (p : Nat) (wm : W32) (pl : Plan) (noTier2 : Bool) (i : Nat) :
    fused (x.take p wm pl noTier2 i).s = fused x.s := by
  unfold Collect.take
  dsimp only
  split
  · rfl
  · split
    · simp
    · split
      · rename_i h
        simp [fused_fst h]
      · rename_i h
        split <;> simp [fused_fst h]

@[simp] theorem fused_countSchedule (s : State) (p : Nat) (ms : List Member) :
    fused (s.countSchedule p ms) = fused s := by simp [State.countSchedule]

@[simp] theorem fused_countPhase (s : State) (p : Nat) (ph : Phase) :
    fused (s.countPhase p ph) = fused s := by simp [State.countPhase]

@[simp] theorem fused_modRun (s : State) (p : Nat) (f : StepRun → StepRun) : fused (s.modRun p f) = fused s := by simp [State.modRun]

theorem fused_issueOne (s : State) (p : Nat) (c : Cmd) (r : StepRun) (i : Nat) (ph : Phase) (sel : List (Nat × Member))
    (one : Option (Nat × Member)) :
    ∀ t, (s.issueOne p c r i ph sel one) = .issued t ∨ (s.issueOne p c r i ph sel one) = .ended t → fused t = fused s := by
  unfold State.issueOne
  dsimp only
  (repeat' split) <;> simp

@[simp] theorem fused_issueCalls (s : State) (p : Nat) (c : Cmd) (n : Nat) : fused (s.issueCalls p c n) = fused s := by
  induction n generalizing s with
  | zero => rfl
  | succ n ih =>
    unfold State.issueCalls
    split
    · rfl
    · split
      · simp
      · split
        · simp
        · dsimp only
          split
          · simp [ih]
          · split
            · split
              · rename_i h
                simp [ih, fused_issueOne _ _ _ _ _ _ _ _ _ (.inl h)]
              · rfl
              · rename_i h
                exact fused_issueOne _ _ _ _ _ _ _ _ _ (.inr h)
            · split
              · simp [ih]
              · split
                · rename_i h
                  simp [ih, fused_issueOne _ _ _ _ _ _ _ _ _ (.inl h)]
                · rfl
                · rename_i h
                  exact fused_issueOne _ _ _ _ _ _ _ _ _ (.inr h)

@[simp] theorem fused_membersIdle (s : State) (p : Nat) (ms : List Member) :
    fused (s.membersIdle p ms) = fused s := by simp [State.membersIdle]

@[simp] theorem fused_countStep (s : State) (p : Nat) : fused (s.countStep p) = fused s := by simp [State.countStep]

@[simp] theorem fused_stepPoisoned (s : State) (p id : Nat) (c : W16) (q : W64) (detail : Nat) :
    fused (s.stepPoisoned p id c q detail) = fused s := by simp [State.stepPoisoned]

@[simp] theorem fused_readEntries (s : State) (p : Nat) (wm : W32) (is : List Nat) : fused (s.readEntries p wm is).1 = fused s := by
  refine fused_foldl_fst _ _ (fun t i => ?_) _
  have h : fused (t.1.readEntry p i).1 = fused t.1 := by simp
  generalize t.1.readEntry p i = r at h
  obtain ⟨u, q⟩ := r
  cases q with
  | none => exact h
  | some q => cases t.2 <;> simpa using h

@[simp] theorem fused_collect (s : State) (p : Nat) (c : Cmd) (pl : Plan) : fused (s.collect p c pl) = fused s := by
  unfold State.collect
  extract_lets tokBase sampled live order x s₁ s₂ ms run s₃
  have hx : fused x.s = fused s := List.foldlRecOn (motive := fun x : Collect => fused x.s = fused s) order _ rfl
    fun y h i _ => (fused_take_collect ..).trans h
  have h₂ : fused s₂ = fused s := by
    unfold s₂
    split <;> simp [s₁, hx]
  have h₃ : fused s₃ = fused s := by simp [s₃, h₂]
  split
  rename_i t bad h
  split
  · simp [fused_fst h]
  · split
    · simp [h₂]
    · split
      · simp [h₃]
      · split
        rename_i h
        split <;> simp [fused_fst h, h₃]

@[simp] theorem fused_stepCmd (s : State) (p id : Nat) : fused (s.stepCmd p id) = fused s := by
  refine fused_onStarted _ _ _ _ fun c => ?_
  split
  · split
    · simp
    · split <;> simp
  · split <;> simp

@[simp] theorem fused_countSample (s : State) (p : Nat) (m : Member) :
    fused (s.countSample p m) = fused s := by simp [State.countSample]

@[simp] theorem fused_commitMember (s : State) (p : Nat) (c : Cmd) (m : Member) :
    fused (s.commitMember p c m) = fused s := by simp [State.commitMember]

@[simp] theorem fused_stepCommit (s : State) (p id : Nat) : fused (s.stepCommit p id) = fused s := by
  refine fused_onStarted _ _ _ _ fun c => ?_
  split
  · rfl
  · split
    · rfl
    · dsimp only
      split
      · simp
      · simp

@[simp] theorem fused_stepPhaseFail (s : State) (p id : Nat) : fused (s.stepPhaseFail p id) = fused s := by
  unfold State.stepPhaseFail
  dsimp only
  (repeat' split) <;> simp

@[simp] theorem fused_onCommon {s : State} {f : Cmd → State} (p id op : Nat) (h : ∀ c, fused (f c) = fused s) :
    fused (onCommon s p id op f) = fused s := by
  unfold onCommon
  split
  · split <;> simp [h]
  · rfl

@[simp] theorem fused_fence (s : State) (p id : Nat) : fused (s.fence p id) = fused s := by simp [State.fence]

@[simp] theorem fused_wait (s : State) (p id : Nat) : fused (s.wait p id) = fused s := by simp [State.wait]

@[simp] theorem fused_signalCmd (s : State) (p id : Nat) : fused (s.signalCmd p id) = fused s := by simp [State.signalCmd]

@[simp] theorem fused_modList (s : State) (p n : Nat) (f : ListSlot → ListSlot) :
    fused (s.modList p n f) = fused s := by simp [State.modList]

@[simp] theorem fused_listLoad (s : State) (p id : Nat) : fused (s.listLoad p id) = fused s := by
  refine fused_onCommon _ _ _ fun c => ?_
  dsimp only
  split
  · rfl
  · split
    · simp
    · split <;> simp

@[simp] theorem fused_listSwitch (s : State) (p id : Nat) : fused (s.listSwitch p id) = fused s := by simp [State.listSwitch]

@[simp] theorem fused_addInner (s : State) (p : Nat) (c : Cmd) (tile : Option Nat) (ds : List (Nat × List Byte)) :
    fused (s.addInner p c tile ds).1 = fused s := by simp [State.addInner]

@[simp] theorem fused_dropCmds (s : State) (p : Nat) (ids : List Nat) : fused (s.dropCmds p ids) = fused s := by
  refine (fused_foldl _ _ (fun t i => ?_) _)
  split
  · split <;> simp
  · rfl

@[simp] theorem fused_callSettle (s : State) (p id : Nat) : fused (s.callSettle p id) = fused s := by
  unfold State.callSettle
  dsimp only
  (repeat' split) <;> simp

@[simp] theorem fused_zeroClaims (s : State) (p : Nat) (counter claim : ORef) (n : Nat) :
    fused (s.zeroClaims p counter claim n).1 = fused s := by simp [State.zeroClaims]

@[simp] theorem fused_openCall (s : State) (p : Nat) (c : Cmd) (group : Nat) (k : Call) (ds : List (Nat × List Byte)) :
    fused (s.openCall p c group k ds) = fused s := by simp [State.openCall]

@[simp] theorem fused_listCall (s : State) (p id : Nat) : fused (s.listCall p id) = fused s := by
  refine fused_onStarted _ _ _ _ fun c => ?_
  extract_lets s₀ g n blk s₁
  have h₁ : fused s₁ = fused s := by simp [s₁, s₀]
  split
  · rfl
  · split
    · simp [h₁]
    · split
      · simp [h₁]
      · split
        · simp [h₁]
        · split
          · simp [h₁]
          · extract_lets list starts fr s₂ fills s₃
            have h₂ : fused s₂ = fused s := by simp [s₂, h₁]
            have h₃ : fused s₃ = fused s := by simp [s₃, h₂]
            split
            · simp [h₂]
            · split
              · simp [h₂]
              · split
                · simp [h₃]
                · split
                  · simp [h₃]
                  · simp [h₃]

@[simp] theorem fused_tileEvent (s : State) (p : Nat) (c : Cmd) (cause : W16) (i : Nat) (q : Option W64) :
    fused (s.tileEvent p c cause i q) = fused s := by
  unfold State.tileEvent
  split <;> simp

@[simp] theorem fused_loseTile (s : State) (p : Nat) (c : Cmd) (i : Nat) (q : Option W64) : fused (s.loseTile p c i q) = fused s := by
  unfold State.loseTile
  split <;> simp

@[simp] theorem fused_failTile (s : State) (p : Nat) (c : Cmd) (i : Nat) : fused (s.failTile p c i) = fused s := by
  unfold State.failTile
  split <;> simp

@[simp] theorem fused_dropRest (s : State) (p id n : Nat) : fused (s.dropRest p id n) = fused s := by
  unfold State.dropRest
  split <;> simp

@[simp] theorem fused_leaveCall (s : State) (p id n : Nat) : fused (s.leaveCall p id n) = fused s := by simp [State.leaveCall]

@[simp] theorem fused_takeGroup (s : State) (p : Nat) (c : Cmd) (n i cl : Nat) : fused (s.takeGroup p c n i cl) = fused s := by
  unfold State.takeGroup
  dsimp only
  (repeat' split) <;> simp

@[simp] theorem fused_takeIndex (s : State) (p id n : Nat) : fused (s.takeIndex p id n) = fused s := by
  unfold State.takeIndex
  split
  · split
    · dsimp only
      split
      · rfl
      · split
        · simp
        · split
          · simp
          · split
            · simp
            · split
              · simp
              · split
                · simp
                · split <;> (rename_i h; simp [fused_fst h])
    · rfl
  · rfl

@[simp] theorem fused_tileWatchExpiry (s : State) (p id n : Nat) : fused (s.tileWatchExpiry p id n) = fused s := by
  unfold State.tileWatchExpiry
  dsimp only
  (repeat' split) <;> simp

@[simp] theorem fused_participantTerminal (s : State) (p : Nat) (c d : Cmd) : fused (s.participantTerminal p c d) = fused s := by
  unfold State.participantTerminal
  dsimp only
  (repeat' split) <;> simp

@[simp] theorem fused_innerTerminal (s : State) (p : Nat) (c d : Cmd) (q : Option W64) :
    fused (s.innerTerminal p c d q) = fused s := by simp [State.innerTerminal]

@[simp] theorem fused_modHalves (s : State) (k : Nat) (h : HalfSel) (f : Half → Half) :
    fused (s.modHalves k h f) = fused s := by simp [State.modHalves]

@[simp] theorem fused_cutShort (s : State) (p k : Nat) (c : Cmd) (w : Option Cmd) (beats rows : Nat) (inWick : Bool) :
    fused (s.cutShort p k c w beats rows inWick).state = fused s := by
  unfold State.cutShort
  split <;> simp

@[simp] theorem fused_faultEnds (s : State) (p : Nat) (c : Cmd) (w : Option Cmd) (cause : W16) (q : W64) (d : List Byte) (own pair : Nat) :
    fused (s.faultEnds p c w cause q d own pair) = fused s := by
  unfold State.faultEnds
  split <;> simp

@[simp] theorem fused_faultOn (s : State) (p k : Nat) (h : HalfSel) (n : FaultNote) (beats rows : Nat) (c : Cmd) :
    fused (s.faultOn p k h n beats rows c) = fused s := by simp [State.faultOn]

@[simp] theorem fused_faultRunning (s : State) (k : Nat) (h : HalfSel) (n : FaultNote) (beats rows : Nat) (ok : Cmd → Bool → Bool) :
    fused (s.faultRunning k h n beats rows ok) = fused s := by
  unfold State.faultRunning
  split
  · rfl
  · split
    · rfl
    · split
      · rfl
      · split
        · split
          · rename_i h
            simp [fused_fst h]
          · rfl
        · simp

@[simp] theorem fused_arrayFault (s : State) (k : Nat) (h : HalfSel) (kind : ArrayKind) (row column : Byte) (beats rows : Nat) :
    fused (s.arrayFault k h kind row column beats rows) = fused s := by simp [State.arrayFault]

@[simp] theorem fused_arrayTimeout (s : State) (k : Nat) (h : HalfSel) (beats rows : Nat) :
    fused (s.arrayTimeout k h beats rows) = fused s := by simp [State.arrayTimeout]

@[simp] theorem fused_wickFaultOn (s : State) (k : Nat) (h : HalfSel) (kind : WickKind) (beats rows : Nat) :
    fused (s.wickFaultOn k h kind beats rows) = fused s := by
  unfold State.wickFaultOn
  dsimp only
  (repeat' split) <;> simp

@[simp] theorem fused_raiseHalfOffline (s : State) (k : Nat) : fused (s.raiseHalfOffline k) = fused s := by
  unfold State.raiseHalfOffline
  split <;> simp

@[simp] theorem fused_wentOffline (s : State) (k : Nat) (l r : Bool) :
    fused (s.wentOffline k l r) = fused s := by simp [State.wentOffline]

@[simp] theorem fused_selfCheckEnds (s : State) (k : Nat) (h : HalfSel) (pass : Bool) :
    fused (s.selfCheckEnds k h pass) = fused s := by simp [State.selfCheckEnds]

@[simp] theorem fused_objResult (s : State) (p : Nat) (cause : W16) (addr : Nat) :
    fused (s.objResult p cause addr) = fused s := by simp [State.objResult]

@[simp] theorem fused_setObject (s : State) (p h : Nat) (f : Obj → Obj) :
    fused (s.setObject p h f) = fused s := by simp [State.setObject]

@[simp] theorem fused_objDefine (s : State) (p h : Nat) (hm : Home) (mirror : Bool) :
    fused (s.objDefine p h hm mirror) = fused s := by simp [State.objDefine]

@[simp] theorem fused_objRelease (s : State) (p h : Nat) : fused (s.objRelease p h) = fused s := by simp [State.objRelease]

@[simp] theorem fused_objMark (s : State) (p h : Nat) (mirror : Bool) :
    fused (s.objMark p h mirror) = fused s := by simp [State.objMark]

@[simp] theorem fused_objCmd (s : State) (p op : Nat) (mirror : Bool) (home handle : Nat) :
    fused (s.objCmd p op mirror home handle) = fused s := by
  unfold State.objCmd
  dsimp only
  (repeat' split) <;> simp

@[simp] theorem fused_markMove (s : State) (p : Nat) (c : Cmd) : fused (s.markMove p c) = fused s := by simp [State.markMove]

@[simp] theorem fused_beginMove (s : State) (p : Nat) (c : Cmd) : fused (s.beginMove p c) = fused s := by simp [State.beginMove]

@[simp] theorem fused_moveRow (s : State) (p id op : Nat) : fused (s.moveRow p id op) = fused s := by simp [State.moveRow]

@[simp] theorem fused_copyLines (s : State) (p : Nat) (o : Obj) (n : Nat) : fused (s.copyLines p o n).1 = fused s := by
  refine fused_foldl_fst _ _ (fun r i => ?_) _
  dsimp only
  split <;> simp

@[simp] theorem fused_ringBell (s : State) (p n : Nat) (v : W32) : fused (s.ringBell p n v) = fused s := by simp [State.ringBell]

@[simp] theorem fused_heldRefused (s : State) (p h off : Nat) (q : W64) :
    fused (s.heldRefused p h off q) = fused s := by simp [State.heldRefused]

@[simp] theorem fused_releaseHeld (s : State) (p h : Nat) (ws : List (Nat × List Byte)) : fused (s.releaseHeld p h ws) = fused s := by
  unfold State.releaseHeld
  simp only [fused_modVf, fused_flushPart]
  refine fused_foldl _ _ (fun t w => ?_) _
  split <;> (rename_i h; simp [fused_fst h])

@[simp] theorem fused_countMoved (s : State) (p n : Nat) : fused (s.countMoved p n) = fused s := by simp [State.countMoved]

@[simp] theorem fused_abandonMove (s : State) (p h : Nat) : fused (s.abandonMove p h).1 = fused s := by simp [State.abandonMove]

@[simp] theorem fused_failMove (s : State) (p : Nat) (c : Cmd) (q : W64) :
    fused (s.failMove p c q) = fused s := by simp [State.failMove]

@[simp] theorem fused_commitMove (s : State) (p : Nat) (c : Cmd) : fused (s.commitMove p c) = fused s := by
  unfold State.commitMove
  dsimp only
  (repeat' split) <;> simp

@[simp] theorem fused_moveCommit (s : State) (p id : Nat) (ecc : List EccHit) : fused (s.moveCommit p id ecc) = fused s := by
  unfold State.moveCommit
  dsimp only
  (repeat' split) <;> simp

@[simp] theorem fused_automaticSwapIn (s : State) (p h : Nat) : fused (s.automaticSwapIn p h) = fused s := by
  unfold State.automaticSwapIn
  dsimp only
  (repeat' split) <;> simp

@[simp] theorem fused_fillLines (s : State) (p : Nat) (c : Cmd) (segs : List (Nat × Nat)) :
    fused (s.fillLines p c segs).1 = fused s := by simp [State.fillLines]

@[simp] theorem fused_onFill {s : State} {f : Cmd → State} (p id op : Nat) (h : ∀ c, fused (f c) = fused s) :
    fused (s.onFill p id op f) = fused s := by
  simp [State.onFill, h]

@[simp] theorem fused_fill (s : State) (p id : Nat) : fused (s.fill p id) = fused s := by simp [State.fill]

@[simp] theorem fused_verifyLines (s : State) (p : Nat) (c : Cmd) (bad : List Nat) :
    fused (s.verifyLines p c bad).1 = fused s := by simp [State.verifyLines]

@[simp] theorem fused_scrub (s : State) (p id : Nat) (bad : List Nat) : fused (s.scrub p id bad) = fused s := by
  refine fused_onFill _ _ _ fun c => ?_
  dsimp only
  split
  · simp
  · split <;> simp

@[simp] theorem fused_patrolChan (s : State) (k lines : Nat) (sp : Space) (addr : Nat) (f : EccFinding) :
    fused (s.patrolChan k lines sp addr f) = fused s := by simp [State.patrolChan]

@[simp] theorem fused_patrol (s : State) (u : PatrolUnit) (f : EccFinding) : fused (s.patrol u f) = fused s := by
  unfold State.patrol
  split <;> simp

@[simp] theorem fused_failMoves (s : State) (p k : Nat) (q : W64) : fused (s.failMoves p k q) = fused s := by simp [State.failMoves]

@[simp] theorem fused_channelFail (s : State) (k : Nat) : fused (s.channelFail k) = fused s := by simp [State.channelFail]

@[simp] theorem fused_cryptoFault (s : State) (d : Nat) : fused (s.cryptoFault d) = fused s := by simp [State.cryptoFault]

@[simp] theorem fused_countVport (s : State) (p v k : Nat) : fused (s.countVport p v k) = fused s := by simp [State.countVport]

@[simp] theorem fused_sendFrame (s : State) (p n : Nat) (f : List Byte) :
    fused (s.sendFrame p n f) = fused s := by simp [State.sendFrame]

@[simp] theorem fused_setHeld (s : State) (p : Nat) (l : List TxFrame) : fused (s.setHeld p l) = fused s := by simp [State.setHeld]

@[simp] theorem fused_transmit (s : State) (p : Nat) (x : TxFrame) : fused (s.transmit p x) = fused s := by simp [State.transmit]

@[simp] theorem fused_sendHeld (s : State) (p n k : Nat) : fused (s.sendHeld p n k) = fused s := by simp [State.sendHeld]

@[simp] theorem fused_netPoison (s : State) (p id : Nat) (q : W64) (sent : Nat) :
    fused (s.netPoison p id q sent) = fused s := by simp [State.netPoison]

@[simp] theorem fused_sendFrom (s : State) (p : Nat) (c : Cmd) (v : VPort) (x : Peer) (k off n : Nat) :
    fused (s.sendFrom p c v x k off n) = fused s := by
  induction k generalizing s off n with
  | zero => simp [State.sendFrom]
  | succ k ih =>
    unfold State.sendFrom
    dsimp only
    split <;> simp [ih]

@[simp] theorem fused_sendRaw (s : State) (p : Nat) (c : Cmd) (v : VPort) : fused (s.sendRaw p c v) = fused s := by
  unfold State.sendRaw
  dsimp only
  split <;> simp

@[simp] theorem fused_sendOut (s : State) (p : Nat) (c : Cmd) (peer : List Byte) :
    fused (s.sendOut p c peer) = fused s := by simp [State.sendOut]

@[simp] theorem fused_send (s : State) (p id : Nat) : fused (s.send p id) = fused s := by
  refine fused_onStarted _ _ _ _ fun c => ?_
  split
  · simp
  · split
    · simp
    · dsimp only
      split <;> simp

@[simp] theorem fused_recvPost (s : State) (p id : Nat) : fused (s.recvPost p id) = fused s := by simp [State.recvPost]

@[simp] theorem fused_dropRecv (s : State) (p id : Nat) : fused (s.dropRecv p id) = fused s := by simp [State.dropRecv]

@[simp] theorem fused_endRecv (s : State) (p : Nat) (r : Recv) : fused (s.endRecv p r) = fused s := by simp [State.endRecv]

@[simp] theorem fused_recvIdle (s : State) (p id : Nat) : fused (s.recvIdle p id) = fused s := by
  unfold State.recvIdle
  split <;> simp

@[simp] theorem fused_fillSlot (s : State) (p : Nat) (c : Cmd) (r : Recv) (x : FrameView) (data : List Byte) (ecc : List EccHit) :
    fused (s.fillSlot p c r x data ecc) = fused s := by simp [State.fillSlot]

@[simp] theorem fused_deliver (s : State) (p v n : Nat) (f : List Byte) (x : FrameView) (ecc : List EccHit) :
    fused (s.deliver p v n f x ecc) = fused s := by
  unfold State.deliver
  dsimp only
  (repeat' split) <;> simp

@[simp] theorem fused_frameReceive (s : State) (n : Nat) (f : List Byte) (check : FrameCheck) (ecc : List EccHit) :
    fused (s.frameReceive n f check ecc) = fused s := by
  unfold State.frameReceive
  dsimp only
  (repeat' split) <;> simp

@[simp] theorem fused_rtpBind (s : State) (p id : Nat) : fused (s.rtpBind p id) = fused s := by
  refine fused_onStarted _ _ _ _ fun c => ?_
  dsimp only
  split
  · rfl
  · split
    · simp
    · split
      · simp
      · split
        · simp
        · split
          · simp
          · split <;> simp

@[simp] theorem fused_unbindRtp (s : State) (p u n : Nat) : fused (s.unbindRtp p u n) = fused s := by simp [State.unbindRtp]

@[simp] theorem fused_rtpUnbind (s : State) (p id : Nat) : fused (s.rtpUnbind p id) = fused s := by simp [State.rtpUnbind]

@[simp] theorem fused_rtpPacket (s : State) (p id : Nat) (b : Binding) (last : Bool) (body : List Byte) :
    fused (s.rtpPacket p id b last body) = fused s := by simp [State.rtpPacket]

@[simp] theorem fused_sendRtp (s : State) (p id u sess : Nat) (bs : List Byte) : fused (s.sendRtp p id u sess bs) = fused s := by
  unfold State.sendRtp
  split <;> simp

@[simp] theorem fused_dropFrames (s : State) (p : Nat) (cause : Cmd → Option W16) (f : TxFrame → Bool) :
    fused (s.dropFrames p cause f) = fused s := by simp [State.dropFrames]

@[simp] theorem fused_vportDown (s : State) (p v : Nat) : fused (s.vportDown p v) = fused s := by simp [State.vportDown]

@[simp] theorem fused_portLost (s : State) (n : Nat) : fused (s.portLost n) = fused s := by simp [State.portLost]

@[simp] theorem fused_reportLink (s : State) (n : Nat) (q : W64) : fused (s.reportLink n q) = fused s := by simp [State.reportLink]

@[simp] theorem fused_netLinkChange (s : State) (n : Nat) (link : NetLink) :
    fused (s.netLinkChange n link) = fused s := by simp [State.netLinkChange]

@[simp] theorem fused_netFault (s : State) (n : Nat) : fused (s.netFault n) = fused s := by simp [State.netFault]

@[simp] theorem fused_modSession (s : State) (p u n : Nat) (f : Session → Session) :
    fused (s.modSession p u n f) = fused s := by simp [State.modSession]

@[simp] theorem fused_onCdc {s : State} {f : Cmd → State} (p id op : Nat) (h : ∀ c, fused (f c) = fused s) :
    fused (s.onCdc p id op f) = fused s := by
  simp [State.onCdc, h]

@[simp] theorem fused_sessionOpen (s : State) (p id : Nat) : fused (s.sessionOpen p id) = fused s := by simp [State.sessionOpen]

@[simp] theorem fused_sessionClose (s : State) (p id : Nat) : fused (s.sessionClose p id) = fused s := by simp [State.sessionClose]

@[simp] theorem fused_countConcealed (s : State) (p : Nat) (x : Session) (j r blockRow : Nat) (concealed : Nat → Bool) :
    fused (s.countConcealed p x j r blockRow concealed) = fused s := by simp [State.countConcealed]

@[simp] theorem fused_writeFrame (s : State) (p : Nat) (x : Session) (i u n : Nat) (concealed : Nat → Bool) (ref : Option Nat) :
    fused (s.writeFrame p x i u n concealed ref).1 = fused s := by
  unfold State.writeFrame
  split <;> simp

@[simp] theorem fused_countRegion (s : State) (p : Nat) (x : Session) (i : Nat) (g : Region) (rows : Nat) :
    fused (s.countRegion p x i g rows) = fused s := by simp [State.countRegion]

@[simp] theorem fused_deliverRegion (s : State) (p : Nat) (x : Session) (i u : Nat) (g : Region) (rows : Nat) :
    fused (s.deliverRegion p x i u g rows).1 = fused s := by simp [State.deliverRegion]

@[simp] theorem fused_releaseMask (s : State) (p : Nat) (c : Cmd) : fused (s.releaseMask p c) = fused s := by simp [State.releaseMask]

@[simp] theorem fused_unrelease (s : State) (p : Nat) (c : Cmd) : fused (s.unrelease p c) = fused s := by simp [State.unrelease]

@[simp] theorem fused_skipCdc (s : State) (p : Nat) (c : Cmd) (cause : W16) :
    fused (s.skipCdc p c cause) = fused s := by simp [State.skipCdc]

@[simp] theorem fused_decodeInto (s : State) (p : Nat) (c : Cmd) (x : Session) (b : Nat) (forced : Option W16) :
    fused (s.decodeInto p c x b forced).s = fused s := by
  simp [State.decodeInto]

@[simp] theorem fused_output (d : Decoded) (p : Nat) (c : Cmd) (gs : List Region) : fused (d.output p c gs) = fused d.s := by
  unfold Decoded.output
  extract_lets u x out d' s₀ toCompute latent y outBad n
  split
  rename_i s₁ bad h
  have h₁ : fused s₁ = fused d.s := by
    have h₀ : fused s₀ = fused d.s := rfl
    rw [fused_fst h]
    clear_value s₀ outBad y out
    cases out with
    | none => exact h₀
    | some i => cases outBad <;> simp [h₀]
  extract_lets s₂ s₃
  have h₃ : fused s₃ = fused d.s := by simp [s₃, s₂, h₁]
  split <;> simp [h₃]

@[simp] theorem fused_decode (s0 : State) (p : Nat) (c : Cmd) (forced : Option W16) : fused (s0.decode p c forced) = fused s0 := by
  unfold State.decode
  dsimp only
  split
  · simp
  · split
    · simp
    · split
      · rfl
      · split
        · simp
        · split
          · simp
          · split <;> simp

@[simp] theorem fused_decodeUnit (s : State) (p id : Nat) : fused (s.decodeUnit p id) = fused s := by simp [State.decodeUnit]

@[simp] theorem fused_unitWorkBound (s : State) (p id : Nat) : fused (s.unitWorkBound p id) = fused s := by simp [State.unitWorkBound]

@[simp] theorem fused_encodeInto (s : State) (p : Nat) (c : Cmd) (x : Session) (b : Nat) (samples : List Nat) (roi : List (List Byte)) :
    fused (s.encodeInto p c x b samples roi) = fused s := by
  unfold State.encodeInto
  dsimp only
  (repeat' split) <;> simp

@[simp] theorem fused_nameSource (s : State) (p : Nat) (c : Cmd) : fused (s.nameSource p c) = fused s := by simp [State.nameSource]

@[simp] theorem fused_encodeFrame (s : State) (p id : Nat) : fused (s.encodeFrame p id) = fused s := by
  refine fused_onCdc _ _ _ fun c => ?_
  dsimp only
  split
  · rfl
  · split
    · simp
    · split
      · simp
      · split
        · simp
        · split
          · simp
          · split
            · simp
            · simp

@[simp] theorem fused_countPart (s : State) (p : Nat) (c : Cmd) (x : Session) (u : Nat) :
    fused (s.countPart p c x u) = fused s := by simp [State.countPart]

@[simp] theorem fused_partialFrame (s : State) (p : Nat) (c : Cmd) : fused (s.partialFrame p c).1 = fused s := by
  unfold State.partialFrame
  extract_lets x u s₀ may n s₁ s₂ s₃ shown
  have h₁ : fused s₁ = fused s := by simp [s₁, s₀]
  have h₂ : fused s₂ = fused s := by
    unfold s₂
    split
    · split <;> simp [h₁]
    · exact h₁
  have h₃ : fused s₃ = fused s := by
    unfold s₃
    split
    · split <;> simp [h₂]
    · exact h₂
  generalize (if c.op = 0x11 then s.goodRegions p c x else some []) = regions
  clear_value shown
  cases regions with
  | none => rfl
  | some regions =>
    dsimp -zeta only
    split
    · rfl
    · cases shown <;> simp [h₃]

@[simp] theorem fused_faultSession (s : State) (p u n : Nat) : fused (s.faultSession p u n) = fused s := by simp [State.faultSession]

@[simp] theorem fused_cdcFault (s : State) (u : Nat) : fused (s.cdcFault u) = fused s := by
  unfold State.cdcFault
  dsimp only
  (repeat' split) <;> simp

@[simp] theorem fused_translate (s : State) (p a : Nat) : fused (s.translate p a) = fused s := by simp [State.translate]

@[simp] theorem fused_hostAer (s : State) (p : Nat) (io : HostAccess) : fused (s.hostAer p io) = fused s := by simp [State.hostAer]

@[simp] theorem fused_slotPage (s : State) (p n i : Nat) (io : HostAccess) :
    fused (s.slotPage p n i io) = fused s := by simp [State.slotPage]

@[simp] theorem fused_consume (s : State) (p n k : Nat) (wm : W32) (moves : Bool) :
    fused (s.consume p n k wm moves) = fused s := by simp [State.consume]

@[simp] theorem fused_snuffed (s : State) (p id : Nat) (part : Bool) (detail : Nat) :
    fused (s.snuffed p id part detail) = fused s := by simp [State.snuffed]

@[simp] theorem fused_snuffedAs (s : State) (p id : Nat) (detail : Nat) :
    fused (s.snuffedAs p id detail) = fused s := by simp [State.snuffedAs]

@[simp] theorem fused_snuffWork (s : State) (p : Nat) (c : Cmd) (k : Nat) :
    fused (s.snuffWork p c k) = fused s := by simp [State.snuffWork]

@[simp] theorem fused_snuffPair (s : State) (p : Nat) (c w : Cmd) (k : Nat) :
    fused (s.snuffPair p c w k) = fused s := by simp [State.snuffPair]

@[simp] theorem fused_dropLoad (s : State) (p : Nat) (c : Cmd) : fused (s.dropLoad p c) = fused s := by simp [State.dropLoad]

@[simp] theorem fused_stopBasic (s : State) (p : Nat) (c : Cmd) : fused (s.stopBasic p c) = fused s := by
  unfold State.stopBasic
  dsimp only
  split
  · simp
  · split
    · split <;> simp
    · simp
    · simp
    · simp
    · simp
    · simp

@[simp] theorem fused_snuffCall (s : State) (p : Nat) (c : Cmd) : fused (s.snuffCall p c) = fused s := by
  unfold State.snuffCall
  simp only [fused_callSettle]
  refine (fused_foldl _ _ (fun t d => ?_) _).trans (by simp)
  split
  · split
    · rfl
    · simp
  · rfl

@[simp] theorem fused_snuffOne (s : State) (p : Nat) (c : Cmd) : fused (s.snuffOne p c).1 = fused s := by simp [State.snuffOne]

@[simp] theorem fused_snuffAll (s : State) (p : Nat) (ids : List Nat) : fused (s.snuffAll p ids).1 = fused s := by
  refine fused_foldl_fst _ _ (fun r id => ?_) _
  split
  · rfl
  · simp

@[simp] theorem fused_drainSlot (s : State) (p k i : Nat) : fused (s.drainSlot p k i).1 = fused s := by
  unfold State.drainSlot
  dsimp only
  (repeat' split) <;> simp

@[simp] theorem fused_drainSlots (s : State) (p k n : Nat) : fused (s.drainSlots p k n).1 = fused s := by
  induction n generalizing s with
  | zero => rfl
  | succ n ih => simp [State.drainSlots, ih]

@[simp] theorem fused_drainRings (s : State) (p ctx : Nat) : fused (s.drainRings p ctx).1 = fused s := by
  refine fused_foldl_fst _ _ (fun r k => ?_) _
  simp

@[simp] theorem fused_snuffContext (s : State) (p ctx : Nat) (drain : Bool) :
    fused (s.snuffContext p ctx drain).1 = fused s := by simp [State.snuffContext]

@[simp] theorem fused_snuff (s : State) (p id : Nat) : fused (s.snuff p id) = fused s := by
  unfold State.snuff
  split <;> simp

@[simp] theorem fused_deadlineMiss (s : State) (p : Nat) (c : Cmd) (policy : Nat) (e : LateObj) :
    fused (s.deadlineMiss p c policy e) = fused s := by simp [State.deadlineMiss]

@[simp] theorem fused_begin (s : State) (p id : Nat) : fused (s.begin p id) = fused s := by simp [State.begin]

@[simp] theorem fused_place (s : State) (p : Nat) (c : Cmd) : fused (s.place p c) = fused s := by
  unfold State.place
  dsimp only
  (repeat' split) <;> simp

@[simp] theorem fused_startReads (s : State) (p : Nat) (c : Cmd) : fused (s.startReads p c).1 = fused s := by simp [State.startReads]

@[simp] theorem fused_go (s : State) (p : Nat) (c : Cmd) (late : List LateObj) (flagged : Bool) :
    fused (s.go p c late flagged) = fused s := by simp [State.go]

@[simp] theorem fused_judge (s : State) (p : Nat) : fused (s.judge p) = fused s := by simp [State.judge]

theorem fused_attempt (s : State) (p : Nat) (c : Cmd) :
    ∀ t, (s.attempt p c) = .hold t ∨ (s.attempt p c) = .yes t → fused t = fused s := by
  unfold State.attempt
  dsimp only
  (repeat' split) <;> simp

theorem fused_tryStart (s : State) (p : Nat) (c : Cmd) (queued : Bool) :
    ∀ t, (s.tryStart p c queued) = .hold t ∨ (s.tryStart p c queued) = .yes t → fused t = fused s := by
  unfold State.tryStart
  intro t h
  split at h
  · exact fused_attempt _ _ _ _ h
  · simp at h

@[simp] theorem fused_startFirst (s : State) (p : Nat) (queued : Bool) (cs : List Cmd) : fused (s.startFirst p queued cs).1 = fused s := by
  induction cs generalizing s with
  | nil => rfl
  | cons c cs ih =>
    unfold State.startFirst
    split
    · exact ih s
    · rename_i h
      exact (ih _).trans (fused_tryStart _ _ _ _ _ (.inl h))
    · rename_i h
      exact fused_tryStart _ _ _ _ _ (.inr h)

@[simp] theorem fused_commandStart (s : State) (p : Nat) (slot : StartSlot) : fused (s.commandStart p slot) = fused s := by
  unfold State.commandStart
  split
  · split <;> (rename_i h; simp [fused_fst h])
  · simp
  · split
    · rfl
    · split
      · rfl
      · split
        · rfl
        · split <;> (rename_i h; simp [fused_fst h])

@[simp] theorem fused_eccStart (s : State) (p : Nat) (slot : StartSlot) (hits : List EccHit) :
    fused (s.eccStart p slot hits) = fused s := by
  unfold State.eccStart
  split <;> simp

@[simp] theorem fused_batchSuspend (s : State) (u : Nat) : fused (s.batchSuspend u) = fused s := by
  unfold State.batchSuspend
  split <;> simp

@[simp] theorem fused_batchResume (s : State) (u : Nat) : fused (s.batchResume u) = fused s := by simp [State.batchResume]

theorem fused_nextDesc (s : State) (p n : Nat) (io : HostAccess) : ∀ t, (s.nextDesc p n io) = .failed t → fused t = fused s := by
  unfold State.nextDesc
  dsimp only
  (repeat' split) <;> simp

@[simp] theorem fused_take (s : State) (p n : Nat) (d : List Byte) (cause : W16) (unit : Option EngineUnit) (phase : CmdPhase)
    (covers : List Nat) :
    fused (s.take p n d cause unit phase covers).1 = fused s := by simp [State.take]

@[simp] theorem fused_fetchOne (s : State) (p n : Nat) (io : HostAccess) : fused (s.fetchOne p n io).1 = fused s := by
  unfold State.fetchOne
  dsimp only
  split
  · rename_i h
    exact fused_nextDesc _ _ _ _ _ h
  · simp
  · split
    · split
      · simp
      · simp
    · split
      · simp
      · split
        · simp
        · simp

@[simp] theorem fused_fetchMany (s : State) (p n : Nat) (io : HostAccess) (k : Nat) : fused (s.fetchMany p n io k) = fused s := by
  induction k generalizing s with
  | zero => rfl
  | succ k ih => simp [State.fetchMany, ih]

@[simp] theorem fused_descriptorFetch (s : State) (p count : Nat) (io : HostAccess) :
    fused (s.descriptorFetch p count io) = fused s := by
  unfold State.descriptorFetch
  split
  · rfl
  · split <;> simp

@[simp] theorem fused_eccSlots (s t : State) (p count : Nat) (hits : List EccHit) : fused (s.eccSlots t p count hits) = fused s := by
  unfold State.eccSlots
  split
  · simp
  · rfl

@[simp] theorem fused_snuffFetch (s : State) (p : Nat) (io : HostAccess) : fused (s.snuffFetch p io) = fused s := by
  unfold State.snuffFetch
  split
  · rfl
  · split
    · simp
    · rfl

@[simp] theorem fused_ringStart (s : State) (p n : Nat) : fused (s.ringStart p n) = fused s := by simp [State.ringStart]

@[simp] theorem fused_ringStop (s : State) (p n : Nat) : fused (s.ringStop p n) = fused s := by simp [State.ringStop]

@[simp] theorem fused_endEvent (s : State) (p : Nat) (c : Cmd) : fused (s.endEvent p c).1 = fused s := by
  unfold State.endEvent
  dsimp only
  (repeat' split) <;> simp

@[simp] theorem fused_recordFails (s : State) (p : Nat) (c : Cmd) (inner : W16) (q : Option W64) :
    fused (s.recordFails p c inner q) = fused s := by simp [State.recordFails]

theorem fused_writeRecord (s : State) (p : Nat) (c : Cmd) (io : HostAccess) :
    ∀ t, (s.writeRecord p c io) = .yes t ∨ (s.writeRecord p c io) = .no t → fused t = fused s := by
  unfold State.writeRecord
  intro t h
  split at h
  · simp at h; simp [← h]
  · extract_lets r off after at h
    have ha : ∀ t, fused (after t) = fused t := fun t => by unfold after; simp
    split at h
    · simp at h; simp [← h]
    · split at h
      · simp at h; simp [← h]
      · split at h
        · simp at h; simp [← h]
        · split at h
          · split at h
            · rename_i h'; simp at h; simp [← h, ha, fused_fst h']
            · simp at h; simp [← h]
          · split at h
            · simp at h; simp [← h]
            · split at h
              · simp at h; simp [← h]
              · split at h
                · simp at h; simp [← h]
                · simp at h; simp [← h, ha]

@[simp] theorem fused_retire (s : State) (p : Nat) (c : Cmd) : fused (s.retire p c) = fused s := by simp [State.retire]

@[simp] theorem fused_swapWaits (s : State) (p : Nat) (a : AutoSwap) : fused (s.swapWaits p a) = fused s := by simp [State.swapWaits]

@[simp] theorem fused_swapTerminal (s : State) (p : Nat) (c : Cmd) : fused (s.swapTerminal p c) = fused s := by
  unfold State.swapTerminal
  split <;> simp

@[simp] theorem fused_callTerminal (s : State) (p step : Nat) (c : Cmd) :
    fused (s.callTerminal p step c) = fused s := by simp [State.callTerminal]

@[simp] theorem fused_terminalActions (s : State) (p : Nat) (c : Cmd) (q : Option W64) :
    fused (s.terminalActions p c q) = fused s := by
  unfold State.terminalActions
  dsimp only
  (repeat' split) <;> simp

@[simp] theorem fused_terminalFlr (s : State) (p : Nat) (c : Cmd) : fused (s.terminalFlr p c) = fused s := by simp [State.terminalFlr]

@[simp] theorem fused_terminal (s : State) (p id : Nat) (io : HostAccess) : fused (s.terminal p id io) = fused s := by
  unfold State.terminal
  split
  · rfl
  · split
    · rfl
    · split
      · simp
      · split
        · rfl
        · split
          · rename_i h
            exact fused_writeRecord _ _ _ _ _ (.inr h)
          · rename_i h
            simp [fused_writeRecord _ _ _ _ _ (.inl h)]

@[simp] theorem fused_enableCtx (s : State) (p n : Nat) : fused (s.enableCtx p n) = fused s := by
  unfold State.enableCtx
  split <;> rfl

@[simp] theorem fused_ctxWrite (s : State) (p n : Nat) (enable pin : Bool) (priority : BitVec 3) :
    fused (s.ctxWrite p n enable pin priority) = fused s := by simp [State.ctxWrite]

@[simp] theorem fused_beginRestore (s : State) (p n k : Nat) : fused (s.beginRestore p n k) = fused s := by simp [State.beginRestore]

@[simp] theorem fused_starve (s : State) (p : Nat) : fused (s.starve p) = fused s := by simp [State.starve]

@[simp] theorem fused_batchStepBoundary (s : State) (p : Nat) : fused (s.batchStepBoundary p) = fused s := by
  unfold State.batchStepBoundary
  dsimp only
  (repeat' split) <;> simp

@[simp] theorem fused_contextSave (s : State) (p n : Nat) : fused (s.contextSave p n) = fused s := by
  unfold State.contextSave
  dsimp only
  (repeat' split) <;> simp

@[simp] theorem fused_contextRestore (s : State) (p n : Nat) :
    fused (s.contextRestore p n) = fused s := by simp [State.contextRestore]

@[simp] theorem fused_RegW_no (s : State) (cause : W16) (pctl : Option (Nat × Nat)) :
    fused (RegW.no s cause pctl).s = fused s := by simp [RegW.no]

@[simp] theorem fused_setDomain (s : State) (i : Nat) (st : DomState) :
    fused (s.setDomain i st) = fused s := by simp [State.setDomain]

@[simp] theorem fused_powerQuad (s : State) (q : Nat) (on : Bool) : fused (s.powerQuad q on) = fused s := by simp [State.powerQuad]

@[simp] theorem fused_partChange (s : State) (p : Nat) (new : PartState) :
    fused (s.partChange p new) = fused s := by simp [State.partChange]

@[simp] theorem fused_beginTest (s : State) (q : Nat) : fused (s.beginTest q) = fused s := by simp [State.beginTest]

@[simp] theorem fused_beginHeld (s : State) (qs : List Nat) : fused (s.beginHeld qs) = fused s := by simp [State.beginHeld]

@[simp] theorem fused_partStopped (s : State) (p : Nat) : fused (s.partStopped p) = fused s := by simp [State.partStopped]

@[simp] theorem fused_newKey (s : State) : fused (s.newKey).2 = fused s := by simp [State.newKey]

@[simp] theorem fused_resetClusters (s : State) (p : Nat) : fused (s.resetClusters p) = fused s := by simp [State.resetClusters]

@[simp] theorem fused_resetEngines (s : State) (p : Nat) : fused (s.resetEngines p) = fused s := by simp [State.resetEngines]

@[simp] theorem fused_growQuota (s : State) (p : Nat) : fused (s.growQuota p) = fused s := by simp [State.growQuota]

@[simp] theorem fused_commitClaim (s : State) (p : Nat) : fused (s.commitClaim p) = fused s := by simp [State.commitClaim]

@[simp] theorem fused_capture (s : State) (p : Nat) (final : Bool) : fused (s.capture p final) = fused s := by simp [State.capture]

@[simp] theorem fused_zeroRange (s : State) (sp : Space) (a n : Nat) :
    fused (s.zeroRange sp a n) = fused s := by simp [State.zeroRange]

@[simp] theorem fused_zeroShare (s : State) (p : Nat) : fused (s.zeroShare p) = fused s := by simp [State.zeroShare]

@[simp] theorem fused_hdmCount (s : State) (line : Nat) : fused (s.hdmCount line) = fused s := by simp [State.hdmCount]

@[simp] theorem fused_hdmWrite (s : State) (line off : Nat) (bs : List Byte) :
    fused (s.hdmWrite line off bs) = fused s := by simp [State.hdmWrite]

@[simp] theorem fused_lineBack (s : State) (line : Nat) : fused (s.lineBack line) = fused s := by simp [State.lineBack]

@[simp] theorem fused_invalidateSlice (s : State) (k : Nat) : fused (s.invalidateSlice k) = fused s := by simp [State.invalidateSlice]

@[simp] theorem fused_releaseSlices (s : State) (p : Nat) : fused (s.releaseSlices p) = fused s := by simp [State.releaseSlices]

@[simp] theorem fused_eraseKey (s : State) (p : Nat) : fused (s.eraseKey p) = fused s := by simp [State.eraseKey]

@[simp] theorem fused_beginTeardown (s : State) (p : Nat) : fused (s.beginTeardown p) = fused s := by simp [State.beginTeardown]

@[simp] theorem fused_partDo (s : State) (p cmd : Nat) (who : Writer) : fused (s.partDo p cmd who).s = fused s := by
  unfold State.partDo
  dsimp only
  split <;> simp

@[simp] theorem fused_partCtrl (s : State) (p cmd : Nat) (who : Writer) :
    fused (s.partCtrl p cmd who).s = fused s := by simp [State.partCtrl]

@[simp] theorem fused_RegW_reject (w : RegW) (off : Nat) (who : Writer) (part : Option Nat) (value : W64) (old : W64) :
    fused (RegW.reject w off who part value old) = fused w.s := by
  unfold RegW.reject
  dsimp only
  split <;> simp

@[simp] theorem fused_runHeld (s : State) (p : Nat) : fused (s.runHeld p) = fused s := by
  refine (fused_foldl _ _ (fun t e => ?_) _).trans (by simp)
  simp

@[simp] theorem fused_drainComplete (s : State) (p : Nat) : fused (s.drainComplete p) = fused s := by simp [State.drainComplete]

@[simp] theorem fused_drainTimeout (s : State) (p : Nat) : fused (s.drainTimeout p) = fused s := by simp [State.drainTimeout]

@[simp] theorem fused_quadFault (s : State) (p q : Nat) : fused (s.quadFault p q) = fused s := by simp [State.quadFault]

@[simp] theorem fused_granuleFault (s : State) (p t k : Nat) : fused (s.granuleFault p t k) = fused s := by simp [State.granuleFault]

@[simp] theorem fused_verifyFails (s : State) (p : Nat) (badQuads : List Nat) (badGranules : List (Nat × Nat)) :
    fused (s.verifyFails p badQuads badGranules) = fused s := by simp [State.verifyFails]

@[simp] theorem fused_teardownComplete (s : State) (p : Nat) (badQuads : List Nat) (badGranules : List (Nat × Nat)) :
    fused (s.teardownComplete p badQuads badGranules) = fused s := by simp [State.teardownComplete]

@[simp] theorem fused_snapGo (s : State) (p : Nat) : fused (s.snapGo p).s = fused s := by
  unfold State.snapGo
  dsimp only
  (repeat' split) <;> simp

@[simp] theorem fused_tick (s : State) : fused (s.tick) = fused s := by simp [State.tick]

@[simp] theorem fused_regulatorRefill (s : State) (p r b : Nat) :
    fused (s.regulatorRefill p r b) = fused s := by simp [State.regulatorRefill]

@[simp] theorem fused_endSession (s : State) (sid : Nat) : fused (s.endSession sid) = fused s := by simp [State.endSession]

@[simp] theorem fused_endSessions (s : State) (f : SpdmSession → Bool) :
    fused (s.endSessions f) = fused s := by simp [State.endSessions]

@[simp] theorem fused_blank (s : State) : fused (s.blank) = fused s := by simp [State.blank]

@[simp] theorem fused_powerOff (s : State) : fused (s.powerOff) = fused s := by simp [State.powerOff]

@[simp] theorem fused_powerUp (s : State) : fused (s.powerUp) = fused s := by simp [State.powerUp]

@[simp] theorem fused_pwrEnRise (s : State) (j1 : Bool) : fused (s.pwrEnRise j1) = fused s := by simp [State.pwrEnRise]

@[simp] theorem fused_hotJoin (s : State) : fused (s.hotJoin) = fused s := by simp [State.hotJoin]

@[simp] theorem fused_linkStarts (s : State) : fused (s.linkStarts) = fused s := by simp [State.linkStarts]

@[simp] theorem fused_powerGood (s : State) (straps : BitVec 9) (storeOk : Bool) :
    fused (s.powerGood straps storeOk) = fused s := by simp [State.powerGood]

@[simp] theorem fused_pwrEnFall (s : State) : fused (s.pwrEnFall) = fused s := by simp [State.pwrEnFall]

@[simp] theorem fused_j1Exit (s : State) : fused (s.j1Exit) = fused s := by simp [State.j1Exit]

@[simp] theorem fused_j1Back (s : State) : fused (s.j1Back) = fused s := by simp [State.j1Back]

@[simp] theorem fused_moduleReset (s : State) : fused (s.moduleReset) = fused s := by simp [State.moduleReset]

@[simp] theorem fused_resetLow (s : State) : fused (s.resetLow) = fused s := by simp [State.resetLow]

@[simp] theorem fused_resetRise (s : State) : fused (s.resetRise) = fused s := by simp [State.resetRise]

@[simp] theorem fused_firmwareReset (s : State) : fused (s.firmwareReset) = fused s := by simp [State.firmwareReset]

@[simp] theorem fused_journalStart (s : State) : fused (s.journalStart) = fused s := rfl

@[simp] theorem fused_fwStart (s : State) (img : Image) (fallback : Bool) :
    fused (s.fwStart img fallback) = fused s := by simp [State.fwStart]

@[simp] theorem fused_rejects (s : State) (i : Image) (cause : W16) : fused (s.rejects i cause) = fused s := by simp [State.rejects]

@[simp] theorem fused_recovers (s : State) : fused (s.recovers) = fused s := by simp [State.recovers]

@[simp] theorem fused_boots (s : State) (l : List (Image × ImageCheck)) : fused (s.boots l) = fused s := by
  unfold State.boots
  dsimp only
  split <;> simp

@[simp] theorem fused_imageVerified (s : State) (a o : ImageCheck) :
    fused (s.imageVerified a o) = fused s := by simp [State.imageVerified]

@[simp] theorem fused_hostPush (s : State) (svn : BitVec 6) (digest : BitVec 256) (check flash other : ImageCheck) :
    fused (s.hostPush svn digest check flash other) = fused s := by simp [State.hostPush]

@[simp] theorem fused_testClusters (s : State) (q : Nat) (bad : List (Nat × HalfSel)) :
    fused (s.testClusters q bad) = fused s := by simp [State.testClusters]

@[simp] theorem fused_powerDomains (s : State) (bad : Option Nat) :
    fused (s.powerDomains bad) = fused s := by simp [State.powerDomains]

@[simp] theorem fused_testDies (s : State) (bad : Option Nat) : fused (s.testDies bad) = fused s := by simp [State.testDies]

@[simp] theorem fused_trainAll (s : State) (bad : Option Nat) : fused (s.trainAll bad) = fused s := by simp [State.trainAll]

@[simp] theorem fused_startFails (s : State) (src : Src) (detail : Nat) (first : Option (W16 × Src)) :
    fused (s.startFails src detail first) = fused s := by
  unfold State.startFails
  dsimp only
  split <;> simp

@[simp] theorem fused_testQuads (s : State) (bad : List (Nat × HalfSel)) :
    fused (s.testQuads bad) = fused s := by simp [State.testQuads]

@[simp] theorem fused_startup (s : State) (r : StartupResult) (badHalves : List (Nat × HalfSel)) (badGranules : List (Nat × Nat)) :
    fused (s.startup r badHalves badGranules) = fused s := by
  unfold State.startup
  dsimp only
  (repeat' split) <;> simp

@[simp] theorem fused_thermalShutdown (s : State) : fused (s.thermalShutdown) = fused s := by simp [State.thermalShutdown]

@[simp] theorem fused_capHeld (s : State) : fused (s.capHeld) = fused s := by simp [State.capHeld]

@[simp] theorem fused_capEnds (s : State) : fused (s.capEnds) = fused s := by simp [State.capEnds]

@[simp] theorem fused_measure (s : State) : fused (s.measure) = fused s := by simp [State.measure]

@[simp] theorem fused_governorPeriod (s : State) (x : PowerSample) :
    fused (s.governorPeriod x) = fused s := by simp [State.governorPeriod]

@[simp] theorem fused_fastLimit (s : State) (watt tenMa : Nat) : fused (s.fastLimit watt tenMa) = fused s := by simp [State.fastLimit]

@[simp] theorem fused_thermalCondition (s : State) (c : ThermalCond) (holds : Bool) :
    fused (s.thermalCondition c holds) = fused s := by
  unfold State.thermalCondition
  dsimp only
  (repeat' split) <;> simp

@[simp] theorem fused_raiseQuad (s : State) (q : Nat) (cause : W16) (detail : List Byte) :
    fused (s.raiseQuad q cause detail) = fused s := by
  unfold State.raiseQuad
  split <;> simp

@[simp] theorem fused_afterTests (s : State) (p : Nat) : fused (s.afterTests p) = fused s := by simp [State.afterTests]

@[simp] theorem fused_stReq (s : State) (q : Nat) (force : Bool) : fused (s.stReq q force).s = fused s := by
  unfold State.stReq
  dsimp only
  (repeat' split) <;> simp

@[simp] theorem fused_selftestDone (s : State) (q : Nat) (badHalves : List (Nat × HalfSel)) (badLines : List (Nat × Nat)) :
    fused (s.selftestDone q badHalves badLines) = fused s := by
  unfold State.selftestDone
  dsimp only
  (repeat' split) <;> simp

@[simp] theorem fused_clusterLost (s : State) (q : W64) (k : Nat) : fused (s.clusterLost q k) = fused s := by
  unfold State.clusterLost
  split <;> simp

@[simp] theorem fused_converterFault (s : State) (d : Nat) : fused (s.converterFault d) = fused s := by
  unfold State.converterFault
  dsimp only
  (repeat' split) <;> simp

@[simp] theorem fused_calibrate (s : State) (k : Nat) (drift : Bool) :
    fused (s.calibrate k drift) = fused s := by simp [State.calibrate]

@[simp] theorem fused_retrainEnds (s : State) (k : Nat) (ok : Bool) :
    fused (s.retrainEnds k ok) = fused s := by simp [State.retrainEnds]

@[simp] theorem fused_retrain (s : State) (k : Nat) (ok : Bool) : fused (s.retrain k ok) = fused s := by simp [State.retrain]

@[simp] theorem fused_retrainForced (s : State) (k : Nat) (ok : Bool) :
    fused (s.retrainForced k ok) = fused s := by simp [State.retrainForced]

@[simp] theorem fused_atsInvalidate (s : State) (p : Nat) (pages : List W64) :
    fused (s.atsInvalidate p pages) = fused s := by simp [State.atsInvalidate]

@[simp] theorem fused_apertureRange (s : State) (p w : Nat) : fused (s.apertureRange p w) = fused s := by simp [State.apertureRange]

@[simp] theorem fused_hostReadTimeout (s : State) (p n : Nat) :
    fused (s.hostReadTimeout p n) = fused s := by simp [State.hostReadTimeout]

@[simp] theorem fused_flrStart (s : State) (p : Nat) : fused (s.flrStart p) = fused s := by
  unfold State.flrStart
  dsimp only
  (repeat' split) <;> simp

@[simp] theorem fused_flrTimeout (s : State) (p : Nat) : fused (s.flrTimeout p) = fused s := by simp [State.flrTimeout]

@[simp] theorem fused_flrEnd (s : State) (p : Nat) : fused (s.flrEnd p) = fused s := by simp [State.flrEnd]

@[simp] theorem fused_flrReset (s : State) (p : Nat) (x : FlrEnd) : fused (s.flrReset p x) = fused s := by simp [State.flrReset]

@[simp] theorem fused_flrDone (s : State) (p : Nat) (x : FlrEnd) : fused (s.flrDone p x) = fused s := by
  unfold State.flrDone
  split <;> simp

@[simp] theorem fused_configure (s : State) (c : HostConfig) : fused (s.configure c) = fused s := by simp [State.configure]

@[simp] theorem fused_vfEnableClear (s : State) : fused (s.vfEnableClear) = fused s := by simp [State.vfEnableClear]

@[simp] theorem fused_hdmCommit (s : State) (bi : Bool) (base : W64) :
    fused (s.hdmCommit bi base) = fused s := by simp [State.hdmCommit]

@[simp] theorem fused_snoop (s : State) (line : Nat) (cached : Bool) : fused (s.snoop line cached) = fused s := by
  unfold State.snoop
  dsimp only
  (repeat' split) <;> simp

@[simp] theorem fused_rasFinding (s : State) (f : EccFinding) : fused (s.rasFinding f) = fused s := by
  unfold State.rasFinding
  split <;> simp

@[simp] theorem fused_hdmAccess (s : State) (line off : Nat) (write : Option (List Byte)) (cached : Bool) (f : EccFinding) :
    fused (s.hdmAccess line off write cached f) = fused s := by
  unfold State.hdmAccess
  dsimp only
  (repeat' split) <;> simp

@[simp] theorem fused_tdiError (s : State) (p : Nat) : fused (s.tdiError p) = fused s := by simp [State.tdiError]

@[simp] theorem fused_ideFault (s : State) (stream : Option Nat) : fused (s.ideFault stream) = fused s := by
  unfold State.ideFault
  dsimp only
  (repeat' split) <;> simp

@[simp] theorem fused_flushAll (s : State) : fused (s.flushAll) = fused s := by simp [State.flushAll]

@[simp] theorem fused_linkReplays (s : State) (n : Nat) : fused (s.linkReplays n) = fused s := by simp [State.linkReplays]

@[simp] theorem fused_linkTrained (s : State) (width : BitVec 5) (rate : BitVec 4) (flit : BitVec 2) (c : HostConfig) :
    fused (s.linkTrained width rate flit c) = fused s := by simp [State.linkTrained]

@[simp] theorem fused_linkLost (s : State) (l : LinkState) : fused (s.linkLost l) = fused s := by simp [State.linkLost]

@[simp] theorem fused_portFresh (s : State) : fused (s.portFresh) = fused s := by simp [State.portFresh]

@[simp] theorem fused_portReset (s : State) (k : PortReset) : fused (s.portReset k) = fused s := by simp [State.portReset]

@[simp] theorem fused_sendFlit (s : State) (kind : Byte) (seq : W16) (payload : List Byte) :
    fused (s.sendFlit kind seq payload) = fused s := by simp [State.sendFlit]

@[simp] theorem fused_sendClear (s : State) (kind : Byte) (payload : List Byte) :
    fused (s.sendClear kind payload) = fused s := by simp [State.sendClear]

@[simp] theorem fused_sendSeq (s : State) (kind : Byte) (payload : List Byte) :
    fused (s.sendSeq kind payload) = fused s := by simp [State.sendSeq]

@[simp] theorem fused_sendNak (s : State) : fused (s.sendNak) = fused s := by simp [State.sendNak]

@[simp] theorem fused_pumpN (n : Nat) (s : State) : fused (State.pumpN n s) = fused s := by
  induction n generalizing s with
  | zero => rfl
  | succ n ih => simp [State.pumpN, ih]

@[simp] theorem fused_pump (s : State) : fused (s.pump) = fused s := by simp [State.pump]

@[simp] theorem fused_sendMirror (s : State) (bytes : List Byte) : fused (s.sendMirror bytes) = fused s := by simp [State.sendMirror]

@[simp] theorem fused_raisePair (s : State) (cause : W16) (ps : List Nat) :
    fused (s.raisePair cause ps) = fused s := by simp [State.raisePair]

@[simp] theorem fused_mirCause (s : State) (p : Nat) (cause : W16) : fused (s.mirCause p cause) = fused s := by simp [State.mirCause]

@[simp] theorem fused_promoteTables (s : State) (p : Nat) : fused (s.promoteTables p) = fused s := by simp [State.promoteTables]

@[simp] theorem fused_promote (s : State) (p : Nat) : fused (s.promote p) = fused s := by simp [State.promote]

@[simp] theorem fused_peerLost (s : State) (root : Option W16) : fused (s.peerLost root) = fused s := by
  unfold State.peerLost
  split <;> simp

@[simp] theorem fused_pairLinkFail (s : State) : fused (s.pairLinkFail) = fused s := by simp [State.pairLinkFail]

@[simp] theorem fused_flitReceive (s : State) (f : Flit) : fused (s.flitReceive f) = fused s := by simp [State.flitReceive]

@[simp] theorem fused_replay (s : State) : fused (s.replay) = fused s := by simp [State.replay]

@[simp] theorem fused_nak (s : State) (seq : W16) : fused (s.nak seq) = fused s := by
  unfold State.nak
  dsimp only
  (repeat' split) <;> simp

@[simp] theorem fused_sendKeyx (s : State) : fused (s.sendKeyx) = fused s := by simp [State.sendKeyx]

@[simp] theorem fused_linkStops (s : State) (l : EciLink) (cause : W16) :
    fused (s.linkStops l cause) = fused s := by simp [State.linkStops]

@[simp] theorem fused_linkUp (s : State) : fused (s.linkUp) = fused s := by simp [State.linkUp]

@[simp] theorem fused_keyx (s : State) (peerSideB : Bool) (digest : BitVec 256) (sigOk : Bool) :
    fused (s.keyx peerSideB digest sigOk) = fused s := by simp [State.keyx]

@[simp] theorem fused_keyRenewal (s : State) (peer : Option PeerKey) :
    fused (s.keyRenewal peer) = fused s := by simp [State.keyRenewal]

@[simp] theorem fused_keepalive (s : State) : fused (s.keepalive) = fused s := by simp [State.keepalive]

@[simp] theorem fused_keepaliveMiss (s : State) : fused (s.keepaliveMiss) = fused s := by simp [State.keepaliveMiss]

@[simp] theorem fused_sendDelta (s : State) (p : Nat) (wm : W32) (items : List Dirty) :
    fused (s.sendDelta p wm items) = fused s := by simp [State.sendDelta]

theorem fused_mirrored {s t : State} (h : fused t = fused s) (p id : Nat) (commits : Cmd → Bool) :
    fused (s.mirrored t p id commits) = fused s := by
  unfold State.mirrored
  dsimp only
  split <;> simp [h]

@[simp] theorem fused_stepCommitMirrored (s : State) (p id : Nat) :
    fused (s.stepCommitMirrored p id) = fused s := fused_mirrored (fused_stepCommit ..) ..

@[simp] theorem fused_stepRow (s : State) (p id : Nat) : fused (s.stepRow p id) = fused s := fused_mirrored (fused_stepCmd ..) ..

@[simp] theorem fused_deltaAck (s : State) (p : Nat) (wm : W32) : fused (s.deltaAck p wm) = fused s := by simp [State.deltaAck]

@[simp] theorem fused_mirRefused (s : State) (p : Nat) : fused (s.mirRefused p) = fused s := by simp [State.mirRefused]

@[simp] theorem fused_peerBack (s : State) (p : Nat) (twin : TwinReport) : fused (s.peerBack p twin) = fused s := by
  unfold State.peerBack
  dsimp only
  (repeat' split) <;> simp

@[simp] theorem fused_pokeQuiet (s : State) (p : Nat) (pl : Place) (off : Nat) (bs : List Byte) :
    fused (s.pokeQuiet p pl off bs) = fused s := by
  refine fused_foldl _ _ (fun t e => ?_) _
  rfl

@[simp] theorem fused_applyItem (s : State) (p : Nat) (i : DeltaItem) : fused (s.applyItem p i) = fused s := by
  unfold State.applyItem
  split <;> simp

@[simp] theorem fused_stage (s : State) (p bytes : Nat) : fused (s.stage p bytes) = fused s := by simp [State.stage]

@[simp] theorem fused_deltaEnd (s : State) (p : Nat) (wm : W32) (full : Bool) (bytes : Nat) (items : List DeltaItem) (ok : Bool) :
    fused (s.deltaEnd p wm full bytes items ok) = fused s := by simp [State.deltaEnd]

@[simp] theorem fused_mirCmd (s : State) (p cmd : Nat) (twin : Option TwinShape) : fused (s.mirCmd p cmd twin).s = fused s := by
  unfold State.mirCmd
  dsimp only
  (repeat' split) <;> simp

@[simp] theorem fused_mirCtrl (s : State) (p v : Nat) : fused (s.mirCtrl p v).s = fused s := by simp [State.mirCtrl]

@[simp] theorem fused_takeAddress (s : State) (addr : BitVec 7) : fused (s.takeAddress addr) = fused s := by simp [State.takeAddress]

@[simp] theorem fused_entdaa (s : State) (addr : BitVec 7) : fused (s.entdaa addr) = fused s := by simp [State.entdaa]

@[simp] theorem fused_rstdaa (s : State) : fused (s.rstdaa) = fused s := by simp [State.rstdaa]

@[simp] theorem fused_setdasa (s : State) (static addr : BitVec 7) :
    fused (s.setdasa static addr) = fused s := by simp [State.setdasa]

@[simp] theorem fused_setnewda (s : State) (current addr : BitVec 7) :
    fused (s.setnewda current addr) = fused s := by simp [State.setnewda]

@[simp] theorem fused_busEnables (s : State) (ibi hotJoin on : Bool) :
    fused (s.busEnables ibi hotJoin on) = fused s := by simp [State.busEnables]

@[simp] theorem fused_directRead (s : State) (v : Nat) : fused (s.directRead v) = fused s := by simp [State.directRead]

@[simp] theorem fused_mctpControl (s : State) (eid : Option Byte) : fused (s.mctpControl eid) = fused s := by
  unfold State.mctpControl
  split
  · rfl
  · split <;> rfl

@[simp] theorem fused_alertGet (s : State) : fused (s.alertGet) = fused s := by
  unfold State.alertGet
  split
  · rfl
  · split <;> rfl

@[simp] theorem fused_countDoe (s : State) (p : Nat) (r : Reply) : fused (s.countDoe p r) = fused s := by simp [State.countDoe]

@[simp] theorem fused_respond (s : State) (t : Transport) (r : Reply) : fused (s.respond t r) = fused s := by
  unfold State.respond
  split <;> simp

@[simp] theorem fused_refuseMsg (s : State) (t : Transport) : fused (s.refuseMsg t) = fused s := by simp [State.refuseMsg]

@[simp] theorem fused_modSpdm (s : State) (t : Transport) (f : SpdmPort → SpdmPort) :
    fused (s.modSpdm t f) = fused s := by simp [State.modSpdm]

@[simp] theorem fused_respondLarge (s : State) (t : Transport) (bs : List Byte) :
    fused (s.respondLarge t bs) = fused s := by simp [State.respondLarge]

@[simp] theorem fused_getVersion (s : State) (t : Transport) : fused (s.getVersion t) = fused s := by simp [State.getVersion]

@[simp] theorem fused_getCapabilities (s : State) (t : Transport) (version : Byte) :
    fused (s.getCapabilities t version) = fused s := by simp [State.getCapabilities]

@[simp] theorem fused_negotiate (s : State) (t : Transport) (offered : Bool) :
    fused (s.negotiate t offered) = fused s := by simp [State.negotiate]

@[simp] theorem fused_getDigests (s : State) (t : Transport) : fused (s.getDigests t) = fused s := by simp [State.getDigests]

@[simp] theorem fused_getCertificate (s : State) (t : Transport) (slot : Byte) (offset length : W16) :
    fused (s.getCertificate t slot offset length) = fused s := by simp [State.getCertificate]

@[simp] theorem fused_challenge (s : State) (t : Transport) : fused (s.challenge t) = fused s := by simp [State.challenge]

@[simp] theorem fused_getMeasurements (s : State) (t : Transport) (index : Option Byte) :
    fused (s.getMeasurements t index) = fused s := by simp [State.getMeasurements]

@[simp] theorem fused_chunkSend (s : State) (t : Transport) (handle : Byte) (seqNo : W16) (last : Bool) (chunk : List Byte) :
    fused (s.chunkSend t handle seqNo last chunk) = fused s := by simp [State.chunkSend]

@[simp] theorem fused_chunkGet (s : State) (t : Transport) (handle : Byte) (seqNo : W16) :
    fused (s.chunkGet t handle seqNo) = fused s := by simp [State.chunkGet]

@[simp] theorem fused_doeDiscovery (s : State) (p : Option PartId) (index : Byte) :
    fused (s.doeDiscovery p index) = fused s := by simp [State.doeDiscovery]

@[simp] theorem fused_authFails (s : State) (t : Transport) : fused (s.authFails t) = fused s := by simp [State.authFails]

@[simp] theorem fused_keyExchange (s : State) (t : Transport) (cred heartbeat : Byte) :
    fused (s.keyExchange t cred heartbeat) = fused s := by
  unfold State.keyExchange
  dsimp only
  (repeat' split) <;> simp

@[simp] theorem fused_modSpdmSession (s : State) (sid : Nat) (f : SpdmSession → SpdmSession) :
    fused (s.modSpdmSession sid f) = fused s := by simp [State.modSpdmSession]

@[simp] theorem fused_finishMsg (s : State) (sid : Nat) (sigOk : Bool) : fused (s.finishMsg sid sigOk) = fused s := by
  unfold State.finishMsg
  split <;> simp

@[simp] theorem fused_inSession {s : State} {f : SpdmSession → State} (sid : Nat) (h : ∀ x, fused (f x) = fused s) :
    fused (s.inSession sid f) = fused s := by
  unfold State.inSession
  split
  · rfl
  · simp [h]

@[simp] theorem fused_heartbeatTimeout (s : State) (sid : Nat) : fused (s.heartbeatTimeout sid) = fused s := by
  unfold State.heartbeatTimeout
  split <;> simp

@[simp] theorem fused_carry (s : State) (t : Transport) (n : JrnNote) (cause : W16) (reply : Reply) {effect : State → State}
    (h : ∀ t, fused (effect t) = fused t) :
    fused (s.carry t n cause reply effect) = fused s := by
  simp [State.carry, h]

@[simp] theorem fused_endHandshakes (s : State) (f : Byte → Bool) :
    fused (s.endHandshakes f) = fused s := by simp [State.endHandshakes]

@[simp] theorem fused_claim (s : State) (key : List Byte) (wellFormed : Bool) (sid : Option Nat) :
    fused (s.claim key wellFormed sid) = fused s := by
  unfold State.claim
  extract_lets cause go
  have hg (t who c) : fused (go t who c) = fused s := by
    unfold go
    exact fused_carry _ _ _ _ _ fun t => fused_modFlash _ fun f => by simp
  split
  · rfl
  · split <;> simp [hg]

@[simp] theorem fused_releaseDo (s : State) : fused (s.releaseDo) = fused s := by simp [State.releaseDo]

@[simp] theorem fused_release (s : State) (sid : Option Nat) : fused (s.release sid) = fused s := by
  unfold State.release
  dsimp only
  (repeat' split) <;> simp

@[simp] theorem fused_stranger (s : State) (sid : Nat) (n : JrnNote) : fused (s.stranger sid n) = fused s := by simp [State.stranger]

@[simp] theorem fused_vendor (s : State) (sid : Nat) (n : Writer → JrnNote) (may : SpdmSession → Bool) (cause : W16) (reply : Reply)
    {effect : State → State} (h : ∀ t, fused (effect t) = fused t) :
    fused (s.vendor sid n may cause reply effect) = fused s := by
  unfold State.vendor
  split
  · rfl
  · split <;> simp [h]

@[simp] theorem fused_credInstall (s : State) (sid : Nat) (slot : Byte) (key : List Byte) (wellFormed : Bool) :
    fused (s.credInstall sid slot key wellFormed) = fused s := by
  unfold State.credInstall
  extract_lets ok
  refine fused_vendor _ _ _ _ _ _ fun t => ?_
  rw [fused_endHandshakes, fused_modFlash _ (fun f => by simp)]

@[simp] theorem fused_credRemove (s : State) (sid : Nat) (slot : Byte) : fused (s.credRemove sid slot) = fused s := by
  unfold State.credRemove
  extract_lets ok
  refine fused_vendor _ _ _ _ _ _ fun t => ?_
  rw [fused_endHandshakes, fused_modFlash _ (fun f => by simp)]

@[simp] theorem fused_fwStage (s : State) (sid : Nat) (first last : Bool) (piece : List Byte) (svn : BitVec 6) (digest : BitVec 256)
    (check : ImageCheck) (h : ImageHead) :
    fused (s.fwStage sid first last piece svn digest check h) = fused s := by
  unfold State.fwStage
  extract_lets n
  split
  · simp
  · refine fused_inSession _ fun x => ?_
    extract_lets
    split
    · exact fused_carry _ _ _ _ _ fun t => rfl
    · split
      · exact fused_carry _ _ _ _ _ fun t => rfl
      · split
        · refine (fused_carry _ _ _ _ _ fun t => rfl).trans ?_
          rw [fused_modSec, fused_modFlash _ (fun f => by simp)]
        · refine fused_carry _ _ _ _ _ fun t => ?_
          rw [fused_modSec, fused_modFlash _ (fun f => by simp)]

@[simp] theorem fused_fwActivate (s : State) (sid : Nat) : fused (s.fwActivate sid) = fused s := by
  unfold State.fwActivate
  extract_lets i n
  split
  · simp
  · exact fused_inSession _ fun x => fused_carry _ _ _ _ _ fun t => by simp

@[simp] theorem fused_consentMsg (s : State) (sid : Nat) : fused (s.consentMsg sid) = fused s := by simp [State.consentMsg]

@[simp] theorem fused_eraseAllKeys (s : State) : fused (s.eraseAllKeys) = fused s := by simp [State.eraseAllKeys]

@[simp] theorem fused_debugUnlock (s : State) (sid : Nat) (nonce : BitVec 256) :
    fused (s.debugUnlock sid nonce) = fused s := by simp [State.debugUnlock]

@[simp] theorem fused_pairBind (s : State) (sid : Nat) (digest : BitVec 256) :
    fused (s.pairBind sid digest) = fused s := by simp [State.pairBind]

theorem fused_hostSecurity {s : State} {f : State → Option (State × Reply)} (h : ∀ t ∈ f s, fused t.1 = fused s) (sid : Nat) :
    fused (s.hostSecurity sid f) = fused s := by
  unfold State.hostSecurity
  split
  · rfl
  · refine fused_inSession _ fun x => ?_
    split
    · simp
    · split
      · rename_i h'
        simpa using h _ h'
      · simp

theorem fused_tdiLock (s : State) (p : Nat) : ∀ t ∈ (s.tdiLock p), fused t.1 = fused s := by
  unfold State.tdiLock
  dsimp only
  split <;> simp

theorem fused_tdiReport (s : State) (p : Nat) : ∀ t ∈ (s.tdiReport p), fused t.1 = fused s := by
  unfold State.tdiReport
  split <;> simp

theorem fused_tdiStart (s : State) (p : Nat) : ∀ t ∈ (s.tdiStart p), fused t.1 = fused s := by simp [State.tdiStart]

theorem fused_ideKeys (s : State) (stream : Option (Fin 32)) (p : PartId) (x : IdeAssoc) :
    ∀ t ∈ (s.ideKeys stream p x), fused t.1 = fused s := by
  unfold State.ideKeys
  split <;> simp

@[simp] theorem fused_partitionStall (s : State) (p : Nat) : fused (s.partitionStall p) = fused s := by
  unfold State.partitionStall
  dsimp only
  (repeat' split) <;> simp

@[simp] theorem fused_evtStart (s : State) (p : Nat) : fused (s.evtStart p) = fused s := by simp [State.evtStart]

@[simp] theorem fused_evtStop (s : State) (p : Nat) : fused (s.evtStop p) = fused s := by simp [State.evtStop]

@[simp] theorem fused_evtHead (s : State) (p : Nat) (v : W32) (io : HostAccess) :
    fused (s.evtHead p v io) = fused s := by simp [State.evtHead]

@[simp] theorem fused_pevHead (s : State) (v : W32) (io : HostAccess) : fused (s.pevHead v io) = fused s := by simp [State.pevHead]

@[simp] theorem fused_pevConfig (s : State) (v : Nat) : fused (s.pevConfig v).s = fused s := by simp [State.pevConfig]

/-! ### What the writes of registers do -/

@[simp] theorem fused_Page_modHdr (g : Page) (s : State) (f : PageHdr → PageHdr) : fused (Page.modHdr g s f) = fused s := by
  unfold Page.modHdr
  split <;> rfl

@[simp] theorem fused_took (s : State) : fused (took s).s = fused s := rfl

@[simp] theorem fused_setCeil (v : Nat) (s : State) : fused (setCeil v s).s = fused s := by simp [setCeil]

@[simp] theorem fused_setCap (v : Nat) (s : State) : fused (setCap v s).s = fused s := by simp [setCap]

@[simp] theorem fused_setPolicy (v : Nat) (s : State) : fused (setPolicy v s).s = fused s := by simp [setPolicy]

@[simp] theorem fused_setHdmGib (v : Nat) (s : State) : fused (setHdmGib v s).s = fused s := by simp [setHdmGib]

/-- What HST_HDM_ATTR does to one slice. -/
theorem fused_sliceGiven (s : State) (k b : Nat) :
    fused (if s.sliceOwner k = b then s else (s.invalidateSlice k).modHst fun h => { h with attr := tset h.attr k (BitVec.ofNat 8 b) })
      = fused s := by simp

@[simp] theorem fused_setHdmAttr (k v : Nat) (s : State) : fused (setHdmAttr k v s).s = fused s := by
  unfold setHdmAttr
  extract_lets b bad
  split
  · simp
  · rw [fused_took, fused_foldl]
    intro t j
    exact fused_sliceGiven t _ _

@[simp] theorem fused_modPev (s : State) (f : EvRing → EvRing) : fused (s.modPev f) = fused s := by simp [State.modPev]

@[simp] theorem fused_tdiGuard (s : State) (p : Nat) (w : RegW) (h : fused w.s = fused s) : fused (s.tdiGuard p w).s = fused s := by
  unfold State.tdiGuard
  split <;> simp [h]

@[simp] theorem fused_bumpGen (s : State) (p : Nat) : fused (s.bumpGen p) = fused s := by simp [State.bumpGen]

@[simp] theorem fused_setting (s : State) (p : Nat) (fixed : Bool) {f : State → RegW} (h : ∀ t, fused (f t).s = fused t) :
    fused (s.setting p fixed f).s = fused s := by
  unfold State.setting
  split
  · simp
  · dsimp only
    split <;> simp [h]

@[simp] theorem fused_reapply (s : State) (p : Nat) : fused (s.reapply p) = fused s := by simp [State.reapply]

@[simp] theorem fused_setDrainLimit (p v : Nat) (s : State) : fused (setDrainLimit p v s).s = fused s := by simp [setDrainLimit]

@[simp] theorem fused_setQuota (p : Nat) (hbm : Bool) (v : Nat) (s : State) : fused (setQuota p hbm v s).s = fused s := by
  refine fused_setting _ _ _ fun t => ?_
  extract_lets c put k
  have hp : ∀ t, fused (put t) = fused t := fun t => by simp [put]
  clear_value put k
  simp [hp]

@[simp] theorem fused_setCdcGrant (p v : Nat) (s : State) : fused (setCdcGrant p v s).s = fused s := by
  refine fused_setting _ _ _ fun t => ?_
  dsimp only
  split
  · simp
  · split <;> simp

@[simp] theorem fused_setRegulator (p r weight period cap : Nat) (s : State) :
    fused (setRegulator p r weight period cap s).s = fused s := by
  unfold setRegulator
  split
  · simp
  · exact fused_setting _ _ _ fun t => by simp

@[simp] theorem fused_setMeshWeight (p v : Nat) (s : State) :
    fused (setMeshWeight p v s).s = fused s := fused_setting _ _ _ fun t => by simp

@[simp] theorem fused_modVport (s : State) (p v : Nat) (f : VPort → VPort) :
    fused (s.modVport p v f) = fused s := by simp [State.modVport]

@[simp] theorem fused_setVportCtrl (p v w : Nat) (s : State) : fused (setVportCtrl p v w s).s = fused s := by simp [setVportCtrl]

@[simp] theorem fused_setVport (p v : Nat) (f : VPort → VPort) (s : State) : fused (setVport p v f s).s = fused s := by
  simp [setVport]

@[simp] theorem fused_setIpv6Upper (p v : Nat) (low : VPort → Option W64) (clear : VPort → VPort) (put : BitVec 128 → VPort → VPort)
    (w : Nat) (s : State) :
    fused (setIpv6Upper p v low clear put w s).s = fused s := by
  unfold setIpv6Upper
  split
  · simp
  · split <;> simp

@[simp] theorem fused_setIpv6Lower (p v : Nat) (put : VPort → VPort) (s : State) :
    fused (setIpv6Lower p v put s).s = fused s := by simp [setIpv6Lower]

@[simp] theorem fused_setWatchLimit (k v : Nat) (s : State) : fused (setWatchLimit k v s).s = fused s := by
  unfold setWatchLimit
  dsimp only
  (repeat' split) <;> simp

@[simp] theorem fused_retirePage (s : State) (e : WEnv) (v : Nat) : fused (s.retirePage e v).s = fused s := by simp [State.retirePage]

@[simp] theorem fused_setNetiCtrl (n v : Nat) (s : State) : fused (setNetiCtrl n v s).s = fused s := by simp [setNetiCtrl]

@[simp] theorem fused_setKeepalive (interval miss : Nat) (s : State) :
    fused (setKeepalive interval miss s).s = fused s := by simp [setKeepalive]

@[simp] theorem fused_setMirCtrl (p v : Nat) (s : State) : fused (setMirCtrl p v s).s = fused s := by simp [setMirCtrl]

@[simp] theorem fused_setMirCmd (e : WEnv) (v : Nat) (s : State) : fused (setMirCmd e v s).s = fused s := by simp [setMirCmd]

@[simp] theorem fused_setObjCmd (p v : Nat) (s : State) : fused (setObjCmd p v s).s = fused s := by simp [setObjCmd]

/-! ### The register pages: every register of every page leaves `fused` when it is written, read and cleared -/

/-- A register whose write, clearing read and update before a read leave the fuses and the fused SVN. -/
structure RegKeeps (r : Reg) : Prop where
  set : ∀ e i v s, fused (r.set e i v s).s = fused s
  clear : ∀ i s, fused (r.clear i s) = fused s
  touch : ∀ i s, fused (r.touch i s) = fused s

/-- A page whose run control and registers leave them. -/
structure PageKeeps (g : Page) : Prop where
  ctrl : ∀ f ∈ g.ctrl, ∀ c s, fused (f c s) = fused s
  regs : ∀ r ∈ g.regs, RegKeeps r

theorem pageKeeps_iff (g : Page) : PageKeeps g ↔ (∀ f ∈ g.ctrl, ∀ c s, fused (f c s) = fused s) ∧ ∀ r ∈ g.regs, RegKeeps r :=
  ⟨fun h => ⟨h.ctrl, h.regs⟩, fun ⟨hc, hr⟩ => ⟨hc, hr⟩⟩
@[simp] theorem regKeeps_mk (off count stride width : Nat) (acc : Acc) (owner : Nat) (get : Nat → State → Nat)
    (set : WEnv → Nat → Nat → State → RegW) (clear : Nat → State → State) (absent : Nat → State → Bool) (own : Bool)
    (touch : Nat → State → State) :
    RegKeeps ⟨off, count, stride, width, acc, owner, get, set, clear, absent, own, touch⟩ ↔
      (∀ e i v s, fused (set e i v s).s = fused s) ∧ (∀ i s, fused (clear i s) = fused s) ∧ ∀ i s, fused (touch i s) = fused s :=
  ⟨fun h => ⟨h.set, h.clear, h.touch⟩, fun ⟨hs, hc, ht⟩ => ⟨hs, hc, ht⟩⟩
@[simp] theorem regKeeps_ro (off : Nat) (get : State → Nat) : RegKeeps (ro off get) := by simp [ro]
@[simp] theorem regKeeps_ro64 (off : Nat) (get : State → Nat) : RegKeeps (ro64 off get) := by simp [ro64]
@[simp] theorem regKeeps_window (off n : Nat) (get : State → List Byte) : RegKeeps (window off n get) := by simp [window]
@[simp] theorem regKeeps_plainRW (off bits owner : Nat) (get : State → Nat) {set : Nat → State → State}
    (h : ∀ v s, fused (set v s) = fused s) :
    RegKeeps (plainRW off bits owner get set) := by simp [plainRW, h]
@[simp] theorem regKeeps_counterRC (off owner : Nat) (get : State → Nat) {clear : State → State} (h : ∀ s, fused (clear s) = fused s) :
    RegKeeps (counterRC off owner get clear) := by simp [counterRC, h]
@[simp] theorem regKeeps_ranged (off bits owner lo hi : Nat) (get : State → Nat) {set : Nat → State → State}
    (h : ∀ v s, fused (set v s) = fused s) :
    RegKeeps (ranged off bits owner lo hi get set) := by simp [ranged, h]

@[simp] theorem pageKeeps_idPage : PageKeeps idPage := by
  simp [pageKeeps_iff, idPage]
@[simp] theorem pageKeeps_strapPage : PageKeeps strapPage := by
  simp [pageKeeps_iff, strapPage]
@[simp] theorem pageKeeps_pwrPage : PageKeeps pwrPage := by
  simp [pageKeeps_iff, pwrPage]
@[simp] theorem pageKeeps_secPage : PageKeeps secPage := by
  simp [pageKeeps_iff, secPage]
@[simp] theorem pageKeeps_jrnPage : PageKeeps jrnPage := by
  simp [pageKeeps_iff, jrnPage, jrnRegs]
@[simp] theorem pageKeeps_hstPage : PageKeeps hstPage := by
  simp [pageKeeps_iff, hstPage]
@[simp] theorem pageKeeps_mgmtPage : PageKeeps mgmtPage := by
  simp [pageKeeps_iff, mgmtPage]
@[simp] theorem pageKeeps_pctlPage (p : Nat) : PageKeeps (pctlPage p) := by
  simp [pageKeeps_iff, pctlPage, fixedReg]
@[simp] theorem pageKeeps_presPage (p : Nat) : PageKeeps (presPage p) := by
  simp [pageKeeps_iff, presPage]
@[simp] theorem pageKeeps_pregPage (p : Nat) : PageKeeps (pregPage p) := by
  simp [pageKeeps_iff, pregPage]
@[simp] theorem pageKeeps_pmtrPage (p : Nat) : PageKeeps (pmtrPage p) := by
  simp [pageKeeps_iff, pmtrPage]
@[simp] theorem pageKeeps_vportPage (p : Nat) : PageKeeps (vportPage p) := by
  simp [pageKeeps_iff, vportPage, vportReg]
@[simp] theorem pageKeeps_pattPage (p : Nat) : PageKeeps (pattPage p) := by
  simp [pageKeeps_iff, pattPage]
@[simp] theorem pageKeeps_tilePage (p : Nat) : PageKeeps (tilePage p) := by
  simp [pageKeeps_iff, tilePage]
@[simp] theorem pageKeeps_qdPage (p n : Nat) : PageKeeps (qdPage p n) := by
  simp [pageKeeps_iff, qdPage]
@[simp] theorem pageKeeps_hamperPage (p : Nat) : PageKeeps (hamperPage p) := by
  simp [pageKeeps_iff, hamperPage]
@[simp] theorem pageKeeps_meshPage (p : Nat) : PageKeeps (meshPage p) := by
  simp [pageKeeps_iff, meshPage]
@[simp] theorem pageKeeps_clusterPage (p n : Nat) : PageKeeps (clusterPage p n) := by
  simp [pageKeeps_iff, clusterPage]
@[simp] theorem pageKeeps_hbcPage (p : Nat) : PageKeeps (hbcPage p) := by
  simp [pageKeeps_iff, hbcPage, chanRegs]
@[simp] theorem pageKeeps_lpcPage (p : Nat) : PageKeeps (lpcPage p) := by
  simp [pageKeeps_iff, lpcPage, chanRegs]
@[simp] theorem pageKeeps_addPage (p : Nat) : PageKeeps (addPage p) := by
  simp [pageKeeps_iff, addPage]
@[simp] theorem pageKeeps_cryPage (p : Nat) : PageKeeps (cryPage p) := by
  simp [pageKeeps_iff, cryPage]
@[simp] theorem pageKeeps_eccPage (p : Nat) : PageKeeps (eccPage p) := by
  simp [pageKeeps_iff, eccPage]
@[simp] theorem pageKeeps_seqnPage (p : Nat) : PageKeeps (seqnPage p) := by
  simp [pageKeeps_iff, seqnPage, counterRC]
@[simp] theorem pageKeeps_movPage (p : Nat) : PageKeeps (movPage p) := by
  simp [pageKeeps_iff, movPage]
@[simp] theorem pageKeeps_cdcnPage (p : Nat) : PageKeeps (cdcnPage p) := by
  simp [pageKeeps_iff, cdcnPage]
@[simp] theorem pageKeeps_netnPage (p : Nat) : PageKeeps (netnPage p) := by
  simp [pageKeeps_iff, netnPage]
@[simp] theorem pageKeeps_eciPage : PageKeeps eciPage := by
  simp [pageKeeps_iff, eciPage]
@[simp] theorem pageKeeps_ctlcPage (p : Nat) : PageKeeps (ctlcPage p) := by
  simp [pageKeeps_iff, ctlcPage]
@[simp] theorem pageKeeps_statusPage (p : Nat) : PageKeeps (statusPage p) := by
  simp [pageKeeps_iff, statusPage]
@[simp] theorem pageKeeps_ringPage (p n : Nat) : PageKeeps (ringPage p n) := by
  simp [pageKeeps_iff, ringPage, ringReg]
@[simp] theorem pageKeeps_doorbellPage (p : Nat) : PageKeeps (doorbellPage p) := by
  simp [pageKeeps_iff, doorbellPage]
@[simp] theorem pageKeeps_ctxPage (p : Nat) : PageKeeps (ctxPage p) := by
  simp [pageKeeps_iff, ctxPage]
@[simp] theorem pageKeeps_listPage (p : Nat) : PageKeeps (listPage p) := by
  simp [pageKeeps_iff, listPage]
@[simp] theorem pageKeeps_lanternPage (p : Nat) : PageKeeps (lanternPage p) := by
  simp [pageKeeps_iff, lanternPage]
@[simp] theorem pageKeeps_seqPage (p : Nat) : PageKeeps (seqPage p) := by
  simp [pageKeeps_iff, seqPage, seqReg]
@[simp] theorem pageKeeps_streamPage (p : Nat) : PageKeeps (streamPage p) := by
  simp [pageKeeps_iff, streamPage]
@[simp] theorem pageKeeps_objPage (p : Nat) : PageKeeps (objPage p) := by
  simp [pageKeeps_iff, objPage]
@[simp] theorem pageKeeps_cdcPage (p : Nat) : PageKeeps (cdcPage p) := by
  simp [pageKeeps_iff, cdcPage]
@[simp] theorem pageKeeps_netPage (p : Nat) : PageKeeps (netPage p) := by
  simp [pageKeeps_iff, netPage, netCounter]
@[simp] theorem pageKeeps_evtPage (p : Nat) : PageKeeps (evtPage p) := by
  simp [pageKeeps_iff, evtPage, evtReg]
@[simp] theorem pageKeeps_jrnVfPage (p : Nat) : PageKeeps (jrnVfPage p) := by
  simp [pageKeeps_iff, jrnVfPage, jrnRegs]
@[simp] theorem pageKeeps_hostPage (p : Nat) : PageKeeps (hostPage p) := by
  simp [pageKeeps_iff, hostPage]

/-! ### Reads and writes of a page, and the pages that an offset names -/

theorem regKeeps_header (g : Page) (h : PageKeeps g) : ∀ r ∈ g.header, RegKeeps r := by
  have hc (v : Nat) (s : State) : fused (match g.ctrl with
      | some f => f (v % 4) s
      | none => s) = fused s := by
    split
    · rename_i f hf; exact h.ctrl f hf _ s
    · rfl
  have hl (e : WEnv) (v : Nat) (s : State) : fused (match e.sid with
      | some i => g.modHdr s fun h => h.writeLock i e.who (bitOf v 0)
      | none => s) = fused s := by split <;> simp
  simp [Page.header]
  exact ⟨fun _ => hc, hl⟩

theorem regKeeps_of_find {g : Page} (h : PageKeeps g) {o : Nat} {r : Reg} {x : Nat × Nat} (hf : g.find o = some (r, x)) : RegKeeps r := by
  unfold Page.find at hf
  obtain ⟨r', hr, he⟩ := Option.map_eq_some_iff.1 hf
  obtain ⟨rfl, -⟩ := Prod.mk.inj he
  rcases List.mem_append.1 (List.mem_of_find?_eq_some hr) with hm | hm
  · exact regKeeps_header g h _ hm
  · exact h.regs _ hm

section
variable {g : Page} (h : PageKeeps g)
include h

theorem fused_readWord (s : State) (o : Nat) : fused (g.readWord s o).2 = fused s := by
  unfold Page.readWord
  split
  · rfl
  · rename_i r i b hf
    dsimp only
    split
    · exact (regKeeps_of_find h hf).clear i s
    · rfl

theorem fused_touchAt (s : State) (o : Nat) : fused (g.touchAt s o) = fused s := by
  unfold Page.touchAt
  split
  · rfl
  · rename_i r i _ hf; exact (regKeeps_of_find h hf).touch i s

theorem fused_read (s : State) (o n : Nat) : fused (g.read s o n).2 = fused s := by
  unfold Page.read
  split
  · rw [fused_readWord h, fused_touchAt h]
  · split
    · dsimp only
      rw [fused_readWord h]
      split <;> simp only [fused_readWord h, fused_touchAt h]
    · rfl

theorem fused_checked {s : State} {e : WEnv} {o n v i : Nat} {r : Reg} {x : Nat × Nat} (hf : g.find o = some (r, x)) :
    fused (g.checked s e r i n v).s = fused s := by
  unfold Page.checked
  split
  · simp
  · split
    · simp
    · exact (regKeeps_of_find h hf).set e i v s

theorem fused_write (s : State) (e : WEnv) (o n v : Nat) : fused (g.write s e o n v).1 = fused s := by
  unfold Page.write
  split
  · rfl
  · rename_i r i b hf
    split
    · rfl
    · extract_lets off old w new s₁
      have hw : fused w.s = fused s := fused_checked h hf
      split
      · simp [hw]
      · split
        · simp
        · split
          · exact hw
          · rw [(regKeeps_of_find h hf).set]; simp [s₁]

theorem fused_writeWide (s : State) (e : WEnv) (o n v : Nat) : fused (g.writeWide s e o n v).1 = fused s := by
  unfold Page.writeWide
  simp [fused_write h]

theorem fused_vfWrite (s : State) (p o n v : Nat) : fused (g.vfWrite s p o n v) = fused s := by
  unfold Page.vfWrite
  split
  · rfl
  · rename_i r i b hf
    extract_lets old w fixed
    have hw : fused w.s = fused s := by
      unfold w
      split
      · simp
      · exact (regKeeps_of_find h hf).set _ i v s
    split
    · rfl
    · split <;> simp [hw]
end

/-- The page that a number names, if any, leaves the fuses and the fused SVN. -/
def LookupKeeps (o : Option Page) : Prop := ∀ g ∈ o, PageKeeps g

@[simp] theorem lookupKeeps_none : LookupKeeps none := by simp [LookupKeeps]
@[simp] theorem lookupKeeps_some (g : Page) : LookupKeeps (some g) ↔ PageKeeps g := by simp [LookupKeeps]
@[simp] theorem lookupKeeps_ite (c : Prop) [Decidable c] (a b : Option Page) :
    LookupKeeps (if c then a else b) ↔ if c then LookupKeeps a else LookupKeeps b := by split <;> rfl

@[simp] theorem lookupKeeps_devicePages (k : Nat) : LookupKeeps (devicePages k) := by
  unfold devicePages
  split <;> simp
@[simp] theorem lookupKeeps_partPages (p k : Nat) : LookupKeeps (partPages p k) := by
  unfold partPages
  split <;> simp
@[simp] theorem lookupKeeps_tilePages (t r : Nat) : LookupKeeps (tilePages t r) := by simp [tilePages]
@[simp] theorem lookupKeeps_diePages (d r : Nat) : LookupKeeps (diePages d r) := by simp [diePages]
@[simp] theorem lookupKeeps_hubPages (s : State) (r : Nat) : LookupKeeps (s.hubPages r) := by simp [State.hubPages]
theorem lookupKeeps_pfPage (s : State) (k : Nat) : LookupKeeps (s.pfPage k) := by simp [State.pfPage]
theorem lookupKeeps_vfPage (p k : Nat) : LookupKeeps (vfPage p k) := by
  unfold vfPage
  split
  · simp
  · split
    · simp
    · split <;> simp

/-! ### Register access in sessions and by MMIO, and the posted writes of the tenants -/

@[simp] theorem fused_regEntry (s : State) (e : WEnv) (r : RegEntry) : fused (s.regEntry e r).1 = fused s := by
  unfold State.regEntry
  extract_lets off n v
  split
  · simp
  · rename_i g hg
    split
    · simp
    · exact fused_writeWide (lookupKeeps_pfPage s _ g hg) ..

@[simp] theorem fused_regEntries (s : State) (e : WEnv) (rs : List RegEntry) (k : Nat) : fused (s.regEntries e rs k).1 = fused s := by
  induction rs generalizing s k with
  | nil => rfl
  | cons r rest ih =>
    unfold State.regEntries
    extract_lets t
    split
    · simp [t]
    · rw [ih]; simp [t]

@[simp] theorem fused_noSession (s : State) (off v : Nat) : fused (s.noSession off v) = fused s := by
  unfold State.noSession
  split <;> simp

@[simp] theorem fused_regWrite (s : State) (sid : Nat) (entries : List RegEntry) (env : WEnv → WEnv) :
    fused (s.regWrite sid entries env) = fused s := by
  unfold State.regWrite
  split
  · rfl
  · split
    · simp
    · refine fused_inSession _ fun x => ?_
      split <;> simp

@[simp] theorem fused_largeRequest (s : State) (t : Transport) (x0 : LargeRequest) : fused (s.largeRequest t x0) = fused s := by
  unfold State.largeRequest
  split <;> simp

@[simp] theorem fused_chunkRequest (s : State) (t : Transport) (handle : Byte) (seqNo : W16) (last : Bool) (chunk : List Byte)
    (request : Option LargeRequest) :
    fused (s.chunkRequest t handle seqNo last chunk request) = fused s := by
  unfold State.chunkRequest
  split <;> simp

@[simp] theorem fused_writeOne (s : State) (sid off n v : Nat) (env : WEnv → WEnv) :
    fused (s.writeOne sid off n v env) = fused s := by simp [State.writeOne]

@[simp] theorem fused_pfRead (s : State) (off n : Nat) : fused (s.pfRead off n).2 = fused s := by
  unfold State.pfRead
  extract_lets o
  split
  · rename_i g hg; exact fused_read (lookupKeeps_pfPage s _ g hg) ..
  · simp

@[simp] theorem fused_regReads (s : State) (os : List W32) (vs : List W64) : fused (s.regReads os vs).2 = fused s := by
  induction os generalizing s vs with
  | nil => rfl
  | cons o rest ih =>
    unfold State.regReads
    extract_lets t
    rw [ih]; simp [t]

@[simp] theorem fused_regRead (s : State) (sid : Nat) (offsets : List W32) :
    fused (s.regRead sid offsets) = fused s := by simp [State.regRead]

@[simp] theorem fused_vfRead (s : State) (p off n : Nat) : fused (s.vfRead p off n).2 = fused s := by
  unfold State.vfRead
  extract_lets s₁ k o
  have h₁ : fused s₁ = fused s := by simp [s₁]
  split
  · exact h₁
  · split
    · exact h₁
    · split
      · exact h₁
      · split
        · rename_i g hg; exact (fused_read (lookupKeeps_vfPage p _ g hg) ..).trans h₁
        · exact h₁

@[simp] theorem fused_registerRead (s : State) (port : RegPort) (off n : Nat) : fused (s.registerRead port off n) = fused s := by
  unfold State.registerRead
  split <;> simp

@[simp] theorem fused_msixSetPf (s : State) (i v : Nat) : fused (s.msixSetPf i v) = fused s := by simp [State.msixSetPf]

@[simp] theorem fused_msixSetVf (s : State) (p i v : Nat) : fused (s.msixSetVf p i v) = fused s := by simp [State.msixSetVf]

@[simp] theorem fused_tableWrite (s : State) (o n v : Nat) {set : State → Nat → Nat → State} (h : ∀ t i v, fused (set t i v) = fused t) :
    fused (tableWrite s o n v set) = fused s := by
  simp [tableWrite, h]

@[simp] theorem fused_pfMmioWrite (s : State) (off n v : Nat) : fused (s.pfMmioWrite off n v) = fused s := by simp [State.pfMmioWrite]

@[simp] theorem fused_vfMmioWrite (s : State) (p off n v : Nat) : fused (s.vfMmioWrite p off n v) = fused s := by
  unfold State.vfMmioWrite
  extract_lets k o
  split
  · simp
  · split
    · rfl
    · rename_i g hg
      simp [fused_vfWrite (lookupKeeps_vfPage p _ g hg)]

@[simp] theorem fused_partCommand (s : State) (sid p cmd : Nat) :
    fused (s.partCommand sid p cmd) = fused s := by simp [State.partCommand]

@[simp] theorem fused_mirrorCommand (s : State) (sid p cmd : Nat) (env : WEnv → WEnv) :
    fused (s.mirrorCommand sid p cmd env) = fused s := by simp [State.mirrorCommand]

@[simp] theorem fused_holdData (s : State) (p : Nat) (r : ORef) (bytes : List Byte) :
    fused (s.holdData p r bytes) = fused s := by simp [State.holdData]

@[simp] theorem fused_writeData (s : State) (p : Nat) (r : ORef) (bytes : List Byte) (f : EccFinding) :
    fused (s.writeData p r bytes f) = fused s := by simp [State.writeData]

@[simp] theorem fused_applyPosted (s : State) (p : Nat) (i : Instr) : fused (s.applyPosted p i) = fused s := by
  unfold State.applyPosted
  split <;> simp

@[simp] theorem fused_arrivals (s : State) (p n : Nat) : fused (s.arrivals p n) = fused s := by
  induction n generalizing s with
  | zero => rfl
  | succ n ih =>
    unfold State.arrivals
    split
    · rfl
    · split
      · rfl
      · extract_lets next
        have hn : ∀ t, fused (next t) = fused t := fun t => by simp [next]
        clear_value next
        split <;> simp [ih, hn]

@[simp] theorem fused_readData (s : State) (p : Nat) (r : ORef) (len : Nat) (f : EccFinding) :
    fused (s.readData p r len f) = fused s := by simp [State.readData]

@[simp] theorem fused_readArrives (s : State) (p : Nat) : fused (s.readArrives p) = fused s := by
  unfold State.readArrives
  split <;> simp

@[simp] theorem fused_arrive (s : State) (p : Nat) : fused (s.arrive p) = fused s := by simp [State.arrive]

@[simp] theorem fused_arriveAll (s : State) : fused (s.arriveAll) = fused s := by simp [State.arriveAll]

@[simp] theorem fused_post (s : State) (p : Nat) (x : Posted) {now : State → State} (h : ∀ t, fused (now t) = fused t) :
    fused (s.post p x now) = fused s := by
  simp [State.post, h]

@[simp] theorem fused_postCmd (s : State) (p : Nat) (i : Instr) : fused (s.postCmd p i) = fused s := by simp [State.postCmd]

@[simp] theorem fused_registerWrite (s : State) (port : RegPort) (off : W32) (n : Byte) (v : W64) :
    fused (s.registerWrite port off n v) = fused s := by
  unfold State.registerWrite
  split <;> simp

@[simp] theorem fused_apertureRead (s : State) (p off len : Nat) (f : EccFinding) : fused (s.apertureRead p off len f) = fused s := by
  unfold State.apertureRead
  dsimp only
  (repeat' split) <;> simp

@[simp] theorem fused_apertureWrite (s : State) (p off : Nat) (bytes : List Byte) (poisoned : Bool) (f : EccFinding) :
    fused (s.apertureWrite p off bytes poisoned f) = fused s := by
  unfold State.apertureWrite
  dsimp only
  (repeat' split) <;> simp

/-! ### The instructions, and the step -/

/-- Where an instruction answers a next state, that state has the fuses and the fused SVN of `s`. -/
def OutKeeps (s : State) (o : Host.Outcome State Fault Refusal) : Prop := ∀ t, o = .next t → fused t = fused s
@[simp] theorem outKeeps_next (s t : State) : OutKeeps s (.next t) ↔ fused t = fused s := by simp [OutKeeps]

theorem outKeeps_fault (s : State) (f : Fault) : OutKeeps s (.fault f) := by simp [OutKeeps]

theorem fused_exec (i : Instr) (s : State) (hi : ∀ sid, i ≠ .svnCommit sid) : OutKeeps s (exec i s) := by
  cases i
  case descriptorFetch => simp [exec, execDescriptorFetch]
  case doorbell => simp [exec, execDoorbell]
  case ringStart => simp [exec, execRingStart]
  case ringStop => simp [exec, execRingStop]
  case commandStart => simp [exec, execCommandStart]
  case commandTerminal => simp [exec, execCommandTerminal]
  case fence => simp [exec, execFence]
  case wait => simp [exec, execWait]
  case signal => simp [exec, execSignal]
  case snuff => simp [exec, execSnuff]
  case listLoad => simp [exec, execListLoad]
  case listGenerationSwitch => simp [exec, execListGenerationSwitch]
  case contextEnable => simp [exec, execContextEnable]
  case contextDisable => simp [exec, execContextDisable]
  case batchStepBoundary => simp [exec, execBatchStepBoundary]
  case contextSave => simp [exec, execContextSave]
  case contextRestore => simp [exec, execContextRestore]
  case gemmTile => simp [exec, execGemmTile]
  case reduceInto => simp [exec, execReduceInto]
  case arrayFault => simp [exec, execArrayFault]
  case arrayTimeout => simp [exec, execArrayTimeout]
  case selfCheck => simp [exec, execSelfCheck]
  case wickOp => simp [exec, execWickOp]
  case normRms => simp [exec, execNormRms]
  case wickFault => simp [exec, execWickFault]
  case lanternLoad => simp [exec, execLanternLoad]
  case lanternLoadWrite => simp [exec, execLanternLoadWrite]
  case lanternSwitch => simp [exec, execLanternSwitch]
  case listCall => simp [exec, execListCall]
  case participantTakeIndex => simp [exec, execParticipantTakeIndex]
  case tileWatchExpiry => simp [exec, execTileWatchExpiry]
  case convTile => simp [exec, execConvTile]
  case attnTile => simp [exec, execAttnTile]
  case scanChunk => simp [exec, execScanChunk]
  case seqAdd => simp [exec, execSeqAdd]
  case seqFork => simp [exec, execSeqFork]
  case seqEnd => simp [exec, execSeqEnd]
  case step => simp [exec, execStep]
  case stepCommit => simp [exec, execStepCommit]
  case stepPhaseFail => simp [exec, execStepPhaseFail]
  case prefixLookup => simp [exec, execPrefixLookup]
  case pagePin => simp [exec, execPagePin]
  case seqPageStart => simp [exec, execSeqPageStart]
  case seqPageStop => simp [exec, execSeqPageStop]
  case streamChunkOpen => simp [exec, execStreamChunkOpen]
  case streamChunkUpdate => simp [exec, execStreamChunkUpdate]
  case streamChunkReset => simp [exec, execStreamChunkReset]
  case streamChunkClear => simp [exec, execStreamChunkClear]
  case streamChunkClose => simp [exec, execStreamChunkClose]
  case automaticSwapIn => simp [exec, execAutomaticSwapIn]
  case objCmdDefine => simp [exec, execObjCmdDefine]
  case objCmdRelease => simp [exec, execObjCmdRelease]
  case objCmdMark => simp [exec, execObjCmdMark]
  case move => simp [exec, execMove]
  case prefetch => simp [exec, execPrefetch]
  case swapOut => simp [exec, execSwapOut]
  case swapIn => simp [exec, execSwapIn]
  case moveCommit => simp [exec, execMoveCommit]
  case fill => simp [exec, execFill]
  case scrub => simp [exec, execScrub]
  case patrolScrub => simp [exec, execPatrolScrub]
  case channelFail => simp [exec, execChannelFail]
  case retPage => simp [exec, execRetPage]
  case sessionOpen => simp [exec, execSessionOpen]
  case decodeUnit => simp [exec, execDecodeUnit]
  case encodeFrame => simp [exec, execEncodeFrame]
  case sessionClose => simp [exec, execSessionClose]
  case batchSuspend => simp [exec, execBatchSuspend]
  case batchResume => simp [exec, execBatchResume]
  case unitWorkBound => simp [exec, execUnitWorkBound]
  case cdcFault => simp [exec, execCdcFault]
  case partCreate => simp [exec, execPartCreate]
  case partCommit => simp [exec, execPartCommit]
  case partAbandon => simp [exec, execPartAbandon]
  case partStart => simp [exec, execPartStart]
  case partStop => simp [exec, execPartStop]
  case partForce => simp [exec, execPartForce]
  case partTeardown => simp [exec, execPartTeardown]
  case drainComplete => simp [exec, execDrainComplete]
  case drainTimeout => simp [exec, execDrainTimeout]
  case teardownComplete => simp [exec, execTeardownComplete]
  case snapshot => simp [exec, execSnapshot]
  case regulatorRefill => simp [exec, execRegulatorRefill]
  case getVersion => simp [exec, execGetVersion]
  case getCapabilities => simp [exec, execGetCapabilities]
  case negotiateAlgorithms => simp [exec, execNegotiateAlgorithms]
  case getDigests => simp [exec, execGetDigests]
  case getCertificate => simp [exec, execGetCertificate]
  case challenge => simp [exec, execChallenge]
  case getMeasurements => simp [exec, execGetMeasurements]
  case keyExchange => simp [exec, execKeyExchange]
  case finish => simp [exec, execFinish]
  case heartbeat => simp [exec, execHeartbeat]
  case keyUpdate => simp [exec, execKeyUpdate]
  case endSession => simp [exec, execEndSession]
  case chunkSend => simp [exec, execChunkSend]
  case chunkGet => simp [exec, execChunkGet]
  case heartbeatTimeout => simp [exec, execHeartbeatTimeout]
  case regWrite => simp [exec, execRegWrite]
  case regRead => simp [exec, execRegRead]
  case claim => simp [exec, execClaim]
  case release => simp [exec, execRelease]
  case credInstall => simp [exec, execCredInstall]
  case credRemove => simp [exec, execCredRemove]
  case fwStage => simp [exec, execFwStage]
  case fwActivate => simp [exec, execFwActivate]
  case svnCommit sid => exact absurd rfl (hi sid)
  case consent => simp [exec, execConsent]
  case debugUnlock => simp [exec, execDebugUnlock]
  case pairBind => simp [exec, execPairBind]
  case getTdispVersion =>
    simp only [exec, execGetTdispVersion, outKeeps_next]
    exact fused_hostSecurity (by simp) _
  case getTdispCapabilities =>
    simp only [exec, execGetTdispCapabilities, outKeeps_next]
    exact fused_hostSecurity (by simp) _
  case lockInterfaceRequest =>
    simp only [exec, execLockInterfaceRequest, outKeeps_next]
    exact fused_hostSecurity (fused_tdiLock _ _) _
  case getDeviceInterfaceReport =>
    simp only [exec, execGetDeviceInterfaceReport, outKeeps_next]
    exact fused_hostSecurity (fused_tdiReport _ _) _
  case getDeviceInterfaceState =>
    simp only [exec, execGetDeviceInterfaceState, outKeeps_next]
    exact fused_hostSecurity (by simp) _
  case startInterfaceRequest =>
    simp only [exec, execStartInterfaceRequest, outKeeps_next]
    exact fused_hostSecurity (fused_tdiStart _ _) _
  case stopInterfaceRequest =>
    simp only [exec, execStopInterfaceRequest, outKeeps_next]
    exact fused_hostSecurity (by simp) _
  case atsInvalidation => simp [exec, execAtsInvalidation]
  case apertureRead => simp [exec, execApertureRead]
  case apertureWrite => simp [exec, execApertureWrite]
  case hostReadTimeout => simp [exec, execHostReadTimeout]
  case vfFlr => simp [exec, execVfFlr]
  case flrStep3Timeout => simp [exec, execFlrStep3Timeout]
  case flrDone => simp [exec, execFlrDone]
  case vfEnableClear again => cases again <;> simp [exec, execVfEnableClear]
  case hstHdmGib => simp [exec, execHstHdmGib]
  case hstHdmAttr => simp [exec, execHstHdmAttr]
  case hdmDecoderCommit => simp [exec, execHdmDecoderCommit]
  case hdmAccess =>
    simp only [exec, execHdmAccess]
    split
    · simp
    · exact outKeeps_fault _ _
  case ideFault => simp [exec, execIdeFault]
  case linkTrained => simp [exec, execLinkTrained]
  case linkDown => simp [exec, execLinkDown]
  case hostPortReset => simp [exec, execHostPortReset]
  case send => simp [exec, execSend]
  case recvPost => simp [exec, execRecvPost]
  case rtpBind => simp [exec, execRtpBind]
  case rtpUnbind => simp [exec, execRtpUnbind]
  case frameReceive => simp [exec, execFrameReceive]
  case recvIdle => simp [exec, execRecvIdle]
  case vportEnable => simp [exec, execVportEnable]
  case vportDisable => simp [exec, execVportDisable]
  case netLinkChange => simp [exec, execNetLinkChange]
  case netFault => simp [exec, execNetFault]
  case flitReceive => simp [exec, execFlitReceive]
  case nak => simp [exec, execNak]
  case keyx => simp [exec, execKeyx]
  case keepalive => simp [exec, execKeepalive]
  case keepaliveMiss => simp [exec, execKeepaliveMiss]
  case pairLinkFail => simp [exec, execPairLinkFail]
  case peerBack => simp [exec, execPeerBack]
  case mirrorEnable => simp [exec, execMirrorEnable]
  case sync => simp [exec, execSync]
  case promote => simp [exec, execPromote]
  case solo => simp [exec, execSolo]
  case unbind => simp [exec, execUnbind]
  case deltaEnd => simp [exec, execDeltaEnd]
  case deltaAck => simp [exec, execDeltaAck]
  case refuse => simp [exec, execRefuse]
  case pwrEnRise => simp [exec, execPwrEnRise]
  case powerGood => simp [exec, execPowerGood]
  case imageVerified => simp [exec, execImageVerified]
  case hostPushImage => simp [exec, execHostPushImage]
  case startup => simp [exec, execStartup]
  case pwrEnFall => simp [exec, execPwrEnFall]
  case j1WindowExit => simp [exec, execJ1WindowExit]
  case resetN => simp [exec, execResetN]
  case entdaa => simp [exec, execEntdaa]
  case rstdaa => simp [exec, execRstdaa]
  case setdasa => simp [exec, execSetdasa]
  case setnewda => simp [exec, execSetnewda]
  case enec => simp [exec, execEnec]
  case disec => simp [exec, execDisec]
  case getpid => simp [exec, execGetpid]
  case getbcr => simp [exec, execGetbcr]
  case getdcr => simp [exec, execGetdcr]
  case getstatus => simp [exec, execGetstatus]
  case getmrl => simp [exec, execGetmrl]
  case getmwl => simp [exec, execGetmwl]
  case setmrl => simp [exec, execSetmrl]
  case setmwl => simp [exec, execSetmwl]
  case mctpControl => simp [exec, execMctpControl]
  case statusGet => simp [exec, execStatusGet]
  case alertGet => simp [exec, execAlertGet]
  case governorPeriod => simp [exec, execGovernorPeriod]
  case powerFastLimit => simp [exec, execPowerFastLimit]
  case thermalCondition => simp [exec, execThermalCondition]
  case thermalShutdown => simp [exec, execThermalShutdown]
  case converterFault => simp [exec, execConverterFault]
  case pwrStReq => simp [exec, execPwrStReq]
  case selftestDone => simp [exec, execSelftestDone]
  case calibrationSlice => simp [exec, execCalibrationSlice]
  case retrain => simp [exec, execRetrain]
  case retrainForced => simp [exec, execRetrainForced]
  case partitionStall => simp [exec, execPartitionStall]
  case evtStart => simp [exec, execEvtStart]
  case evtStop => simp [exec, execEvtStop]
  case evtHead p _ _ _ => cases p <;> simp [exec, execEvtHead]
  case pevEnable => simp [exec, execPevEnable]
  case lock => simp [exec, execLock]
  case registerReadClear => simp [exec, execRegisterReadClear]
  case registerWrite => simp [exec, execRegisterWrite]
  case cryptoFault => simp [exec, execCryptoFault]
  case j1BackInWindow => simp [exec, execJ1BackInWindow]
  case resetNRise => simp [exec, execResetNRise]
  case perstNRise => simp [exec, execPerstNRise]
  case keyRenewal => simp [exec, execKeyRenewal]
  case ideKm =>
    simp only [exec, execIdeKm, outKeeps_next]
    exact fused_hostSecurity (fused_ideKeys _ _ _ _) _
  case doeDiscovery => simp [exec, execDoeDiscovery]
  case retrainWait => simp [exec, execRetrainWait]

/-- The fused SVN has not fallen and the other fuses are as they were. -/
def FuseRises (s t : State) : Prop := s.flash.fusedSvn.toNat ≤ t.flash.fusedSvn.toNat ∧ t.fuse = s.fuse

theorem fuseRises_of_fused {s t : State} (h : fused t = fused s) : FuseRises s t := by
  obtain ⟨hn, hf⟩ := Prod.mk.inj h
  exact ⟨by rw [hn], hf⟩
theorem FuseRises.after {s t u : State} (h : FuseRises t u) (ht : fused t = fused s) : FuseRises s u := by
  obtain ⟨hn, hf⟩ := Prod.mk.inj ht
  exact ⟨hn ▸ h.1, h.2.trans hf⟩
theorem FuseRises.before {s t u : State} (h : FuseRises s t) (hu : fused u = fused t) : FuseRises s u := by
  obtain ⟨hn, hf⟩ := Prod.mk.inj hu
  exact ⟨hn ▸ h.1, hf.trans h.2⟩

theorem fuseRises_carry (s : State) (t : Transport) (n : JrnNote) (cause : W16) (reply : Reply) {effect : State → State}
    (h : ∀ u, FuseRises u (effect u)) : FuseRises s (s.carry t n cause reply effect) := by
  unfold State.carry
  split
  · exact fuseRises_of_fused (by simp)
  · split
    · exact fuseRises_of_fused (by simp)
    · exact ((h (s.journal n)).after (by simp)).before (by simp)

theorem fuseRises_vendor (s : State) (sid : Nat) (n : Writer → JrnNote) (may : SpdmSession → Bool) (cause : W16) (reply : Reply)
    {effect : State → State} (h : ∀ u, FuseRises u (effect u)) : FuseRises s (s.vendor sid n may cause reply effect) := by
  unfold State.vendor State.inSession
  split
  · exact fuseRises_of_fused rfl
  · split
    · exact fuseRises_of_fused (by simp)
    · split
      · exact fuseRises_of_fused rfl
      · split
        · exact fuseRises_carry _ _ _ _ _ h
        · exact fuseRises_of_fused rfl

/-- SVN_COMMIT sets the fused SVN to the larger of the two (R346). -/
theorem fuseRises_svnCommit (s : State) (sid : Nat) : FuseRises s (s.svnCommit sid) := by
  unfold State.svnCommit
  extract_lets i
  refine fuseRises_vendor _ _ _ _ _ _ fun u => ⟨?_, rfl⟩
  change _ ≤ (if _ then _ else _ : BitVec 6).toNat
  split
  · omega
  · exact Nat.le_refl _

theorem fuseRises_exec {i : Instr} {s t : State} (h : exec i s = .next t) : FuseRises s t := by
  by_cases hi : ∃ sid, i = .svnCommit sid
  · obtain ⟨sid, rfl⟩ := hi
    have ht : t = s.svnCommit sid := by simpa [exec, execSvnCommit] using h.symm
    exact ht ▸ fuseRises_svnCommit s sid
  · exact fuseRises_of_fused (fused_exec i s (fun sid hs => hi ⟨sid, hs⟩) t h)

theorem fuseRises_step {s t : State} (h : step s = .next t) : FuseRises s t := by
  unfold step at h
  split at h
  · have ht : t = s.tick.arriveAll := by simpa using h.symm
    exact fuseRises_of_fused (by simp [ht])
  · exact (fuseRises_exec h).after (by simp)

/-- Settles O59: every function of the model but the effect of SVN_COMMIT leaves the fuses and the fused SVN (`fused`), and SVN_COMMIT
takes the larger SVN. -/
theorem fusedSvnNeverFalls : Obligations.FusedSvnNeverFalls := by
  intro n s t hn h
  obtain ⟨hr, hf⟩ := fuseRises_step h
  exact ⟨hn.trans hr, hf⟩

end Sys2Proof.RolesTrustAndJournal

/-! The messages of Table 10.2: ownership, keys, consent, the fused SVN and the pair (O37). -/

namespace Sys2Proof.RolesTrustAndJournal
open Sys2Proof Sys2Proof.Machine
open Sys2Proof.PartitionsAndSharing (respond_told)

/-! ### What an answer, the end of sessions and a journal entry leave, and the rules of the messages of Table 10.2 -/

@[simp] theorem respond_flash (s : State) (t : Transport) (r : Reply) : (s.respond t r).flash = s.flash := by
  obtain ⟨n, q, htold⟩ := respond_told s t r
  rw [htold.rest]
@[simp] theorem respond_sec (s : State) (t : Transport) (r : Reply) : (s.respond t r).sec = s.sec := by
  obtain ⟨n, q, htold⟩ := respond_told s t r
  rw [htold.rest]

@[simp] theorem endSession_flash (s : State) (sid : Nat) : (s.endSession sid).flash = s.flash := rfl

/-- Ending sessions changes the table of sessions, the image being staged and the locks that the sessions hold. -/
theorem endSessions_rest (s : State) (f : SpdmSession → Bool) : ∃ ss st h, s.endSessions f =
    { s with sec := { s.sec with sessions := ss, staging := st }, hdr := h } := by
  unfold State.endSessions
  generalize s.sec.sessions.filterMap _ = l
  induction l generalizing s with
  | nil => exact ⟨_, _, _, rfl⟩
  | cons i l ih =>
    obtain ⟨ss, st, h, he⟩ := ih (s.endSession i)
    exact ⟨ss, st, h, he⟩
@[simp] theorem endSessions_flash (s : State) (f : SpdmSession → Bool) : (s.endSessions f).flash = s.flash := by
  obtain ⟨ss, st, h, he⟩ := endSessions_rest s f
  rw [he]
@[simp] theorem endSessions_lockedOut (s : State) (f : SpdmSession → Bool) : (s.endSessions f).sec.lockedOut = s.sec.lockedOut := by
  obtain ⟨ss, st, h, he⟩ := endSessions_rest s f
  rw [he]
@[simp] theorem endHandshakes_flash (s : State) (f : Byte → Bool) : (s.endHandshakes f).flash = s.flash := endSessions_flash ..

theorem carry_refused (s : State) (t : Transport) (n : JrnNote) {cause : W16} (reply : Reply) (effect : State → State) (h : cause ≠ 0) :
    s.carry t n cause reply effect = (s.note { n with action := .refused, cause := cause }).respond t { cause := cause } := by
  exact if_pos h
theorem carry_done {s : State} (t : Transport) (n : JrnNote) (reply : Reply) (effect : State → State) (h : s.journalOk = true) :
    s.carry t n 0 reply effect = (effect (s.note n)).respond t reply := by
  simp [State.carry, State.note, h]

theorem inSession_open {s : State} {sid : Nat} {x : SpdmSession} (f : SpdmSession → State) (ho : s.open? sid = some x)
    (hs : s.serves x.transport = true) : s.inSession sid f = f x := by
  simp [State.inSession, ho, hs]

theorem vendor_open {s : State} {sid : Nat} {x : SpdmSession} (n : Writer → JrnNote) (may : SpdmSession → Bool) (cause : W16)
    (reply : Reply) (effect : State → State) (hall : s.servesAll = true) (ho : s.open? sid = some x) (hs : s.serves x.transport = true) :
    s.vendor sid n may cause reply effect = s.carry x.transport (n x.writer) (if may x then cause else Cause.ownerDenied) reply effect := by
  simp [State.vendor, hall, ho, inSession_open _ ho hs]

/-- A message of Table 10.2 refused with OWNER_DENIED: nothing that Table 10.2 changes has changed. -/
def Denied (s t : State) : Prop :=
  t.reply = { cause := Cause.ownerDenied } ∧ t.flash.creds = s.flash.creds ∧ t.flash.fusedSvn = s.flash.fusedSvn ∧
    t.sec.debug = s.sec.debug ∧ t.flash.peerDigest = s.flash.peerDigest

theorem denied_carry (s : State) (t : Transport) (n : JrnNote) (reply : Reply) (effect : State → State) :
    Denied s (s.carry t n Cause.ownerDenied reply effect) := by
  rw [carry_refused _ _ _ _ _ (by decide)]
  simp [Denied]

/-! ### Ownership, keys, consent and the pair (O37) -/

theorem claim_outside {s : State} {key : List Byte} {ok : Bool} {cause : W16} (hall : s.servesAll = true) (hs : s.serves .sideband = true)
    (hc : (if s.sec.lockedOut || !(s.credKey 0x10).isEmpty then Cause.claimed else if !keyOk key ok then Cause.credSlot else 0) = cause) :
    s.claim key ok none = s.carry .sideband { action := .claim, who := Writer.none, old := 0, new := keyDigest key } cause {}
      fun u => u.modFlash fun f => f.setCreds (tset f.creds 0x10 key) := by
  simp [State.claim, hall, hs, ← hc]

/-- CLAIM of an unclaimed device (R323, R324). -/
theorem claim_answers {s : State} {key : List Byte} (hj : s.journalOk = true) (hall : s.servesAll = true) (hs : s.serves .sideband = true)
    (hlen : key.length = 1312) (hlock : s.sec.lockedOut = false) (hkey : s.credKey 0x10 = []) :
    Answers (.claim key true) s fun t =>
      t.credKey 0x10 = key ∧ t.flash.credsB = t.flash.creds ∧ t.reply = {} ∧ (∀ k, k ≠ 0x10 → t.credKey k = s.credKey k) := by
  refine ⟨s.claim key true none, rfl, ?_⟩
  rw [claim_outside (cause := 0) hall hs (by simp [hlock, hkey, keyOk, hlen]), carry_done _ _ _ _ hj]
  simp [State.credKey, hlock, Flash.setCreds]
  exact fun k hk => tget_tset_of_ne _ _ _ hk

/-- A CLAIM refused (R323, R324). -/
theorem claim_refused {s : State} {key : List Byte} {ok : Bool} {cause : W16} (hall : s.servesAll = true) (hs : s.serves .sideband = true)
    (hc : (if s.sec.lockedOut || !(s.credKey 0x10).isEmpty then Cause.claimed else if !keyOk key ok then Cause.credSlot else 0) = cause)
    (hne : cause ≠ 0) : Answers (.claim key ok) s fun t => t.flash.creds = s.flash.creds ∧ t.reply = { cause := cause } := by
  refine ⟨s.claim key ok none, rfl, ?_⟩
  rw [claim_outside hall hs hc, carry_refused _ _ _ _ _ hne]
  simp

section
variable {s : State} {sid : Nat} {x : SpdmSession} (hj : s.journalOk = true) (hall : s.servesAll = true) (ho : s.open? sid = some x)
  (hs : s.serves x.transport = true)

/-- The condition under which a session may release the device (R325). -/
def mayRelease (x : SpdmSession) : Bool := x.role == .installer || (x.role == .maker && x.transport == .sideband)

include hall ho hs in
theorem release_open {cause : W16}
    (hc : (if !mayRelease x then Cause.ownerDenied else if !s.allEmpty then Cause.partitionsLive else 0) = cause) :
    s.release (some sid) = s.carry x.transport { action := .release, who := x.writer, old := keyDigest (s.credKey 0x10), new := 0 } cause {}
      State.releaseDo := by
  simp only [State.release, hall, inSession_open _ ho hs, ← hc]
  rfl

include hj hall ho hs in
theorem release_answers (hmay : mayRelease x = true) (hempty : s.allEmpty = true) : Answers (.release (some sid)) s fun t =>
    t.flash.creds = [] ∧ t.flash.credsB = [] ∧ t.flash.policy = 0 ∧ t.sec.lockedOut = false ∧ t.reply = {} := by
  refine ⟨s.release (some sid), rfl, ?_⟩
  rw [release_open hall ho hs (cause := 0) (by simp [hmay, hempty]), carry_done _ _ _ _ hj]
  simp [State.releaseDo, Flash.setCreds]

include hall ho hs in
theorem release_live (hmay : mayRelease x = true) (hempty : s.allEmpty = false) : Answers (.release (some sid)) s fun t =>
    t.flash.creds = s.flash.creds ∧ t.reply = { cause := Cause.partitionsLive } := by
  refine ⟨s.release (some sid), rfl, ?_⟩
  rw [release_open hall ho hs (cause := Cause.partitionsLive) (by simp [hmay, hempty]), carry_refused _ _ _ _ _ (by decide)]
  simp

include hall ho hs in
theorem release_denied (hmay : mayRelease x = false) : Answers (.release (some sid)) s (Denied s) := by
  refine ⟨s.release (some sid), rfl, ?_⟩
  rw [release_open hall ho hs (cause := Cause.ownerDenied) (by simp [hmay])]
  exact denied_carry ..

include hall ho hs in
/-- A message whose sender's role may not send it. -/
theorem vendor_denied (n : Writer → JrnNote) {may : SpdmSession → Bool} (cause : W16) (reply : Reply) (effect : State → State)
    (hmay : may x = false) : Denied s (s.vendor sid n may cause reply effect) := by
  rw [vendor_open _ _ _ _ _ hall ho hs, hmay]
  exact denied_carry ..

include hj hall ho hs in
/-- A message whose sender's role may send it, and which nothing refuses. -/
theorem vendor_done (n : Writer → JrnNote) {may : SpdmSession → Bool} {cause : W16} (reply : Reply) (effect : State → State)
    (hmay : may x = true) (hc : cause = 0) :
    s.vendor sid n may cause reply effect = (effect (s.note (n x.writer))).respond x.transport reply := by
  rw [vendor_open _ _ _ _ _ hall ho hs, hmay, hc, if_pos rfl, carry_done _ _ _ _ hj]

include hall ho hs in
/-- A message whose sender's role may send it, refused with a cause of its own. -/
theorem vendor_refused (n : Writer → JrnNote) {may : SpdmSession → Bool} {cause : W16} (reply : Reply) (effect : State → State)
    (hmay : may x = true) (hc : cause ≠ 0) : s.vendor sid n may cause reply effect =
      (s.note { n x.writer with action := .refused, cause := cause }).respond x.transport { cause := cause } := by
  rw [vendor_open _ _ _ _ _ hall ho hs, hmay, if_pos rfl, carry_refused _ _ _ _ _ hc]

include hj hall ho hs in
theorem svnCommit_raises (hmay : x.role = .installer ∨ x.role = .operator ∧ bitOf s.flash.policy.toNat 1 = true) :
    Answers (.svnCommit sid) s fun t => t.reply = {} ∧ t.flash.fusedSvn.toNat = max s.flash.fusedSvn.toNat s.flash.running.svn.toNat := by
  refine ⟨s.svnCommit sid, rfl, ?_⟩
  unfold State.svnCommit
  rw [vendor_done hj hall ho hs _ _ _ (by simpa using hmay) rfl]
  refine ⟨by simp, ?_⟩
  simp only [respond_flash, State.modFlash_flash, State.note_fusedSvn]
  split <;> omega

include hall ho hs in
theorem svnCommit_denied (hinst : x.role ≠ .installer) (hop : x.role = .operator → bitOf s.flash.policy.toNat 1 = false) :
    Answers (.svnCommit sid) s (Denied s) := by
  refine ⟨s.svnCommit sid, rfl, ?_⟩
  unfold State.svnCommit
  exact vendor_denied hall ho hs _ _ _ _ (by simpa [hinst] using hop)

include hj hall ho hs in
theorem credInstall_answers (hrole : x.role = .installer) {slot : Byte} {key : List Byte}
    (hslot : slot = 0x10 ∨ 0x20 ≤ slot.toNat ∧ slot.toNat ≤ 0x23) (hlen : key.length = 1312) :
    Answers (.credInstall sid slot key true) s fun t => t.reply = {} ∧ t.flash.creds = tset s.flash.creds slot.toNat key := by
  refine ⟨s.credInstall sid slot key true, rfl, ?_⟩
  unfold State.credInstall
  rw [vendor_done hj hall ho hs _ _ _ (by simp [hrole]) (if_pos (by simpa [keyOk, hlen] using hslot))]
  simp [Flash.setCreds]

include hall ho hs in
theorem credInstall_denied (hrole : x.role ≠ .installer) (slot : Byte) (key : List Byte) (ok : Bool) :
    Answers (.credInstall sid slot key ok) s (Denied s) := by
  refine ⟨s.credInstall sid slot key ok, rfl, ?_⟩
  unfold State.credInstall
  exact vendor_denied hall ho hs _ _ _ _ (by simpa using hrole)

include hj hall ho hs in
theorem credRemove_answers (hrole : x.role = .installer) {slot : Byte} (hlo : 0x20 ≤ slot.toNat) (hhi : slot.toNat ≤ 0x23) :
    Answers (.credRemove sid slot) s fun t => t.reply = {} ∧ t.flash.creds = tset s.flash.creds slot.toNat [] := by
  refine ⟨s.credRemove sid slot, rfl, ?_⟩
  unfold State.credRemove
  rw [vendor_done hj hall ho hs _ _ _ (by simp [hrole]) (by simp [hlo, hhi])]
  simp [Flash.setCreds]

include hall ho hs in
theorem credRemove_denied (hrole : x.role ≠ .installer) (slot : Byte) : Answers (.credRemove sid slot) s (Denied s) := by
  refine ⟨s.credRemove sid slot, rfl, ?_⟩
  unfold State.credRemove
  exact vendor_denied hall ho hs _ _ _ _ (by simpa using hrole)

include hj hall ho hs in
theorem consent_answers (hrole : x.role = .installer) (hdebug : bitOf s.flash.policy.toNat 3 = false) :
    Answers (.consent sid) s fun t => ∃ n, t.sec.consent = some n ∧ t.reply = { bytes := digestBytes n } := by
  refine ⟨s.consentMsg sid, rfl, BitVec.ofNat 256 (Config.freeNat s.free), ?_⟩
  unfold State.consentMsg
  rw [vendor_done hj hall ho hs _ _ _ (by simp [hrole]) (by simp [hdebug])]
  simp

include hall ho hs in
theorem consent_refused (hrole : x.role = .installer) (hdebug : bitOf s.flash.policy.toNat 3 = true) :
    Answers (.consent sid) s fun t => t.sec.consent = s.sec.consent ∧ t.reply = { cause := Cause.consentMissing } := by
  refine ⟨s.consentMsg sid, rfl, ?_⟩
  unfold State.consentMsg
  rw [hdebug, vendor_refused hall ho hs _ _ _ (by simp [hrole]) (by decide)]
  simp

include hall ho hs in
theorem consent_denied (hrole : x.role ≠ .installer) : Answers (.consent sid) s (Denied s) := by
  refine ⟨s.consentMsg sid, rfl, ?_⟩
  unfold State.consentMsg
  exact vendor_denied hall ho hs _ _ _ _ (by simpa using hrole)

include hj hall ho hs in
theorem pairBind_answers (hrole : x.role = .installer) (digest : BitVec 256) :
    Answers (.pairBind sid digest) s fun t => t.flash.peerDigest = some digest ∧ t.reply = {} := by
  refine ⟨s.pairBind sid digest, rfl, ?_⟩
  unfold State.pairBind
  rw [vendor_done hj hall ho hs _ _ _ (by simp [hrole]) rfl]
  simp

include hall ho hs in
theorem pairBind_denied (hrole : x.role ≠ .installer) (digest : BitVec 256) : Answers (.pairBind sid digest) s (Denied s) := by
  refine ⟨s.pairBind sid digest, rfl, ?_⟩
  unfold State.pairBind
  exact vendor_denied hall ho hs _ _ _ _ (by simpa using hrole)

include hj hall ho hs in
theorem debugUnlock_answers (hrole : x.role = .maker) {nonce : BitVec 256} (hn : s.sec.consent = some nonce) (hempty : s.allEmpty = true) :
    Answers (.debugUnlock sid nonce) s fun t => t.sec.debug = true ∧ t.sec.consent = none ∧ t.reply = {} := by
  refine ⟨s.debugUnlock sid nonce, rfl, ?_⟩
  unfold State.debugUnlock
  rw [vendor_done hj hall ho hs _ _ _ (by simp [hrole]) (by simp [hn, hempty])]
  simp

include hall ho hs in
theorem debugUnlock_refused (hrole : x.role = .maker) {nonce : BitVec 256} (hn : s.sec.consent ≠ some nonce) :
    Answers (.debugUnlock sid nonce) s fun t => t.sec.debug = s.sec.debug ∧ t.reply = { cause := Cause.consentMissing } := by
  refine ⟨s.debugUnlock sid nonce, rfl, ?_⟩
  unfold State.debugUnlock
  rw [if_pos hn, vendor_refused hall ho hs _ _ _ (by simp [hrole]) (by decide)]
  simp

include hall ho hs in
theorem debugUnlock_denied (hrole : x.role ≠ .maker) (nonce : BitVec 256) : Answers (.debugUnlock sid nonce) s (Denied s) := by
  refine ⟨s.debugUnlock sid nonce, rfl, ?_⟩
  unfold State.debugUnlock
  exact vendor_denied hall ho hs _ _ _ _ (by simpa using hrole)
end

/-- Settles O37: each message is `State.carry` on the cause that its sender's role and the state give; `carry` notes a refusal in the journal
or carries out the effect and answers. -/
theorem ownership : Obligations.Ownership := by
  intro s hj hall
  refine ⟨fun key hs hlen => ⟨claim_answers hj hall hs hlen, fun hlock hkey => ?_, fun h ok => ?_⟩, fun sid x ho hs => ?_⟩
  · exact claim_refused hall hs (by simp [hlock, hkey, keyOk]) (by decide)
  · exact claim_refused hall hs (if_pos (by simpa using h)) (by decide)
  refine ⟨fun hrole => ?_, fun hrole => ?_, fun hrole => ?_, fun hrole => ?_⟩
  · have hmay : mayRelease x = true := by
      rcases hrole with h | ⟨h, ht⟩
      · simp [mayRelease, h]
      · simp [mayRelease, h, ht]
    exact ⟨release_answers hj hall ho hs hmay, release_live hall ho hs hmay⟩
  · have hinst : x.role ≠ .installer := by simp [hrole]
    exact ⟨release_denied hall ho hs (by simp [mayRelease, hrole]), credInstall_denied hall ho hs hinst, credRemove_denied hall ho hs hinst,
      pairBind_denied hall ho hs hinst, consent_denied hall ho hs hinst, debugUnlock_denied hall ho hs (by simp [hrole]),
      fun hp => svnCommit_raises hj hall ho hs (.inr ⟨hrole, hp⟩), fun hp => svnCommit_denied hall ho hs hinst fun _ => hp⟩
  · exact ⟨fun _ _ => credInstall_answers hj hall ho hs hrole, fun _ => credRemove_answers hj hall ho hs hrole,
      svnCommit_raises hj hall ho hs (.inl hrole), consent_refused hall ho hs hrole, consent_answers hj hall ho hs hrole,
      pairBind_answers hj hall ho hs hrole, debugUnlock_denied hall ho hs (by simp [hrole])⟩
  · have hinst : x.role ≠ .installer := by simp [hrole]
    exact ⟨fun _ => debugUnlock_answers hj hall ho hs hrole, fun _ => debugUnlock_refused hall ho hs hrole,
      fun ht => release_denied hall ho hs (by simp [mayRelease, hrole, ht]), credInstall_denied hall ho hs hinst,
      credRemove_denied hall ho hs hinst, pairBind_denied hall ho hs hinst, consent_denied hall ho hs hinst,
      svnCommit_denied hall ho hs hinst (by simp [hrole])⟩

end Sys2Proof.RolesTrustAndJournal

/-! Firmware staged and activated (O38). -/

namespace Sys2Proof.RolesTrustAndJournal
open Sys2Proof Sys2Proof.Machine

/-! ### The two images of the flash -/

@[simp] theorem inactive_setInactive (f : Flash) (i : Image) (b : Bool) : ({ f.setInactive i with stagedNext := b } : Flash).inactive = i := by
  cases hb : f.activeB <;> simp [Flash.setInactive, Flash.inactive, hb]
@[simp] theorem active_setInactive (f : Flash) (i : Image) (b : Bool) :
    ({ f.setInactive i with stagedNext := b } : Flash).active = f.active := by
  cases hb : f.activeB <;> simp [Flash.setInactive, Flash.active, hb]
@[simp] theorem note_active (s : State) (n : JrnNote) : (s.note n).flash.active = s.flash.active := by simp [Flash.active]
@[simp] theorem note_inactive (s : State) (n : JrnNote) : (s.note n).flash.inactive = s.flash.inactive := by simp [Flash.inactive]

/-! ### The verdict on a whole image -/

/-- The form that a staged image must have (R343). -/
def GoodForm (bytes : List Byte) (digest : BitVec 256) (h : ImageHead) : Prop :=
  let n := h.bodyLen.getD (bytes.length - imageSize 0)
  h.magicOk = true ∧ n ≤ 65011712 ∧ bytes.length = imageSize n ∧ digest = Config.sha3 ((bytes.drop 4096).take n)

theorem stageCause_of_bad_form {s : State} {bytes : List Byte} {svn : BitVec 6} {digest : BitVec 256} {h : ImageHead}
    (hf : ¬ GoodForm bytes digest h) : s.stageCause bytes svn digest .pass h = Cause.fwSignature := by
  unfold State.stageCause
  refine if_pos ?_
  simpa only [GoodForm, Bool.not_eq_true', ← Bool.not_eq_true, Bool.and_eq_true, decide_eq_true_eq, beq_iff_eq, and_assoc] using hf

theorem stageCause_of_form {s : State} {bytes : List Byte} {svn : BitVec 6} {digest : BitVec 256} {h : ImageHead}
    (hf : GoodForm bytes digest h) : s.stageCause bytes svn digest .pass h =
      if h.slot1 = false ∧ s.fuse.revoked = true then Cause.fwSignature
      else if svn.toNat < s.flash.fusedSvn.toNat then Cause.fwRollback else 0 := by
  unfold State.stageCause
  refine (if_neg (by simpa [GoodForm, and_assoc] using hf)).trans ?_
  simp [State.imageCause]

/-! ### FW_STAGE and FW_ACTIVATE in an installer's session -/

/-- The inactive slot and what was held for it emptied. -/
def dropStaged (s : State) : State :=
  (s.modFlash fun f => { f.setInactive {} with stagedNext := false }).modSec fun y => { y with staging := none }
/-- The pieces `bytes` held for session `sid`, or stored as the image `i` with the last of them. -/
def holdStaged (sid : Nat) (last : Bool) (bytes : List Byte) (i : Image) (u : State) : State :=
  (u.modFlash fun f => { f.setInactive (if last then i else {}) with stagedNext := last && u.pwr.stage == .recovery }).modSec
    fun y => { y with staging := if last then none else some (sid, bytes) }

@[simp] theorem dropStaged_staging (s : State) : (dropStaged s).sec.staging = none := rfl
@[simp] theorem dropStaged_inactive (s : State) : (dropStaged s).flash.inactive = {} := inactive_setInactive ..
@[simp] theorem dropStaged_active (s : State) : (dropStaged s).flash.active = s.flash.active := active_setInactive ..
@[simp] theorem holdStaged_staging (sid : Nat) (last : Bool) (bytes : List Byte) (i : Image) (u : State) :
    (holdStaged sid last bytes i u).sec.staging = if last then none else some (sid, bytes) := rfl
@[simp] theorem holdStaged_inactive (sid : Nat) (last : Bool) (bytes : List Byte) (i : Image) (u : State) :
    (holdStaged sid last bytes i u).flash.inactive = if last then i else {} := inactive_setInactive ..
@[simp] theorem holdStaged_active (sid : Nat) (last : Bool) (bytes : List Byte) (i : Image) (u : State) :
    (holdStaged sid last bytes i u).flash.active = u.flash.active := active_setInactive ..

@[simp] theorem hotJoin_flash (s : State) : s.hotJoin.flash = s.flash := by
  unfold State.hotJoin
  split <;> rfl
@[simp] theorem firmwareReset_flash (s : State) : s.firmwareReset.flash = s.flash := hotJoin_flash _

/-- What session `sid` has staged before a piece: nothing, or `got` by earlier pieces. -/
def Staged (s : State) (sid : Nat) (first : Bool) (got : List Byte) : Prop :=
  s.sec.staging = none ∧ got = [] ∨ first = false ∧ s.sec.staging = some (sid, got)

section
variable {s : State} {sid : Nat} {x : SpdmSession} (hup : SessionUp s sid x .installer)
include hup

section
variable {first last : Bool} {got piece : List Byte} {svn : BitVec 6} {digest : BitVec 256} {check : ImageCheck} {h : ImageHead}
  (hstaged : Staged s sid first got)
include hstaged

/-- A piece from its session: refused with the image's cause where it is the last and the image does not pass, or else held. -/
theorem fwStage_open : ∃ n, s.fwStage sid first last piece svn digest check h =
    if last && s.stageCause (got ++ piece) svn digest check h != 0 then
      (dropStaged s).carry x.transport n (s.stageCause (got ++ piece) svn digest check h) {} id
    else s.carry x.transport n 0 {} (holdStaged sid last (got ++ piece) (stagedImage (got ++ piece) svn h)) := by
  obtain ⟨hst, hj, ho, hs, hrole⟩ := hup
  have hmay : s.fwMay x = true := by simp [State.fwMay, hrole]
  refine ⟨{ action := .fwStage, who := x.writer, detail := svn.toNat, old := s.flash.inactive.digest, new := digest }, ?_⟩
  unfold State.fwStage
  extract_lets n busy all bad
  have hfree : busy = false ∧ all = got ++ piece := by
    unfold busy all
    rcases hstaged with ⟨hnone, rfl⟩ | ⟨rfl, hsome⟩
    · rw [hnone]
      exact ⟨rfl, rfl⟩
    · rw [hsome]
      simp
  obtain ⟨hb, ha⟩ := hfree
  clear_value busy all
  subst hb ha
  rw [ho]
  exact (inSession_open _ ho hs).trans (if_neg (by simp [hmay]))

theorem fwStage_refused (hbad : s.stageCause (got ++ piece) svn digest check h ≠ 0) :
    Answers (.fwStage sid first true piece svn digest check h) s fun t =>
      t.sec.staging = none ∧ t.flash.inactive.valid = false ∧ t.flash.active = s.flash.active ∧
        t.reply = { cause := s.stageCause (got ++ piece) svn digest check h } := by
  obtain ⟨n, he⟩ := fwStage_open hup hstaged (last := true) (piece := piece) (svn := svn) (digest := digest) (check := check) (h := h)
  refine ⟨_, rfl, ?_⟩
  rw [he, if_pos (by simpa using hbad), carry_refused _ _ _ _ _ hbad]
  simp

theorem fwStage_takes (hok : last = true → s.stageCause (got ++ piece) svn digest check h = 0) :
    Answers (.fwStage sid first last piece svn digest check h) s fun t =>
      t.sec.staging = (if last then none else some (sid, got ++ piece)) ∧
      t.flash.inactive = (if last then stagedImage (got ++ piece) svn h else {}) ∧ t.flash.active = s.flash.active ∧ t.reply = {} := by
  obtain ⟨n, he⟩ := fwStage_open hup hstaged (last := last) (piece := piece) (svn := svn) (digest := digest) (check := check) (h := h)
  have hpass : ¬ (last && s.stageCause (got ++ piece) svn digest check h != 0) = true := by
    cases last with
    | false => simp
    | true => simp [hok rfl]
  refine ⟨_, rfl, ?_⟩
  rw [he, if_neg hpass, carry_done _ _ _ _ hup.2.1]
  simp
end

theorem fwActivate_open {cause : W16}
    (hc : (if !s.allEmpty then Cause.partitionsLive else if !s.flash.inactive.valid then Cause.fwSignature else 0) = cause) :
    ∃ n, s.fwActivate sid = s.carry x.transport n cause {} fun u =>
      (u.modFlash fun f => { f with activeB := !f.activeB, stagedNext := false }).firmwareReset := by
  obtain ⟨hst, hj, ho, hs, hrole⟩ := hup
  have hmay : s.fwMay x = true := by simp [State.fwMay, hrole]
  refine ⟨{
    action := .fwActivate, who := x.writer, detail := s.flash.inactive.svn.toNat, old := s.flash.active.digest, new := s.flash.inactive.digest }, ?_⟩
  unfold State.fwActivate
  extract_lets i n
  rw [ho]
  dsimp only
  rw [inSession_open _ ho hs, hmay, ← hc]
  rfl

theorem fwActivate_answers (hvalid : s.flash.inactive.valid = true) (hempty : s.allEmpty = true) :
    Answers (.fwActivate sid) s fun t => t.flash.activeB = !s.flash.activeB := by
  obtain ⟨n, he⟩ := fwActivate_open hup (cause := 0) (by simp [hvalid, hempty])
  refine ⟨_, rfl, ?_⟩
  rw [he, carry_done _ _ _ _ hup.2.1]
  simp

theorem fwActivate_refused (hempty : s.allEmpty = false) : Answers (.fwActivate sid) s fun t =>
    t.flash.activeB = s.flash.activeB ∧ t.reply = { cause := Cause.partitionsLive } := by
  obtain ⟨n, he⟩ := fwActivate_open hup (cause := Cause.partitionsLive) (by simp [hempty])
  refine ⟨_, rfl, ?_⟩
  rw [he, carry_refused _ _ _ _ _ (by decide)]
  simp
end

/-- Settles O38: the pieces are held until the last, whose verdict is `State.stageCause` on all of them. -/
theorem firmwareUpdate : Obligations.FirmwareUpdate := by
  intro sid s x hup
  refine ⟨fun piece svn digest check h hnone => ?_, fun got piece svn digest h hsome => ?_, fwActivate_answers hup, fwActivate_refused hup⟩
  · obtain ⟨t, hexec, hstg, hin, hact, hr⟩ := fwStage_takes hup (first := true) (last := false) (got := []) (piece := piece) (svn := svn)
      (digest := digest) (check := check) (h := h) (.inl ⟨hnone, rfl⟩) (by simp)
    exact ⟨t, hexec, hstg, by rw [hin]; rfl, hact, hr⟩
  · have hstaged : Staged s sid false got := .inr ⟨rfl, hsome⟩
    extract_lets bytes n form refused
    have hrefused {cause : W16} (hc : s.stageCause (got ++ piece) svn digest .pass h = cause) (hne : cause ≠ 0) : refused cause :=
      hc ▸ fwStage_refused hup hstaged (hc.trans_ne hne)
    refine ⟨fun hf hkey hsvn => ?_, fun hf hkey hsvn => ?_, fun hf => ?_, fun hf hslot hrev => ?_⟩
    · have hc : s.stageCause (got ++ piece) svn digest .pass h = 0 := by
        rw [stageCause_of_form hf, if_neg (by rcases hkey with h | h <;> simp [h]), if_neg (by omega)]
      exact fwStage_takes hup hstaged fun _ => hc
    · refine hrefused ?_ (by decide)
      rw [stageCause_of_form hf, if_neg (by rcases hkey with h | h <;> simp [h]), if_pos hsvn]
    · exact hrefused (stageCause_of_bad_form hf) (by decide)
    · refine hrefused ?_ (by decide)
      rw [stageCause_of_form hf, if_pos ⟨hslot, hrev⟩]

end Sys2Proof.RolesTrustAndJournal

/-! Start-up, power and reset (O53). -/

namespace Sys2Proof.RolesTrustAndJournal
open Sys2Proof Sys2Proof.Machine

/-! ### What stays beside a start: the channels' states under events and tests -/

/-- No channel has changed state. -/
structure ChansStay (s t : State) : Prop where
  state : ∀ k, (t.chan k).state = (s.chan k).state

theorem ChansStay.refl (s : State) : ChansStay s s := ⟨fun _ => rfl⟩
theorem ChansStay.trans {s t u : State} (h : ChansStay s t) (h' : ChansStay t u) : ChansStay s u :=
  ⟨fun k => (h'.state k).trans (h.state k)⟩
theorem ChansStay.of_chans {s t : State} (h : t.mem.chans = s.mem.chans) : ChansStay s t := ⟨fun k => by simp [State.chan, h]⟩
theorem ChansStay.of_mem {s t : State} (h : t.mem = s.mem) : ChansStay s t := .of_chans (by rw [h])
theorem ChansStay.of_told {s t : State} (h : PfTold s t) : ChansStay s t := .of_chans (by rw [h.rest])
theorem ChansStay.foldl {α : Type} {f : State → α → State} (h : ∀ t a, ChansStay t (f t a)) (l : List α) (s : State) :
    ChansStay s (l.foldl f s) :=
  foldl_keeps (ChansStay s) f (fun t a ht => ht.trans (h t a)) l (.refl s)

theorem ChansStay.modEvt (s : State) (p : Nat) (f : EvRing → EvRing) : ChansStay s (s.modEvt p f) := .of_mem rfl
theorem ChansStay.modPfHdr (s : State) (k : Nat) (f : PageHdr → PageHdr) : ChansStay s (s.modPfHdr k f) := .of_mem rfl
theorem ChansStay.modCluster (s : State) (k : Nat) (f : Cluster → Cluster) : ChansStay s (s.modCluster k f) := .of_mem rfl
theorem ChansStay.modQuad (s : State) (q : Nat) (f : Quad → Quad) : ChansStay s (s.modQuad q f) := .of_mem rfl
theorem ChansStay.modPwr (s : State) (f : Power → Power) : ChansStay s (s.modPwr f) := .of_mem rfl
theorem ChansStay.modTile (s : State) (k : Nat) (f : Tile → Tile) : ChansStay s (s.modTile k f) := .of_mem rfl
theorem ChansStay.modEci (s : State) (f : Eci → Eci) : ChansStay s (s.modEci f) := .of_mem rfl

theorem ChansStay.countLine (s : State) (p : Nat) (sp : Space) (a : Nat) : ChansStay s (s.countLine p sp a) := by
  unfold State.countLine
  split
  · exact .refl s
  · rename_i j _
    refine ⟨fun k => ?_⟩
    by_cases hk : k = j
    · subst hk
      simp [State.chan]
    · simp [State.chan, tmod, tget_tset_of_ne _ _ _ hk]

@[simp] theorem setCells_chans (m : Mem) (sp : Space) (l : List Host.Cell) : (m.setCells sp l).chans = m.chans := by cases sp <;> rfl
@[simp] theorem setLineKey_chans (m : Mem) (sp : Space) (l k : Nat) : (m.setLineKey sp l k).chans = m.chans := by cases sp <;> rfl
theorem writeLine_chans (m : Mem) (key : Nat) (sp : Space) (a : Nat) (bs : List Byte) : (m.writeLine key sp a bs).1.chans = m.chans := by
  have hr : (m.rekey key sp (a / 64)).chans = m.chans := by
    unfold Mem.rekey
    dsimp only
    split <;> simp
  have hp : (m.poke key sp a bs).chans = m.chans := (setCells_chans ..).trans hr
  unfold Mem.writeLine
  split
  · exact hp
  · split
    · exact hp
    · rfl

theorem ChansStay.pokeO (s : State) (p : Nat) (r : ORef) (bs : List Byte) : ChansStay s (s.pokeO p r bs).1 := by
  refine ChansStay.trans (t := (s.poke p (s.object p r.handle).src r.off bs).1) ?_ (.of_mem (by simp [State.pokeO]))
  refine foldl_keeps (fun x : State × Option W64 => ChansStay s x.1) _ (fun x e hx => ?_) _ (.refl s)
  refine hx.trans (ChansStay.trans (.of_chans ?_) (.countLine ..))
  exact writeLine_chans ..

theorem msixVf_mem (s : State) (p v : Nat) : (s.msixVf p v).mem = s.mem := by
  unfold State.msixVf
  dsimp only
  split
  · split <;> rfl
  · rfl

theorem ChansStay.writePartRec {p : Nat} {s t : State} {x : EvRec} (h : s.writePartRec p x = some t) : ChansStay s t := by
  unfold State.writePartRec at h
  extract_lets r slot after u at h
  have hafter (v : State) : ChansStay v (after v) := by
    refine .of_mem ?_
    unfold after
    dsimp only
    split
    · exact msixVf_mem ..
    · rfl
  have hpoke : ChansStay s u.1 := .pokeO ..
  clear_value after u
  split at h
  · cases h
  · split at h
    · split at h
      · cases h
      · split at h
        · obtain rfl := Option.some.inj h
          exact hpoke.trans (hafter _)
        · obtain rfl := Option.some.inj h
          exact .of_mem rfl
    · split at h
      · obtain rfl := Option.some.inj h
        exact ChansStay.trans (.of_chans (by simp [State.setHost])) (hafter _)
      · cases h

theorem ChansStay.flushPart (p n : Nat) (s : State) : ChansStay s (s.flushPart p n) := by
  induction n generalizing s with
  | zero => exact .refl s
  | succ n ih =>
    unfold State.flushPart
    split
    · exact .refl s
    · dsimp only
      split
      · rename_i h
        split
        · exact (ChansStay.modEvt s p _).trans ((ChansStay.writePartRec h).trans (ih _))
        · exact .of_mem rfl
      · exact .refl s

theorem ChansStay.postRec (s : State) (p : Nat) (x : EvRec) : ChansStay s (s.postRec p x) := by
  unfold State.postRec
  extract_lets u
  have hu : ChansStay s u := by
    unfold u
    split
    · exact .refl s
    · exact .flushPart ..
  clear_value u
  refine hu.trans ?_
  split
  · cases h : u.writePartRec p x with
    | some t => exact .writePartRec h
    | none => exact .of_mem rfl
  · exact .of_mem rfl

theorem noteWm_mem (s : State) (src : Src) (wm : W32) (p : Option Nat) : (s.noteWm src wm p).mem = s.mem := by
  unfold State.noteWm
  split
  · rfl
  · dsimp only
    split <;> split <;> rfl

theorem ChansStay.raisePart (s : State) (p : Nat) (cause : W16) (src : Src) (wm : W32) (detail : List Byte) :
    ChansStay s (s.raisePart p cause src wm detail) := by
  unfold State.raisePart State.recPart
  dsimp only
  refine ChansStay.trans (.of_mem rfl) ?_
  split
  · exact .of_mem rfl
  · refine ChansStay.trans ?_ (.postRec ..)
    exact .of_mem (noteWm_mem ..)

theorem ChansStay.raisePf (s : State) (cause : W16) (src : Src) (part : Option Nat) (detail : List Byte) :
    ChansStay s (s.raisePf cause src part detail) := .of_told (.raisePf ..)

theorem ChansStay.raiseHalfOffline (s : State) (k : Nat) : ChansStay s (s.raiseHalfOffline k) := by
  unfold State.raiseHalfOffline
  split
  · exact .raisePart ..
  · exact .raisePf ..

theorem ChansStay.wentOffline (s : State) (k : Nat) (l r : Bool) : ChansStay s (s.wentOffline k l r) := by
  unfold State.wentOffline
  split
  · exact .refl s
  · exact (ChansStay.modPfHdr s _ _).trans (.raiseHalfOffline ..)

theorem ChansStay.testClusters (s : State) (q : Nat) (bad : List (Nat × HalfSel)) : ChansStay s (s.testClusters q bad) := by
  unfold State.testClusters
  exact .foldl (fun t k => (ChansStay.modCluster t k _).trans (.wentOffline ..)) _ s

theorem ChansStay.testQuads (s : State) (bad : List (Nat × HalfSel)) : ChansStay s (s.testQuads bad) := by
  unfold State.testQuads
  exact .foldl (fun t q => (ChansStay.testClusters t q _).trans (.modQuad ..)) _ s

theorem tget_map {α : Type} (d : α) (f : Nat → α) {l : List Nat} {k : Nat} (hk : k ∈ l) : tget d (l.map fun i => (i, f i)) k = f k := by
  induction l with
  | nil => simp at hk
  | cons i l ih =>
    simp only [List.map_cons, tget]
    split
    · rename_i h
      rw [h]
    · rename_i h
      exact ih ((List.mem_cons.1 hk).resolve_left (Ne.symm h))

theorem trainAll_chan (s : State) {k : Nat} (hk : k < 320) : ((s.trainAll none).chan k).state = .ready := by
  simp [State.trainAll, State.chan, tget_map _ _ (List.mem_range.2 hk)]

/-! ### Start-up (Table 15.5) -/

@[simp] theorem endSessions_pwr (s : State) (f : SpdmSession → Bool) : (s.endSessions f).pwr = s.pwr := by
  obtain ⟨ss, st, h, he⟩ := endSessions_rest s f
  rw [he]

theorem startFails_stage (s : State) (src : Src) (detail : Nat) (first : Option (W16 × Src)) :
    (s.startFails src detail first).pwr.stage = .recovery := by
  unfold State.startFails State.recovers
  simp

/-- A start-up in which a domain, a die or a channel fails. -/
theorem startup_fails {s : State} (hstage : s.pwr.stage = .fwStart) {r : StartupResult} (hr : r ≠ .ok) (halves : List (Nat × HalfSel))
    (granules : List (Nat × Nat)) : (s.startup r halves granules).pwr.stage = .recovery := by
  unfold State.startup
  rw [if_neg (by simp [hstage])]
  cases r with
  | ok => exact absurd rfl hr
  | domainFailed d =>
    dsimp only
    rw [startFails_stage]
  | cryptoFailed d =>
    dsimp only
    rw [startFails_stage]
  | channelFailed c =>
    dsimp only
    rw [startFails_stage]

/-- A start-up that ends well: READY, and the channels as their training left them. -/
theorem startup_ends {s : State} (hstage : s.pwr.stage = .fwStart) (halves : List (Nat × HalfSel)) (granules : List (Nat × Nat)) :
    (s.startup .ok halves granules).pwr.stage = .ready ∧
      ChansStay (((s.powerDomains none).testDies none).trainAll none) (s.startup .ok halves granules) := by
  unfold State.startup
  rw [if_neg (by simp [hstage])]
  dsimp -zeta only
  extract_lets s₁ s₂ s₃ s₄ n
  have h₂ : ChansStay (((s.powerDomains none).testDies none).trainAll none) s₂ :=
    (ChansStay.testQuads _ halves).trans (.foldl (fun t g => .modTile ..) _ _)
  have h₄ : s₄.pwr.stage = .ready ∧ ChansStay s₃ s₄ := by
    unfold s₄
    split
    · exact ⟨rfl, .modEci ..⟩
    · exact ⟨rfl, .refl _⟩
  have h : ChansStay (((s.powerDomains none).testDies none).trainAll none) s₄ := (h₂.trans (.modPwr ..)).trans h₄.2
  clear_value s₄ n
  split
  · exact ⟨h₄.1, h⟩
  · exact ⟨by simpa using h₄.1, h.trans (.raisePf ..)⟩

/-! ### The boot ROM's choice (R344) -/

theorem recovers_stage (s : State) : s.recovers.pwr.stage = .recovery := by
  unfold State.recovers
  simp

theorem fwStart_starts (s : State) (i : Image) (fallback : Bool) :
    (s.fwStart i fallback).pwr.stage = .fwStart ∧ (s.fwStart i fallback).flash.running = i := by
  unfold State.fwStart
  dsimp only
  split <;> simp

/-- Whether an image passes depends on the fuses alone. -/
theorem imageCause_of_fused {s t : State} (h : fused t = fused s) (i : Image) (c : ImageCheck) : t.imageCause i c = s.imageCause i c := by
  obtain ⟨hn, hf⟩ := Prod.mk.inj h
  simp only [State.imageCause, hn, hf]
theorem imageOk_of_fused {s t : State} (h : fused t = fused s) (i : Image) (c : ImageCheck) : t.imageOk i c = s.imageOk i c := by
  simp only [State.imageOk, imageCause_of_fused h]

/-- What is left of the images that the boot ROM tries when it stops. -/
def candidates (s : State) (l : List (Image × ImageCheck)) : List (Image × ImageCheck) := l.dropWhile fun e => !s.imageOk e.1 e.2

theorem drop_takeWhile_length {α : Type} (p : α → Bool) (l : List α) : l.drop (l.takeWhile p).length = l.dropWhile p :=
  (congrArg (List.drop _) List.takeWhile_append_dropWhile).symm.trans List.drop_left

theorem boots_of_candidates {s : State} {l : List (Image × ImageCheck)} {e : Image × ImageCheck} {rest : List (Image × ImageCheck)}
    (h : candidates s l = e :: rest) : (s.boots l).pwr.stage = .fwStart ∧ (s.boots l).flash.running = e.1 := by
  unfold State.boots
  extract_lets s₁ bad t u
  have hs : fused s₁ = fused s := by simp [s₁]
  have hd : l.drop bad.length = e :: rest := by
    rw [← h]
    unfold candidates
    simp only [← imageOk_of_fused hs]
    exact drop_takeWhile_length ..
  have hu : u.pwr.stage = .fwStart ∧ u.flash.running = e.1 := by
    unfold u
    rw [hd]
    exact fwStart_starts ..
  clear_value u
  split
  · simpa using hu
  · exact hu

theorem boots_of_none {s : State} {l : List (Image × ImageCheck)} (h : candidates s l = []) : (s.boots l).pwr.stage = .recovery := by
  unfold State.boots
  extract_lets s₁ bad t u
  have hs : fused s₁ = fused s := by simp [s₁]
  have hd : l.drop bad.length = [] := by
    rw [← h]
    unfold candidates
    simp only [← imageOk_of_fused hs]
    exact drop_takeWhile_length ..
  have hu : u.pwr.stage = .recovery := by
    unfold u
    rw [hd]
    exact recovers_stage ..
  clear_value u
  split
  · simpa using hu
  · exact hu

/-- Boot from the flash: the active image, then the other. -/
theorem imageVerified_answers {s : State} (hstage : s.pwr.stage = .boot) (hreset : s.pins.resetN = true)
    (hstrap : bitOf s.pins.straps.toNat 8 = true) (a o : ImageCheck) : Answers (.imageVerified a o) s fun t =>
      (s.imageOk s.flash.active a = true → t.pwr.stage = .fwStart ∧ t.flash.running = s.flash.active) ∧
      (s.imageOk s.flash.active a = false → s.imageOk s.flash.inactive o = true → t.pwr.stage = .fwStart ∧ t.flash.running = s.flash.inactive) ∧
      (s.imageOk s.flash.active a = false → s.imageOk s.flash.inactive o = false → t.pwr.stage = .recovery) := by
  refine ⟨_, rfl, ?_⟩
  unfold State.imageVerified
  rw [if_neg (by simp [hstage, hreset, hstrap])]
  refine ⟨fun ha => ?_, fun ha ho => ?_, fun ha ho => ?_⟩
  · exact boots_of_candidates (e := (s.flash.active, a)) (by simp [candidates, ha]; rfl)
  · exact boots_of_candidates (e := (s.flash.inactive, o)) (by simp [candidates, ha, ho]; rfl)
  · exact boots_of_none (by simp [candidates, ha, ho])

@[simp] theorem msixPf_pwr (s : State) (v : Nat) : (s.msixPf v).pwr = s.pwr := by rw [(PfTold.msixPf s v).rest]
@[simp] theorem msixPf_flash (s : State) (v : Nat) : (s.msixPf v).flash = s.flash := by rw [(PfTold.msixPf s v).rest]

/-- The image that the host pushes, as the boot ROM tries it. -/
def pushed (svn : BitVec 6) (digest : BitVec 256) : Image := { valid := true, svn := svn, digest := digest, slot1 := true }

theorem imageOk_pushed (s : State) (svn : BitVec 6) (digest : BitVec 256) (a : ImageCheck) :
    s.imageOk (pushed svn digest) a = true ↔ a = .pass ∧ s.flash.fusedSvn.toNat ≤ svn.toNat := by
  have hroll : Cause.fwRollback ≠ 0#16 := by decide
  have hsig : Cause.fwSignature ≠ 0#16 := by decide
  unfold State.imageOk State.imageCause pushed
  cases a with
  | pass =>
    by_cases hn : svn.toNat < s.flash.fusedSvn.toNat
    · simp [hn, hroll]
    · simp [hn, Nat.le_of_not_lt hn]
  | badSignature => simp [hsig]
  | rollback => simp [hroll]

theorem hostPush_eq {s : State} (hstage : s.pwr.stage = .boot) (hreset : s.pins.resetN = true) (hstrap : bitOf s.pins.straps.toNat 8 = false)
    (svn : BitVec 6) (digest : BitVec 256) (a o other : ImageCheck) : s.hostPush svn digest a o other =
      ((s.boots [(pushed svn digest, a), (s.flash.active, o), (s.flash.inactive, other)]).answer
        { cause := s.imageCause (pushed svn digest) a }).msixPf 1 :=
  if_neg (by simp [hstage, hreset, hstrap])

/-- Boot by host push: the pushed image, then those of the flash. -/
theorem hostPush_answers {s : State} (hstage : s.pwr.stage = .boot) (hreset : s.pins.resetN = true)
    (hstrap : bitOf s.pins.straps.toNat 8 = false) (svn : BitVec 6) (digest : BitVec 256) (a o other : ImageCheck) :
    Answers (.hostPushImage svn digest a o other) s fun t =>
      (a = .pass → s.flash.fusedSvn.toNat ≤ svn.toNat → t.pwr.stage = .fwStart ∧ t.flash.running.svn = svn ∧ t.flash.running.digest = digest) ∧
      (a ≠ .pass ∨ svn.toNat < s.flash.fusedSvn.toNat →
        t.pwr.stage = if s.imageOk s.flash.active o = true ∨ s.imageOk s.flash.inactive other = true then .fwStart else .recovery) := by
  refine ⟨s.hostPush svn digest a o other, rfl, ?_⟩
  rw [hostPush_eq hstage hreset hstrap]
  simp only [msixPf_pwr, msixPf_flash, State.answer_pwr, State.answer_flash]
  refine ⟨fun ha hsvn => ?_, fun h => ?_⟩
  · have hok := (imageOk_pushed s svn digest a).2 ⟨ha, hsvn⟩
    obtain ⟨hst, hrun⟩ := boots_of_candidates (s := s) (e := (pushed svn digest, a)) (l := [(pushed svn digest, a), (s.flash.active, o),
      (s.flash.inactive, other)]) (by simp [candidates, hok]; rfl)
    exact ⟨hst, congrArg Image.svn hrun, congrArg Image.digest hrun⟩
  · have hbad : s.imageOk (pushed svn digest) a = false := by
      rw [← Bool.not_eq_true, imageOk_pushed]
      rcases h with h | h
      · simp [h]
      · simp [h]
    by_cases hact : s.imageOk s.flash.active o = true
    · rw [if_pos (.inl hact)]
      exact (boots_of_candidates (e := (s.flash.active, o)) (by simp [candidates, hbad, hact]; rfl)).1
    · by_cases hin : s.imageOk s.flash.inactive other = true
      · rw [if_pos (.inr hin)]
        exact (boots_of_candidates (e := (s.flash.inactive, other)) (by simp [candidates, hbad, hact, hin]; rfl)).1
      · rw [if_neg (by simp [hact, hin])]
        exact boots_of_none (by simp [candidates, hbad, hact, hin])

/-! ### Power and reset -/

@[simp] theorem hotJoin_pwr (s : State) : s.hotJoin.pwr = s.pwr := by
  unfold State.hotJoin
  split <;> rfl
@[simp] theorem hotJoin_sec (s : State) : s.hotJoin.sec = s.sec := by
  unfold State.hotJoin
  split <;> rfl
@[simp] theorem hotJoin_pins (s : State) : s.hotJoin.pins = s.pins := by
  unfold State.hotJoin
  split <;> rfl
@[simp] theorem hotJoin_hst (s : State) : s.hotJoin.hst = s.hst := by
  unfold State.hotJoin
  split <;> rfl
@[simp] theorem linkStarts_pwr (s : State) : s.linkStarts.pwr = s.pwr := by
  unfold State.linkStarts
  split <;> rfl
@[simp] theorem linkStarts_sec (s : State) : s.linkStarts.sec = s.sec := by
  unfold State.linkStarts
  split <;> rfl
@[simp] theorem linkStarts_pins (s : State) : s.linkStarts.pins = s.pins := by
  unfold State.linkStarts
  split <;> rfl

/-- The state with the link of the host port training where its signals let it (R424, R460). -/
theorem linkStarts_eq (s : State) : s.linkStarts = { s with
    hst := { s.hst with link := if s.pins.pwrGood = true ∧ s.pins.perstN = true ∧ s.pins.resetN = true ∧ s.hst.link = .down then .training
      else s.hst.link } } := by
  unfold State.linkStarts
  split
  · rename_i h
    rw [if_pos (by simpa [and_assoc] using h)]
    rfl
  · rename_i h
    rw [if_neg (by simpa [and_assoc] using h)]

/-- The request for a dynamic address goes out where it is due (R439). -/
theorem hotJoin_out (s : State) : s.hotJoin.out =
    if s.flash.hotJoin = true ∧ s.pins.pwrGood = true ∧ s.pins.resetN = true ∧ s.mgmt.hjEn = true ∧ s.mgmt.dynValid = false ∧
      s.mgmt.hjPending = false then .hotJoin :: s.out else s.out := by
  unfold State.hotJoin
  split
  · rename_i h
    rw [if_pos (by simpa [and_assoc] using h)]
    rfl
  · rename_i h
    rw [if_neg (by simpa [and_assoc] using h)]

/-- It changes what the sideband shows and sends, and nothing else. -/
theorem hotJoin_rest (s : State) : s.hotJoin = { s with mgmt := s.hotJoin.mgmt, out := s.hotJoin.out } := by
  unfold State.hotJoin
  split <;> rfl

theorem pwrEnRise_answers {s : State} (hen : s.pins.pwrEn = false) (hoff : s.pwr.stage = .off) :
    (Answers (.pwrEnRise true) s fun t => t.pwr.stage = .powering ∧ t.pins.pwrEn = true ∧ t.flash = s.flash) ∧
      Answers (.pwrEnRise false) s fun t => t.pwr.stage = .off ∧ t.pins.pwrEn = true :=
  ⟨⟨s.pwrEnRise true, rfl, by simp [State.pwrEnRise, State.powerUp, hen, hoff]⟩,
    ⟨s.pwrEnRise false, rfl, by simp [State.pwrEnRise, State.powerUp, hen, hoff]⟩⟩

theorem j1Back_answers {s : State} (hoff : s.pwr.stage = .off) (hen : s.pins.pwrEn = true) :
    Answers .j1BackInWindow s fun t => t.pwr.stage = .powering ∧ t.pins.j1Ok = true :=
  ⟨s.j1Back, rfl, by simp [State.j1Back, State.powerUp, hen, hoff]⟩

theorem powerGood_answers {s : State} (hstage : s.pwr.stage = .powering) (straps : BitVec 9) (ok : Bool) :
    Answers (.powerGood straps ok) s fun t => t.pwr.stage = .boot ∧ t.pwr.resetKind = 0 ∧ t.pins.pwrGood = true ∧ t.pins.straps = straps ∧
      t.sec.lockedOut = !(ok && s.flash.storeGood) :=
  ⟨s.powerGood straps ok, rfl, by simp [State.powerGood, hstage]⟩

theorem pwrEnFall_answers {s : State} (hen : s.pins.pwrEn = true) : Answers .pwrEnFall s fun t =>
    t.pwr.stage = .off ∧ t.pins.pwrEn = false ∧ t.pins.pwrGood = false ∧ t.parts = [] ∧ t.flash = s.flash ∧ t.thermLow = false ∧
      t.mgmt.dynValid = false ∧ t.sec.debug = false :=
  ⟨s.pwrEnFall, rfl, by simp [State.pwrEnFall, hen, State.powerOff, State.blank, State.thermLow]⟩

theorem j1Exit_answers {s : State} (hoff : s.pwr.stage ≠ .off) (hshut : s.pwr.stage ≠ .shutdown) : Answers .j1WindowExit s fun t =>
    t.pwr.stage = .off ∧ t.pins.j1Ok = false ∧ t.pins.pwrGood = false ∧ t.parts = [] ∧ t.flash = s.flash ∧ t.mgmt.dynValid = false :=
  ⟨s.j1Exit, rfl, by simp [State.j1Exit, hoff, hshut, State.powerOff, State.blank]⟩

theorem thermalShutdown_answers {s : State} (hp : s.powered = true) : Answers .thermalShutdown s fun t =>
    t.pwr.stage = .shutdown ∧ t.pins.pwrGood = false ∧ t.thermLow = true ∧ t.parts = [] ∧ t.flash = s.flash :=
  ⟨s.thermalShutdown, rfl, by simp [State.thermalShutdown, hp, State.powerOff, State.blank, State.thermLow]⟩

theorem afterReset_stage (w : Power) : w.afterReset.stage = .boot ∧ w.afterReset.resetKind = 1 := by
  unfold Power.afterReset
  dsimp only
  split <;> exact ⟨rfl, rfl⟩

theorem resetLow_answers {s : State} (hgood : s.pins.pwrGood = true) : Answers .resetN s fun t =>
    t.pwr.stage = .boot ∧ t.pwr.resetKind = 1 ∧ t.pins = { s.pins with resetN := false } ∧ t.flash = s.flash ∧
      t.mgmt.dynValid = s.mgmt.dynValid ∧ t.mgmt.dynAddr = s.mgmt.dynAddr ∧ t.mgmt.eid = s.mgmt.eid ∧ t.sec.debug = s.sec.debug ∧
      t.parts = [] :=
  ⟨s.resetLow, rfl, by simp [State.resetLow, hgood, State.moduleReset, State.blank, afterReset_stage]⟩

theorem resetLow_unpowered {s : State} (hgood : s.pins.pwrGood = false) :
    exec .resetN s = .next { s with pins := { s.pins with resetN := false } } := by
  change Host.Outcome.next s.resetLow = _
  simp [State.resetLow, hgood]

theorem resetRise_answers (s : State) : Answers .resetNRise s fun t =>
    t.pins = { s.pins with resetN := true } ∧ t.pwr = s.pwr ∧ t.flash = s.flash ∧ t.parts = s.parts ∧ t.mem = s.mem ∧
    t.hst = { s.hst with link := if s.pins.pwrGood = true ∧ s.pins.perstN = true ∧ s.hst.link = .down then .training else s.hst.link } ∧
    t.out = (if s.flash.hotJoin = true ∧ s.pins.pwrGood = true ∧ s.mgmt.hjEn = true ∧ s.mgmt.dynValid = false ∧ s.mgmt.hjPending = false
      then .hotJoin :: s.out else s.out) := by
  refine ⟨s.resetRise, rfl, ?_⟩
  unfold State.resetRise
  rw [linkStarts_eq, hotJoin_rest, hotJoin_out]
  simp

theorem perstRise_answers (s : State) : exec .perstNRise s = .next { s with
    pins := { s.pins with perstN := true }
    hst := { s.hst with link := if s.pins.pwrGood = true ∧ s.pins.resetN = true ∧ s.hst.link = .down then .training else s.hst.link } } := by
  change Host.Outcome.next (State.linkStarts _) = _
  simp [linkStarts_eq]

/-- Settles O53, stage by stage of Table 15.4. -/
theorem stagesOfTheModule : Obligations.StagesOfTheModule := by
  intro s
  refine ⟨pwrEnRise_answers, j1Back_answers, powerGood_answers, fun hstage hreset => ?_, fun hstage halves granules => ?_, pwrEnFall_answers,
    j1Exit_answers, thermalShutdown_answers, resetLow_answers, resetLow_unpowered, resetRise_answers s, perstRise_answers s⟩
  · exact ⟨imageVerified_answers hstage hreset, hostPush_answers hstage hreset⟩
  · obtain ⟨hready, hchans⟩ := startup_ends hstage halves granules
    refine ⟨⟨_, rfl, hready, fun k hk => ?_⟩, fun r hr => ⟨_, rfl, startup_fails hstage hr halves granules⟩⟩
    rw [hchans.state, trainAll_chan _ hk]

end Sys2Proof.RolesTrustAndJournal

/-! The SPDM connection (O35). -/

namespace Sys2Proof.RolesTrustAndJournal
open Sys2Proof Sys2Proof.Machine

/-! ### The messages of a connection (R327, R341, R342) -/

/-- A message refused unless two conditions hold is carried out where they do. -/
theorem ite_refused_or (a b : Bool) (x y : State) : (if !a || !b then x else y) = if a && b then y else x := by
  cases a <;> cases b <;> rfl
theorem ite_refused (a : Bool) (x y : State) : (if !a then x else y) = if a then y else x := by cases a <;> rfl

/-- The indices of the blocks that GET_MEASUREMENTS asks for (R342); index 0 asks for their number alone. -/
def requested : Option Byte → List Nat
  | none => measureIndices
  | some i => if i = 0 then [] else [i.toNat]

section
variable {s : State} {t : Transport} (hs : s.serves t = true)
include hs

theorem exec_getVersion : exec (.getVersion t) s =
    .next ((s.modSpdm t fun x => { x with version := true, capabilities := false, negotiated := false }).respond t { words := [0x13] }) :=
  congrArg Host.Outcome.next (if_neg (by simp [hs]))

theorem exec_getCapabilities (v : Byte) : exec (.getCapabilities t v) s = .next (if (s.spdm t).version && v == 0x13
    then (s.useFree.modSpdm t fun x => { x with capabilities := true }).respond t { words := [BitVec.ofNat 64 (Config.freeNat s.free)] }
    else s.refuseMsg t) :=
  congrArg Host.Outcome.next ((if_neg (by simp [hs])).trans (ite_refused_or ..))

theorem exec_negotiate (offered : Bool) : exec (.negotiateAlgorithms t offered) s = .next (if (s.spdm t).capabilities && offered
    then (s.modSpdm t fun x => { x with negotiated := true }).respond t {} else s.refuseMsg t) :=
  congrArg Host.Outcome.next ((if_neg (by simp [hs])).trans (ite_refused_or ..))

theorem exec_getDigests : exec (.getDigests t) s =
    .next (if (s.spdm t).negotiated then s.respondLarge t (digestBytes (Config.sha3 s.chain0)) else s.refuseMsg t) :=
  congrArg Host.Outcome.next ((if_neg (by simp [hs])).trans (ite_refused ..))

theorem exec_getCertificate (slot : Byte) (off len : W16) : exec (.getCertificate t slot off len) s =
    .next (if (s.spdm t).negotiated && slot == 0 then s.respondLarge t ((s.chain0.drop off.toNat).take len.toNat) else s.refuseMsg t) :=
  congrArg Host.Outcome.next ((if_neg (by simp [hs])).trans (ite_refused_or ..))

theorem exec_challenge (nonce : List Byte) : exec (.challenge t nonce) s =
    .next (if !s.servesAll then s else if (s.spdm t).negotiated
      then s.useFree.respondLarge t (digestBytes (Config.sha3 s.chain0) ++ s.signature s.free) else s.refuseMsg t) := by
  refine congrArg Host.Outcome.next ?_
  unfold State.challenge
  rw [hs, ite_refused]
  rfl

theorem exec_getMeasurements_refused (h : s.servesAll = false ∨ (s.spdm t).negotiated = false) (i : Option Byte) (nonce : List Byte) :
    exec (.getMeasurements t i nonce) s = .next (if s.servesAll then s.refuseMsg t else s) := by
  refine congrArg Host.Outcome.next ?_
  unfold State.getMeasurements
  cases hall : s.servesAll with
  | false => simp
  | true => simp [hs, h.resolve_left (by simp [hall])]

/-- The measurement blocks that a request of `index` names, behind their number, and the signature (R342). -/
theorem exec_getMeasurements (hall : s.servesAll = true) (hn : (s.spdm t).negotiated = true) {index : Option Byte} {blocks : List Byte}
    (hb : BitVec.ofNat 8 (if index = some 0 then measureIndices.length else (requested index).length) ::
      (requested index).flatMap (s.measureBlock t) = blocks) (nonce : List Byte) :
    exec (.getMeasurements t index nonce) s = .next (s.useFree.respondLarge t (blocks ++ s.signature s.free)) := by
  refine congrArg Host.Outcome.next ?_
  subst hb
  unfold State.getMeasurements
  rw [if_neg (by simp [hs, hall]), if_neg (by simp [hn])]
  rfl

omit hs in
/-- A chunk that the responder takes next: with the last one, the request that the chunks make is carried out. -/
theorem exec_chunkSend {h : Byte} {n : W16} {chunk : List Byte} {taken : Bool} (ht : s.chunkTaken t h n chunk = taken) (last : Bool)
    (q : Option LargeRequest) : exec (.chunkSend t h n last chunk q) s = .next (match q with
      | some q => if last && taken then (s.chunkSend t h n last chunk).largeRequest t q else s.chunkSend t h n last chunk
      | none => s.chunkSend t h n last chunk) := by
  subst ht
  rfl

theorem chunkSend_first {chunk : List Byte} (hf : s.chunkFits t 0 chunk = true) (h : Byte) (last : Bool) :
    s.chunkSend t h 0 last chunk = (s.modSpdm t fun x =>
      { x with chunkHandle := h, chunkNext := if last then 0 else 1, request := chunk }).respond t {} := by
  unfold State.chunkSend
  rw [if_neg (by simp [hs])]
  dsimp only
  rw [hf, if_neg (by simp), if_pos rfl]

theorem chunkSend_next {n : W16} {chunk : List Byte} (hn : n ≠ 0) (hnext : n = (s.spdm t).chunkNext) (hf : s.chunkFits t n chunk = true)
    (last : Bool) : s.chunkSend t (s.spdm t).chunkHandle n last chunk = (s.modSpdm t fun x =>
      { x with chunkNext := if last then 0 else x.chunkNext + 1, request := x.request ++ chunk }).respond t {} := by
  subst hnext
  unfold State.chunkSend
  rw [if_neg (by simp [hs])]
  dsimp only
  rw [hf, if_neg (by simp), if_neg hn, if_pos (by simp)]

/-- A chunk that is not the next one, or that makes the request too long, ends it. -/
theorem chunkSend_ends {h : Byte} {n : W16} {chunk : List Byte}
    (hbad : s.chunkFits t n chunk = false ∨ n ≠ 0 ∧ (h ≠ (s.spdm t).chunkHandle ∨ n ≠ (s.spdm t).chunkNext)) (last : Bool) :
    s.chunkSend t h n last chunk = (s.modSpdm t fun x => { x with chunkNext := 0, request := [] }).refuseMsg t := by
  unfold State.chunkSend
  rw [if_neg (by simp [hs])]
  dsimp only
  cases hf : s.chunkFits t n chunk with
  | false => rfl
  | true =>
    obtain ⟨hn, hne⟩ := hbad.resolve_left (by simp [hf])
    rw [if_neg (by simp), if_neg hn, if_neg (by simpa [← not_and_or] using hne)]

theorem exec_chunkGet (h : Byte) (n : W16) : exec (.chunkGet t h n) s =
    .next (if vfMailbox t = false ∧ h = (s.spdm t).respHandle ∧ n = (s.spdm t).respNext ∧ (s.spdm t).response ≠ []
      then
        let k := Config.freeNat s.free % (s.spdm t).response.length + 1
        (s.useFree.modSpdm t fun x => { x with response := x.response.drop k, respNext := x.respNext + 1 }).respond t {
          bytes := (s.spdm t).response.take k }
      else s.refuseMsg t) := by
  refine congrArg Host.Outcome.next ?_
  unfold State.chunkGet
  rw [if_neg (by simp [hs])]
  dsimp only
  by_cases h : vfMailbox t = false ∧ h = (s.spdm t).respHandle ∧ n = (s.spdm t).respNext ∧ (s.spdm t).response ≠ []
  · rw [if_pos h, if_neg (by simpa [and_assoc] using h)]
  · rw [if_neg h, if_pos (by simpa [Decidable.or_iff_not_imp_left, or_assoc] using h)]
end

/-- The word of a discovery that names `k` data object types (R372). -/
def doeWord (i : Byte) (k : Nat) : W64 :=
  if i.toNat < k then BitVec.ofNat 64 (1 + 65536 * i.toNat + 16777216 * (if i.toNat + 1 < k then i.toNat + 1 else 0)) else 0xFFFF

theorem exec_doeDiscovery_pf {s : State} (hs : s.serves .pfDoe = true) (i : Byte) :
    exec (.doeDiscovery none i) s = .next (s.respond .pfDoe { words := [doeWord i 3] }) :=
  congrArg Host.Outcome.next (if_neg (by simp [hs]))

theorem exec_doeDiscovery_vf {s : State} {p : PartId} (hs : s.serves (.vfDoe p) = true) (i : Byte) :
    exec (.doeDiscovery (some p) i) s = .next (s.respond (.vfDoe p) { words := [doeWord i 2] }) :=
  congrArg Host.Outcome.next (if_neg (by simp [hs]))

theorem exec_not_served {s : State} {t : Transport} (hs : s.serves t = false) :
    ∀ i ∈ [Instr.getVersion t, .getCapabilities t 0x13, .negotiateAlgorithms t true, .getDigests t, .getCertificate t 0 0 0,
      .challenge t [], .getMeasurements t none [], .chunkSend t 0 0 false [] none, .chunkGet t 0 0], exec i s = .next s := by
  have hn : (!s.serves t) = true := by simp [hs]
  have hor : (!s.serves t || !s.servesAll) = true := by simp [hs]
  simp only [List.forall_mem_cons, List.not_mem_nil, false_implies, implies_true, and_true]
  exact ⟨congrArg Host.Outcome.next (if_pos hn), congrArg Host.Outcome.next (if_pos hn), congrArg Host.Outcome.next (if_pos hn),
    congrArg Host.Outcome.next (if_pos hn), congrArg Host.Outcome.next (if_pos hn), congrArg Host.Outcome.next (if_pos hor),
    congrArg Host.Outcome.next (if_pos hor), congrArg Host.Outcome.next (if_pos hn), congrArg Host.Outcome.next (if_pos hn)⟩

/-- Settles O35: every message of the connection by its equation; a chunk by whether it is the next of its request. -/
theorem spdmConnection : Obligations.SpdmConnection := by
  intro t s
  refine ⟨fun hs => ⟨exec_getVersion hs, exec_getCapabilities hs, exec_negotiate hs, exec_getDigests hs, exec_getCertificate hs,
    exec_challenge hs, fun nonce => ⟨fun h i => exec_getMeasurements_refused hs h i nonce, fun hall hn => ⟨?_, fun i hi => ?_, ?_⟩⟩,
    fun h last chunk hf => ?_, fun h n last chunk hn => ⟨fun hh hnext hf => ?_, fun hne q => ?_⟩, fun h n last chunk q hf => ?_,
    exec_chunkGet hs, fun i => ⟨fun ht => ?_, fun p ht => ?_⟩⟩, exec_not_served⟩
  · rw [← List.singleton_append]
    exact exec_getMeasurements hs hall hn (by simp [requested]) nonce
  · exact exec_getMeasurements hs hall hn (blocks := 1 :: s.measureBlock t i.toNat)
      (by rw [requested, if_neg hi, if_neg (by simpa using hi)]; simp) nonce
  · exact exec_getMeasurements hs hall hn (blocks := BitVec.ofNat 8 measureIndices.length :: measureIndices.flatMap (s.measureBlock t))
      (by simp [requested]) nonce
  · have htaken : s.chunkTaken t h 0 chunk = true := by
      rw [State.chunkTaken, hs, hf]
      rfl
    rw [exec_chunkSend htaken, chunkSend_first hs hf]
    refine ⟨rfl, fun q => ?_⟩
    rw [exec_chunkSend htaken, chunkSend_first hs hf]
    simp
  · subst hh hnext
    have htaken : s.chunkTaken t (s.spdm t).chunkHandle (s.spdm t).chunkNext chunk = true := by simp [State.chunkTaken, hs, hf]
    rw [exec_chunkSend htaken, chunkSend_next hs hn rfl hf]
    refine ⟨rfl, fun q => ?_⟩
    rw [exec_chunkSend htaken, chunkSend_next hs hn rfl hf]
    simp
  · have htaken : s.chunkTaken t h n chunk = false := by
      rw [State.chunkTaken, beq_false_of_ne hn, Bool.false_or, Bool.and_eq_false_iff]
      exact .inr (by simpa [Classical.or_iff_not_imp_left] using hne)
    rw [exec_chunkSend htaken, chunkSend_ends hs (.inr ⟨hn, hne⟩)]
    cases q <;> simp
  · have htaken : s.chunkTaken t h n chunk = false := by simp [State.chunkTaken, hf]
    rw [exec_chunkSend htaken, chunkSend_ends hs (.inl hf)]
    cases q <;> simp
  · subst ht
    exact exec_doeDiscovery_pf hs i
  · subst ht
    exact exec_doeDiscovery_vf hs i
end Sys2Proof.RolesTrustAndJournal

/-! SPDM sessions (O36). -/

namespace Sys2Proof.RolesTrustAndJournal
open Sys2Proof Sys2Proof.Machine

/-! ### Sessions (R328, R329) -/

theorem vfMailbox_eq_false {t : Transport} (h : ∀ p, t ≠ .vfDoe p) : vfMailbox t = false := by
  cases t with
  | vfDoe p => exact absurd rfl (h p)
  | _ => rfl

/-- The session that KEY_EXCHANGE begins. -/
def handshake (cred : Byte) (r : Role) (t : Transport) (hb : Byte) : SpdmSession :=
  { cred := cred, role := r, transport := t, established := false, heartbeat := hb }

section
variable {s : State} {t : Transport} {cred : Byte} {r : Role} (hs : s.serves t = true) (ht : ∀ p, t ≠ .vfDoe p)
  (hneg : (s.spdm t).negotiated = true) (hr : credRole cred = some r)
include hs ht hneg hr

/-- A credential that is not valid, or a claimed device's while slot 0x10 is empty, opens no session (R323, R328). -/
theorem exec_keyExchange_authFails (hbad : s.credValid cred = false ∨ r ≠ .maker ∧ s.credKey 0x10 = []) (hb : Byte) :
    exec (.keyExchange t cred hb) s = .next (s.authFails t) := by
  refine congrArg Host.Outcome.next ?_
  unfold State.keyExchange
  rw [if_neg (by simp [hs]), if_neg (by simp [hneg, vfMailbox_eq_false ht]), hr]
  exact if_pos (by simpa using hbad)

/-- A handshake under a valid credential that has no session on the transport takes the lowest free number. -/
theorem exec_keyExchange_opens (hvalid : s.credValid cred = true) (hclaimed : r ≠ .maker → s.credKey 0x10 ≠ [])
    (hop : r = .operator → s.servesAll = true ∧ (t = .sideband → bitOf s.flash.policy.toNat 2 = true))
    (hnone : ∀ e ∈ s.sec.sessions, ∀ x, e.2 = some x → ¬ (x.cred = cred ∧ x.transport = t))
    {i : Nat} (hi : i < 8) (hfree : s.session? i = none) (hlow : ∀ j < i, s.session? j ≠ none) (hb : Byte) :
    exec (.keyExchange t cred hb) s = .next ((s.modSec fun y =>
      { y with sessions := tset y.sessions i (some (handshake cred r t hb)) }).respond t { words := [BitVec.ofNat 64 i] }) := by
  have hfind : ((List.range 8).find? fun i => (s.session? i).isNone) = some i := by
    rw [List.find?_range_eq_some]
    exact ⟨by simp [hfree], by simpa using hi, fun j hj => by simpa using Option.ne_none_iff_isSome.mp (hlow j hj)⟩
  refine congrArg Host.Outcome.next ?_
  unfold State.keyExchange
  rw [if_neg (by simp [hs]), if_neg (by simp [hneg, vfMailbox_eq_false ht]), hr]
  dsimp only
  rw [if_neg (by simpa [hvalid] using hclaimed), if_neg (by simpa using fun h => (hop h).1), if_neg (by simpa using fun h => (hop h).2),
    if_neg (by simpa [Option.any_eq_false] using hnone), hfind]
  rfl
end

section
variable {s : State} {sid : Nat} {x : SpdmSession}

theorem exec_finish (hx : s.session? sid = some x) (hs : s.serves x.transport = true) (he : x.established = false) (sigOk : Bool) :
    exec (.finish sid sigOk) s = .next (if sigOk && s.credValid x.cred
      then (s.modSpdmSession sid fun y => { y with established := true }).respond x.transport {}
      else (s.endSession sid).authFails x.transport) := by
  refine congrArg Host.Outcome.next ?_
  unfold State.finishMsg
  rw [hx]
  dsimp only
  rw [if_neg (by simp [hs]), if_neg (by simp [he])]

theorem exec_heartbeatTimeout (hx : s.session? sid = some x) (hb : x.heartbeat ≠ 0) :
    exec (.heartbeatTimeout sid) s = .next (s.endSession sid) := by
  refine congrArg Host.Outcome.next ?_
  unfold State.heartbeatTimeout
  rw [hx]
  exact if_neg hb

theorem session?_of_open? (ho : s.open? sid = some x) : s.session? sid = some x := (Option.filter_eq_some_iff.mp ho).1
end

/-- Settles O36: KEY_EXCHANGE by its refusals in their order, the rest by the message's equation. -/
theorem spdmSessions : Obligations.SpdmSessions := by
  intro t s hs
  refine ⟨fun cred hb r ht hneg hr => ⟨fun hbad => ?_, fun _ hm hk => ?_, fun hvalid hclaimed hop hnone i hi hfree hlow => ?_⟩, ?_, ?_⟩
  · exact exec_keyExchange_authFails hs ht hneg hr (.inl hbad) hb
  · exact exec_keyExchange_authFails hs ht hneg hr (.inr ⟨hm, hk⟩) hb
  · refine ⟨_, exec_keyExchange_opens hs ht hneg hr hvalid hclaimed hop hnone hi hfree hlow hb, ?_, by simp, fun j hj => ?_⟩
    · simp [State.session?, State.modSec, handshake]
    · simp [State.session?, State.modSec, tget_tset_of_ne _ _ _ hj]
  · rintro sid x hx rfl he
    refine ⟨fun hvalid => ?_, exec_finish hx hs he false⟩
    rw [exec_finish hx hs he, hvalid]
    rfl
  · rintro sid x ho rfl
    exact ⟨congrArg Host.Outcome.next (inSession_open _ ho hs), congrArg Host.Outcome.next (inSession_open _ ho hs),
      congrArg Host.Outcome.next (inSession_open _ ho hs), exec_heartbeatTimeout (session?_of_open? ho)⟩
end Sys2Proof.RolesTrustAndJournal

/-! TDISP and IDE_KM (O39), and what reset leaves (O60). -/

namespace Sys2Proof.RolesTrustAndJournal
open Sys2Proof Sys2Proof.Machine

/-! ### The host's security manager (R347, R373) -/

section
variable {s : State} {sid : Nat} {x : SpdmSession} (hall : s.servesAll = true) (ho : s.open? sid = some x)
  (hs : s.serves x.transport = true)
include hall ho hs

/-- A message that the device carries out in an operator's session on the PF mailbox. -/
theorem hostSecurity_done (hop : x.role = .operator) (ht : x.transport = .pfDoe) {f : State → Option (State × Reply)} {u : State} {r : Reply}
    (hf : f s = some (u, r)) : s.hostSecurity sid f = u.respond .pfDoe r := by
  unfold State.hostSecurity
  rw [if_neg (by simp [hall]), inSession_open _ ho hs, if_neg (by simp [hop, ht]), hf, ht]

/-- A message that the interface's state does not allow. -/
theorem hostSecurity_none (hop : x.role = .operator) (ht : x.transport = .pfDoe) {f : State → Option (State × Reply)}
    (hf : f s = none) : s.hostSecurity sid f = s.refuseMsg .pfDoe := by
  unfold State.hostSecurity
  rw [if_neg (by simp [hall]), inSession_open _ ho hs, if_neg (by simp [hop, ht]), hf, ht]

theorem hostSecurity_refused (h : x.role ≠ .operator ∨ x.transport ≠ .pfDoe) (f : State → Option (State × Reply)) :
    s.hostSecurity sid f = s.refuseMsg x.transport := by
  unfold State.hostSecurity
  rw [if_neg (by simp [hall]), inSession_open _ ho hs, if_pos (by simpa using h)]

/-- A message that the device carries out under a condition. -/
theorem hostSecurity_ite (hop : x.role = .operator) (ht : x.transport = .pfDoe) {f : State → Option (State × Reply)} {u : State} {r : Reply}
    {c : Prop} [Decidable c] (hf : f s = if c then some (u, r) else none) :
    s.hostSecurity sid f = if c then u.respond .pfDoe r else s.refuseMsg .pfDoe := by
  split
  · next hc => exact hostSecurity_done hall ho hs hop ht (hf.trans (if_pos hc))
  · next hc => exact hostSecurity_none hall ho hs hop ht (hf.trans (if_neg hc))
end

/-- The answer to LOCK_INTERFACE_REQUEST: the interface locked, and a nonce. -/
def locked (s : State) (p : Nat) : State × Reply :=
  (s.useFree.modVf p fun v => { v with tdi := .locked }, { bytes := (List.range 32).map (Config.spdmBytes s.free) })

theorem tdiLock_eq (s : State) (p : Nat) : s.tdiLock p =
    if ((s.part p).ctl.state = .stopped ∨ (s.part p).ctl.state = .running) ∧ s.ideCovers p = true ∧ (s.part p).vf.enabled = true ∧
      (s.part p).vf.tdi = .unlocked then some (locked s p) else none := by
  unfold State.tdiLock
  dsimp only
  congr 1
  simp [and_assoc]

/-- The interface report: the ranges of the VF's BARs and its partition's digest. -/
def interfaceReport (s : State) (p : Nat) : Reply where
  words := [s.hst.vfBar0 + BitVec.ofNat 64 (262144 * p), 262144, s.hst.vfBar2 + BitVec.ofNat 64 (17179869184 * p), 17179869184]
  bytes := digestBytes (s.partDigest p)

theorem tdiReport_eq (s : State) (p : Nat) : s.tdiReport p =
    if (s.part p).vf.tdi = .locked ∨ (s.part p).vf.tdi = .run then some (s, interfaceReport s p) else none := by
  unfold State.tdiReport
  cases (s.part p).vf.tdi <;> rfl

/-- Settles O39: each message by what it answers in an operator's session on the PF mailbox, and refused in any other. -/
theorem tdispMessages : Obligations.TdispMessages := by
  intro sid p s x hall ho hs
  refine ⟨fun hop ht => ?_, fun h => ?_⟩
  · have done {f : State → Option (State × Reply)} {u : State} {r : Reply} (hf : f s = some (u, r)) :
        (.next (s.hostSecurity sid f) : Res) = .next (u.respond .pfDoe r) :=
      congrArg Host.Outcome.next (hostSecurity_done hall ho hs hop ht hf)
    refine ⟨done rfl, done rfl, done rfl, ?_, ?_, ?_, done rfl, done rfl, fun k y => done rfl⟩
    · exact congrArg Host.Outcome.next (hostSecurity_ite hall ho hs hop ht (tdiLock_eq s p))
    · exact congrArg Host.Outcome.next (hostSecurity_ite hall ho hs hop ht (tdiReport_eq s p))
    · exact congrArg Host.Outcome.next (hostSecurity_ite hall ho hs hop ht (f := (·.tdiStart p.val)) rfl)
  · have refused (f : State → Option (State × Reply)) : (.next (s.hostSecurity sid f) : Res) = .next (s.refuseMsg x.transport) :=
      congrArg Host.Outcome.next (hostSecurity_refused hall ho hs h f)
    simp only [List.forall_mem_cons, List.not_mem_nil, false_implies, implies_true, and_true]
    exact ⟨refused _, refused _, refused _, refused _, refused _, refused _, refused _, refused _⟩

/-! ### The state after reset (R456, R461) -/

theorem reset_chan (k : Nat) : (State.reset.chan k).state = .off := rfl

/-- Settles O60: the tables of the reset state are empty, so every partition, ring, channel and session has its reset value. -/
theorem resetState : Obligations.ResetState :=
  ⟨(memoryCanonical_iff _).mpr reset_canon, rfl, rfl, rfl, fun _ => ⟨rfl, fun _ => rfl⟩, reset_chan, fun _ => rfl, rfl, rfl, rfl, rfl, rfl, rfl, rfl, rfl, rfl, rfl, rfl⟩
end Sys2Proof.RolesTrustAndJournal

/-! PROOF. The management sideband and the fast power limit (chapters 14 and 15), and how a step runs (O1, O54, O56). -/

namespace Sys2Proof.ModuleAndPower
open Sys2Proof Sys2Proof.Machine

/-- Settles O1: a step takes the command at the front of the queue, by the definition of `step`. -/
theorem stepRunsFront : Obligations.StepRunsFront := fun _ _ _ => rfl

/-! ### The sideband (R435 to R443) -/

@[simp] theorem leBytes_length (n x : Nat) : (leBytes n x).length = n := by
  induction n generalizing x with
  | zero => rfl
  | succ n ih => exact congrArg (· + 1) (ih _)

theorem b2n_eq (b : Bool) : b2n b = if b = true then 1 else 0 := rfl

section
variable {s : State}

/-- What an assignment of a dynamic address leaves (R437, R443). -/
theorem takeAddress_took (s : State) (a : BitVec 7) :
    let t := s.takeAddress a
    t = { s with mgmt := t.mgmt } ∧ t.mgmt.dynValid = true ∧ t.mgmt.dynAddr = a ∧ t.mgmt.pid = some s.flash.pidLo := ⟨rfl, rfl, rfl, rfl⟩

section
variable (hup : s.sidebandUp = true)
include hup

theorem entdaa_of (hnone : s.mgmt.dynValid = false) (a : BitVec 7) : exec (.entdaa a) s = .next (s.takeAddress a) :=
  congrArg Host.Outcome.next (if_pos (by rw [hup, hnone]; rfl))

theorem rstdaa_of : exec .rstdaa s = .next { s with mgmt := { s.mgmt with dynValid := false, dynAddr := 0, eid := 0 } } :=
  congrArg Host.Outcome.next (if_pos hup)

theorem busEnables_of (ibi hotJoin on : Bool) : s.busEnables ibi hotJoin on = s.modMgmt fun m => { m with
    ibiEn := if ibi then on else m.ibiEn, hjEn := if hotJoin then on else m.hjEn, hjPending := m.hjPending && !(hotJoin && !on) } :=
  if_neg (by simp [hup])

theorem enec_answers (ibi hj : Bool) : Answers (.enec ibi hj) s fun t => t = { s with mgmt := t.mgmt } ∧
    t.mgmt.ibiEn = (s.mgmt.ibiEn || ibi) ∧ t.mgmt.hjEn = (s.mgmt.hjEn || hj) := by
  refine ⟨_, congrArg Host.Outcome.next (busEnables_of hup ibi hj true), rfl, ?_, ?_⟩
  · cases ibi <;> simp
  · cases hj <;> simp

theorem disec_answers (ibi hj : Bool) : Answers (.disec ibi hj) s fun t => t = { s with mgmt := t.mgmt } ∧
    t.mgmt.ibiEn = (s.mgmt.ibiEn && !ibi) ∧ t.mgmt.hjEn = (s.mgmt.hjEn && !hj) := by
  refine ⟨_, congrArg Host.Outcome.next (busEnables_of hup ibi hj false), rfl, ?_, ?_⟩
  · cases ibi <;> simp
  · cases hj <;> simp

end

/-- The static address as a number (R437). -/
theorem staticAddr_toNat (s : State) : s.staticAddr.toNat = 0x30 + bitsOf s.pins.straps.toNat 5 3 := by
  have hlt : bitsOf s.pins.straps.toNat 5 3 < 8 := Nat.mod_lt _ (by decide)
  rw [State.staticAddr, BitVec.toNat_ofNat]
  omega

section
variable (hopen : s.sidebandOpen = true)
include hopen

theorem setdasa_of (hnone : s.mgmt.dynValid = false) {static : BitVec 7} (hstatic : static.toNat = 0x30 + bitsOf s.pins.straps.toNat 5 3)
    (a : BitVec 7) : exec (.setdasa static a) s = .next (s.takeAddress a) := by
  have haddr : static = s.staticAddr := BitVec.eq_of_toNat_eq (hstatic.trans (staticAddr_toNat s).symm)
  exact congrArg Host.Outcome.next (if_pos (by simp [hopen, hnone, haddr]))

theorem setnewda_of (hvalid : s.mgmt.dynValid = true) (a : BitVec 7) : exec (.setnewda s.mgmt.dynAddr a) s = .next (s.takeAddress a) :=
  congrArg Host.Outcome.next (if_pos (by simp [hopen, hvalid]))

/-- A direct read answers the value, where it fits a word. -/
theorem reads_of {i : Instr} {v : Nat} (hi : exec i s = .next (s.directRead v)) (hv : v < 2 ^ 64) :
    ∃ w : W64, exec i s = .next { s with reply := { words := [w] } } ∧ w.toNat = v :=
  ⟨BitVec.ofNat 64 v, hi.trans (congrArg Host.Outcome.next (if_pos hopen)), by rw [BitVec.toNat_ofNat, Nat.mod_eq_of_lt hv]⟩

theorem mctpControl_of (e : Option Byte) : s.mctpControl e = match e with
    | some e => (s.modMgmt fun m => { m with eid := e }).answer { bytes := [e] }
    | none => s.answer { bytes := [s.mgmt.eid] } :=
  if_neg (by simp [hopen])

theorem alertGet_of : s.alertGet = match s.mgmt.alerts with
    | [] => s.answer { bytes := List.replicate 32 0 }
    | x :: rest => (s.modMgmt fun m => { m with alerts := rest }).answer { bytes := x.bytes } :=
  if_neg (by simp [hopen])

end

/-- A module that already has an address, or is not at the static one named, does not take SETDASA (R437). -/
theorem setdasa_ignored {static : BitVec 7} (h : static.toNat ≠ 0x30 + bitsOf s.pins.straps.toNat 5 3 ∨ s.mgmt.dynValid = true) (a : BitVec 7) :
    exec (.setdasa static a) s = .next s := by
  refine congrArg Host.Outcome.next (if_neg fun htakes => ?_)
  simp only [Bool.and_eq_true, Bool.not_eq_true', beq_iff_eq] at htakes
  obtain ⟨⟨-, hnone⟩, haddr⟩ := htakes
  rcases h with hne | hvalid
  · exact hne (haddr ▸ staticAddr_toNat s)
  · exact Bool.false_ne_true (hnone.symm.trans hvalid)

theorem provisioned_parts (s : State) : s.provisioned < 2 ^ 64 ∧ s.provisioned / 2 ^ 33 = s.fuse.mipi.toNat ∧
    s.provisioned % 2 ^ 33 = (s.mgmt.pid.getD s.flash.pidLo).toNat := by
  have hmipi := s.fuse.mipi.isLt
  have hpid := (s.mgmt.pid.getD s.flash.pidLo).isLt
  unfold State.provisioned
  omega

/-- The fields of the status word (R440). -/
theorem busStatus_parts (s : State) : s.busStatus < 2 ^ 64 ∧ s.busStatus % 16 = min 15 s.mgmt.alerts.length ∧
    s.busStatus / 8192 = s.pwr.stage.code ∧ s.busStatus / 1024 % 2 = b2n s.sec.lockedOut ∧ s.busStatus / 2048 % 2 = b2n (!s.mgmt.alerts.isEmpty) := by
  have hbit (b : Bool) : b2n b < 2 := by cases b <;> decide
  have hdebug := hbit s.sec.debug
  have hjrn := hbit s.sec.jrnFailed
  have hlocked := hbit s.sec.lockedOut
  have halerts := hbit (!s.mgmt.alerts.isEmpty)
  have htherm := hbit s.thermLow
  have hstage : s.pwr.stage.code < 4 := by cases s.pwr.stage <;> decide
  unfold State.busStatus
  omega

theorem statusBytes_length (s : State) : s.statusBytes.length = 32 := by simp [State.statusBytes]

end

/-- Settles O54: each row by the lemma of its own, the reads by the value that they answer. -/
theorem sideband : Obligations.Sideband := by
  intro s took reads
  refine ⟨fun hpow hgood => ?_, fun hpow hgood hres => ?_⟩
  · have hup : s.sidebandUp = true := by simp [State.sidebandUp, hpow, hgood]
    exact ⟨fun a hnone => ⟨_, entdaa_of hup hnone a, takeAddress_took s a⟩, ⟨_, rstdaa_of hup, rfl⟩, enec_answers hup, disec_answers hup,
      fun n => congrArg Host.Outcome.next (if_pos hup), fun n => congrArg Host.Outcome.next (if_pos hup)⟩
  · have hopen : s.sidebandOpen = true := by simp [State.sidebandOpen, State.sidebandUp, hpow, hgood, hres]
    obtain ⟨hidLt, hidHigh, hidLow⟩ := provisioned_parts s
    obtain ⟨hstLt, halerts, hstage, hlocked, hany⟩ := busStatus_parts s
    obtain ⟨idWord, hidRead, hid⟩ := reads_of (i := .getpid) hopen rfl hidLt
    obtain ⟨stWord, hstRead, hst⟩ := reads_of (i := .getstatus) hopen rfl hstLt
    refine ⟨fun static a hnone hstatic => ⟨_, setdasa_of hopen hnone hstatic a, takeAddress_took s a⟩,
      fun a hvalid => ⟨_, setnewda_of hopen hvalid a, takeAddress_took s a⟩, fun static a h => setdasa_ignored h a,
      ⟨idWord, hidRead, hid ▸ ⟨hidHigh, hidLow⟩⟩, reads_of hopen rfl (by decide), reads_of hopen rfl (by decide),
      ⟨stWord, hstRead, hst ▸ ⟨halerts, hstage, hlocked, hany.trans ?_⟩⟩, reads_of hopen rfl (s.mgmt.mrl.isLt.trans (by decide)),
      reads_of hopen rfl (s.mgmt.mwl.isLt.trans (by decide)), ?_, ?_, ?_, ?_, ?_⟩
    · cases s.mgmt.alerts <;> rfl
    · exact fun e => congrArg Host.Outcome.next (mctpControl_of hopen (some e))
    · exact congrArg Host.Outcome.next (mctpControl_of hopen none)
    · exact ⟨_, congrArg Host.Outcome.next (if_pos hopen), rfl, statusBytes_length s⟩
    · intro hnone
      refine congrArg Host.Outcome.next ((alertGet_of hopen).trans ?_)
      rw [hnone]
      rfl
    · intro x rest hsome
      refine congrArg Host.Outcome.next ((alertGet_of hopen).trans ?_)
      rw [hsome]
      rfl

/-! ### The fast limit (R450) -/

theorem fastLimit_trips {s : State} {watt tenMa : Nat} (hpow : s.powered = true) (hover : 12 * s.govCap < 10 * watt ∨ 5500 < tenMa) :
    s.fastLimit watt tenMa =
      (s.modPwr fun w => { w with vcore := 600, fastTrips := satAdd w.fastTrips 1, fastNow := true }).raisePf Cause.powerFastLimit srcPower := by
  have hseen : (decide (10 * watt > 12 * s.govCap) || decide (tenMa > 5500)) = true := by
    rcases hover with h | h
    · rw [decide_eq_true h, Bool.true_or]
    · rw [decide_eq_true h, Bool.or_true]
  exact if_neg (by rw [hpow, hseen]; decide)

theorem fastLimit_within {s : State} {watt tenMa : Nat} (hwatt : 10 * watt ≤ 12 * s.govCap) (hamp : tenMa ≤ 5500) :
    s.fastLimit watt tenMa = s :=
  if_pos (by simp [Nat.not_lt.mpr hwatt, Nat.not_lt.mpr hamp])

theorem foldl_modTile_pwr (f : Nat → Tile → Tile) (l : List Nat) (s : State) : (l.foldl (fun s t => s.modTile t (f t)) s).pwr = s.pwr :=
  foldl_keeps (fun t : State => t.pwr = s.pwr) (fun s t => s.modTile t (f t)) (fun _ _ h => h) l rfl

theorem measure_vcore (s : State) : s.measure.pwr.vcore = s.pwr.vcore := by
  unfold State.measure
  dsimp only
  rw [foldl_modTile_pwr]
  rfl

theorem raisePfWhere_pwr (b : Bool) (s : State) (cause : W16) (src : Src) : (if b = true then s.raisePf cause src else s).pwr = s.pwr := by
  split
  · rw [(PfTold.raisePf s cause src none []).rest]
  · rfl

/-- V_core after a governor period of a module that has power (R449). -/
theorem governorPeriod_vcore {s : State} (hpow : s.powered = true) (x : PowerSample) :
    (s.governorPeriod x).pwr.vcore = (s.capEnds.pwr.govern x.avgWatt.toNat s.capEnds.govCap).vcore := by
  unfold State.governorPeriod
  rw [if_neg (by simp [hpow])]
  exact (measure_vcore _).trans ((congrArg Power.vcore ((raisePfWhere_pwr _ _ _ _).trans (raisePfWhere_pwr _ _ _ _))).trans rfl)

section
variable {w : Power} (hcritical : w.critical = false) (hvcore : w.vcore = 600) {p c : Nat}
include hcritical hvcore

theorem govern_vcore_above (hp : c < p) : (w.govern p c).vcore = 600 := by
  rw [Power.govern, if_neg (by simp [hcritical]), if_pos hp, if_pos (by rw [hvcore]; decide)]
  exact hvcore

theorem govern_vcore_below (hduty : w.duty = 64) (hthrottle : w.throttle = false) (hmax : 600 < w.vcoreMax.toNat) (hp : 100 * p < 98 * c) :
    (w.govern p c).vcore = 605 := by
  rw [Power.govern, if_neg (by simp [hcritical]), if_neg (by omega), if_neg (by simp [hduty]), if_neg (by simp [hthrottle]),
    if_pos (by rw [hvcore]; exact ⟨hp, hmax⟩)]
  dsimp only
  rw [hvcore]
  rfl

end

/-- A governor period after the event of a trip: power, cap and V_core are those the trip left. -/
theorem governorPeriod_vcore_of_told {s t : State} (htold : PfTold s t) (hpow : s.powered = true) (x : PowerSample) :
    (t.governorPeriod x).pwr.vcore = (s.capEnds.pwr.govern x.avgWatt.toNat s.capEnds.govCap).vcore := by
  have hpow' : t.powered = true := by
    rw [htold.rest]
    exact hpow
  rw [governorPeriod_vcore hpow', htold.rest]
  rfl

/-- Settles O56: the trip leaves V_core at 0.600 V, and a governor period goes on from there by `Power.govern`. -/
theorem fastLimit : Obligations.FastLimit := by
  refine fun watt tenMa s hpow => ⟨fun hover => ⟨_, congrArg Host.Outcome.next (fastLimit_trips hpow hover), rfl, ?_⟩,
    fun hwatt hamp => congrArg Host.Outcome.next (fastLimit_within hwatt hamp)⟩
  intro x hcritical hduty hthrottle hmax
  have hperiod := governorPeriod_vcore_of_told (PfTold.raisePf (s.modPwr fun w => { w with
    vcore := 600, fastTrips := satAdd w.fastTrips 1, fastNow := true }) Cause.powerFastLimit srcPower none []) hpow x
  refine ⟨fun hp => ⟨_, rfl, hperiod.trans (govern_vcore_above ?_ rfl hp)⟩,
    fun hp => ⟨_, rfl, hperiod.trans (govern_vcore_below ?_ rfl hduty hthrottle hmax hp)⟩⟩
  · exact hcritical
  · exact hcritical

end Sys2Proof.ModuleAndPower

/-! PROOF. The pair link (chapter 13): flits, replay, keepalives and the exchange at link-up (O51). -/

namespace Sys2Proof.PairLinkFlits
open Sys2Proof Sys2Proof.Machine

/-! ### The link's registers and buffers -/

section
variable {e : Eci}

theorem carries_iff : e.carries = true ↔ e.link = .up ∨ e.link = .retry := by simp [Eci.carries]

theorem settle_of_carries (h : e.carries = true) :
    e.settle = { e with link := if e.busy = true then .retry else .up, retrained := e.retrained && e.busy } :=
  if_neg (by simp [h])

theorem settle_of_busy (h : e.carries = true) (hbusy : e.busy = true) : e.settle = { e with link := .retry } := by
  rw [settle_of_carries h, hbusy, Bool.and_true]
  rfl

theorem settle_rest (e : Eci) : e.settle = { e with link := e.settle.link, retrained := e.settle.retrained } := by
  unfold Eci.settle
  split <;> rfl

theorem settle_carries (h : e.carries = true) : e.settle.carries = true := by
  rw [settle_of_carries h, carries_iff]
  by_cases hbusy : e.busy = true
  · exact .inr (if_pos hbusy)
  · exact .inl (if_neg hbusy)

theorem busy_of_tries {f : SentFlit} (hmem : f ∈ e.retry) (htries : f.tries ≠ 0) : e.busy = true := by
  have hany : e.retry.any (fun g => g.tries != 0) = true := List.any_eq_true.mpr ⟨f, hmem, bne_iff_ne.mpr htries⟩
  rw [Eci.busy, hany, Bool.or_true]

theorem busy_of_naked (h : e.naked = true) : e.busy = true := by rw [Eci.busy, h, Bool.true_or]

theorem down_link (e : Eci) (l : EciLink) : (e.down l).link = l := by
  unfold Eci.down
  split <;> rfl

theorem down_keyNo (e : Eci) (l : EciLink) : (e.down l).keyNo = e.keyNo := by
  unfold Eci.down
  split <;> rfl

theorem down_retry (h : e.carries = true) (l : EciLink) : (e.down l).retry = [] := by rw [Eci.down, if_pos h]

end

/-! ### What is sent -/

/-- What the flits of waiting mirror messages may change (R402, R408): the sender's numbers and buffers and what goes out. The buffer only
grows at its end, and the receiver's side stays. -/
structure Pumped (s t : State) : Prop where
  rest : t = { s with
    free := t.free, out := t.out
    eci := { s.eci with txSeq := t.eci.txSeq, nonce := t.eci.nonce, retry := t.eci.retry, stream := t.eci.stream } }
  kept : s.eci.retry <+: t.eci.retry

theorem Pumped.refl (s : State) : Pumped s s := ⟨rfl, List.prefix_refl _⟩

theorem Pumped.trans {s t u : State} (h : Pumped s t) (k : Pumped t u) : Pumped s u := by
  refine ⟨?_, h.kept.trans k.kept⟩
  have hr := h.rest
  have kr := k.rest
  rw [hr] at kr
  rw [kr]

theorem sendSeq_of_room {s : State} (h : s.eci.retry.length < 1024) (kind : Byte) (payload : List Byte) :
    s.sendSeq kind payload = (s.sendFlit kind s.eci.txSeq payload).modEci fun e => { e with
      txSeq := e.txSeq + 1, retry := e.retry ++ [{ seq := s.eci.txSeq, bytes := s.sealedFlit kind s.eci.txSeq payload }] } :=
  if_neg (by simp [Eci.room, h])

theorem sendSeq_of_full {s : State} (h : 1024 ≤ s.eci.retry.length) (kind : Byte) (payload : List Byte) : s.sendSeq kind payload = s :=
  if_pos (by simp [Eci.room, h])

theorem Pumped.sendSeq (s : State) (kind : Byte) (payload : List Byte) : Pumped s (s.sendSeq kind payload) := by
  rcases Nat.lt_or_ge s.eci.retry.length 1024 with h | h
  · rw [sendSeq_of_room h]
    exact ⟨rfl, List.prefix_append _ _⟩
  · rw [sendSeq_of_full h]
    exact .refl s

theorem Pumped.pumpN (n : Nat) (s : State) : Pumped s (s.pumpN n) := by
  induction n generalizing s with
  | zero => exact .refl s
  | succ n ih =>
    rw [State.pumpN]
    split
    · exact .refl s
    · have hcut : Pumped (s.sendSeq 1 (s.eci.stream.take 228))
          ((s.sendSeq 1 (s.eci.stream.take 228)).modEci fun e => { e with stream := e.stream.drop 228 }) := ⟨rfl, List.prefix_refl _⟩
      exact ((Pumped.sendSeq s 1 _).trans hcut).trans (ih _)

theorem Pumped.pump (s : State) : Pumped s s.pump := .pumpN 1024 s

theorem pumpN_of_empty {s : State} (h : s.eci.stream = []) (n : Nat) : s.pumpN n = s := by
  cases n with
  | zero => rfl
  | succ n => exact if_pos (by simp [h])

theorem pump_of_empty {s : State} (h : s.eci.stream = []) : s.pump = s := pumpN_of_empty h 1024

section
variable {s t : State} (h : Pumped s t)
include h
theorem Pumped.parts : t.parts = s.parts := by rw [h.rest]
theorem Pumped.link : t.eci.link = s.eci.link := by rw [h.rest]
theorem Pumped.rxNext : t.eci.rxNext = s.eci.rxNext := by rw [h.rest]
theorem Pumped.missCount : t.eci.missCount = s.eci.missCount := by rw [h.rest]
theorem Pumped.naked : t.eci.naked = s.eci.naked := by rw [h.rest]
theorem Pumped.replays : t.eci.replays = s.eci.replays := by rw [h.rest]
theorem Pumped.retrained : t.eci.retrained = s.eci.retrained := by rw [h.rest]
theorem Pumped.keyNo : t.eci.keyNo = s.eci.keyNo := by rw [h.rest]
theorem Pumped.take : t.eci.retry.take s.eci.retry.length = s.eci.retry := (List.prefix_iff_eq_take.mp h.kept).symm
end

theorem replay_eq (s : State) : s.replay = { s with out := (s.eci.retry.map fun f => Out.flit f.bytes).reverse ++ s.out } := by
  have hfold (l : List SentFlit) (t : State) :
      l.foldl (fun t f => t.emit (.flit f.bytes)) t = { t with out := (l.map fun f => Out.flit f.bytes).reverse ++ t.out } := by
    induction l generalizing t with
    | nil => rfl
    | cons f l ih => rw [List.foldl_cons, ih]; simp [State.emit]
  exact hfold s.eci.retry s

theorem sendKeyx_rest (s : State) : ∃ n o, s.sendKeyx = { s with free := n, out := o } := by
  unfold State.sendKeyx
  refine foldl_keeps (fun t : State => ∃ n o, t = { s with free := n, out := o }) _ ?_ _ ⟨_, _, rfl⟩
  rintro _ x ⟨n, o, rfl⟩
  exact ⟨_, _, rfl⟩

/-- The state `t` of a link after its registers and buffers were brought to `e` and settled, and what waits went out. -/
structure Settled (s : State) (e : Eci) (t : State) : Prop where
  parts : t.parts = s.parts
  link : t.eci.link = e.settle.link
  rxNext : t.eci.rxNext = e.rxNext
  missCount : t.eci.missCount = e.missCount
  naked : t.eci.naked = e.naked
  replays : t.eci.replays = e.replays
  retrained : t.eci.retrained = e.settle.retrained
  keyNo : t.eci.keyNo = e.keyNo
  take : t.eci.retry.take e.retry.length = e.retry
  still : e.stream = [] → t.out = s.out ∧ t.eci.retry = e.retry ∧ t.eci.txSeq = e.txSeq

theorem Settled.pump (s : State) (e : Eci) : Settled s e ({ s with eci := e.settle }).pump := by
  have hpump := Pumped.pump { s with eci := e.settle }
  have hempty := pump_of_empty (s := { s with eci := e.settle })
  rw [settle_rest e] at hpump hempty ⊢
  exact ⟨hpump.parts, hpump.link, hpump.rxNext, hpump.missCount, hpump.naked, hpump.replays, hpump.retrained, hpump.keyNo, hpump.take,
    fun hnone => by rw [hempty hnone]; exact ⟨rfl, rfl, rfl⟩⟩

/-! ### Events of the link, and the loss of the peer -/

theorem foldl_eci {α : Type} {f : State → α → State} (hf : ∀ t a, (f t a).eci = t.eci) (l : List α) (s : State) :
    (l.foldl f s).eci = s.eci :=
  foldl_keeps (fun t : State => t.eci = s.eci) f (fun t a h => (hf t a).trans h) l rfl

theorem recPf_eci (s : State) (q : W64) (cause : W16) (cls : BitVec 2) (src : Src) (part : Option Nat) (wm : W32) (detail : List Byte)
    (late : Bool) : (s.recPf q cause cls src part wm detail late).eci = s.eci := by
  rw [(PfTold.recPf s q cause cls src part wm detail late).rest]

theorem recPart_eci (p : Nat) (s : State) (q : W64) (cause : W16) (cls : BitVec 2) (src : Src) (wm : W32) (detail : List Byte) :
    (s.recPart p q cause cls src wm detail).eci = s.eci := by
  rw [(PartTold.recPart p s q cause cls src wm detail).rest]

theorem raisePair_eci (s : State) (cause : W16) (ps : List Nat) : (s.raisePair cause ps).eci = s.eci :=
  (foldl_eci (fun t p => recPart_eci p t _ cause _ _ _ _) ps _).trans (recPf_eci _ _ cause _ _ _ _ _ _)

theorem linkStops_eci (s : State) (l : EciLink) (cause : W16) : (s.linkStops l cause).eci = s.eci.down l := raisePair_eci _ cause _

theorem promoteTables_eci (s : State) (p : Nat) : (s.promoteTables p).eci = s.eci := by
  unfold State.promoteTables
  dsimp only
  split <;> rfl

theorem raiseBoth_eci (s : State) (p : Nat) (cause : W16) (src : Src) : (s.raiseBoth p cause src).eci = s.eci := by
  rw [(PartTold.raiseBoth p s cause src 0 []).rest]

theorem journalFails_eci (s : State) : s.journalFails.eci = s.eci := by
  unfold State.journalFails
  split
  · rfl
  · rw [(PfTold.raisePf _ _ _ _ _).rest]
    rfl

theorem promote_eci (s : State) (p : Nat) : (s.promote p).eci = s.eci := by
  unfold State.promote
  split
  · exact journalFails_eci s
  · exact (raiseBoth_eci _ _ _ _).trans ((State.note_eci _ _).trans (promoteTables_eci s p))

/-- The records of a lost peer (R411, R416, R474): on the PF ring, and of each partition bound. -/
theorem lossTold_eci (s : State) (q : W64) (cause : W16) (cls : BitVec 2) (hit all : List Nat) (root : Option W16) :
    (all.foldl (fun t p => if hit.contains p then (t.recPart p q Cause.pairLost 2 srcEci 0 []).mirCause p Cause.pairLost
      else match root with
        | some c => t.recPart p q c (Cause.classOf c) srcEci 0 []
        | none => t) (s.recPf q cause cls srcEci none 0 [])).eci = s.eci := by
  refine (foldl_eci (fun t p => ?_) all _).trans (recPf_eci s q cause cls srcEci none 0 [] _)
  split
  · exact recPart_eci p t q _ _ _ _ _
  · cases root with
    | some c => exact recPart_eci p t q c _ _ _ _
    | none => rfl

theorem foldl_modMir_eci (f : Mirror → Mirror) (l : List Nat) (s : State) : (l.foldl (fun s p => s.modMir p f) s).eci = s.eci :=
  foldl_eci (f := fun s p => s.modMir p f) (fun _ _ => rfl) l s

theorem ite_eci {c : Prop} [Decidable c] {t u : State} {e : Eci} (ht : t.eci = e) (hu : u.eci = e) : (if c then t else u).eci = e := by
  split
  · exact ht
  · exact hu

theorem peerLost_eci (s : State) (root : Option W16) : (s.peerLost root).eci = { s.eci with peerAlive := false } := by
  unfold State.peerLost
  refine (foldl_eci promote_eci _ _).trans ((foldl_modMir_eci _ _ _).trans (ite_eci rfl ((lossTold_eci _ _ _ _ _ _ root).trans ?_)))
  exact ite_eci (by cases root <;> rfl) (by cases root <;> rfl)

theorem pairLinkFail_of {s : State} (h : s.eci.carries = true) :
    s.pairLinkFail = (s.modEci fun e => e.down .failed).peerLost (some Cause.pairLinkFail) := if_pos h

theorem pairLinkFail_eci {s : State} (h : s.eci.carries = true) :
    s.pairLinkFail.eci.link = .failed ∧ s.pairLinkFail.eci.retry = [] ∧ s.pairLinkFail.eci.peerAlive = false := by
  rw [pairLinkFail_of h, peerLost_eci]
  exact ⟨down_link _ _, down_retry h _, rfl⟩

/-! ### FLIT_RECEIVE (R402) -/

/-- The link's registers and buffers after a good sequenced flit in order (R402, R404). -/
def taken (e : Eci) (f : Flit) : Eci := { e.acked f.ack with rxNext := e.rxNext + 1, missCount := 0, naked := false }

section
variable {s : State}

theorem ignored_of_idle (h : s.eci.carries = false) : (∀ f, exec (.flitReceive f) s = .next s) ∧ (∀ n, exec (.nak n) s = .next s) ∧
    exec .keepalive s = .next s ∧ exec .pairLinkFail s = .next s ∧ ∀ peer, exec (.keyRenewal peer) s = .next s :=
  ⟨fun _ => congrArg Host.Outcome.next (if_pos (by simp [h])), fun _ => congrArg Host.Outcome.next (if_pos (by simp [h])),
    congrArg Host.Outcome.next (if_neg (by simp [h])), congrArg Host.Outcome.next (if_neg (by simp [h])),
    fun _ => congrArg Host.Outcome.next (if_pos (by simp [h]))⟩

variable (hc : s.eci.carries = true) {f : Flit}
include hc

theorem flitReceive_damaged (hbad : (f.crcOk && f.tagOk) = false) : exec (.flitReceive f) s =
    .next ((s.modEci fun e => { e with crcErr := satAdd e.crcErr 1, naked := true, link := .retry }).sendFlit 2 s.eci.rxNext []) := by
  have hset : ({ s.eci with crcErr := satAdd s.eci.crcErr 1, naked := true } : Eci).settle =
      { s.eci with crcErr := satAdd s.eci.crcErr 1, naked := true, link := .retry } := settle_of_busy hc (busy_of_naked rfl)
  have hrow : s.flitReceive f = (s.modEci fun e => ({ e with crcErr := satAdd e.crcErr 1, naked := true } : Eci).settle).sendNak := by
    unfold State.flitReceive
    rw [if_neg (by simp [hc]), if_pos (by simp [hbad])]
  refine congrArg Host.Outcome.next (hrow.trans ?_)
  simp only [State.modEci, hset]
  rfl

section
variable (hcrc : f.crcOk = true) (htag : f.tagOk = true)
include hcrc htag

theorem flitReceive_good : s.flitReceive f =
    if (f.kind == 1 || f.kind == 3) && f.seq != s.eci.rxNext then (s.modEci fun e => ({ e with naked := true } : Eci).settle).sendNak
    else ({ s with eci := (if f.kind == 1 || f.kind == 3 then taken s.eci f else s.eci.acked f.ack).settle }).pump := by
  unfold State.flitReceive
  rw [if_neg (by simp [hc]), if_neg (by simp [hcrc, htag])]
  rfl

theorem flitReceive_outOfOrder (hkind : f.kind = 1 ∨ f.kind = 3) (hseq : f.seq ≠ s.eci.rxNext) : exec (.flitReceive f) s =
    .next ((s.modEci fun e => { e with naked := true, link := .retry }).sendFlit 2 s.eci.rxNext []) := by
  have hset : ({ s.eci with naked := true } : Eci).settle = { s.eci with naked := true, link := .retry } :=
    settle_of_busy hc (busy_of_naked rfl)
  refine congrArg Host.Outcome.next ((flitReceive_good hc hcrc htag).trans ?_)
  rw [if_pos (by simpa [hseq] using hkind)]
  simp only [State.modEci, hset]
  rfl

theorem flitReceive_taken (hkind : f.kind = 1 ∨ f.kind = 3) (hseq : f.seq = s.eci.rxNext) :
    let kept := s.eci.retry.filter fun g => decide (0x8000 ≤ (f.ack - g.seq).toNat)
    Answers (.flitReceive f) s fun t =>
      t.eci.rxNext = s.eci.rxNext + 1 ∧ t.eci.missCount = 0 ∧ t.eci.naked = false ∧ t.parts = s.parts ∧
      t.eci.link = (if kept.any (·.tries != 0) then .retry else .up) ∧ t.eci.retry.take kept.length = kept ∧
      (s.eci.stream = [] → t.out = s.out ∧ t.eci.retry = kept) := by
  have hrow : s.flitReceive f = ({ s with eci := (taken s.eci f).settle }).pump := by
    rw [flitReceive_good hc hcrc htag, if_neg (by simp [hseq]), if_pos (by simpa using hkind)]
  have hset := Settled.pump s (taken s.eci f)
  refine ⟨_, congrArg Host.Outcome.next hrow, hset.rxNext, hset.missCount, hset.naked, hset.parts, hset.link.trans ?_, hset.take,
    fun hnone => ⟨(hset.still hnone).1, (hset.still hnone).2.1⟩⟩
  rw [settle_of_carries (e := taken s.eci f) hc]
  rfl

theorem flitReceive_acks (h1 : f.kind ≠ 1) (h3 : f.kind ≠ 3) : Answers (.flitReceive f) s fun t =>
    t.eci.rxNext = s.eci.rxNext ∧ t.eci.missCount = s.eci.missCount ∧ t.parts = s.parts ∧
    (s.eci.stream = [] → t.out = s.out ∧ t.eci.retry = s.eci.retry.filter fun g => decide (0x8000 ≤ (f.ack - g.seq).toNat)) := by
  have hkind : (f.kind == 1 || f.kind == 3) = false := by rw [beq_false_of_ne h1, beq_false_of_ne h3]; rfl
  have hrow : s.flitReceive f = ({ s with eci := (s.eci.acked f.ack).settle }).pump := by
    rw [flitReceive_good hc hcrc htag, hkind, Bool.false_and, if_neg Bool.false_ne_true, if_neg Bool.false_ne_true]
  have hset := Settled.pump s (s.eci.acked f.ack)
  exact ⟨_, congrArg Host.Outcome.next hrow, hset.rxNext, hset.missCount, hset.parts,
    fun hnone => ⟨(hset.still hnone).1, (hset.still hnone).2.1⟩⟩

end
end

/-! ### NAK (R402, R403) -/

/-- What a NAK that names `n` leaves in the retry buffer (R402). -/
def unacked (s : State) (n : W16) : List SentFlit := s.eci.retry.filter fun f => decide (0x8000 ≤ (n - 1 - f.seq).toNat)

/-- The link's registers and buffers after a replay (R402, R403). -/
def resent (e : Eci) : Eci :=
  { e with replays := satAdd e.replays 1, retry := e.retry.map fun f => { f with tries := f.tries + 1 } }

section
variable {s : State} (hc : s.eci.carries = true) {n : W16}
include hc

theorem nak_of : s.nak n =
    let u := { s with eci := (s.eci.acked (n - 1)).settle }
    if (unacked s n).isEmpty then u.pump
    else if (unacked s n).any fun f => decide (8 ≤ f.tries) then if u.eci.retrained then u.pairLinkFail else u
    else ({ u.replay with eci := (resent u.eci).settle }).pump := by
  have hleft : (s.eci.acked (n - 1)).settle.retry = unacked s n := by
    rw [settle_rest]
    rfl
  have hreplay (u : State) : u.replay.eci = u.eci := by rw [replay_eq]
  unfold State.nak
  rw [if_neg (by simp [hc]), ← hleft]
  simp only [State.modEci, hreplay]
  rfl

theorem nak_allArrived (hleft : unacked s n = []) : Answers (.nak n) s fun t =>
    t.eci.rxNext = s.eci.rxNext ∧ t.parts = s.parts ∧ t.eci.replays = s.eci.replays ∧
    (s.eci.stream = [] → t.out = s.out ∧ t.eci.retry = []) := by
  have hset := Settled.pump s (s.eci.acked (n - 1))
  exact ⟨_, congrArg Host.Outcome.next ((nak_of hc).trans (if_pos (by rw [hleft]; rfl))), hset.rxNext, hset.parts, hset.replays,
    fun hnone => ⟨(hset.still hnone).1, (hset.still hnone).2.1.trans hleft⟩⟩

theorem nak_replays (hleft : unacked s n ≠ []) (htries : ∀ f ∈ unacked s n, f.tries < 8) : Answers (.nak n) s fun t =>
    t.eci.link = .retry ∧ t.eci.replays = satAdd s.eci.replays 1 ∧ t.parts = s.parts ∧
    (s.eci.stream = [] → t.out = ((unacked s n).map fun f => Out.flit f.bytes).reverse ++ s.out ∧
      t.eci.retry = (unacked s n).map fun f => { f with tries := f.tries + 1 }) := by
  have hnone : (unacked s n).any (fun f => decide (8 ≤ f.tries)) = false :=
    List.any_eq_false.mpr fun f hf => by simpa using htries f hf
  have hrow := (nak_of (n := n) hc).trans ((if_neg (by simpa using hleft)).trans (if_neg (by simp [hnone])))
  obtain ⟨f, hf⟩ := List.exists_mem_of_ne_nil _ hleft
  have hcarries : (s.eci.acked (n - 1)).settle.carries = true := settle_carries hc
  have hrest := settle_rest (s.eci.acked (n - 1))
  rw [replay_eq] at hrow
  generalize (s.eci.acked (n - 1)).settle = u at hrow hcarries hrest
  have hretry : u.retry = unacked s n := congrArg Eci.retry hrest
  have hreplays : u.replays = s.eci.replays := by
    rw [hrest]
    rfl
  have hbusy : (resent u).busy = true :=
    busy_of_tries (List.mem_map_of_mem (f := fun f : SentFlit => { f with tries := f.tries + 1 }) (hretry ▸ hf)) (Nat.succ_ne_zero f.tries)
  have hset := Settled.pump { s with eci := u, out := (u.retry.map fun f => Out.flit f.bytes).reverse ++ s.out } (resent u)
  refine ⟨_, congrArg Host.Outcome.next hrow, hset.link.trans ?_, hset.replays.trans (congrArg (satAdd · 1) hreplays),
    hset.parts, fun hstream => ?_⟩
  · rw [settle_of_busy (e := resent u) hcarries hbusy]
  · obtain ⟨hout, hkept, -⟩ := hset.still ((congrArg Eci.stream hrest).trans hstream)
    rw [← hretry]
    exact ⟨hout, hkept⟩

/-- A NAK while a flit that has not arrived has been replayed: the link is in RETRY. -/
theorem settle_unacked {f : SentFlit} (hf : f ∈ unacked s n) (htries : 8 ≤ f.tries) :
    (s.eci.acked (n - 1)).settle = { s.eci with retry := unacked s n, link := .retry } :=
  settle_of_busy (e := s.eci.acked (n - 1)) hc (busy_of_tries (f := f) hf (by omega))

theorem nak_spent (hspent : ∃ f ∈ unacked s n, 8 ≤ f.tries) : s.nak n =
    let u := s.modEci fun e => { e with retry := unacked s n, link := .retry }
    if s.eci.retrained = true then u.pairLinkFail else u := by
  obtain ⟨f, hf, htries⟩ := hspent
  have hany : (unacked s n).any (fun f => decide (8 ≤ f.tries)) = true := List.any_eq_true.mpr ⟨f, hf, by simpa using htries⟩
  have hsome : (unacked s n).isEmpty = false := List.isEmpty_eq_false_iff.mpr (List.ne_nil_of_mem hf)
  rw [nak_of hc, settle_unacked hc hf htries, hany, hsome]
  rfl

theorem nak_answers (n : W16) : let left := s.eci.retry.filter fun f => decide (0x8000 ≤ (n - 1 - f.seq).toNat)
    (left = [] → Answers (.nak n) s fun t => t.eci.rxNext = s.eci.rxNext ∧ t.parts = s.parts ∧ t.eci.replays = s.eci.replays ∧
      (s.eci.stream = [] → t.out = s.out ∧ t.eci.retry = [])) ∧
    (left ≠ [] → (∀ f ∈ left, f.tries < 8) → Answers (.nak n) s fun t =>
      t.eci.link = .retry ∧ t.eci.replays = satAdd s.eci.replays 1 ∧ t.parts = s.parts ∧
      (s.eci.stream = [] → t.out = (left.map fun f => Out.flit f.bytes).reverse ++ s.out ∧
        t.eci.retry = left.map fun f => { f with tries := f.tries + 1 })) ∧
    ((∃ f ∈ left, 8 ≤ f.tries) → s.eci.retrained = false →
      exec (.nak n) s = .next (s.modEci fun e => { e with retry := left, link := .retry })) ∧
    ((∃ f ∈ left, 8 ≤ f.tries) → s.eci.retrained = true → Answers (.nak n) s fun t =>
      t.eci.link = .failed ∧ t.eci.peerAlive = false ∧ t.eci.retry = []) := by
  refine ⟨nak_allArrived hc, nak_replays hc, fun hspent hfresh => ?_, fun hspent hused => ?_⟩
  · exact congrArg Host.Outcome.next ((nak_spent hc hspent).trans (if_neg (by simp [hfresh])))
  · obtain ⟨hlink, hretry, hpeer⟩ := pairLinkFail_eci (s := s.modEci fun e => { e with retry := unacked s n, link := .retry }) rfl
    exact ⟨_, congrArg Host.Outcome.next ((nak_spent hc hspent).trans (if_pos hused)), hlink, hpeer, hretry⟩

end

/-! ### Keepalives and the renewal of keys (R399, R404) -/

section
variable {s : State} (hc : s.eci.carries = true)

theorem keyRenewal_early (h : s.eci.nonce.toNat < 2 ^ 40) (peer : Option PeerKey) : exec (.keyRenewal peer) s = .next s :=
  congrArg Host.Outcome.next (if_pos (by simp; omega))

theorem misses_iff : s.eci.misses = true ↔ s.eci.link = .up ∨ s.eci.peerAlive = true ∧ (s.eci.link = .training ∨ s.eci.link = .auth) := by
  simp [Eci.misses]

theorem keepaliveMiss_of (s : State) : s.keepaliveMiss =
    let u := s.modEci fun e => { e with missCount := satAdd e.missCount 1 }
    if s.eci.link = .up ∨ s.eci.peerAlive = true ∧ (s.eci.link = .training ∨ s.eci.link = .auth) then
      if s.eci.peerAlive = true ∧ s.eci.kaMiss.toNat ≤ (satAdd s.eci.missCount 1).toNat then u.peerLost none else u
    else s := by
  unfold State.keepaliveMiss
  by_cases hmiss : s.eci.misses = true
  · rw [if_neg (by simp [hmiss]), if_pos (misses_iff.mp hmiss)]
    simp only [Bool.and_eq_true, decide_eq_true_eq]
    rfl
  · rw [if_pos (by simp [hmiss]), if_neg (mt misses_iff.mpr hmiss)]

include hc

theorem keepalive_answers :
    let body := (List.range 228).map (Config.mirrorStates ((List.range 32).map fun p => (s.part p).mir.state.code))
    (s.eci.retry.length < 1024 → Answers .keepalive s fun t =>
      t.eci.txSeq = s.eci.txSeq + 1 ∧ t.eci.nonce = s.eci.nonce + 1 ∧ t.out = .flit (s.sealedFlit 3 s.eci.txSeq body) :: s.out ∧
      t.eci.retry = s.eci.retry ++ [{ seq := s.eci.txSeq, bytes := s.sealedFlit 3 s.eci.txSeq body }] ∧ t.parts = s.parts) ∧
    (1024 ≤ s.eci.retry.length → exec .keepalive s = .next s) := by
  intro body
  have hrow : s.keepalive = s.sendSeq 3 body := if_pos hc
  exact ⟨fun hroom => ⟨_, congrArg Host.Outcome.next (hrow.trans (sendSeq_of_room hroom 3 body)), rfl, rfl, rfl, rfl, rfl⟩,
    fun hfull => congrArg Host.Outcome.next (hrow.trans (sendSeq_of_full hfull 3 body))⟩

theorem keyRenewal_answers (hdue : 2 ^ 40 ≤ s.eci.nonce.toNat) (peer : Option PeerKey) :
    (peer.any s.peerBad = false →
      exec (.keyRenewal peer) s = .next (s.sendKeyx.modEci fun e => { e with keyNo := e.keyNo + 1, nonce := 0 })) ∧
    (peer.any s.peerBad = true → Answers (.keyRenewal peer) s fun t => t.eci.link = .auth ∧ t.eci.keyNo = s.eci.keyNo ∧ t.eci.retry = []) := by
  obtain ⟨n, o, hsent⟩ := sendKeyx_rest s
  have hrow : s.keyRenewal peer = if peer.any s.peerBad = true then s.sendKeyx.linkStops .auth Cause.pairPeer
      else s.sendKeyx.modEci fun e => { e with keyNo := e.keyNo + 1, nonce := 0 } := by
    unfold State.keyRenewal
    rw [if_neg (by simp [hc]; omega), hsent]
    rfl
  refine ⟨fun hgood => congrArg Host.Outcome.next (hrow.trans (if_neg (by simp [hgood]))), fun hbad => ?_⟩
  refine ⟨_, congrArg Host.Outcome.next (hrow.trans (if_pos hbad)), ?_⟩
  dsimp only
  rw [linkStops_eci, hsent]
  exact ⟨down_link _ _, down_keyNo _ _, down_retry hc _⟩

end

/-! ### KEYX (R398, R399, R403) -/

/-- The state in which the HELLO of an exchange has gone out: the retrain is counted. -/
def greeted (s : State) : State :=
  (s.modEci fun e => { e with
    retrains := if s.eci.link = .failed ∨ s.eci.link = .retry then satAdd s.eci.retrains 1 else s.trainCount }).useFree.sendClear 4
      ((List.range 228).map (Config.hello s.sideB))

theorem greeted_sendKeyx (s : State) :
    ∃ n o r, (greeted s).sendKeyx = { s with free := n, out := o, eci := { s.eci with retrains := r } } := by
  obtain ⟨n, o, hsent⟩ := sendKeyx_rest (greeted s)
  exact ⟨n, o, _, hsent⟩

/-- The link's registers and buffers where both sides begin anew under a new key (R399). -/
def begun (e : Eci) : Eci :=
  { e with
    keyNo := e.keyNo + 1, nonce := 0, missCount := 0, peerAlive := e.peerAlive || e.keyNo == 0
    link := .up, txSeq := 0, rxNext := 0, retry := [], naked := false, retrained := false }

theorem linkUp_begins {s : State} (hlink : s.eci.link ≠ .retry) :
    s.linkUp.eci.link = .up ∧ s.linkUp.eci.keyNo = s.eci.keyNo + 1 ∧ s.linkUp.eci.rxNext = 0 ∧
    (s.eci.stream = [] → s.linkUp.eci.txSeq = 0 ∧ s.linkUp.eci.nonce = 0 ∧ s.linkUp.eci.retry = []) := by
  have hup : s.linkUp = ({ s with eci := begun s.eci }).pump := if_neg hlink
  have hpump := Pumped.pump { s with eci := begun s.eci }
  rw [hup]
  refine ⟨hpump.link, hpump.keyNo, hpump.rxNext, fun hnone => ?_⟩
  rw [pump_of_empty (s := { s with eci := begun s.eci }) hnone]
  exact ⟨rfl, rfl, rfl⟩

/-- The link's registers and buffers under the new key of a retrain (R399, R403, log entry 99). -/
def rekeyed (e : Eci) : Eci :=
  { e with keyNo := e.keyNo + 1, nonce := 0, missCount := 0, peerAlive := e.peerAlive || e.keyNo == 0, retrained := true }

theorem linkUp_retrains {s : State} (hlink : s.eci.link = .retry) (hbusy : s.eci.busy = true) :
    s.linkUp.eci.link = .retry ∧ s.linkUp.eci.retrained = true ∧ s.linkUp.eci.keyNo = s.eci.keyNo + 1 ∧
    s.linkUp.eci.rxNext = s.eci.rxNext ∧ (s.eci.stream = [] → s.linkUp.eci.txSeq = s.eci.txSeq ∧ s.linkUp.eci.retry = s.eci.retry) := by
  have hsettle : (rekeyed s.eci).settle = { rekeyed s.eci with link := .retry } :=
    settle_of_busy (e := rekeyed s.eci) (carries_iff.mpr (.inr hlink)) hbusy
  have hup : s.linkUp = ({ (s.modEci fun e => rekeyed e).replay with eci := (rekeyed s.eci).settle }).pump := by
    have hsettles (u : State) : (u.replay.modEci fun e => e.settle) = { u.replay with eci := u.eci.settle } := by
      rw [replay_eq]
      rfl
    exact (if_pos hlink).trans (congrArg State.pump (hsettles _))
  have hset := Settled.pump (s.modEci fun e => rekeyed e).replay (rekeyed s.eci)
  rw [← hup] at hset
  refine ⟨hset.link.trans (congrArg Eci.link hsettle), hset.retrained.trans (congrArg Eci.retrained hsettle), hset.keyNo, hset.rxNext,
    fun hnone => ?_⟩
  obtain ⟨-, hretry, hseq⟩ := hset.still hnone
  exact ⟨hseq, hretry⟩

section
variable {s : State} {side : Bool} {digest : BitVec 256} {ok : Bool}

theorem keyx_ignored (h : s.fitted = false ∨ s.pwr.stage ≠ .ready ∨ s.eci.link = .up ∨ s.eci.link = .retry ∧ s.eci.retrained = true) :
    exec (.keyx side digest ok) s = .next s := by
  refine congrArg Host.Outcome.next (if_pos ?_)
  simpa [or_assoc] using h

theorem peerBad_iff {k : PeerKey} : s.peerBad k = false ↔ s.flash.peerDigest = some k.digest ∧ k.sigOk = true := by simp [State.peerBad]

variable (hfit : s.fitted = true) (hready : s.pwr.stage = .ready) (hdown : s.eci.link ≠ .up)
  (hbudget : s.eci.link = .retry → s.eci.retrained = false)
include hfit hready hdown hbudget

theorem keyx_of : s.keyx side digest ok =
    if side = s.sideB then (greeted s).linkStops .training Cause.pairSide
    else if s.peerBad ⟨digest, ok⟩ then (greeted s).sendKeyx.linkStops .auth Cause.pairPeer else (greeted s).sendKeyx.linkUp := by
  obtain ⟨n, o, r, hsent⟩ := greeted_sendKeyx s
  have hbad : (greeted s).sendKeyx.peerBad ⟨digest, ok⟩ = s.peerBad ⟨digest, ok⟩ := by rw [hsent]; rfl
  unfold State.keyx
  dsimp only
  rw [if_neg (by simpa [hfit, hready, hdown] using hbudget)]
  refine Eq.trans ?_ (congrArg (fun b : Bool => if side = s.sideB then (greeted s).linkStops .training Cause.pairSide
    else if b = true then (greeted s).sendKeyx.linkStops .auth Cause.pairPeer else (greeted s).sendKeyx.linkUp) hbad)
  rfl

theorem keyx_good (hside : side ≠ s.sideB) (hpeer : s.peerBad ⟨digest, ok⟩ = false) :
    exec (.keyx side digest ok) s = .next (greeted s).sendKeyx.linkUp :=
  congrArg Host.Outcome.next ((keyx_of hfit hready hdown hbudget).trans ((if_neg hside).trans (if_neg (by simp [hpeer]))))

theorem keyx_sameSide (hside : side = s.sideB) :
    Answers (.keyx side digest ok) s fun t => t.eci.link = .training ∧ t.eci.keyNo = s.eci.keyNo := by
  refine ⟨_, congrArg Host.Outcome.next ((keyx_of hfit hready hdown hbudget).trans (if_pos hside)), ?_⟩
  dsimp only
  rw [linkStops_eci]
  exact ⟨down_link _ _, down_keyNo _ _⟩

theorem keyx_badPeer (hside : side ≠ s.sideB) (hpeer : s.peerBad ⟨digest, ok⟩ = true) :
    Answers (.keyx side digest ok) s fun t => t.eci.link = .auth ∧ t.eci.keyNo = s.eci.keyNo := by
  obtain ⟨n, o, r, hsent⟩ := greeted_sendKeyx s
  refine ⟨_, congrArg Host.Outcome.next ((keyx_of hfit hready hdown hbudget).trans ((if_neg hside).trans (if_pos hpeer))), ?_⟩
  dsimp only
  rw [linkStops_eci, hsent]
  exact ⟨down_link _ _, down_keyNo _ _⟩

theorem keyx_fresh (hside : side ≠ s.sideB) (hpeer : s.peerBad ⟨digest, ok⟩ = false) (hlink : s.eci.link ≠ .retry) :
    Answers (.keyx side digest ok) s fun t =>
      t.eci.link = .up ∧ t.eci.keyNo = s.eci.keyNo + 1 ∧ t.eci.rxNext = 0 ∧
      (s.eci.stream = [] → t.eci.txSeq = 0 ∧ t.eci.nonce = 0 ∧ t.eci.retry = []) := by
  obtain ⟨n, o, r, hsent⟩ := greeted_sendKeyx s
  have hrow := keyx_good hfit hready hdown hbudget hside hpeer
  rw [hsent] at hrow
  exact ⟨_, hrow, linkUp_begins hlink⟩

theorem keyx_retrain (hside : side ≠ s.sideB) (hpeer : s.peerBad ⟨digest, ok⟩ = false) (hlink : s.eci.link = .retry)
    (hbusy : s.eci.busy = true) : Answers (.keyx side digest ok) s fun t =>
      t.eci.link = .retry ∧ t.eci.retrained = true ∧ t.eci.keyNo = s.eci.keyNo + 1 ∧ t.eci.rxNext = s.eci.rxNext ∧
      (s.eci.stream = [] → t.eci.txSeq = s.eci.txSeq ∧ t.eci.retry = s.eci.retry) := by
  obtain ⟨n, o, r, hsent⟩ := greeted_sendKeyx s
  have hrow := keyx_good hfit hready hdown hbudget hside hpeer
  rw [hsent] at hrow
  exact ⟨_, hrow, linkUp_retrains hlink hbusy⟩

end

/-- Settles O51, row by row: each clause is the lemma of that row in that state of the link. -/
theorem pairLink : Obligations.PairLink := by
  intro s e
  refine ⟨fun hc => ⟨fun f hcrc htag => flitReceive_taken hc hcrc htag, fun f hcrc htag => flitReceive_acks hc hcrc htag,
      fun f => flitReceive_damaged hc, fun f hcrc htag => flitReceive_outOfOrder hc hcrc htag, nak_answers hc, keepalive_answers hc,
      congrArg Host.Outcome.next (pairLinkFail_of hc), ⟨_, rfl, pairLinkFail_eci hc⟩, keyRenewal_answers hc⟩,
    ignored_of_idle, keyRenewal_early, congrArg Host.Outcome.next (keepaliveMiss_of s), fun side digest ok => ⟨keyx_ignored, ?_⟩⟩
  intro hfit hready hdown hbudget
  refine ⟨keyx_sameSide hfit hready hdown hbudget, fun hside hbad => ?_, fun ⟨hside, hpeer⟩ => ?_, fun ⟨hside, hpeer⟩ => ?_⟩
  · refine keyx_badPeer hfit hready hdown hbudget hside (eq_true_of_ne_false fun hpeer => hbad ⟨hside, peerBad_iff.mp hpeer⟩)
  · exact keyx_fresh hfit hready hdown hbudget hside (peerBad_iff.mpr hpeer)
  · exact keyx_retrain hfit hready hdown hbudget hside (peerBad_iff.mpr hpeer)

end Sys2Proof.PairLinkFlits

/-! PROOF. Exposed memory, the host link and the resets of the host port (chapter 11): O47, O48. -/

namespace Sys2Proof.HostAttachment
open Sys2Proof Sys2Proof.Machine
open Sys2Proof.MatrixArray (partTold_countRange partTold_dirtyRange)
open Sys2Proof.RecurrentStreams (partTold_countO)
open Sys2Proof.VideoEngines (charge_mem poisonAt_chans partTold_writeFrame)
open Sys2Proof.PartitionsAndSharing (ctl_of_partTold)
open Sys2Proof.RolesTrustAndJournal (endSessions_rest)

/-! ### Bytes of device LPDDR written and read under a key (R260, R264, R265) -/

theorem lineKey_rekey (m : Mem) (key line : Nat) : (m.rekey key .lpddr line).lineKey .lpddr line = key := by
  unfold Mem.rekey
  dsimp only
  split <;> exact tget_tset_self 0 _ line key

theorem byteAt_poke (m : Mem) (key a : Nat) {bs : List Byte} (hline : a % 64 + bs.length ≤ 64) {i : Nat} (hi : i < bs.length) :
    (m.poke key .lpddr a bs).byteAt key .lpddr (a + i) = bs[i] := by
  have hkey : (m.poke key .lpddr a bs).lineKey .lpddr ((a + i) / 64) = key := by
    rw [show (a + i) / 64 = a / 64 by omega]
    exact lineKey_rekey m key (a / 64)
  rw [Mem.byteAt, hkey]
  exact (if_pos (.inr rfl)).trans (cellGet_cellsSet bs _ a i hi)

theorem writeLine_of_good {m : Mem} {sp : Space} {a : Nat} (h : m.poisonAt sp (a / 64) = none) (key : Nat) (bs : List Byte) :
    (m.writeLine key sp a bs).1 = m.poke key sp a bs := by
  rw [Mem.writeLine, h]

/-! ### The decoder, the snoop filter and the counters of an access (R367 to R371) -/

section
variable (s : State) (line : Nat)

theorem hdmCount_mem : ∃ f : Chan → Chan, (∀ c, (f c).state = c.state) ∧ (∀ c, (f c).failSeq = c.failSeq) ∧ (s.hdmCount line).mem =
    let k := 256 + lpddrChannel (s.hdmAddr line)
    { s.mem with chans := tmod (Chan.reset k) s.mem.chans k f } := by
  unfold State.hdmCount
  dsimp only
  split
  · exact ⟨fun c => { c with
      bytes := wrapAdd c.bytes 64, retries := satAdd c.retries (b2n (Config.retried (256 + lpddrChannel (s.hdmAddr line)) c.bytes)) },
      fun _ => rfl, fun _ => rfl, charge_mem _ _ _ _ _⟩
  · exact ⟨fun c => { c with bytes := wrapAdd c.bytes 64 }, fun _ => rfl, fun _ => rfl, rfl⟩

theorem hdmCount_poisonAt (sp : Space) (l : Nat) : (s.hdmCount line).mem.poisonAt sp l = s.mem.poisonAt sp l := by
  obtain ⟨f, hstate, hseq, hmem⟩ := hdmCount_mem s line
  rw [hmem]
  exact poisonAt_chans _ _ hstate hseq sp l

theorem hdmCount_byteAt (key : Nat) (sp : Space) (a : Nat) : (s.hdmCount line).mem.byteAt key sp a = s.mem.byteAt key sp a := by
  obtain ⟨f, -, -, hmem⟩ := hdmCount_mem s line
  rw [hmem]
  cases sp <;> rfl

theorem hdmCount_hst : (s.hdmCount line).hst = s.hst := by
  unfold State.hdmCount
  dsimp only
  split
  · rw [(PartTold.countLine _ s _ _).rest]
  · rfl

theorem hdmCount_key : (s.hdmCount line).hdmKey line = s.hdmKey line := by
  have hctl : ∀ q, ((s.hdmCount line).part q).ctl = (s.part q).ctl := by
    unfold State.hdmCount
    dsimp only
    split
    · exact ctl_of_partTold (.countLine _ s _ _)
    · exact fun _ => rfl
  obtain ⟨f, -, -, hmem⟩ := hdmCount_mem s line
  simp only [State.hdmKey, State.hdmOwner, hdmCount_hst, hctl, hmem]
  rfl

/-- An access changes no more of the snoop filter's state than its entries and what it has invalidated; a line that the host keeps stands in it. -/
theorem snoop_rest (cached : Bool) : ∃ o l b, s.snoop line cached = { s with out := o, hst := { s.hst with snoop := l, bisnp := b } } ∧
    (cached = true → line ∈ l) := by
  unfold State.snoop
  dsimp only
  split
  · next h => exact ⟨_, _, _, rfl, fun hc => by simp [hc] at h⟩
  · split
    · next h =>
      split
      · next hnone => simp [hnone] at h
      · exact ⟨_, _, _, rfl, fun _ => by simp⟩
    · exact ⟨_, _, _, rfl, fun _ => by simp⟩

end

theorem hdmCommit_of {s : State} (hfree : s.hst.committed = false) (hcxl : s.pcieOnly = false) (hexposed : s.hst.hdmGib ≠ 0)
    (bi : Bool) (base : W64) :
    s.hdmCommit bi base = s.modHst fun h => { h with bi := bi, decBase := base, committed := bi, notCommitted := !bi } :=
  if_neg (by rw [hfree, hcxl]; simpa using hexposed)

theorem hdmAccess_faults {s : State} {line : Nat} (h : s.hst.committed = false ∨ sliceLines * s.hst.hdmGib.toNat ≤ line) (off : Fin 64)
    (w : Option (List Byte)) (cached : Bool) (f : EccFinding) : exec (.hdmAccess line off w cached f) s = .fault .noSuchLine := by
  refine if_neg ?_
  rcases h with h | h
  · simp [h]
  · simp [Nat.not_lt.mpr h]

section
variable {s : State} {line : Nat} (hcommitted : s.hst.committed = true) (hline : line < sliceLines * s.hst.hdmGib.toNat)
  (hgood : s.mem.poisonAt .lpddr (s.hdmAddr line / 64) = none) (off : Fin 64) (cached : Bool)
include hcommitted hline

theorem hdmAccess_of (w : Option (List Byte)) (f : EccFinding) :
    exec (.hdmAccess line off w cached f) s = .next (s.hdmAccess line off.val w cached f) :=
  if_pos (by simp [hcommitted, hline])

variable (hdead : s.hdmDead line = false)
include hgood hdead

theorem hdmRead_answers : Answers (.hdmAccess line off none cached .clean) s fun t =>
    t.reply = { bytes := (List.range 64).map fun i => s.mem.byteAt (s.hdmKey line) .lpddr (s.hdmAddr line + i) } ∧
    t.mem.lpddr = s.mem.lpddr ∧ (cached = true → line ∈ t.hst.snoop) := by
  obtain ⟨o, l, b, hsnoop, htracked⟩ := snoop_rest s line cached
  have hrow : s.hdmAccess line off none cached .clean = ((s.snoop line cached).hdmCount line).answer {
      bytes := (List.range 64).map fun i =>
        ((s.snoop line cached).hdmCount line).mem.byteAt (((s.snoop line cached).hdmCount line).hdmKey line) .lpddr (s.hdmAddr line + i) } := by
    have hpoison : ((s.snoop line cached).hdmCount line).mem.poisonAt .lpddr (s.hdmAddr line / 64) = none := by
      rw [hdmCount_poisonAt, hsnoop]
      exact hgood
    unfold State.hdmAccess
    rw [hdead, if_neg Bool.false_ne_true]
    simp only [State.eccLine, State.rasFinding, hpoison]
  refine ⟨_, (hdmAccess_of hcommitted hline off cached none .clean).trans (congrArg Host.Outcome.next hrow), ?_, ?_, ?_⟩
  · simp only [hdmCount_byteAt, hdmCount_key, hsnoop]
    rfl
  · obtain ⟨f, -, -, hmem⟩ := hdmCount_mem (s.snoop line cached) line
    refine (congrArg Mem.lpddr hmem).trans ?_
    rw [hsnoop]
  · intro hc
    refine (congrArg (fun h : HostPort => line ∈ h.snoop) (hdmCount_hst _ line)).mpr ?_
    rw [hsnoop]
    exact htracked hc

theorem hdmWrite_answers (bs : List Byte) : Answers (.hdmAccess line off (some bs) cached .clean) s fun t =>
    ∀ i, i < (bs.take (64 - off.val)).length →
      t.mem.byteAt (s.hdmKey line) .lpddr (s.hdmAddr line + off.val + i) = nth 0 bs i := by
  obtain ⟨o, l, b, hsnoop, -⟩ := snoop_rest s line cached
  have hoff := off.isLt
  have haddr : s.hdmAddr line % 64 = 0 := by
    unfold State.hdmAddr gib
    omega
  have hpoison : ((s.snoop line cached).hdmCount line).mem.poisonAt .lpddr ((s.hdmAddr line + off.val) / 64) = none := by
    rw [hdmCount_poisonAt, hsnoop, show (s.hdmAddr line + off.val) / 64 = s.hdmAddr line / 64 by omega]
    exact hgood
  have hrow : s.hdmAccess line off (some bs) cached .clean = ((s.snoop line cached).hdmCount line).modMem fun m =>
      (m.writeLine (s.hdmKey line) .lpddr (s.hdmAddr line + off.val) (bs.take (64 - off.val))).1 := by
    unfold State.hdmAccess
    rw [hdead, if_neg Bool.false_ne_true]
    simp only [State.eccLine, State.rasFinding, ite_self, State.hdmWrite, hsnoop]
    rfl
  refine ⟨_, (hdmAccess_of hcommitted hline off cached (some bs) .clean).trans (congrArg Host.Outcome.next hrow), fun i hi => ?_⟩
  have hlen : (bs.take (64 - off.val)).length ≤ 64 - off.val := List.length_take_le _ _
  refine (congrArg (fun m : Mem => m.byteAt _ _ _) (writeLine_of_good hpoison _ _)).trans ((byteAt_poke _ _ _ (by omega) hi).trans ?_)
  rw [List.getElem_take]
  exact (List.getD_eq_getElem bs 0 (hi.trans_le (List.length_take_le' _ _))).symm

end

/-- Settles O47: the decoder's commit, the fault outside the range, and an access by the key of its slice. -/
theorem exposedMemory : Obligations.ExposedMemory := by
  refine fun s => ⟨fun bi base hfree hcxl hexposed => congrArg Host.Outcome.next (hdmCommit_of hfree hcxl hexposed bi base),
    fun line off w cached f h => hdmAccess_faults h off w cached f, fun line off cached hcommitted hline => ?_⟩
  exact fun hdead hgood => ⟨hdmRead_answers hcommitted hline hgood off cached hdead, hdmWrite_answers hcommitted hline hgood off cached hdead⟩

/-! ### What a snuff leaves of the host port (R43, R375) -/

/-- What the rows of the link and of the port's resets look at: the host port, the pins and which VFs are enabled. -/
def port (s : State) : HostPort × Pins × (Nat → Bool) := (s.hst, s.pins, fun q => (s.part q).vf.enabled)

theorem port_eq {s t : State} (hhst : t.hst = s.hst) (hpins : t.pins = s.pins) (hvf : ∀ q, (t.part q).vf.enabled = (s.part q).vf.enabled) :
    port t = port s := by
  unfold port
  rw [hhst, hpins, funext hvf]

theorem enabled_of_port {s t : State} (h : port t = port s) (q : Nat) : (t.part q).vf.enabled = (s.part q).vf.enabled :=
  congrFun (congrArg (fun x => x.2.2) h) q

theorem hst_of_port {s t : State} (h : port t = port s) : t.hst = s.hst := congrArg Prod.fst h

theorem pins_of_port {s t : State} (h : port t = port s) : t.pins = s.pins := congrArg (fun x => x.2.1) h

theorem port_of_partTold {p : Nat} {s t : State} (h : PartTold p s t) : port t = port s := by
  refine port_eq (by rw [h.rest]) (by rw [h.rest]) fun q => ?_
  by_cases hq : q = p
  · rw [hq, h.mine]
  · rw [h.others q hq]

theorem port_of_pfTold {s t : State} (h : PfTold s t) : port t = port s := port_of_partTold (h.toPart 0)

theorem port_fst {α : Type} {r : State × α} {t : State} {a : α} (h : r = (t, a)) : port t = port r.1 := by rw [h]

@[simp] theorem port_foldl {α : Type} (l : List α) (f : State → α → State) (hf : ∀ t a, port (f t a) = port t) (s : State) :
    port (l.foldl f s) = port s :=
  foldl_keeps (fun t : State => port t = port s) f (fun t a h => (hf t a).trans h) l rfl

@[simp] theorem port_foldl_fst {α β : Type} (l : List α) (f : State × β → α → State × β) (hf : ∀ t a, port (f t a).1 = port t.1)
    (t : State × β) : port (l.foldl f t).1 = port t.1 :=
  foldl_keeps (fun u : State × β => port u.1 = port t.1) f (fun u a h => (hf u a).trans h) l rfl

@[simp] theorem port_ite (c : Prop) [Decidable c] (t u : State) : port (if c then t else u) = if c then port t else port u := apply_ite ..

@[simp] theorem port_ite_fst {α : Type} (c : Prop) [Decidable c] (t u : State × α) :
    port (if c then t else u).1 = if c then port t.1 else port u.1 := by split <;> rfl

section
variable (s : State) (p : Nat)

@[simp] theorem port_modPart {f : Part → Part} (hf : ∀ x, (f x).vf.enabled = x.vf.enabled) : port (s.modPart p f) = port s := by
  refine port_eq rfl rfl fun q => ?_
  rw [State.modPart_part]
  split
  · next h => rw [hf, h]
  · rfl

@[simp] theorem port_modSys (f : CmdSys → CmdSys) : port (s.modSys p f) = port s := port_modPart s p fun _ => rfl
@[simp] theorem port_modCmd (id : Nat) (f : Cmd → Cmd) : port (s.modCmd p id f) = port s := port_modPart s p fun _ => rfl
@[simp] theorem port_modCall (id : Nat) (f : Call → Call) : port (s.modCall p id f) = port s := port_modPart s p fun _ => rfl
@[simp] theorem port_modLtn (f : Lantern → Lantern) : port (s.modLtn p f) = port s := port_modPart s p fun _ => rfl
@[simp] theorem port_modStr (f : Streams → Streams) : port (s.modStr p f) = port s := port_modPart s p fun _ => rfl
@[simp] theorem port_modSeq (f : Seq → Seq) : port (s.modSeq p f) = port s := port_modPart s p fun _ => rfl
@[simp] theorem port_modNet (f : NetPart → NetPart) : port (s.modNet p f) = port s := port_modPart s p fun _ => rfl
@[simp] theorem port_modMir (f : Mirror → Mirror) : port (s.modMir p f) = port s := port_modPart s p fun _ => rfl
@[simp] theorem port_modObject (h : Nat) (f : Obj → Obj) : port (s.modObject p h f) = port s := port_modPart s p fun _ => rfl
@[simp] theorem port_modVf {f : Vf → Vf} (hf : ∀ v, (f v).enabled = v.enabled) : port (s.modVf p f) = port s :=
  port_modPart s p fun x => hf x.vf
@[simp] theorem port_modMem (f : Mem → Mem) : port (s.modMem f) = port s := rfl
@[simp] theorem port_modCluster (k : Nat) (f : Cluster → Cluster) : port (s.modCluster k f) = port s := rfl
@[simp] theorem port_useFree : port s.useFree = port s := rfl
@[simp] theorem port_useFrees (n : Nat) : port (s.useFrees n) = port s := rfl

@[simp] theorem port_count (i n : Nat) : port (s.count p i n) = port s := port_of_partTold (.count p s i n)
@[simp] theorem port_countLine (sp : Space) (a : Nat) : port (s.countLine p sp a) = port s := port_of_partTold (.countLine p s sp a)
@[simp] theorem port_countRange (pl : Place) (off n : Nat) : port (s.countRange p pl off n) = port s :=
  port_of_partTold (partTold_countRange s p pl off n)
@[simp] theorem port_countO (r : ORef) (n : Nat) : port (s.countO p r n) = port s := port_of_partTold (partTold_countO s p r n)
@[simp] theorem port_dirtyRange (h off n : Nat) : port (s.dirtyRange p h off n) = port s := port_of_partTold (partTold_dirtyRange s p h off n)
@[simp] theorem port_markDirty (d : Dirty) : port (s.markDirty p d) = port s := port_of_partTold (.markDirty p s d)
@[simp] theorem port_poke (pl : Place) (off : Nat) (bs : List Byte) : port (s.poke p pl off bs).1 = port s :=
  port_of_partTold (.poke p s pl off bs)
@[simp] theorem port_pokeO (r : ORef) (bs : List Byte) : port (s.pokeO p r bs).1 = port s := port_of_partTold (.pokeO p s r bs)
@[simp] theorem port_flushPart (n : Nat) : port (s.flushPart p n) = port s := port_of_partTold (.flushPart p n s)
@[simp] theorem port_flushPf (n : Nat) : port (s.flushPf n) = port s := port_of_pfTold (.flushPf n s)
@[simp] theorem port_raisePf (cause : W16) (src : Src) (part : Option Nat) (detail : List Byte) : port (s.raisePf cause src part detail) = port s :=
  port_of_pfTold (.raisePf s cause src part detail)
@[simp] theorem port_raisePart (cause : W16) (src : Src) (wm : W32) (detail : List Byte) : port (s.raisePart p cause src wm detail) = port s :=
  port_of_partTold (.raisePart p s cause src wm detail)
@[simp] theorem port_writeFrame (x : Session) (i u n : Nat) (concealed : Nat → Bool) (ref : Option Nat) :
    port (s.writeFrame p x i u n concealed ref).1 = port s := port_of_partTold (partTold_writeFrame s p x i u n concealed ref)

@[simp] theorem port_leaveCluster (id : Nat) : port (s.leaveCluster p id) = port s := by
  unfold State.leaveCluster
  split <;> rfl

@[simp] theorem port_finish (id : Nat) (st : Status) (cause : W16) (detail : Nat) (part : Bool) :
    port (s.finish p id st cause detail part) = port s := by simp [State.finish]

@[simp] theorem port_snuffed (id : Nat) (part : Bool) (detail : Nat) : port (s.snuffed p id part detail) = port s := port_finish ..

@[simp] theorem port_snuffedAs (id detail : Nat) : port (s.snuffedAs p id detail) = port s := port_snuffed ..

@[simp] theorem port_finishBy (id : Nat) (cause : W16) (q : Option W64) (detail : Nat) : port (s.finishBy p id cause q detail) = port s := by
  simp [State.finishBy]

@[simp] theorem port_memOp (o : AddOp) (r : ORef) (v : Nat) : port (s.memOp p o r v).1 = port s := by
  have hdie (t : State) (d : Option Nat) (f : Die → Die) : port (match d with
    | some d => t.modDie d f
    | none => t) = port t := by cases d <;> rfl
  unfold State.memOp
  dsimp only
  split
  · exact (hdie _ _ _).trans (port_countLine ..)
  · exact (hdie _ _ _).trans ((port_dirtyRange ..).trans (port_countLine ..))

@[simp] theorem port_applyWr (w : Wr) : port (s.applyWr p w).1 = port s := by
  cases w with
  | store r bs => exact port_pokeO s p r bs
  | red o r v => exact port_memOp s p o r v

@[simp] theorem port_applyFor (id : Nat) (ws : List Wr) : port (s.applyFor p id ws).1 = port s := by simp [State.applyFor, State.applyWrs]

@[simp] theorem port_claimBit (claim : ORef) (bit : Nat) : port (s.claimBit p claim bit).1 = port s := port_memOp ..

@[simp] theorem port_countWork (k : Option Nat) (w : Work) : port (s.countWork p k w) = port s := by
  unfold State.countWork State.lookedBeside
  cases k <;> simp

@[simp] theorem port_snuffWork (c : Cmd) (k : Nat) : port (s.snuffWork p c k) = port s := by
  simp [State.snuffWork, State.setStationary]

@[simp] theorem port_snuffPair (c w : Cmd) (k : Nat) : port (s.snuffPair p c w k) = port s := by
  simp [State.snuffPair, State.pairStops, State.setStationary]

@[simp] theorem port_fillLines (c : Cmd) (segs : List (Nat × Nat)) : port (s.fillLines p c segs).1 = port s := by simp [State.fillLines]

@[simp] theorem port_copyLines (o : Obj) (n : Nat) : port (s.copyLines p o n).1 = port s := by
  refine port_foldl_fst _ _ (fun r i => ?_) _
  dsimp only
  split <;> simp

@[simp] theorem port_heldRefused (h off : Nat) (q : W64) : port (s.heldRefused p h off q) = port s := by simp [State.heldRefused]

@[simp] theorem port_releaseHeld (h : Nat) (ws : List (Nat × List Byte)) : port (s.releaseHeld p h ws) = port s := by
  unfold State.releaseHeld
  simp only [port_modVf, port_flushPart, implies_true]
  refine port_foldl _ _ (fun t w => ?_) _
  split
  · next h => simp [port_fst h]
  · next h => simp [port_fst h]

@[simp] theorem port_countMoved (n : Nat) : port (s.countMoved p n) = port s := rfl

@[simp] theorem port_abandonMove (h : Nat) : port (s.abandonMove p h).1 = port s := by simp [State.abandonMove, State.setObject]

@[simp] theorem port_countPart (c : Cmd) (x : Session) (u : Nat) : port (s.countPart p c x u) = port s := by simp [State.countPart]

@[simp] theorem port_deliverRegion (x : Session) (i u : Nat) (g : Region) (rows : Nat) : port (s.deliverRegion p x i u g rows).1 = port s := by
  simp [State.deliverRegion, State.countRegion, State.pokeAll]

@[simp] theorem port_partialFrame (c : Cmd) : port (s.partialFrame p c).1 = port s := by
  unfold State.partialFrame
  extract_lets x u drawn may n counted told written shown
  have hdrawn : port drawn = port s := rfl
  have hcounted : port counted = port s := by simp [counted, hdrawn]
  have htold : port told = port s := by
    unfold told
    split
    · split <;> simp [hcounted]
    · exact hcounted
  have hwritten : port written = port s := by
    unfold written
    split
    · split <;> simp [htold]
    · exact htold
  generalize (if c.op = 0x11 then s.goodRegions p c x else some []) = regions
  clear_value shown
  cases regions with
  | none => rfl
  | some regions =>
    dsimp -zeta only
    split
    · rfl
    · cases shown <;> simp [hwritten]

@[simp] theorem port_stopBasic (c : Cmd) : port (s.stopBasic p c) = port s := by
  unfold State.stopBasic State.dropLoad State.dropRecv State.modRun State.modList
  dsimp only
  split
  · simp
  · split
    · split <;> simp
    · simp
    · simp
    · simp
    · simp
    · simp

@[simp] theorem port_dropCmds (ids : List Nat) : port (s.dropCmds p ids) = port s := by
  refine (port_modSys ..).trans (port_foldl _ _ (fun t i => ?_) _)
  split
  · split <;> simp [State.modStream]
  · rfl

@[simp] theorem port_callSettle (id : Nat) : port (s.callSettle p id) = port s := by
  unfold State.callSettle State.done
  dsimp only
  split
  · rfl
  · split
    · rfl
    · split
      · simp
      · split
        · simp
        · split
          · simp
          · split
            · simp
            · split <;> simp

@[simp] theorem port_snuffCall (c : Cmd) : port (s.snuffCall p c) = port s := by
  refine (port_callSettle ..).trans ((port_foldl _ _ (fun t d => ?_) _).trans (by simp))
  split
  · simp
  · rfl

@[simp] theorem port_snuffOne (c : Cmd) : port (s.snuffOne p c).1 = port s := by simp [State.snuffOne]

@[simp] theorem port_snuffAll (ids : List Nat) : port (s.snuffAll p ids).1 = port s := by
  refine port_foldl_fst _ _ (fun r id => ?_) _
  split
  · rfl
  · simp

/-- The first steps of an FLR leave the host port and which VFs are enabled (R375). -/
@[simp] theorem port_flrStart : port (s.flrStart p) = port s := by
  unfold State.flrStart
  split
  · rfl
  · dsimp only
    split <;> simp

end

/-! ### The VFs, the sessions and the port as a reset leaves them (R355, R461) -/

theorem foldl_modVf_rest (f : Nat → Vf → Vf) (l : List Nat) (s : State) :
    ∃ ps, l.foldl (fun s p => s.modVf p (f p)) s = { s with parts := ps } := by
  induction l generalizing s with
  | nil => exact ⟨s.parts, rfl⟩
  | cons p l ih =>
    obtain ⟨ps, h⟩ := ih (s.modVf p (f p))
    exact ⟨ps, h⟩

theorem foldl_modVf_vf (f : Nat → Vf → Vf) {l : List Nat} (hl : l.Nodup) (s : State) (q : Nat) :
    ((l.foldl (fun s p => s.modVf p (f p)) s).part q).vf = if q ∈ l then f q (s.part q).vf else (s.part q).vf := by
  induction l generalizing s with
  | nil => rfl
  | cons p l ih =>
    obtain ⟨hp, hl⟩ := List.nodup_cons.mp hl
    rw [List.foldl_cons, ih hl, State.modVf_part]
    by_cases hq : q = p
    · subst hq
      simp [hp]
    · simp [hq]

/-- What a configuration sets of a VF (R355 to R357). -/
def configured (c : HostConfig) (p : Nat) (v : Vf) : Vf :=
  { v with enabled := decide (p < c.numVfs.val), msixOn := c.vfMsixOn, msixMask := c.vfMsixMask }

theorem configure_answers (s : State) (c : HostConfig) :
    (s.configure c).hst = { s.hst with numVfs := c.numVfs.val, pfBar0 := c.pfBar0, vfBar0 := c.vfBar0, vfBar2 := c.vfBar2 } ∧
    ∀ p : PartId, ((s.configure c).part p.val).vf.enabled = decide (p.val < c.numVfs.val) := by
  unfold State.configure
  generalize hl : List.range 32 = l
  refine ⟨?_, fun p => ?_⟩
  · obtain ⟨ps, h⟩ := foldl_modVf_rest (configured c) l _
    exact congrArg State.hst h
  · exact congrArg Vf.enabled ((foldl_modVf_vf (configured c) (hl ▸ List.nodup_range) _ p.val).trans
      (if_pos (hl ▸ List.mem_range.mpr p.isLt)))

theorem clearVfs_keeps (l : List Nat) (s : State) :
    let t := l.foldl (fun s p => (s.flrStart p).modVf p fun v => { v with enabled := false }) s
    t.hst = s.hst ∧ t.pins = s.pins ∧ ∀ q, q ∈ l ∨ (s.part q).vf.enabled = false → (t.part q).vf.enabled = false := by
  induction l generalizing s with
  | nil => exact ⟨rfl, rfl, fun q h => h.resolve_left List.not_mem_nil⟩
  | cons p l ih =>
    have hport := port_flrStart s p
    have hhst : (s.flrStart p).hst = s.hst := hst_of_port hport
    have hpins : (s.flrStart p).pins = s.pins := pins_of_port hport
    obtain ⟨hlHst, hlPins, hoff⟩ := ih ((s.flrStart p).modVf p fun v => { v with enabled := false })
    refine ⟨hlHst.trans hhst, hlPins.trans hpins, fun q h => hoff q ?_⟩
    rw [State.modVf_part]
    by_cases hq : q = p
    · exact .inr (by rw [if_pos hq])
    · rw [if_neg hq, enabled_of_port hport]
      simpa [hq] using h

theorem vfEnableClear_answers (s : State) : s.vfEnableClear.hst = { s.hst with numVfs := 0 } ∧ s.vfEnableClear.pins = s.pins ∧
    ∀ p : PartId, (s.vfEnableClear.part p.val).vf.enabled = false := by
  unfold State.vfEnableClear
  generalize hl : List.range 32 = l
  obtain ⟨hhst, hpins, hoff⟩ := clearVfs_keeps l s
  exact ⟨congrArg (fun h : HostPort => { h with numVfs := 0 }) hhst, hpins, fun p => hoff p.val (.inl (hl ▸ List.mem_range.mpr p.isLt))⟩

theorem mem_of_tget {α : Type} {t : Tbl (Option α)} {k : Nat} {x : α} (h : tget none t k = some x) : (k, some x) ∈ t := by
  induction t with
  | nil => cases h
  | cons e t ih =>
    rw [tget] at h
    split at h
    · next hk => exact List.mem_cons.mpr (.inl (by rw [← hk, ← h]))
    · exact List.mem_cons_of_mem _ (ih h)

/-- No session that was to end stays. -/
theorem endSessions_session (s : State) (f : SpdmSession → Bool) {i : Nat} {x : SpdmSession} (h : (s.endSessions f).session? i = some x) :
    f x = false := by
  have hfold (l : List Nat) (t : State) :
      (l.foldl (fun t i => t.endSession i) t).session? i = if i ∈ l then none else t.session? i := by
    induction l generalizing t with
    | nil => rfl
    | cons j l ih =>
      have hend : (t.endSession j).session? i = if i = j then none else t.session? i := tget_tset none t.sec.sessions j i none
      rw [List.foldl_cons, ih, hend]
      by_cases hi : i = j <;> simp [hi]
  rw [State.endSessions, hfold] at h
  split at h
  · cases h
  · next hout =>
    by_contra hf
    exact hout (List.mem_filterMap.mpr ⟨(i, some x), mem_of_tget h, if_pos (eq_true_of_ne_false hf)⟩)

/-- What a reset of the port leaves of a VF's configuration space (R461). -/
def unconfigured (v : Vf) : Vf := { v with msixOn := false, msixMask := false, aer := {} }

theorem portFresh_rest (s : State) : ∃ ps e, s.portFresh = { s with parts := ps, ev := e, hst := { s.hst with
    committed := false, bi := false, decBase := 0, notCommitted := false, numVfs := 0, pfBar0 := 0, vfBar0 := 0, vfBar2 := 0, snoop := []
    ideLink := false, ideSel := [] } } := by
  unfold State.portFresh
  generalize List.range 32 = l
  obtain ⟨ps, h⟩ := foldl_modVf_rest (fun _ => unconfigured) l (s.modEv fun e => { e with
    msixOn := false, msixMask := false, msix := [], msixPend := [], aer := {}, ras := {} })
  exact ⟨ps, _, congrArg (fun s : State => s.modHst fun h => { h with
    committed := false, bi := false, decBase := 0, notCommitted := false, numVfs := 0, pfBar0 := 0, vfBar0 := 0, vfBar2 := 0, snoop := []
    ideLink := false, ideSel := [] }) h⟩

theorem portFresh_enabled (s : State) (q : Nat) : (s.portFresh.part q).vf.enabled = (s.part q).vf.enabled := by
  unfold State.portFresh
  generalize List.range 32 = l
  exact enabled_of_port (port_foldl l (fun s p => s.modVf p unconfigured) (fun t p => port_modVf t p fun _ => rfl) (s.modEv fun e => { e with
    msixOn := false, msixMask := false, msix := [], msixPend := [], aer := {}, ras := {} })) q

/-! ### The rows of the link (R354, R373, R377, R380, R461) -/

theorem linkLost_hst (s : State) (l : LinkState) :
    (s.linkLost l).hst = { s.hst with link := l, degraded := false, flit := 0, width := 0, rate := 0 } := by
  unfold State.linkLost
  dsimp only
  split
  · exact State.raisePf_hst ..
  · rfl

theorem linkLost_pins (s : State) (l : LinkState) : (s.linkLost l).pins = s.pins := by
  unfold State.linkLost
  dsimp only
  split
  · exact State.raisePf_pins ..
  · rfl

/-- Link replays change no more of the port than their count (R376, R378). -/
theorem linkReplays_rest (s : State) (n : Nat) : ∃ u k, PfTold u (s.linkReplays n) ∧ u = s.modHst fun h => { h with replays := k } := by
  have hras (t : State) (cor unc : W32) (header : List Byte) : PfTold t (t.rasPf cor unc header) := by
    unfold State.rasPf
    dsimp only
    split
    · exact .refl t
    · exact (PfTold.modEv t _).trans (.msixPf _ 2)
  unfold State.linkReplays
  split
  · exact ⟨s, s.hst.replays, .refl s, rfl⟩
  · dsimp only
    refine ⟨_, satAdd s.hst.replays n, ?_, rfl⟩
    have haer := (PfTold.modEv (s.modHst fun h => { h with replays := satAdd s.hst.replays n }) fun e => { e with
      ras := { e.ras with replays := (s.ev.ras.replays + n) % 256 } }).trans (.aerPf _ 0x1000#32 0)
    split
    · exact haer.trans (hras _ _ _ _)
    · exact haer

theorem port_flushAll (s : State) : port s.flushAll = port s := by
  unfold State.flushAll
  generalize List.range 32 = l
  rw [port_flushPf]
  exact port_foldl l _ (fun t p => port_flushPart t p 64) s

/-- What follows the configuration of a trained link keeps the link and which VFs are enabled. -/
theorem trained_keeps (s : State) (n : Nat) (slow : Bool) :
    let t := (s.linkReplays n).flushAll
    ∃ k, port (if slow = true then t.raisePf Cause.linkDegraded srcHost else t) = port (s.modHst fun h => { h with replays := k }) := by
  obtain ⟨u, k, htold, hu⟩ := linkReplays_rest s n
  have hcarried : port (s.linkReplays n).flushAll = port (s.modHst fun h => { h with replays := k }) :=
    (port_flushAll _).trans ((port_of_pfTold htold).trans (congrArg port hu))
  refine ⟨k, ?_⟩
  split
  · exact (port_raisePf ..).trans hcarried
  · exact hcarried

/-- The host port as a link has trained (R354, R380). -/
def linked (s : State) (w : BitVec 5) (r : BitVec 4) (f : BitVec 2) : State := s.modHst fun h => { h with
  link := .up, width := w, rate := r, flit := f, degraded := decide (w.toNat < 16) || decide (r.toNat < 4)
  retrains := if s.hostUp then satAdd h.retrains 1 else h.retrains }

theorem linkTrained_of {s : State} {w : BitVec 5} {r : BitVec 4} {f : BitVec 2} (hgood : s.pins.pwrGood = true) (hperst : s.pins.perstN = true)
    (hreset : s.pins.resetN = true) (hw : w = 4 ∨ w = 8 ∨ w = 16) (hrate : s.rateOk r.toNat f.toNat = true) (c : HostConfig) :
    s.linkTrained w r f c =
      let t := ((if s.hostUp = true then linked s w r f else (linked s w r f).configure c).linkReplays c.replays).flushAll
      if (decide (w.toNat < 16) || decide (r.toNat < 4)) = true then t.raisePf Cause.linkDegraded srcHost else t := by
  have hwidth : [4, 8, 16].contains w.toNat = true := by rcases hw with rfl | rfl | rfl <;> decide
  refine if_neg ?_
  rw [hgood, hperst, hreset, hwidth, hrate]
  decide

theorem linkTrained_answers {s : State} {w : BitVec 5} {r : BitVec 4} {f : BitVec 2} (hgood : s.pins.pwrGood = true)
    (hperst : s.pins.perstN = true) (hreset : s.pins.resetN = true) (hw : w = 4 ∨ w = 8 ∨ w = 16)
    (hrate : s.rateOk r.toNat f.toNat = true) (c : HostConfig) :
    Answers (.linkTrained w r f c) s fun t =>
      t.hst.link = .up ∧ t.hst.width = w ∧ t.hst.rate = r ∧ t.hst.flit = f ∧
      (s.hostUp = false → ∀ p : PartId, (t.part p.val).vf.enabled = decide (p.val < c.numVfs.val)) := by
  refine ⟨_, congrArg Host.Outcome.next (linkTrained_of hgood hperst hreset hw hrate c), ?_⟩
  obtain ⟨k, hport⟩ := trained_keeps (if s.hostUp = true then linked s w r f else (linked s w r f).configure c) c.replays
    (decide (w.toNat < 16) || decide (r.toNat < 4))
  dsimp only
  rw [hst_of_port hport]
  obtain ⟨hhst, hvf⟩ := configure_answers (linked s w r f) c
  cases hup : s.hostUp with
  | true => exact ⟨rfl, rfl, rfl, rfl, fun h => nomatch h⟩
  | false =>
    rw [hup, if_neg Bool.false_ne_true] at hport
    refine ⟨congrArg HostPort.link hhst, congrArg HostPort.width hhst, congrArg HostPort.rate hhst, congrArg HostPort.flit hhst, fun _ p => ?_⟩
    rw [if_neg Bool.false_ne_true, enabled_of_port hport, State.modHst_part]
    exact hvf p

theorem linkDown_answers (s : State) : Answers .linkDown s fun t => t.hst.link = .down ∧ t.hst.width = 0 ∧ t.hst.rate = 0 := by
  have hhst := linkLost_hst s .down
  exact ⟨_, rfl, congrArg HostPort.link hhst, congrArg HostPort.width hhst, congrArg HostPort.rate hhst⟩

/-- The state in which PERST_N is low where it is what resets the port. -/
def lowered (s : State) (k : PortReset) : State := if k = .perst then { s with pins := { s.pins with perstN := false } } else s

theorem lowered_hst (s : State) (k : PortReset) : (lowered s k).hst = s.hst := by
  unfold lowered
  split <;> rfl

/-- The state of the link after a reset of the port (R461, log entry 98). -/
def resetLink (s : State) (k : PortReset) : LinkState := if k = .perst ∨ k = .linkDisable ∨ !(lowered s k).pins.perstN then .down else .training

theorem portReset_of {s : State} (hgood : s.pins.pwrGood = true) (k : PortReset) : s.portReset k =
    ((((((lowered s k).linkLost (resetLink s k)).vfEnableClear).endSessions fun y => y.transport == Transport.pfDoe).portFresh.modSec
      fun x => { x with consent := none }).modPwr fun w => { w with resetKind := 3 }) := by
  have hgood' : (!(lowered s k).pins.pwrGood) = false := by
    unfold lowered
    split <;> simp [hgood]
  exact if_neg (ne_true_of_eq_false hgood')

theorem resetLink_eq (s : State) (k : PortReset) :
    resetLink s k = if k = .perst ∨ k = .linkDisable ∨ s.pins.perstN = false then .down else .training := by
  unfold resetLink lowered
  by_cases hk : k = .perst
  · simp [hk]
  · simp [hk]

/-- The end of a reset of the port, from the state in which the VFs are disabled (R461). -/
theorem portReset_ends (s : State) (f : SpdmSession → Bool) :
    let t := (((s.endSessions f).portFresh.modSec fun x => { x with consent := none }).modPwr fun w => { w with resetKind := 3 })
    t.hst.link = s.hst.link ∧ (∀ q, (t.part q).vf.enabled = (s.part q).vf.enabled) ∧ t.hst.committed = false ∧ t.hst.snoop = [] ∧
    t.hst.ideLink = false ∧ t.hst.ideSel = [] ∧ (∀ i x, t.session? i = some x → f x = false) ∧ t.pins = s.pins := by
  obtain ⟨ss, st, hd, hended⟩ := endSessions_rest s f
  have hsession := fun i x => endSessions_session s f (i := i) (x := x)
  have hvf := portFresh_enabled (s.endSessions f)
  obtain ⟨ps, e, hfresh⟩ := portFresh_rest (s.endSessions f)
  rw [hfresh] at hvf ⊢
  rw [hended] at hvf hsession ⊢
  exact ⟨rfl, hvf, rfl, rfl, rfl, rfl, hsession, rfl⟩

theorem hostPortReset_answers {s : State} (hgood : s.pins.pwrGood = true) (k : PortReset) : Answers (.hostPortReset k) s fun t =>
    t.hst.link = (if k = .perst ∨ k = .linkDisable ∨ s.pins.perstN = false then .down else .training) ∧
    (∀ p : PartId, (t.part p.val).vf.enabled = false) ∧ t.hst.committed = false ∧ t.hst.snoop = [] ∧
    t.hst.ideLink = false ∧ t.hst.ideSel = [] ∧ (∀ i x, t.session? i = some x → x.transport ≠ .pfDoe) ∧
    (k = .perst → t.pins.perstN = false) := by
  obtain ⟨hhst, hpins, hoff⟩ := vfEnableClear_answers ((lowered s k).linkLost (resetLink s k))
  obtain ⟨hlink, hvf, hcommitted, hsnoop, hideLink, hideSel, hsessions, hpins'⟩ :=
    portReset_ends ((lowered s k).linkLost (resetLink s k)).vfEnableClear fun y => y.transport == Transport.pfDoe
  refine ⟨_, congrArg Host.Outcome.next (portReset_of hgood k), ?_, fun p => (hvf p.val).trans (hoff p), hcommitted, hsnoop, hideLink, hideSel,
    fun i x h => by simpa using hsessions i x h, fun hk => ?_⟩
  · rw [hlink, hhst, ← resetLink_eq]
    exact congrArg HostPort.link (linkLost_hst (lowered s k) (resetLink s k))
  · rw [hpins', hpins, linkLost_pins, lowered, if_pos hk]

/-! ### IDE failures (R373) -/

theorem foldl_tdiError (l : List Nat) (s : State) : (l.foldl (fun s p => s.tdiError p) s).hst = s.hst ∧
    ∀ q ∈ l, ((l.foldl (fun s p => s.tdiError p) s).part q).vf.tdi = .error := by
  have hstays (l : List Nat) (s : State) (q : Nat) (h : (s.part q).vf.tdi = .error) :
      ((l.foldl (fun s p => s.tdiError p) s).part q).vf.tdi = .error := by
    refine foldl_keeps (fun t : State => (t.part q).vf.tdi = .error) (fun s p => s.tdiError p) (fun t p ht => ?_) l h
    rw [State.tdiError, State.modVf_part]
    split
    · rfl
    · exact ht
  induction l generalizing s with
  | nil => exact ⟨rfl, fun q h => (List.not_mem_nil h).elim⟩
  | cons p l ih =>
    obtain ⟨hhst, hall⟩ := ih (s.tdiError p)
    refine ⟨hhst, fun q hq => ?_⟩
    rcases List.mem_cons.mp hq with rfl | hq
    · exact hstays l (s.tdiError q) q (congrArg (fun x : Part => x.vf.tdi) (State.modVf_part_self s q _))
    · exact hall q hq

theorem ideFault_none {s : State} (h : s.hst.ideLink = true) : ∃ u, PfTold (s.modHst fun h => { h with ideLink := false }) u ∧
    s.ideFault none = (List.range 32).foldl (fun s p => s.tdiError p) u :=
  ⟨_, (((PfTold.modEv _ _).trans (.link ..)).trans (.recPf ..)).trans (.aerPf ..), if_neg (by simp [h])⟩

theorem ideFault_link {s : State} (h : s.hst.ideLink = true) : Answers (.ideFault none) s fun t =>
    t.hst.ideLink = false ∧ ∀ p : PartId, (t.part p.val).vf.tdi = .error := by
  obtain ⟨u, htold, hrow⟩ := ideFault_none h
  obtain ⟨hhst, herror⟩ := foldl_tdiError (List.range 32) u
  have hlink : u.hst.ideLink = false := congrArg HostPort.ideLink (hst_of_port (port_of_pfTold htold))
  exact ⟨_, congrArg Host.Outcome.next hrow, (congrArg HostPort.ideLink hhst).trans hlink, fun p => herror p.val (List.mem_range.mpr p.isLt)⟩

theorem ideFault_selective {s : State} (k : Fin 32) (p : PartId) (y : IdeStream) (hk : tget none s.hst.ideSel k.val = some y)
    (hsecure : y.secure = true) (hfn : y.fn = some p) : Answers (.ideFault (some k)) s fun t =>
      tget none t.hst.ideSel k.val = some { y with secure := false } ∧ (t.part p.val).vf.tdi = .error := by
  obtain ⟨fn, ranges, secure⟩ := y
  dsimp only at hsecure hfn
  subst hsecure hfn
  let u := ((s.modHst fun h => { h with ideSel := tset h.ideSel k.val (some { fn := some p, ranges := ranges, secure := false }) }).tdiError p.val).modVf p.val fun v =>
    { v with aer := { v.aer with unc := v.aer.unc ||| ideCheckFailed } }
  have hrow : s.ideFault (some k.val) = u.raisePart p.val Cause.ideFault srcHost := by
    unfold State.ideFault
    dsimp only
    rw [hk]
    rfl
  have htold := PartTold.raisePart p.val u Cause.ideFault srcHost 0 []
  refine ⟨_, congrArg Host.Outcome.next hrow, ?_, ?_⟩
  · rw [State.raisePart_hst]
    exact tget_tset_self ..
  · rw [htold.mine]
    dsimp only
    rw [State.modVf_part_self, State.tdiError, State.modVf_part_self]

/-- Settles O48: each row by what it leaves of the port and of the VFs. -/
theorem linkAndPort : Obligations.LinkAndPort := fun s hgood =>
  ⟨fun _ _ _ c hperst hreset hw hrate => linkTrained_answers hgood hperst hreset hw hrate c, fun _ => linkDown_answers s,
    hostPortReset_answers hgood, ideFault_link, ideFault_selective⟩

end Sys2Proof.HostAttachment

/-! PROOF. LOCK and the rows of the event rings (chapter 17): O43. -/

namespace Sys2Proof.LocksAndRings
open Sys2Proof Sys2Proof.Machine
open Sys2Proof.SequencesAndRollouts (mmio_vfOpen postCmd_of)
open Sys2Proof.PartitionsAndSharing (heldFrom_of_free sessionEnv writeNote writeOne_of respond_reply)

/-! ### What the answer of a request and a journal entry leave (R327, R335) -/

theorem countHost_rest (s : State) (p n : Nat) : ∃ ps, s.countHost p n true = { s with parts := ps } := by
  unfold State.countHost
  dsimp only
  rw [if_pos rfl]
  unfold State.meterCredits State.count
  rw [if_pos (by decide)]
  split <;> exact ⟨_, rfl⟩

/-- What the driver of the PF ring sees of it: its head, its state and whether it is enabled. -/
def pfRing (s : State) : W32 × EvState × Bool := (s.ev.pf.head, s.ev.pf.state, s.ev.pfEnable)

theorem msixPf_rings (s : State) (v : Nat) : (s.msixPf v).hdr = s.hdr ∧ pfRing (s.msixPf v) = pfRing s ∧ (s.msixPf v).ev.pf = s.ev.pf := by
  unfold State.msixPf
  split
  · exact ⟨rfl, rfl, rfl⟩
  · split <;> exact ⟨rfl, rfl, rfl⟩

/-- An answer leaves the pages' headers and the PF ring. -/
theorem respond_rings (s : State) (t : Transport) (r : Reply) : (s.respond t r).hdr = s.hdr ∧ pfRing (s.respond t r) = pfRing s := by
  unfold State.respond
  cases t with
  | pfDoe =>
    obtain ⟨hhdr, hring, -⟩ := msixPf_rings (s.answer r) 1
    exact ⟨hhdr, hring⟩
  | sideband => exact ⟨rfl, rfl⟩
  | vfDoe p =>
    dsimp only
    unfold State.countDoe
    split
    · exact ⟨rfl, rfl⟩
    · dsimp only
      obtain ⟨ps, h⟩ := countHost_rest (((s.answer r).useFrees 2).countHost p.val _ true) p.val _
      obtain ⟨qs, k⟩ := countHost_rest ((s.answer r).useFrees 2) p.val _
      rw [h, k]
      exact ⟨rfl, rfl⟩

theorem journal_rings (s : State) (n : JrnNote) :
    (s.journal n).hdr = s.hdr ∧ (s.journal n).ev.pf = s.ev.pf ∧ (s.journal n).ev.pfEnable = s.ev.pfEnable := by
  unfold State.journal
  dsimp only
  split <;> exact ⟨rfl, rfl, rfl⟩

/-! ### A register that sessions write (R333, R335) -/

/-- Word `o` of page `g` is `r`, a 32-bit register that is written and read, and that `own` may write. -/
structure FieldReg (g : Page) (o own : Nat) (r : Reg) : Prop where
  found : g.find o = some (r, 0, 0)
  acc : r.acc = .rw
  width : r.width = 4
  owner : r.owner = own
  entry : r.ownEntry = false
  present : ∀ s, r.absent 0 s = false

section
variable {s : State} {g : Page} {o own v : Nat} {e : WEnv} {r : Reg} (hreg : FieldReg g o own r)
include hreg

/-- A write by an owner that the register takes is journaled and made (R333, R335). -/
theorem write_field (hdenies : g.denies s e r = false) (hok : s.journalOk = true) (hcause : (r.set e 0 v s).cause = 0) :
    g.write s e o 4 v = ((r.set e 0 v (s.journal (writeNote s g e.who o (r.get 0 (r.set e 0 v s).s) (r.get 0 s)))).s, 0) := by
  have hchecked : g.checked s e r 0 4 v = r.set e 0 v s := by simp [Page.checked, hdenies, hreg.width]
  simp only [Page.write, hreg.found, hreg.present, hreg.acc, hreg.entry, hchecked, hcause, hok]
  rfl

/-- A write that is denied is rejected on the page, with OWNER_DENIED (R7, R333, R494). -/
theorem write_denied (hdenies : g.denies s e r = true) : g.write s e o 4 v =
    (s.rejectPf (4096 * g.num + o) errOwner Cause.ownerDenied e.who (s.pagePart g) (BitVec.ofNat 64 v) (BitVec.ofNat 64 (r.get 0 s)),
      Cause.ownerDenied) := by
  have hchecked : g.checked s e r 0 4 v = RegW.no s Cause.ownerDenied := by simp [Page.checked, hdenies]
  simp only [Page.write, hreg.found, hreg.present, hreg.acc, hchecked]
  rfl

theorem denies_owner (hfree : g.heldFrom s e.sid = false) (hpage : g.owner &&& ownerBit e.who.role ≠ 0)
    (howner : own &&& ownerBit e.who.role ≠ 0) : g.denies s e r = false := by
  simp [Page.denies, hfree, hreg.owner, hpage, howner]

end

/-! ### LOCK (R495) -/

/-- LOCK of the common header (Table 17.1). -/
def lockReg (g : Page) : Reg :=
  { off := 0x024, acc := if g.lockable then .rw else .ro, owner := g.owner, get := fun _ s => (g.hdr s).lockWord
    set := fun e _ v s => took (match e.sid with
      | some i => g.modHdr s fun h => h.writeLock i e.who (bitOf v 0)
      | none => s) }

theorem writeLock_free {h : PageHdr} (hnone : h.lock = none) (sid : Nat) (who : Writer) :
    (h.writeLock sid who true).lock = some (sid, who.role, who.cred) := by
  rw [PageHdr.writeLock, hnone]
  rfl

theorem lockReg_field {g : Page} (hlockable : g.lockable = true) : FieldReg g 0x024 g.owner (lockReg g) :=
  ⟨rfl, if_pos hlockable, rfl, rfl, rfl, fun _ => rfl⟩

/-- A rejected write leaves who holds the page, where the journal takes its entry (R337, R494). -/
theorem rejectPf_lock {s : State} (hok : s.journalOk = true) {off : Nat} (bit : Nat) (cause : W16) (who : Writer) (part : Option Nat)
    (value old : W64) : ((s.rejectPf off bit cause who part value old).pfHdr (off / 4096)).lock = (s.pfHdr (off / 4096)).lock := by
  have hnote (n : JrnNote) : (s.modPfHdr (off / 4096) fun h => h.reject bit who.role off cause).note n = State.journal _ n := if_pos hok
  rw [State.rejectPf, hnote, State.pfHdr, (journal_rings _ _).1, State.modPfHdr, tget_tmod_self]
  rfl

section
variable {s : State} {sid : Nat} {x : SpdmSession} {role : Role} {page : W32} {g : Page} (hup : SessionUp s sid x role)
  (hpage : s.pfPage (page.toNat / 4096) = some g) (hlow : page.toNat / 4096 < 2 ^ 19)
include hup hpage hlow

/-- A LOCK as a write of its register. -/
theorem exec_lock : exec (.lock sid page true) s = .next ((g.write s (sessionEnv x sid) 0x024 4 1).1.respond x.transport {
    cause := (g.write s (sessionEnv x sid) 0x024 4 1).2, count := if (g.write s (sessionEnv x sid) 0x024 4 1).2 = 0 then 1 else 0 }) := by
  have hplace : (4096 * (page.toNat / 4096) + 0x024) / 4096 = page.toNat / 4096 := by omega
  have hword : (4096 * (page.toNat / 4096) + 0x024) % 4096 = 0x024 := by omega
  have hwrite := writeOne_of (v := 1) hup (hplace.symm ▸ hpage) (by omega) (by omega) (by decide)
  rw [hword] at hwrite
  exact congrArg Host.Outcome.next hwrite

variable (hvf : g.vf = none) (hlockable : g.lockable = true)
include hvf hlockable

theorem lock_taken (howner : g.owner &&& ownerBit role.code ≠ 0) (hnone : (s.pfHdr g.num).lock = none) : Answers (.lock sid page true) s fun t =>
    (t.pfHdr g.num).lock = some (sid, role.code, x.cred) ∧ t.reply = { count := 1 } := by
  obtain ⟨-, hok, -, -, hrole⟩ := id hup
  have hfree : g.heldFrom s (some sid) = false := heldFrom_of_free hvf fun l hl => nomatch hnone.symm.trans hl
  have hbit : g.owner &&& ownerBit (sessionEnv x sid).who.role ≠ 0 := by
    subst hrole
    exact howner
  have hwrite := write_field (v := 1) (lockReg_field hlockable)
    (denies_owner (e := sessionEnv x sid) (lockReg_field hlockable) hfree hbit hbit) hok rfl
  refine ⟨_, exec_lock hup hpage hlow, ?_⟩
  rw [hwrite]
  refine ⟨?_, respond_reply ..⟩
  have hset (u : State) : (g.modHdr u fun h => h.writeLock sid x.writer (bitOf 1 0)).pfHdr g.num =
      (u.pfHdr g.num).writeLock sid x.writer true := by
    unfold Page.modHdr
    rw [hvf]
    dsimp only
    rw [State.pfHdr, State.modPfHdr, tget_tmod_self]
    rfl
  rw [State.pfHdr, (respond_rings _ _ _).1]
  refine (congrArg PageHdr.lock (hset _)).trans ?_
  rw [State.pfHdr, (journal_rings _ _).1]
  refine (writeLock_free hnone sid x.writer).trans ?_
  subst hrole
  rfl

theorem lock_denied {l : Nat × Nat × Byte} (hlock : (s.pfHdr g.num).lock = some l) (hother : l.1 ≠ sid) :
    Answers (.lock sid page true) s fun t => t.reply = { cause := Cause.ownerDenied } ∧ (t.pfHdr g.num).lock = some l := by
  obtain ⟨-, hok, -, -, -⟩ := id hup
  have hheld : g.heldFrom s (some sid) = true := by
    have hhdr : g.hdr s = s.pfHdr g.num := by
      unfold Page.hdr
      rw [hvf]
    simp [Page.heldFrom, hhdr, hlock, hlockable, hother]
  have hwrite := write_denied (v := 1) (e := sessionEnv x sid) (s := s) (lockReg_field hlockable)
    (by rw [Page.denies, sessionEnv, hheld]; rfl)
  refine ⟨_, exec_lock hup hpage hlow, ?_⟩
  rw [hwrite]
  refine ⟨respond_reply .., ?_⟩
  rw [State.pfHdr, (respond_rings _ _ _).1]
  have hkept := rejectPf_lock hok (off := 4096 * g.num + 0x024) errOwner Cause.ownerDenied (sessionEnv x sid).who (s.pagePart g) 1
    (BitVec.ofNat 64 ((lockReg g).get 0 s))
  rw [show (4096 * g.num + 0x024) / 4096 = g.num by omega] at hkept
  exact hkept.trans hlock

end

/-! ### The ring of a partition (R477, R478, R485) -/

section
variable {s : State} {p : PartId} (hopen : s.vfOpen p.val = true)
include hopen

theorem vfRw_of_open : s.vfRw p.val = true := by
  simp only [State.vfOpen, Bool.and_eq_true, beq_iff_eq] at hopen
  obtain ⟨hreach, hstate⟩ := hopen
  simp [State.vfRw, hreach, hstate]

theorem evtStart_of (hstopped : (s.part p.val).evt.state = .stopped) (hconfig : s.evtConfigOk p.val = true) :
    s.evtStart p.val = (s.modEvt p.val fun r => { r with state := .running }).flushPart p.val 64 := by
  simp [State.evtStart, hopen, hstopped, hconfig]

theorem evtStop_of : s.evtStop p.val = s.modEvt p.val fun r => { r with state := .stopped } := if_pos hopen

theorem evtHead_of (v : W32) : s.evtHead p.val v .ok = (s.modEvt p.val fun r => { r with head := v }).flushPart p.val 64 := by
  have hio (t : State) : (t.hostIo .ok != .ok) = false := by simp [State.hostIo]
  simp [State.evtHead, vfRw_of_open hopen, hio]

end

/-! ### The PF ring (R477, R486) -/

theorem writePfRec_pfRing {s t : State} {x : EvRec} (h : s.writePfRec x = some t) : pfRing t = pfRing s := by
  unfold State.writePfRec at h
  dsimp only at h
  split at h
  · cases h
  · obtain rfl := Option.some.inj h
    split
    · exact (msixPf_rings _ 0).2.1
    · rfl

theorem flushPf_pfRing (n : Nat) (s : State) : pfRing (s.flushPf n) = pfRing s := by
  induction n generalizing s with
  | zero => rfl
  | succ n ih =>
    unfold State.flushPf
    split
    · rfl
    · split
      · next t ht =>
        have hwritten := writePfRec_pfRing ht
        exact (ih t).trans hwritten
      · rfl

/-- PEV_CFG (Table 11.7). -/
def pevCfgReg : Reg :=
  { off := 0x108, acc := .rw, owner := ownO, get := fun _ s => s.ev.pf.cfg.toNat + 2 ^ 31 * b2n s.ev.pfEnable
    set := fun _ _ v s => s.pevConfig v }

/-- PEV_HEAD (Table 11.7). -/
def pevHeadReg : Reg :=
  { off := 0x10C, acc := .rw, owner := ownO, get := fun _ s => s.ev.pf.head.toNat
    set := fun e _ v s => took (s.pevHead (BitVec.ofNat 32 v) e.io) }

theorem pevCfg_field : FieldReg hstPage 0x108 ownO pevCfgReg := ⟨rfl, rfl, rfl, rfl, rfl, fun _ => rfl⟩
theorem pevHead_field : FieldReg hstPage 0x10C ownO pevHeadReg := ⟨rfl, rfl, rfl, rfl, rfl, fun _ => rfl⟩

theorem pevHead_of (s : State) (v : W32) : s.pevHead v .ok = (s.modEv fun e => { e with pf := { e.pf with head := v } }).flushPf 256 := by
  have hio (t : State) : (t.hostIo .ok != .ok) = false := by simp [State.hostIo]
  simp [State.pevHead, hio]

theorem pevConfig_enable {s : State} {v : Nat} (hoff : s.ev.pfEnable = false) (hen : bitOf v 31 = true) (hmin : 6 ≤ bitsOf v 0 5)
    (hmax : bitsOf v 0 5 ≤ 16) (hbase : s.ev.pf.base.toNat % 4096 = 0) : s.pevConfig v = { s := (s.modEv fun e => { e with
      pfEnable := true, pf := { e.pf with cfg := BitVec.ofNat 32 (bitsOf v 0 5 + 1024 * bitsOf v 10 2), state := .running } }).flushPf 256 } := by
  simp [State.pevConfig, hoff, hen, hbase, Nat.not_lt.mpr hmin, Nat.not_lt.mpr hmax]

theorem pevConfig_disable {s : State} {v : Nat} (hon : s.ev.pfEnable = true) (hen : bitOf v 31 = false)
    (hcfg : s.ev.pf.cfg.toNat = bitsOf v 0 5 + 1024 * bitsOf v 10 2) : s.pevConfig v = { s := (s.modEv fun e => { e with
      pfEnable := false, pf := { e.pf with cfg := BitVec.ofNat 32 (bitsOf v 0 5 + 1024 * bitsOf v 10 2), state := .stopped } }).flushPf 256 } := by
  simp [State.pevConfig, hon, hen, hcfg]

section
variable {s : State} {sid : Nat} {x : SpdmSession} (hup : SessionUp s sid x .operator) (hfree : PageFree s 4 sid)
include hup hfree

/-- A write of a register of the HST page that takes it, in an operator's session: it is made after its journal entry. -/
theorem hostPage_write {o v : Nat} {r : Reg} (hreg : FieldReg hstPage o ownO r) (ho : o < 4096) (halign : o % 4 = 0) (hv : v < 2 ^ 32)
    (hcause : (r.set (sessionEnv x sid) 0 v s).cause = 0) :
    ∃ n, s.writeOne sid (0x4000 + o) 4 v = ((r.set (sessionEnv x sid) 0 v (s.journal n)).s).respond x.transport { count := 1 } := by
  obtain ⟨hready, hok, -, -, hrole⟩ := id hup
  have hplace : (0x4000 + o) / 4096 = 4 := by omega
  have hpage : s.pfPage ((0x4000 + o) / 4096) = some hstPage := by
    rw [hplace, State.pfPage, hready]
    rfl
  have hmay : hstPage.owner &&& ownerBit (sessionEnv x sid).who.role ≠ 0 ∧ ownO &&& ownerBit (sessionEnv x sid).who.role ≠ 0 := by
    simp only [sessionEnv, SpdmSession.writer, hrole]
    decide
  have hwrite := write_field hreg
    (denies_owner (e := sessionEnv x sid) hreg (heldFrom_of_free (g := hstPage) rfl hfree) hmay.1 hmay.2) hok hcause
  refine ⟨writeNote s hstPage (sessionEnv x sid).who o (r.get 0 (r.set (sessionEnv x sid) 0 v s).s) (r.get 0 s), (writeOne_of hup hpage (by omega) (by omega) hv).trans ?_⟩
  rw [show (0x4000 + o) % 4096 = o by omega, hwrite]
  rfl

/-- Such a write of a register that leaves the ring as `u` has it, its records flushed. -/
theorem ringWrite_answers {o v : Nat} {r : Reg} (hreg : FieldReg hstPage o ownO r) (ho : o < 4096) (halign : o % 4 = 0) (hv : v < 2 ^ 32)
    (f : Events → Events) (hset : ∀ u : State, u.ev.pf = s.ev.pf → u.ev.pfEnable = s.ev.pfEnable →
      r.set (sessionEnv x sid) 0 v u = { s := (u.modEv f).flushPf 256 }) {i : Instr} (hi : exec i s = .next (s.writeOne sid (0x4000 + o) 4 v)) :
    ∃ n, Answers i s fun t => pfRing t = pfRing ((s.journal n).modEv f) ∧ t.reply = { count := 1 } := by
  obtain ⟨n, hwrite⟩ := hostPage_write hup hfree hreg ho halign hv (congrArg RegW.cause (hset s rfl rfl))
  obtain ⟨-, hpf, hen⟩ := journal_rings s n
  refine ⟨n, _, hi.trans (congrArg Host.Outcome.next hwrite), ?_, respond_reply ..⟩
  rw [(respond_rings _ _ _).2, hset _ hpf hen]
  exact flushPf_pfRing 256 _

theorem pevHead_answers (v : W32) : Answers (.evtHead none sid v .ok) s fun t => t.ev.pf.head = v ∧ t.reply = { count := 1 } := by
  have hset (u : State) : pevHeadReg.set (sessionEnv x sid) 0 v.toNat u =
      { s := (u.modEv fun e => { e with pf := { e.pf with head := v } }).flushPf 256 } := by
    rw [← pevHead_of]
    exact congrArg (fun w => took (u.pevHead w .ok)) (BitVec.ofNat_toNat 32 v)
  obtain ⟨n, t, ht, hring, hreply⟩ := ringWrite_answers hup hfree pevHead_field (by decide) (by decide) v.isLt _ (fun u _ _ => hset u)
    (i := .evtHead none sid v .ok) rfl
  exact ⟨t, ht, congrArg Prod.fst hring, hreply⟩

theorem pevEnable_answers (v : W32) (hoff : s.ev.pfEnable = false) (hen : bitOf v.toNat 31 = true) (hmin : 6 ≤ bitsOf v.toNat 0 5)
    (hmax : bitsOf v.toNat 0 5 ≤ 16) (hbase : s.ev.pf.base.toNat % 4096 = 0) : Answers (.pevEnable sid v) s fun t =>
      t.ev.pf.state = .running ∧ t.ev.pfEnable = true ∧ t.reply = { count := 1 } := by
  obtain ⟨n, t, ht, hring, hreply⟩ := ringWrite_answers hup hfree pevCfg_field (by decide) (by decide) v.isLt _
    (fun u hpf hpfEn => pevConfig_enable (hpfEn.trans hoff) hen hmin hmax (hpf ▸ hbase)) (i := .pevEnable sid v) rfl
  exact ⟨t, ht, congrArg (fun x => x.2.1) hring, congrArg (fun x => x.2.2) hring, hreply⟩

theorem pevDisable_answers (v : W32) (hon : s.ev.pfEnable = true) (hen : bitOf v.toNat 31 = false)
    (hcfg : s.ev.pf.cfg.toNat = bitsOf v.toNat 0 5 + 1024 * bitsOf v.toNat 10 2) : Answers (.pevEnable sid v) s fun t =>
      t.ev.pf.state = .stopped ∧ t.ev.pfEnable = false ∧ t.reply = { count := 1 } := by
  obtain ⟨n, t, ht, hring, hreply⟩ := ringWrite_answers hup hfree pevCfg_field (by decide) (by decide) v.isLt _
    (fun u hpf hpfEn => pevConfig_disable (hpfEn.trans hon) hen (hpf ▸ hcfg)) (i := .pevEnable sid v) rfl
  exact ⟨t, ht, congrArg (fun x => x.2.1) hring, congrArg (fun x => x.2.2) hring, hreply⟩

end

/-- Settles O43: LOCK by its register, the rows of a partition's ring, and those of the PF ring by the two registers they write. -/
theorem locksAndEvents : Obligations.LocksAndEvents := by
  refine ⟨fun sid s x role page g hup hpage hvf hnum howner hlockable hlow hnone => ⟨?_, fun l hother h hh u hu => ?_⟩,
    fun p s hopen hfree => ?_, fun sid s x hup hfree => ?_⟩
  · exact lock_taken hup hpage hlow hvf hlockable howner hnone
  · subst hu hh
    exact lock_denied (s := { s with hdr := tmod {} s.hdr g.num fun y => { y with lock := some l } }) hup hpage hlow hvf hlockable
      (by rw [State.pfHdr, tget_tmod_self]) hother
  · have hopen' := (mmio_vfOpen s p.val).trans hopen
    refine ⟨fun hstopped hconfig => ?_, ?_, fun sid v => ?_⟩
    · exact congrArg Host.Outcome.next ((postCmd_of hfree _).trans (evtStart_of hopen' hstopped hconfig))
    · exact congrArg Host.Outcome.next ((postCmd_of hfree _).trans (evtStop_of hopen'))
    · exact congrArg Host.Outcome.next ((postCmd_of hfree _).trans (evtHead_of hopen' v))
  · exact ⟨pevHead_answers hup hfree, pevEnable_answers hup hfree, pevDisable_answers hup hfree⟩

end Sys2Proof.LocksAndRings

/-! PROOF. The NET commands (chapter 12): O49. -/

namespace Sys2Proof.NetworkPorts
open Sys2Proof Sys2Proof.Machine
open Sys2Proof.MatrixArray (cmd_of_partTold outcome)
open Sys2Proof.RecurrentStreams (partTold_countO)

/-! ### What counting an object's lines leaves of the network ports -/

section
variable {p : Nat} {s t : State} (h : PartTold p s t)
include h

theorem net_of_partTold : (t.part p).net = (s.part p).net := by rw [h.mine]

theorem vport_of_partTold (v : Nat) : t.vport p v = s.vport p v := by rw [State.vport, State.vport, net_of_partTold h]

theorem vportOk_of_partTold (v n : Nat) : t.vportOk p v n = s.vportOk p v n := by rw [State.vportOk, State.vportOk, vport_of_partTold h]

theorem port_of_partTold (n : Nat) : t.port n = s.port n := by
  rw [State.port, h.rest]
  rfl

theorem binding_of_partTold (u n : Nat) : t.binding p u n = s.binding p u n := by rw [State.binding, State.binding, net_of_partTold h]

end

theorem finish_net (s : State) (p id : Nat) (st : Status) (cause : W16) (detail : Nat) (part : Bool) :
    ((s.finish p id st cause detail part).part p).net = (s.part p).net := by
  simp [State.finish, State.modCmd]

/-- A command that ends without a cause is DONE. -/
theorem done_ends {s : State} {p id : Nat} {c : Cmd} (h : s.cmd? p id = some c) (detail : Nat) :
    ((s.done p id detail).cmd? p id).map outcome = some (.ended, .done, 0#16) := by
  rw [State.done, State.finish_cmd, h]
  rfl

/-! ### SEND (R386, R387, R390, R391) -/

theorem exec_send (p : PartId) (id : Nat) (s : State) : exec (.send p id []) s = .next (s.send p.val id) :=
  congrArg (fun t : State => Host.Outcome.next (t.send p.val id)) (State.eccRead_nil _ _ _ _ _)

section
variable {p id : Nat} {s : State} {c : Cmd} (hstart : Started s p id 4 0x10 c) (hgo : s.stoppedO p (c.ref 48) (c.fld 44 4) = false)
  (hlink : (s.port c.netPort).link = .up) (hport : s.vportOk p c.vp c.netPort = true)
include hstart hgo hlink hport

theorem send_raw (hid : c.id = id) (hraw : bitOf (c.fld 35 1) 0 = true) (hread : (s.peekO p (c.ref 48) (c.fld 44 4)).fault = none) :
    s.send p id =
      let v := s.vport p c.vp
      let rd := s.peekO p (c.ref 48) (c.fld 44 4)
      let u := s.countO p (c.ref 48) (c.fld 44 4)
      if v.mayRaw rd.bytes
        then (u.useFree.transmit p (c.txFrame (v.frame u.free (slice rd.bytes 0 6) (beAt rd.bytes 12) (rd.bytes.drop 14)))).done p id 1
        else (u.countVport p c.vp 3).finish p id .done Cause.spoof := by
  have hout : s.sendOut p c [] = s.sendRaw p c (s.vport p c.vp) := by simp [State.sendOut, hlink, hport, hraw]
  rw [State.send, onStarted_of hstart, hgo, if_neg Bool.false_ne_true, if_pos hraw, hout, State.sendRaw, hread, hid]
  dsimp only
  cases (s.vport p c.vp).mayRaw (s.peekO p (c.ref 48) (c.fld 44 4)).bytes <;> rfl

theorem send_udp (hudp : bitOf (c.fld 35 1) 0 = false) (hread : (s.peekO p (c.ref 56) 32).fault = none)
    (hpeer : peerOk (s.peekO p (c.ref 56) 32).bytes (bitOf (c.fld 35 1) 1) = true)
    (hsource : noAddr ((s.vport p c.vp).source (bitOf (c.fld 35 1) 1) (c.fld 37 1)) = false) :
    s.send p id =
      let v := s.vport p c.vp
      let six := bitOf (c.fld 35 1) 1
      (s.countO p (c.ref 56) 32).sendFrom p c v
        (peerOf (s.peekO p (c.ref 56) 32).bytes six (bitsOf (c.fld 35 1) 2 6) (c.fld 38 2) (c.fld 40 2) (v.source six (c.fld 37 1)))
        (ceilDiv (c.fld 44 4) (c.fld 42 2)) 0 0 := by
  have hcount := partTold_countO s p (c.ref 56) 32
  rw [State.send, onStarted_of hstart, hgo, if_neg Bool.false_ne_true, hudp, if_neg Bool.false_ne_true]
  dsimp only
  rw [hread, hpeer]
  simp [State.sendOut, port_of_partTold hcount, vportOk_of_partTold hcount, vport_of_partTold hcount, hlink, hport, hudp, hsource]

end

/-! ### RECV_POST and RECV_IDLE (R388, R389) -/

theorem recvPost_of {p id : Nat} {s : State} {c : Cmd} (hstart : Started s p id 4 0x11 c) (hport : s.vportOk p c.vp c.netPort = true)
    (hnew : ∀ r ∈ (s.part p).net.recvs, r.id ≠ id) : s.recvPost p id = s.modNet p fun y =>
      { y with recvs := y.recvs ++ [{ id := id, order := y.recvClock }], recvClock := y.recvClock + 1 } := by
  have hnone : (s.part p).net.recvs.any (·.id == id) = false := List.any_eq_false.mpr fun r hr => by simpa using hnew r hr
  rw [State.recvPost, onStarted_of hstart, hnone, hport]
  rfl

theorem recvIdle_of {p id : Nat} {s : State} {r : Recv} (hfound : (s.part p).net.recvs.find? (·.id == id) = some r) (hfilled : r.filled ≠ 0) :
    s.recvIdle p id =
      (s.modNet p fun y => { y with recvs := y.recvs.filter (·.id != r.id) }).finishWrites p r.id r.refused r.filled := by
  rw [State.recvIdle, hfound]
  exact if_neg hfilled

/-! ### RTP_BIND (R392) -/

theorem exec_rtpBind (p : PartId) (id : Nat) (s : State) : exec (.rtpBind p id []) s = .next (s.rtpBind p.val id) :=
  congrArg (fun t : State => Host.Outcome.next (t.rtpBind p.val id)) (State.eccRead_nil _ _ _ _ _)

/-- The binding that an RTP_BIND `c` asks for, with the bytes of its peer entry (Table 12.5). -/
def bindingOf (c : Cmd) (peer : List Byte) : Binding := {
  unit := c.rtpSession.1, session := c.rtpSession.2, ctx := c.ctx, vport := c.vp, pt := BitVec.ofNat 8 (c.fld 38 1)
  ipv6 := bitOf (c.fld 39 1) 0, dscp := BitVec.ofNat 6 (bitsOf (c.fld 39 1) 2 6), ssrc := word32 c.desc 40
  seqNo := BitVec.ofNat 16 (c.fld 44 2), srcPort := BitVec.ofNat 16 (c.fld 46 2), tsBase := word32 c.desc 48, tsStep := word32 c.desc 52
  frames := 0, dstMac := slice peer 0 6, dstIp := slice peer 8 (if bitOf (c.fld 39 1) 0 then 16 else 4)
  dstPort := BitVec.ofNat 16 (fieldAt peer 24 2) }

section
variable {p id : Nat} {s : State} {c : Cmd} (hstart : Started s p id 4 0x12 c)
include hstart

theorem rtpBind_of {x : Session} (hop : c.fld 35 1 = 0) (hfree : s.binding p c.rtpSession.1 c.rtpSession.2 = none)
    (hx : s.session p c.rtpSession.1 c.rtpSession.2 = x) (hopen : x.state = .open') (hencode : x.encode = true) (hctx : x.ctx = c.ctx)
    (hcodec : x.codec ≠ 2) (hport : s.vportOk p c.vp c.netPort = true) (hread : (s.peekO p (c.ref 56) 32).fault = none)
    (hpeer : peerOk (s.peekO p (c.ref 56) 32).bytes (bitOf (c.fld 39 1) 0) = true) : s.rtpBind p id =
      (((s.countO p (c.ref 56) 32).modNet p fun y =>
        { y with binds := y.binds ++ [bindingOf c (s.peekO p (c.ref 56) 32).bytes] }).done p id) := by
  rw [State.rtpBind, onStarted_of hstart]
  have hcodec' : ¬ x.codec = 2#2 := hcodec
  simp [hop, hfree, hx, hopen, hencode, hctx, hcodec', hport, hread, hpeer, bindingOf]

theorem rtpUnbind_of (hop : c.fld 35 1 = 1) (hbound : s.binding p c.rtpSession.1 c.rtpSession.2 ≠ none) :
    s.rtpUnbind p id = (s.unbindRtp p c.rtpSession.1 c.rtpSession.2).done p id := by
  rw [State.rtpUnbind, onStarted_of hstart]
  simp [hop, hbound]

end

theorem binding_append {s : State} {p : Nat} {b : Binding} (h : s.binding p b.unit b.session = none) :
    (s.modNet p fun y => { y with binds := y.binds ++ [b] }).binding p b.unit b.session = some b := by
  unfold State.binding at h ⊢
  rw [State.modNet_part_self]
  simp [List.find?_append, h]

theorem binding_unbindRtp (s : State) (p u n : Nat) : (s.unbindRtp p u n).binding p u n = none := by
  unfold State.binding State.unbindRtp
  rw [State.modNet_part_self]
  refine List.find?_eq_none.mpr fun b hb => ?_
  have hother := (List.mem_filter.mp hb).2
  simpa [imp_iff_not_or] using hother

theorem binding_done (s : State) (p id detail u n : Nat) : (s.done p id detail).binding p u n = s.binding p u n := by
  rw [State.binding, State.done, finish_net]
  rfl

theorem modNet_cmd (s : State) (p n : Nat) (f : NetPart → NetPart) : (s.modNet p f).cmd? p n = s.cmd? p n := by
  rw [State.cmd?, State.modNet_part_self]
  rfl

/-- Settles O49: each command by its row at its start. -/
theorem netCommands : Obligations.NetCommands := by
  refine fun p id s c => ⟨fun hstart hid hgo hlink hport => ⟨fun hraw hread => ?_, fun hudp hread hpeer hsource => ?_⟩,
    fun hstart hport hnew => congrArg Host.Outcome.next (recvPost_of hstart hport hnew),
    fun r hfound hfilled => congrArg Host.Outcome.next (recvIdle_of hfound hfilled),
    fun hstart => ⟨fun hop hfree hopen hencode hctx hcodec hport hread hpeer => ?_, fun hop hbound => ?_⟩⟩
  · exact (exec_send p id s).trans (congrArg Host.Outcome.next (send_raw hstart hgo hlink hport hid hraw hread))
  · exact (exec_send p id s).trans (congrArg Host.Outcome.next (send_udp hstart hgo hlink hport hudp hread hpeer hsource))
  · have hcount := partTold_countO s p.val (c.ref 56) 32
    have hcmd := (modNet_cmd (s.countO p.val (c.ref 56) 32) p.val id fun y =>
      { y with binds := y.binds ++ [bindingOf c (s.peekO p.val (c.ref 56) 32).bytes] }).trans ((cmd_of_partTold hcount id).trans hstart.1)
    have hbinding := binding_append (s := s.countO p.val (c.ref 56) 32) (p := p.val) (b := bindingOf c (s.peekO p.val (c.ref 56) 32).bytes)
      ((binding_of_partTold hcount _ _).trans hfree)
    refine ⟨_, (exec_rtpBind p id s).trans (congrArg Host.Outcome.next
      (rtpBind_of hstart hop hfree rfl hopen hencode hctx hcodec hport hread hpeer)), done_ends hcmd 0, ?_⟩
    rw [binding_done]
    refine (congrArg (Option.map _) hbinding).trans ?_
    simp [bindingOf]
  · refine ⟨_, congrArg Host.Outcome.next (rtpUnbind_of hstart hop hbound), done_ends ((modNet_cmd ..).trans hstart.1) 0, ?_⟩
    rw [binding_done, binding_unbindRtp]

end Sys2Proof.NetworkPorts
